-- ==== Sys2Proof/Word.lean ====
section
/-! DEFINITION. The word types of the MY9 (R6, R7), their plainest arithmetic, and the sparse table
type in which the state keeps what it has many of. -/

namespace Sys2Proof

abbrev Byte := BitVec 8
abbrev W32 := BitVec 32
abbrev W64 := BitVec 64
/-- A v register: 64 lanes of 32 bits, lane `i` in bits [32i+31:32i] (R39). -/
abbrev VReg := BitVec 2048

/-- A sparse table by natural key, kept in rising key order. -/
structure SMap (α : Type) where
  rows : List (Nat × α)
deriving DecidableEq, Repr

namespace SMap

variable {α : Type}

def empty : SMap α := ⟨[]⟩

def lookupRows : List (Nat × α) → Nat → Option α
  | [], _ => none
  | (k, v) :: t, i => if k = i then some v else lookupRows t i

def insertRows : List (Nat × α) → Nat → α → List (Nat × α)
  | [], i, x => [(i, x)]
  | (k, v) :: t, i, x =>
    if i < k then (i, x) :: (k, v) :: t
    else if i = k then (i, x) :: t
    else (k, v) :: insertRows t i x

def eraseRows : List (Nat × α) → Nat → List (Nat × α)
  | [], _ => []
  | (k, v) :: t, i => if k = i then eraseRows t i else (k, v) :: eraseRows t i

def get? (m : SMap α) (i : Nat) : Option α := lookupRows m.rows i
def getD (m : SMap α) (i : Nat) (d : α) : α := (m.get? i).getD d
def set (m : SMap α) (i : Nat) (x : α) : SMap α := ⟨insertRows m.rows i x⟩
def erase (m : SMap α) (i : Nat) : SMap α := ⟨eraseRows m.rows i⟩
def has (m : SMap α) (i : Nat) : Bool := (m.get? i).isSome
def keys (m : SMap α) : List Nat := m.rows.map (·.1)
def vals (m : SMap α) : List α := m.rows.map (·.2)
/-- Every row replaced by `f` of its key and value. -/
def mapKV (m : SMap α) (f : Nat → α → α) : SMap α := ⟨m.rows.map fun kv => (kv.1, f kv.1 kv.2)⟩
/-- The rows whose key and value satisfy `p`. -/
def keep (m : SMap α) (p : Nat → α → Bool) : SMap α := ⟨m.rows.filter fun kv => p kv.1 kv.2⟩

end SMap

/-- Bits [hi:lo] of a number. -/
def bitsOf (x hi lo : Nat) : Nat := x / 2 ^ lo % 2 ^ (hi + 1 - lo)

/-- A number with bits [hi:lo] replaced by the low bits of `v`. -/
def setBitsOf (x hi lo v : Nat) : Nat :=
  x % 2 ^ lo + v % 2 ^ (hi + 1 - lo) * 2 ^ lo + x / 2 ^ (hi + 1) * 2 ^ (hi + 1)

/-- Saturating counter of `w` bits (the registers' "saturating" fields). -/
def satAdd (w x n : Nat) : Nat := min (x + n) (2 ^ w - 1)

def ceilDiv (a b : Nat) : Nat := (a + b - 1) / b

/-- Little-endian value of a byte list. -/
def leVal : List Byte → Nat
  | [] => 0
  | b :: t => b.toNat + 256 * leVal t

/-- The first `n` little-endian bytes of a number. -/
def leBytes : Nat → Nat → List Byte
  | 0, _ => []
  | n + 1, x => BitVec.ofNat 8 x :: leBytes n (x / 256)

/-- The lanes of a v register, lane 0 first. -/
def lanes (v : VReg) : List W32 := (List.range 64).map fun i => v.extractLsb' (32 * i) 32

/-- A v register from its lanes, lane 0 first. -/
def ofLanes (l : List W32) : VReg :=
  BitVec.ofNat 2048 (l.foldr (fun x acc => x.toNat + 2 ^ 32 * acc) 0)

def lane (v : VReg) (i : Nat) : W32 := v.extractLsb' (32 * i) 32

/-- Every lane holding one value. -/
def splat (x : W32) : VReg := ofLanes (List.replicate 64 x)

end Sys2Proof
end

