-- ==== Sys2Proof/TileOp.lean ====
section
/-! DEFINITION. The operations of a tile bundle (R154 to R228) and their operands. A bundle's slots, the trapped operation that
fret.replay issues again and the operations in flight are all values of `TileOp`. -/

namespace Sys2Proof

/-- The four slots of a bundle (R154), with the code of TILE.TRAP.slot. -/
inductive Slot where
  | d | m | v | s
deriving DecidableEq, Repr

/-- Architectural registers of a tile (R39). -/
inductive RegId where
  | s (n : BitVec 5)
  | v (n : BitVec 5)
  | p (n : BitVec 3)
  | a (n : BitVec 4)
  | lc (n : BitVec 2)
deriving DecidableEq, Repr

/-- Three-register scalar operations, opcodes 0x01 to 0x11 in this order (R162). -/
inductive AluOp where
  | add | sub | and | or | xor | sll | srl | sra | slt | sltu | min | max | minu | maxu | mul | mulh | mulhu
deriving DecidableEq, Repr

/-- Immediate scalar operations, opcodes 0x12 to 0x1A in this order (R162). -/
inductive AluiOp where
  | addi | andi | ori | xori | slli | srli | srai | slti | sltiu
deriving DecidableEq, Repr

/-- Conditional branches, opcodes 0x21 to 0x26 in this order (R162). -/
inductive BrCond where
  | eq | ne | lt | ge | ltu | geu
deriving DecidableEq, Repr

/-- Lane-wise arithmetic of R173. -/
inductive VArith where
  | add | sub | mul | fma | fms | fnma | max | min | abs | neg
  | iadd | isub | imul | imulh | iand | ior | ixor | ishl | ishr | isar | imax | imin | imac
deriving DecidableEq, Repr

/-- Transcendental functions of R178. -/
inductive VFun where
  | exp2 | log2 | rcp | rsqrt
deriving DecidableEq, Repr

/-- Reductions and scans of R180. -/
inductive VRed where
  | rsum | rmax | rmin | irsum | scan | iscan
deriving DecidableEq, Repr

/-- Lane operations of R183 in format VR. -/
inductive VLane3 where
  | perm | sel | mov
deriving DecidableEq, Repr

/-- Lane operations of R183 in format VI with a vector source. -/
inductive VLaneI where
  | rot | bfly | bcastl
deriving DecidableEq, Repr

/-- Two-source predicate operations of R184. -/
inductive VPredOp where
  | pand | por | pxor | pandn
deriving DecidableEq, Repr

/-- The pg, z and t fields of a V-slot operation (R158, R171, R172). -/
structure VCtl where
  pg : BitVec 3
  z : Bool
  t : Bool
deriving DecidableEq, Repr

/-- One slot operation of a tile. `raw` is a slot word that R155 makes reserved. -/
inductive TileOp where
  | nop
  | alu (op : AluOp) (sd sa sb : BitVec 5)
  | alui (op : AluiOp) (sd sa : BitVec 5) (imm : BitVec 15)
  | li (sd : BitVec 5) (imm : BitVec 20)
  | insh (sd : BitVec 5) (h : BitVec 2) (imm : BitVec 16)
  | aSet (ad : BitVec 4) (sa : BitVec 5)
  | aGet (sd : BitVec 5) (aa : BitVec 4)
  | aAddi (ad aa : BitVec 4) (imm : BitVec 15)
  | aAdd (ad aa : BitVec 4) (sb : BitVec 5)
  | br (c : BrCond) (sa sb : BitVec 5) (off : BitVec 15)
  | brP (any : Bool) (pa : BitVec 3) (off : BitVec 15)
  | jmp (off : BitVec 25)
  | jal (sd : BitVec 5) (off : BitVec 20)
  | jr (sa : BitVec 5)
  | loopSet (lc : BitVec 2) (sa : BitVec 5)
  | loopSeti (lc : BitVec 2) (imm : BitVec 23)
  | loopBr (lc : BitVec 2) (off : BitVec 23)
  | loopGet (sd : BitVec 5) (lc : BitVec 2)
  | rdsr (sd : BitVec 5) (sr : BitVec 6)
  | stepWait (rev : Bool)
  | fret
  | fretReplay
  | vArith (op : VArith) (vd va vb vc : BitVec 5) (c : VCtl)
  | vCmp (int : Bool) (pd : BitVec 3) (va vb : BitVec 5) (cnd : BitVec 3) (c : VCtl)
  | vCvt (vd va kind : BitVec 5) (pg : BitVec 3) (z : Bool)
  | vCvtMx (vd va : BitVec 5) (fmt : BitVec 3) (pg : BitVec 3) (z : Bool)
  | vCvtMxs (vd va : BitVec 5) (fmt : BitVec 3) (sc : BitVec 5) (pg : BitVec 3) (z : Bool)
  | vCvtMxf (vd va : BitVec 5) (fmt : BitVec 3) (pg : BitVec 3) (z : Bool)
  | vFun (f : VFun) (vd va : BitVec 5) (c : VCtl)
  | vOsm (vd va vb vc : BitVec 5) (pg : BitVec 3) (z ml : Bool)
  | vRed (op : VRed) (vd va : BitVec 5) (c : VCtl)
  | vTreeInit (aa : BitVec 4)
  | vTreePush (va : BitVec 5) (aa : BitVec 4) (q : BitVec 4) (i : Bool)
  | vTreeFin (vd : BitVec 5) (aa : BitVec 4) (i : Bool)
  | vLane3 (op : VLane3) (vd va vb : BitVec 5) (c : VCtl)
  | vLaneI (op : VLaneI) (vd va : BitVec 5) (n : BitVec 6) (c : VCtl)
  | vBcast (vd sa : BitVec 5) (c : VCtl)
  | vIns (vd sa : BitVec 5) (n : BitVec 6) (c : VCtl)
  | vExt (sd va : BitVec 5) (n : BitVec 6) (c : VCtl)
  | vIota (vd : BitVec 5) (n : BitVec 6) (c : VCtl)
  | vPred (op : VPredOp) (pd pa pb : BitVec 3)
  | vPs2p (pd : BitVec 3) (sa : BitVec 5)
  | vPp2s (sd : BitVec 5) (pa : BitVec 3)
  | vPcnt (sd : BitVec 5) (pa : BitVec 3)
  | vRng (u : Bool) (vd sa sb : BitVec 5) (w : BitVec 2) (pg : BitVec 3) (z : Bool)
  | mxaWload (aa : BitVec 4) (wfmt : BitVec 3) (c : Bool)
  | mxaPass (ai as : BitVec 4) (sr : BitVec 5) (ifmt : BitVec 3) (init c cs : Bool)
  | accMv (vd sr : BitVec 5)
  | accSt (transposed : Bool) (aa : BitVec 4) (sr : BitVec 5) (pub : Bool)
  | accZero (sr : BitVec 5)
  | lsLd (sd : BitVec 5) (aa : BitVec 4) (off : BitVec 15) (c : Bool)
  | lsSt (sa : BitVec 5) (aa : BitVec 4) (off : BitVec 15) (pub : Bool)
  | lsVld (vd : BitVec 5) (aa : BitVec 4) (off : BitVec 15) (c : Bool)
  | lsVst (va : BitVec 5) (aa : BitVec 4) (off : BitVec 15) (pub : Bool)
  | lsClaim (aa : BitVec 4)
  | lsPublish (aa : BitVec 4)
  | lsRelease (aa : BitVec 4)
  | lsZero (aa : BitVec 4) (pub : Bool)
  | memLd (sd : BitVec 5) (aa : BitVec 4) (off : BitVec 14) (hint : BitVec 2)
  | memSt (sa : BitVec 5) (aa : BitVec 4) (off : BitVec 14) (hint : BitVec 2)
  | memPf (aa : BitVec 4) (off : BitVec 14) (hint : BitVec 2)
  | memDrop (aa : BitVec 4) (off : BitVec 14) (hint : BitVec 2)
  | memFence (rel d : Bool)
  | atom (sd sb sc : BitVec 5) (aa : BitVec 4) (w : Bool) (op : BitVec 4)
  | kvWalk (ad aa : BitVec 4) (sb sd : BitVec 5)
  | kvAppend (aa : BitVec 4) (sb : BitVec 5)
  | dmaPost (q : BitVec 3) (aa : BitVec 4) (lo : Bool)
  | dmaStat (sd : BitVec 5) (q : BitVec 3)
  | dmaCancel (q : BitVec 3)
  | sySignal (sa sb : BitVec 5) (rel : Bool)
  | syWait (sa sb : BitVec 5) (acq : Bool)
  | syArm (sa sb : BitVec 5)
  | syRead (sd sa : BitVec 5)
  | raw (slot : Slot) (w : W32)
deriving DecidableEq, Repr

end Sys2Proof
end

