-- ==== Sys2Proof/Operand.lean ====
section
/-! DEFINITION. Operand types of the commands. -/

namespace Sys2Proof

/-- Logical tile ID (R25): bits [10:8] are the partition. -/
abbrev TileId := Fin 2048
/-- Physical partition. -/
abbrev PartId := Fin 8
/-- Context index (R452). -/
abbrev CtxId := Fin 512
/-- Capacity stack. -/
abbrev StackId := Fin 32
/-- Fabric port. -/
abbrev PortId := Fin 24

/-- A data-movement queue: queue `q` of a tile, or a bulk queue of a partition (R350). -/
inductive QId where
  | tile (t : TileId) (q : Fin 8)
  | bulk (p : PartId) (q : Fin 80)
deriving DecidableEq, Repr

/-- How an operation in flight ends: cleanly, after `n` + 1 corrected errors of the local store or of the accumulator store, or
with the fault the tile's checkers found, `n` corrected errors beside it (R61, R98, R161, R315). `accUe` names the row and column
of the uncorrectable entry; `residue` the kind and lane that VXU.RESIDUE shows, kind 0 for a lockstep disagreement; `regUe` is a
source register that reads uncorrectable. -/
inductive OpFault where
  | ok
  | corrected (acc : Bool) (n : BitVec 14)
  | lsUe (addr : BitVec 44) (n : BitVec 14)
  | accUe (row : BitVec 9) (col : BitVec 6) (n : BitVec 14)
  | residue (kind : BitVec 2) (lane : BitVec 6)
  | regUe
deriving DecidableEq, Repr

/-- What the checkers report of a pass: its verdict, or a corrected or uncorrectable read before it (R98, R99, R112, R113). -/
inductive Verdict where
  | good
  | mismatch (vec : BitVec 8) (col : BitVec 6)
  | corrected (acc : Bool)
  | lsUe (addr : BitVec 44)
  | accUe (row : BitVec 9) (col : BitVec 6)
deriving DecidableEq, Repr

/-- What a line read meets beyond the line's recorded state. `symbols` names symbols of the code word of R304 that reach the
decoder changed, m0 to m70 by 0 to 70 and k0 to k7 by 71 to 78, each with the bits that differ; a line of another address
differs in m66 to m70; `stored` names bytes of the stored line of R303, before its decryption. The codes of R315 may find in a local
store `n` + 1 corrected words, or an uncorrectable word with `n` corrected ones beside it; in the shared cache a corrected word, an
uncorrectable word, an uncorrectable word of the dirty line that the access puts out (`victimUe`), or the tag of a way of the line's
set; or the region's entry of the generation table. The parity of the walker's cached entry may fail, so that the entry is read again
(R211), or a context tag reach a base die outside its logical partition (R472).
[DESIGN CHOICE, log 24 and 102] -/
inductive LineFault where
  | none
  | symbols (errs : List (Fin 79 × Byte))
  | stored (errs : List (Fin 74 × Byte))
  | lsCorrected (n : Fin 8)
  | lsUe (n : Fin 8)
  | cacheCorrected
  | cacheUe
  | victimUe
  | cacheTag (way : Fin 16)
  | genTable
  | refetch
  | foreignTag
deriving DecidableEq, Repr

/-- Whether further slots of the bundle follow a tree operation, and whether the count word that it reads at its issue is
uncorrectable (R181). -/
structure TreeRead where
  more : Bool
  countUe : Bool
deriving DecidableEq, Repr

/-- What R65 needs to know of the cycle in which the first deferred cause of a drain was raised: how many of the later deferred
causes, in the order in which they reached the tile, fell in it, and the codes, bit code - 1, of the precise causes that the
bundle at issue raised in it. [DESIGN CHOICE, log 119] -/
structure TrapTaken where
  tile : TileId
  same : BitVec 8
  precise : BitVec 7
deriving DecidableEq, Repr

/-- The tile whose save is complete, with the words of its local store that the save read corrected and uncorrectable: their
number, and their addresses (R72, R315). [DESIGN CHOICE, log 127] -/
structure SaveEnd where
  tile : TileId
  corrected : BitVec 19
  bad : List (BitVec 44)
deriving DecidableEq, Repr

/-- How a fetched instruction line arrives (R51). -/
inductive FetchFault where
  | ok
  | parity
  | bad
deriving DecidableEq, Repr

/-- A fabric packet (R417): header fields and payload. `len` is the length field: payload bytes minus one, and for a RD the
bytes it reads minus one. -/
structure Packet where
  dst : BitVec 12
  src : BitVec 12
  typ : BitVec 8
  ctx : BitVec 16
  seq : BitVec 16
  addr : BitVec 44
  len : BitVec 12
  op : BitVec 8
  operand : BitVec 64
  payload : List Byte
deriving DecidableEq, Repr

/-- A fabric flit (R415): its first 8 bytes, the 244 bytes of packet header and payload, and its CRC-32, as they arrive, with how many of
its codewords the FEC corrected and how many it could not correct (R412). -/
structure Flit where
  word : BitVec 64
  body : List Byte
  crc : BitVec 32
  corrected : BitVec 4
  uncorrected : BitVec 4
deriving DecidableEq, Repr

/-- Path of a management command (R559). -/
inductive Path where
  | host
  | tray
deriving DecidableEq, Repr

/-- Scope of a management command (R560). -/
structure Scope where
  kind : BitVec 8
  index : BitVec 24
deriving DecidableEq, Repr

/-- One item of a management command (R561). -/
structure Item where
  offset : BitVec 32
  low : BitVec 8
  width : BitVec 8
  value : BitVec 64
deriving DecidableEq, Repr

/-- Common part of a management command: path, scope and tag. -/
structure Cmd where
  path : Path
  scope : Scope
  tag : BitVec 16
deriving DecidableEq, Repr

/-- Who performs a register access (R549). -/
inductive RegPath where
  | bar0
  | item
  | handler (t : TileId)
  | controller
deriving DecidableEq, Repr

/-- What the checks of a near-memory unit find as it issues an instruction: a residue, lockstep or unreadable store or register fault,
or a parity error in its instruction memory (R346). -/
inductive UnitCheck where
  | none | failed | parity
deriving DecidableEq, Repr

/-- A unit of a stack that issues an instruction, and what its checks find. -/
structure UnitAt where
  unit : Fin 32
  check : UnitCheck
deriving DecidableEq, Repr

/-- Where a reserved opcode reaches issue (R10): a tile slot, or a near-memory unit. -/
inductive OpTarget where
  | tile (t : TileId) (more : Bool) (slot : Slot)
  | unit (n : StackId) (c : UnitAt)
deriving DecidableEq, Repr

/-- Scalar operations of a near-memory unit, opcodes 0x01 to 0x08 in this order (R342). -/
inductive CruAluOp where
  | add | sub | and | or | xor | shl | shr | mul
deriving DecidableEq, Repr

/-- Branches of a near-memory unit, opcodes 0x0C to 0x0F in this order (R342). -/
inductive CruCond where
  | eq | ne | lt | ltu
deriving DecidableEq, Repr

/-- Lane arithmetic of a near-memory unit, opcodes 0x28 to 0x2C in this order (R342). -/
inductive CvOp where
  | add | sub | mul | fma | max
deriving DecidableEq, Repr

/-- PLLs whose loss of lock R589 names. -/
inductive Pll where
  | network (p : PartId)
  | timing (p : PartId)
  | tile (p : PartId)
  | die2die (edge : Fin 12) (module : Fin 16)
  | hbm (n : StackId)
  | stackLogic (n : StackId)
  | serdes (die : Fin 2)
deriving DecidableEq, Repr

/-- Outcome of an array test: a pass, a pass in which the unused spare row proves defective, one defective working row, or another
defect (R109, R110). -/
inductive TestResult where
  | pass
  | passSpareBad
  | passRepaired (row : BitVec 5)
  | fail (count : BitVec 8) (row col : BitVec 6)
deriving DecidableEq, Repr

/-- A wire of a link that a training or the interconnect test finds failed (R391, R404): link code, module, direction, and lane or
bond. -/
structure Wire where
  link : BitVec 16
  module : Fin 16
  dir : Bool
  lane : BitVec 8
deriving DecidableEq, Repr

/-- What a step of a start finds (R591): at step 2 which components (bit i: component i + 1) verify from their active and from
their other bank; at step 3 the sites that do not read as they must (partition, entry of NOC.DIEID, and, of a die that answers, its
strap code and whether a strap is open); at step 4 the bytes of the two copies of the package map that read changed, by offset, with
the bits that differ; at step 5 the base dies that fail their checks; at step 6 the modules that do not train and the wires that fail;
whether no copy of the training record reads valid; at step 7 the stacks that do not answer or fail and the regions that a full test
finds bad; at step 10 the tiles, array spare rows, engines by kind and index, spare tiles by orphan slot and slices by index of the
private range that their tests name; `full` says that some unit failed its verify and was trained in full. [DESIGN CHOICE, log 83] -/
inductive StepFind where
  | plain
  | banks (active other : BitVec 4)
  | straps (sites : List (PartId × Fin 11 × Option (BitVec 6 × Bool)))
  | flash (a b : List (BitVec 18 × Byte)) (untrained : Bool)
  | bases (failed : List PartId)
  | edges (dead : List (Fin 12 × Fin 16)) (wires : List Wire) (full : Bool)
  | memory (bad : List StackId) (regions : List (BitVec 23)) (full : Bool)
  | tests (tiles : List TileId) (rows : List (TileId × BitVec 5)) (engines : List (PartId × BitVec 8 × BitVec 24))
      (spares : List (PartId × Fin 48)) (slices : List (PartId × Fin 272))
  | ports (full : Bool)
deriving DecidableEq, Repr

/-- A part of which the refresh rate may fall: a DRAM layer of a slice, or a capacity stack. -/
inductive HotUnit where
  | layer (t : TileId) (l : Fin 4)
  | stack (n : StackId)
deriving DecidableEq, Repr

/-- A read of host memory that a completion is awaited for: of a tile's request, or of a descriptor that a queue has
started. -/
inductive HostRead where
  | mem (r : BitVec 32)
  | dma (q : QId) (i : BitVec 5)
deriving DecidableEq, Repr

/-- An entry of the compatibility matrix: a version of a component accepts a version of another component (R574). -/
structure Accepts where
  comp : Nat
  version : BitVec 64
  other : Nat
  accepted : BitVec 64
deriving DecidableEq, Repr

/-- The fields of a firmware manifest (R574): component versions in the order of their codes, the compatibility matrix, the
processors in activation order (component in bits [7:4], index in bits [3:0]), the digest of every later chunk, the key index,
and where in the chunk the public key and the signature stand. [DESIGN CHOICE, log 91] -/
structure Manifest where
  versions : List (BitVec 64)
  matrix : List Accepts
  order : List (BitVec 8)
  digests : List (List Byte)
  keyIndex : BitVec 8
  keyAt : BitVec 16
  sigAt : BitVec 16
deriving DecidableEq, Repr

/-- What RetireMemory repairs or retires (R316): a slice row or bank by partition and index of its private range, a capacity row or bank by stack,
pseudo-channel, bank group and bank, a stack, or a 2 MiB region. [DESIGN CHOICE, log 64] -/
inductive RetireUnit where
  | sliceRow (p : PartId) (i : Fin 272) (layer : BitVec 2) (bank : BitVec 3) (row : BitVec 13)
  | sliceBank (p : PartId) (i : Fin 272)
  | capRow (n : StackId) (pc : Fin 32) (group : BitVec 2) (bank : BitVec 2) (row : BitVec 17)
  | capBank (n : StackId) (pc : Fin 32) (group : BitVec 2) (bank : BitVec 2)
  | capStack (n : StackId)
  | region (r : BitVec 23)
deriving DecidableEq, Repr

/-- A page table that the compiled model gives a sequence, layer and KV head: its address and the header fields of R242
that the model fixes. [DESIGN CHOICE, log 73] -/
structure TablePlace where
  seq : BitVec 24
  layer : BitVec 12
  head : BitVec 12
  addr : BitVec 44
  kvfmt : BitVec 3
  dim : BitVec 4
  g : BitVec 7
  cap : BitVec 11
  wins : BitVec 16
deriving DecidableEq, Repr

/-- What a plan takes from outside the device and from the model: page tables of the sequences it admits, the bytes that its
requests name in host memory (one list for each request, in ring order), prefill spans, and sequences that have
finished. [DESIGN CHOICE, log 73] -/
structure PlanIn where
  tables : List TablePlace
  data : List (List Byte)
  spans : List (BitVec 24 × BitVec 23)
  done : List (BitVec 24)
deriving DecidableEq, Repr

/-- The flight whose write-back is done, and the lines found uncorrectable as they were written back (R221, R301). -/
structure Drained where
  flight : BitVec 32
  bad : List (BitVec 38)
deriving DecidableEq, Repr

/-- The queue whose descriptor completes, and whether the bound of R369 has passed. -/
structure DescEnd where
  queue : QId
  late : Bool
deriving DecidableEq, Repr

/-- A sensor whose pair disagrees, and whether the pair has written a record within the hour (R618). -/
structure PairSeen where
  sensor : Fin 3344
  recent : Bool
deriving DecidableEq, Repr

/-- The region whose scrub pass ends, and the lines of it at which the decoder met an error (R307, R312). -/
structure PassEnd where
  region : BitVec 23
  met : List (BitVec 15 × LineFault)
deriving DecidableEq, Repr

/-- The way whose write-back is done, and the lines found uncorrectable as they were written back (R297, R301). -/
structure WayEnd where
  way : Fin 16
  bad : List (BitVec 38)
deriving DecidableEq, Repr

end Sys2Proof
end

