-- ==== Sys2Proof/Syntax.lean ====
section
/-! DEFINITION. The commands of the MY9 block: one constructor for each row of spec/opcode_table.json. A tile
operation names its tile `t`, says with `more` whether further slots of the same bundle follow, and carries the operand
fields of its encoding; every other command carries what the sender of the event or access supplies. -/

namespace Sys2Proof

/-- [DESIGN CHOICE, log 1 and 10 and 101] -/
inductive Instr where
  /-- ADD (R162). S-slot add of two scalar registers modulo 2^64. -/
  | add (t : TileId) (more : Bool) (sd sa sb : BitVec 5)
  /-- SUB (R162). S-slot subtract of two scalar registers. -/
  | sub (t : TileId) (more : Bool) (sd sa sb : BitVec 5)
  /-- AND (R162). S-slot bitwise and. -/
  | and (t : TileId) (more : Bool) (sd sa sb : BitVec 5)
  /-- OR (R162). S-slot bitwise or. -/
  | or (t : TileId) (more : Bool) (sd sa sb : BitVec 5)
  /-- XOR (R162). S-slot bitwise exclusive or. -/
  | xor (t : TileId) (more : Bool) (sd sa sb : BitVec 5)
  /-- SLL (R162). S-slot logical left shift by sb[5:0]. -/
  | sll (t : TileId) (more : Bool) (sd sa sb : BitVec 5)
  /-- SRL (R162). S-slot logical right shift. -/
  | srl (t : TileId) (more : Bool) (sd sa sb : BitVec 5)
  /-- SRA (R162). S-slot arithmetic right shift. -/
  | sra (t : TileId) (more : Bool) (sd sa sb : BitVec 5)
  /-- SLT (R162). S-slot signed set-less-than. -/
  | slt (t : TileId) (more : Bool) (sd sa sb : BitVec 5)
  /-- SLTU (R162). S-slot unsigned set-less-than. -/
  | sltu (t : TileId) (more : Bool) (sd sa sb : BitVec 5)
  /-- MIN (R162). S-slot signed minimum. -/
  | min (t : TileId) (more : Bool) (sd sa sb : BitVec 5)
  /-- MAX (R162). S-slot signed maximum. -/
  | max (t : TileId) (more : Bool) (sd sa sb : BitVec 5)
  /-- MINU (R162). S-slot unsigned minimum. -/
  | minu (t : TileId) (more : Bool) (sd sa sb : BitVec 5)
  /-- MAXU (R162). S-slot unsigned maximum. -/
  | maxu (t : TileId) (more : Bool) (sd sa sb : BitVec 5)
  /-- MUL (R162). S-slot low 64 bits of a product, latency 3. -/
  | mul (t : TileId) (more : Bool) (sd sa sb : BitVec 5)
  /-- MULH (R162). S-slot high 64 bits of the signed product. -/
  | mulh (t : TileId) (more : Bool) (sd sa sb : BitVec 5)
  /-- MULHU (R162). S-slot high 64 bits of the unsigned product. -/
  | mulhu (t : TileId) (more : Bool) (sd sa sb : BitVec 5)
  /-- ADDI (R162). S-slot add of a sign-extended 15-bit immediate. -/
  | addi (t : TileId) (more : Bool) (sd sa : BitVec 5) (imm : BitVec 15)
  /-- ANDI (R162). S-slot and with immediate. -/
  | andi (t : TileId) (more : Bool) (sd sa : BitVec 5) (imm : BitVec 15)
  /-- ORI (R162). S-slot or with immediate. -/
  | ori (t : TileId) (more : Bool) (sd sa : BitVec 5) (imm : BitVec 15)
  /-- XORI (R162). S-slot xor with immediate. -/
  | xori (t : TileId) (more : Bool) (sd sa : BitVec 5) (imm : BitVec 15)
  /-- SLLI (R162). S-slot left shift by immediate. -/
  | slli (t : TileId) (more : Bool) (sd sa : BitVec 5) (imm : BitVec 15)
  /-- SRLI (R162). S-slot logical right shift by immediate. -/
  | srli (t : TileId) (more : Bool) (sd sa : BitVec 5) (imm : BitVec 15)
  /-- SRAI (R162). S-slot arithmetic right shift by immediate. -/
  | srai (t : TileId) (more : Bool) (sd sa : BitVec 5) (imm : BitVec 15)
  /-- SLTI (R162). S-slot signed compare with immediate. -/
  | slti (t : TileId) (more : Bool) (sd sa : BitVec 5) (imm : BitVec 15)
  /-- SLTIU (R162). S-slot unsigned compare with immediate. -/
  | sltiu (t : TileId) (more : Bool) (sd sa : BitVec 5) (imm : BitVec 15)
  /-- LI (R162). S-slot load of a sign-extended 20-bit immediate. -/
  | li (t : TileId) (more : Bool) (sd : BitVec 5) (imm : BitVec 20)
  /-- INSH (R162). S-slot insert of a 16-bit immediate into one quarter of sd. -/
  | insh (t : TileId) (more : Bool) (sd : BitVec 5) (h : BitVec 2) (imm : BitVec 16)
  /-- A_SET (R162). Copies sa[47:0] into an address register. -/
  | aSet (t : TileId) (more : Bool) (ad : BitVec 4) (sa : BitVec 5)
  /-- A_GET (R162). Copies an address register into a scalar register. -/
  | aGet (t : TileId) (more : Bool) (sd : BitVec 5) (aa : BitVec 4)
  /-- A_ADDI (R162). Adds an immediate to the 44-bit address part of an address register. -/
  | aAddi (t : TileId) (more : Bool) (ad aa : BitVec 4) (imm : BitVec 15)
  /-- A_ADD (R162). Adds a scalar register to the address part of an address register. -/
  | aAdd (t : TileId) (more : Bool) (ad aa : BitVec 4) (sb : BitVec 5)
  /-- BR_EQ (R163). Branch if sa equals sb. -/
  | brEq (t : TileId) (more : Bool) (sa sb : BitVec 5) (off : BitVec 15)
  /-- BR_NE (R163). Branch if sa differs from sb. -/
  | brNe (t : TileId) (more : Bool) (sa sb : BitVec 5) (off : BitVec 15)
  /-- BR_LT (R163). Branch if sa is less than sb, signed. -/
  | brLt (t : TileId) (more : Bool) (sa sb : BitVec 5) (off : BitVec 15)
  /-- BR_GE (R163). Branch if sa is at least sb, signed. -/
  | brGe (t : TileId) (more : Bool) (sa sb : BitVec 5) (off : BitVec 15)
  /-- BR_LTU (R163). Branch if sa is less than sb, unsigned. -/
  | brLtu (t : TileId) (more : Bool) (sa sb : BitVec 5) (off : BitVec 15)
  /-- BR_GEU (R163). Branch if sa is at least sb, unsigned. -/
  | brGeu (t : TileId) (more : Bool) (sa sb : BitVec 5) (off : BitVec 15)
  /-- BR_PANY (R163). Branch if any bit of a predicate is 1. -/
  | brPany (t : TileId) (more : Bool) (pa : BitVec 3) (off : BitVec 15)
  /-- BR_PNONE (R163). Branch if every bit of a predicate is 0. -/
  | brPnone (t : TileId) (more : Bool) (pa : BitVec 3) (off : BitVec 15)
  /-- JMP (R163). Unconditional branch by off25 bundles. -/
  | jmp (t : TileId) (more : Bool) (off : BitVec 25)
  /-- JAL (R163). Branch and link, writing the next bundle address to sd. -/
  | jal (t : TileId) (more : Bool) (sd : BitVec 5) (off : BitVec 20)
  /-- JR (R164). Indirect jump to sa[43:0], ILLOP if misaligned. -/
  | jr (t : TileId) (more : Bool) (sa : BitVec 5)
  /-- LOOP_SET (R166). Sets a loop counter from a scalar register. -/
  | loopSet (t : TileId) (more : Bool) (lc : BitVec 2) (sa : BitVec 5)
  /-- LOOP_SETI (R166). Sets a loop counter from an immediate. -/
  | loopSeti (t : TileId) (more : Bool) (lc : BitVec 2) (imm : BitVec 23)
  /-- LOOP_BR (R166). Decrements a loop counter and branches while it is non-zero. -/
  | loopBr (t : TileId) (more : Bool) (lc : BitVec 2) (off : BitVec 23)
  /-- LOOP_GET (R162). Copies a loop counter into a scalar register. -/
  | loopGet (t : TileId) (more : Bool) (sd : BitVec 5) (lc : BitVec 2)
  /-- RDSR (R169). Reads a special value such as step, cycle, seed or trap state. -/
  | rdsr (t : TileId) (more : Bool) (sd : BitVec 5) (sr : BitVec 6)
  /-- STEP_WAIT (R167). Waits for earlier operations to retire, then ends the tile's step work; with rev marks revival. -/
  | stepWait (t : TileId) (more : Bool) (rev : Bool)
  /-- STEP_WAIT_RETIRE (R53). step.wait retires once all stores and DMA writes of the step are performed and the tile enters STEPWAIT. -/
  | stepWaitRetire (t : TileId)
  /-- FRET (R168). Handler return resuming issue at TILE.RESUME_PC. -/
  | fret (t : TileId) (more : Bool)
  /-- FRET_REPLAY (R168). Handler return that first re-issues TILE.TRAP_OP alone, then resumes. -/
  | fretReplay (t : TileId) (more : Bool)
  /-- V_ADD (R173). Lane-wise FP add. -/
  | vAdd (t : TileId) (more : Bool) (vd va vb : BitVec 5) (c : VCtl)
  /-- V_SUB (R173). Lane-wise FP subtract. -/
  | vSub (t : TileId) (more : Bool) (vd va vb : BitVec 5) (c : VCtl)
  /-- V_MUL (R173). Lane-wise FP multiply. -/
  | vMul (t : TileId) (more : Bool) (vd va vb : BitVec 5) (c : VCtl)
  /-- V_FMA (R173). Lane-wise fused multiply-add. -/
  | vFma (t : TileId) (more : Bool) (vd va vb vc : BitVec 5) (c : VCtl)
  /-- V_FMS (R173). Lane-wise fused multiply-subtract. -/
  | vFms (t : TileId) (more : Bool) (vd va vb vc : BitVec 5) (c : VCtl)
  /-- V_FNMA (R173). Lane-wise negated fused multiply-add. -/
  | vFnma (t : TileId) (more : Bool) (vd va vb vc : BitVec 5) (c : VCtl)
  /-- V_MAX (R173). Lane-wise FP maximum. -/
  | vMax (t : TileId) (more : Bool) (vd va vb : BitVec 5) (c : VCtl)
  /-- V_MIN (R173). Lane-wise FP minimum. -/
  | vMin (t : TileId) (more : Bool) (vd va vb : BitVec 5) (c : VCtl)
  /-- V_ABS (R173). Lane-wise FP absolute value. -/
  | vAbs (t : TileId) (more : Bool) (vd va : BitVec 5) (c : VCtl)
  /-- V_NEG (R173). Lane-wise FP negation. -/
  | vNeg (t : TileId) (more : Bool) (vd va : BitVec 5) (c : VCtl)
  /-- V_CMP (R174). Lane-wise FP compare into a predicate. -/
  | vCmp (t : TileId) (more : Bool) (pd : BitVec 3) (va vb : BitVec 5) (cnd : BitVec 3) (c : VCtl)
  /-- V_ICMP (R174). Lane-wise integer compare into a predicate. -/
  | vIcmp (t : TileId) (more : Bool) (pd : BitVec 3) (va vb : BitVec 5) (cnd : BitVec 3) (c : VCtl)
  /-- V_IADD (R173). Lane-wise integer add. -/
  | vIadd (t : TileId) (more : Bool) (vd va vb : BitVec 5) (c : VCtl)
  /-- V_ISUB (R173). Lane-wise integer subtract. -/
  | vIsub (t : TileId) (more : Bool) (vd va vb : BitVec 5) (c : VCtl)
  /-- V_IMUL (R173). Lane-wise low 32 bits of an integer product. -/
  | vImul (t : TileId) (more : Bool) (vd va vb : BitVec 5) (c : VCtl)
  /-- V_IMULH (R173). Lane-wise high 32 bits of a signed product. -/
  | vImulh (t : TileId) (more : Bool) (vd va vb : BitVec 5) (c : VCtl)
  /-- V_IAND (R173). Lane-wise bitwise and. -/
  | vIand (t : TileId) (more : Bool) (vd va vb : BitVec 5) (c : VCtl)
  /-- V_IOR (R173). Lane-wise bitwise or. -/
  | vIor (t : TileId) (more : Bool) (vd va vb : BitVec 5) (c : VCtl)
  /-- V_IXOR (R173). Lane-wise bitwise exclusive or. -/
  | vIxor (t : TileId) (more : Bool) (vd va vb : BitVec 5) (c : VCtl)
  /-- V_ISHL (R173). Lane-wise left shift. -/
  | vIshl (t : TileId) (more : Bool) (vd va vb : BitVec 5) (c : VCtl)
  /-- V_ISHR (R173). Lane-wise logical right shift. -/
  | vIshr (t : TileId) (more : Bool) (vd va vb : BitVec 5) (c : VCtl)
  /-- V_ISAR (R173). Lane-wise arithmetic right shift. -/
  | vIsar (t : TileId) (more : Bool) (vd va vb : BitVec 5) (c : VCtl)
  /-- V_IMAX (R173). Lane-wise signed integer maximum. -/
  | vImax (t : TileId) (more : Bool) (vd va vb : BitVec 5) (c : VCtl)
  /-- V_IMIN (R173). Lane-wise signed integer minimum. -/
  | vImin (t : TileId) (more : Bool) (vd va vb : BitVec 5) (c : VCtl)
  /-- V_IMAC (R173). Lane-wise integer multiply-accumulate. -/
  | vImac (t : TileId) (more : Bool) (vd va vb vc : BitVec 5) (c : VCtl)
  /-- V_CVT (R176). Lane conversion, pack or unpack selected by kind. -/
  | vCvt (t : TileId) (more : Bool) (vd va kind : BitVec 5) (pg : BitVec 3) (z : Bool)
  /-- V_CVT_MX (R177). Converts 64 FP32 lanes into two MX blocks with computed scales. -/
  | vCvtMx (t : TileId) (more : Bool) (vd va : BitVec 5) (fmt : BitVec 3) (pg : BitVec 3) (z : Bool)
  /-- V_CVT_MXS (R177). Converts 64 FP32 lanes into two MX blocks with supplied scales. -/
  | vCvtMxs (t : TileId) (more : Bool) (vd va : BitVec 5) (fmt : BitVec 3) (sc : BitVec 5) (pg : BitVec 3) (z : Bool)
  /-- V_CVT_MXF (R177). Expands a packed MX image into FP32 lanes. -/
  | vCvtMxf (t : TileId) (more : Bool) (vd va : BitVec 5) (fmt : BitVec 3) (pg : BitVec 3) (z : Bool)
  /-- V_EXP2 (R178). Lane-wise bit-exact exp2. -/
  | vExp2 (t : TileId) (more : Bool) (vd va : BitVec 5) (c : VCtl)
  /-- V_LOG2 (R178). Lane-wise bit-exact log2. -/
  | vLog2 (t : TileId) (more : Bool) (vd va : BitVec 5) (c : VCtl)
  /-- V_RCP (R178). Lane-wise bit-exact reciprocal. -/
  | vRcp (t : TileId) (more : Bool) (vd va : BitVec 5) (c : VCtl)
  /-- V_RSQRT (R178). Lane-wise bit-exact reciprocal square root. -/
  | vRsqrt (t : TileId) (more : Bool) (vd va : BitVec 5) (c : VCtl)
  /-- V_OSM (R179). Online-softmax merge of two attention states. -/
  | vOsm (t : TileId) (more : Bool) (vd va vb vc : BitVec 5) (pg : BitVec 3) (z : Bool) (ml : Bool)
  /-- V_RSUM (R180). Canonical sum of the 64 lanes. -/
  | vRsum (t : TileId) (more : Bool) (vd va : BitVec 5) (c : VCtl)
  /-- V_RMAX (R180). Maximum over the lanes. -/
  | vRmax (t : TileId) (more : Bool) (vd va : BitVec 5) (c : VCtl)
  /-- V_RMIN (R180). Minimum over the lanes. -/
  | vRmin (t : TileId) (more : Bool) (vd va : BitVec 5) (c : VCtl)
  /-- V_IRSUM (R180). INT32 sum over the lanes. -/
  | vIrsum (t : TileId) (more : Bool) (vd va : BitVec 5) (c : VCtl)
  /-- V_SCAN (R180). Canonical prefix sums over the lanes. -/
  | vScan (t : TileId) (more : Bool) (vd va : BitVec 5) (c : VCtl)
  /-- V_ISCAN (R180). INT32 prefix sums over the lanes. -/
  | vIscan (t : TileId) (more : Bool) (vd va : BitVec 5) (c : VCtl)
  /-- V_TREE_INIT (R181). Initialises a merge stack block. -/
  | vTreeInit (t : TileId) (r : TreeRead) (aa : BitVec 4)
  /-- V_TREE_PUSH (R132). Pushes a node of level q into a merge stack. -/
  | vTreePush (t : TileId) (r : TreeRead) (va : BitVec 5) (aa q : BitVec 4) (ix : Bool)
  /-- V_TREE_FIN (R181). Folds a merge stack into a vector register and empties it. -/
  | vTreeFin (t : TileId) (r : TreeRead) (vd : BitVec 5) (aa : BitVec 4) (ix : Bool)
  /-- V_PERM (R183). Lane permutation by index vector. -/
  | vPerm (t : TileId) (more : Bool) (vd va vb : BitVec 5) (c : VCtl)
  /-- V_ROT (R183). Lane rotation. -/
  | vRot (t : TileId) (more : Bool) (vd va : BitVec 5) (n : BitVec 6) (c : VCtl)
  /-- V_BFLY (R183). Butterfly lane exchange. -/
  | vBfly (t : TileId) (more : Bool) (vd va : BitVec 5) (n : BitVec 6) (c : VCtl)
  /-- V_SEL (R183). Lane select by predicate. -/
  | vSel (t : TileId) (more : Bool) (vd va vb : BitVec 5) (c : VCtl)
  /-- V_BCAST (R183). Broadcast of a scalar to all lanes. -/
  | vBcast (t : TileId) (more : Bool) (vd sa : BitVec 5) (c : VCtl)
  /-- V_BCASTL (R183). Broadcast of one lane to all lanes. -/
  | vBcastl (t : TileId) (more : Bool) (vd va : BitVec 5) (n : BitVec 6) (c : VCtl)
  /-- V_INS (R183). Inserts a scalar into one lane. -/
  | vIns (t : TileId) (more : Bool) (vd sa : BitVec 5) (n : BitVec 6) (c : VCtl)
  /-- V_EXT (R183). Extracts one lane into a scalar register. -/
  | vExt (t : TileId) (more : Bool) (sd va : BitVec 5) (n : BitVec 6) (c : VCtl)
  /-- V_IOTA (R183). Writes lane index plus n to each lane. -/
  | vIota (t : TileId) (more : Bool) (vd : BitVec 5) (n : BitVec 6) (c : VCtl)
  /-- V_MOV (R183). Copies a vector register. -/
  | vMov (t : TileId) (more : Bool) (vd va : BitVec 5) (c : VCtl)
  /-- V_PAND (R184). Predicate and. -/
  | vPand (t : TileId) (more : Bool) (pd pa pb : BitVec 3)
  /-- V_POR (R184). Predicate or. -/
  | vPor (t : TileId) (more : Bool) (pd pa pb : BitVec 3)
  /-- V_PXOR (R184). Predicate exclusive or. -/
  | vPxor (t : TileId) (more : Bool) (pd pa pb : BitVec 3)
  /-- V_PANDN (R184). Predicate and-not. -/
  | vPandn (t : TileId) (more : Bool) (pd pa pb : BitVec 3)
  /-- V_PS2P (R184). Copies a scalar register into a predicate. -/
  | vPs2p (t : TileId) (more : Bool) (pd : BitVec 3) (sa : BitVec 5)
  /-- V_PP2S (R184). Copies a predicate into a scalar register. -/
  | vPp2s (t : TileId) (more : Bool) (sd : BitVec 5) (pa : BitVec 3)
  /-- V_PCNT (R184). Counts the 1 bits of a predicate. -/
  | vPcnt (t : TileId) (more : Bool) (sd : BitVec 5) (pa : BitVec 3)
  /-- V_RNG (R185). Philox-4x32-10 random word per lane. -/
  | vRng (t : TileId) (more : Bool) (vd sa sb : BitVec 5) (w : BitVec 2) (pg : BitVec 3) (z : Bool)
  /-- V_RNG_U (R185). Philox random word per lane as FP32 in [0,1). -/
  | vRngU (t : TileId) (more : Bool) (vd sa sb : BitVec 5) (w : BitVec 2) (pg : BitVec 3) (z : Bool)
  /-- OP_RETIRE (R160). An operation of fixed latency retires, writes its results and releases its registers and blocks. -/
  | opRetire (t : TileId) (id : BitVec 32) (x : OpFault)
  /-- MXA_WLOAD (R85). Loads a weight image into the array rows over 32 cycles. -/
  | mxaWload (t : TileId) (more : Bool) (aa : BitVec 4) (wfmt : BitVec 3) (c : Bool)
  /-- MXA_PASS (R91). Streams M input vectors through the stationary weights into working accumulator copies. -/
  | mxaPass (t : TileId) (more : Bool) (ai as : BitVec 4) (sr : BitVec 5) (ifmt : BitVec 3) (init c cs : Bool)
  /-- PASS_VERDICT (R113). At t0+M+97 the residue verdict commits the pass by flipping select bits or abandons it. -/
  | passVerdict (t : TileId) (id : BitVec 32) (v : Verdict)
  /-- MXA_ACC_MV (R196). Copies a committed accumulator row into a vector register. -/
  | mxaAccMv (t : TileId) (more : Bool) (vd sr : BitVec 5)
  /-- MXA_ACC_ST (R96). Writes accumulator rows to the local store. -/
  | mxaAccSt (t : TileId) (more : Bool) (aa : BitVec 4) (sr : BitVec 5) (pub : Bool)
  /-- MXA_ACC_STT (R96). Writes accumulator rows to the local store transposed. -/
  | mxaAccStt (t : TileId) (more : Bool) (aa : BitVec 4) (sr : BitVec 5) (pub : Bool)
  /-- MXA_ACC_ZERO (R96). Zeroes accumulator rows and closes their segments. -/
  | mxaAccZero (t : TileId) (more : Bool) (sr : BitVec 5)
  /-- SMOOTH_FILL_END (R103). An idle run passes fill_max cycles and the dummy density starts to ramp down. -/
  | smoothFillEnd (t : TileId)
  /-- SMOOTH_RAMP_UP_END (R104). Density reaches full after a ramp-up and the waiting array operation issues. -/
  | smoothRampUpEnd (t : TileId) (x : BitVec 13)
  /-- LS_LD (R198). Loads 8 bytes from the local store, optionally consuming the block. -/
  | lsLd (t : TileId) (more : Bool) (sd : BitVec 5) (aa : BitVec 4) (off : BitVec 15) (c : Bool)
  /-- LS_ST (R198). Stores 8 bytes to the local store, optionally publishing the block. -/
  | lsSt (t : TileId) (more : Bool) (sa : BitVec 5) (aa : BitVec 4) (off : BitVec 15) (pub : Bool)
  /-- LS_VLD (R198). Loads 256 bytes into a vector register. -/
  | lsVld (t : TileId) (more : Bool) (vd : BitVec 5) (aa : BitVec 4) (off : BitVec 15) (c : Bool)
  /-- LS_VST (R198). Stores a vector register to the local store. -/
  | lsVst (t : TileId) (more : Bool) (va : BitVec 5) (aa : BitVec 4) (off : BitVec 15) (pub : Bool)
  /-- LS_CLAIM (R198). Takes a FREE block to HELD without writing data. -/
  | lsClaim (t : TileId) (more : Bool) (aa : BitVec 4)
  /-- LS_PUBLISH (R198). Moves a block from HELD to READY at retirement. -/
  | lsPublish (t : TileId) (more : Bool) (aa : BitVec 4)
  /-- LS_RELEASE (R198). Consuming read of a block with no data moved. -/
  | lsRelease (t : TileId) (more : Bool) (aa : BitVec 4)
  /-- LS_ZERO (R198). Writes zeros over a whole local-store block. -/
  | lsZero (t : TileId) (more : Bool) (aa : BitVec 4) (pub : Bool)
  /-- MEM_LD (R202). Issues an 8-byte memory load to any non-local-store address. -/
  | memLd (t : TileId) (more : Bool) (sd : BitVec 5) (aa : BitVec 4) (off : BitVec 14) (hint : BitVec 2)
  /-- MEM_ST (R202). Issues an 8-byte memory store, retiring when the base die accepts it. -/
  | memSt (t : TileId) (more : Bool) (sa : BitVec 5) (aa : BitVec 4) (off : BitVec 14) (hint : BitVec 2)
  /-- MEM_PF (R202). Prefetches a capacity line into the shared cache. -/
  | memPf (t : TileId) (more : Bool) (aa : BitVec 4) (off : BitVec 14) (hint : BitVec 2)
  /-- MEM_DROP (R202). Writes back and invalidates a remote line. -/
  | memDrop (t : TileId) (more : Bool) (aa : BitVec 4) (off : BitVec 14) (hint : BitVec 2)
  /-- MEM_FENCE (R206). Orders memory operations, optionally waiting for DMA writes and releasing dirty remote lines. -/
  | memFence (t : TileId) (more : Bool) (rel d : Bool)
  /-- ATOM (R208). Issues an atomic operation selected by op at its home. -/
  | atom (t : TileId) (more : Bool) (sd sb sc : BitVec 5) (aa : BitVec 4) (w : Bool) (op : BitVec 4)
  /-- KV_WALK (R210). Looks up a token position in a page table. -/
  | kvWalk (t : TileId) (more : Bool) (ad aa : BitVec 4) (sb sd : BitVec 5)
  /-- KV_APPEND (R212). Writes the uncommitted length into the step's length copy. -/
  | kvAppend (t : TileId) (more : Bool) (aa : BitVec 4) (sb : BitVec 5)
  /-- KV_WALK_ENTRY_RETURN (R211). A missed page-table entry read returns and the walk retires 8 cycles later. -/
  | kvWalkEntryReturn (t : TileId) (id : BitVec 32) (x : LineFault) (ext : List Byte)
  /-- DMA_POST (R214). Appends a descriptor chain to a tile DMA queue. -/
  | dmaPost (t : TileId) (more : Bool) (q : BitVec 3) (aa : BitVec 4) (lo : Bool)
  /-- DMA_STAT (R214). Reads a queue's status into a scalar register. -/
  | dmaStat (t : TileId) (more : Bool) (sd : BitVec 5) (q : BitVec 3)
  /-- DMA_CANCEL (R214). Cancels the work of a tile DMA queue. -/
  | dmaCancel (t : TileId) (more : Bool) (q : BitVec 3)
  /-- SY_SIGNAL (R217). Adds an amount to a synchronisation object, locally or remotely. -/
  | sySignal (t : TileId) (more : Bool) (sa sb : BitVec 5) (rel : Bool)
  /-- SY_WAIT (R218). Issue condition that the object reaches a threshold, with optional acquire. -/
  | syWait (t : TileId) (more : Bool) (sa sb : BitVec 5) (acq : Bool)
  /-- SY_ARM (R217). Sets a synchronisation object to a value. -/
  | syArm (t : TileId) (more : Bool) (sa sb : BitVec 5)
  /-- SY_READ (R217). Reads a synchronisation object's value. -/
  | syRead (t : TileId) (more : Bool) (sd sa : BitVec 5)
  /-- RELEASE_WRITEBACK_DONE (R221). Prior stores are performed and dirty remote lines written back, so a release signal is sent or a fence retires. -/
  | releaseWritebackDone (t : TileId) (id : Drained)
  /-- MEM_REQUEST_ARRIVE (R204). A load, store, atomic or signal request arrives where it is performed and takes effect there. -/
  | memRequestArrive (r : BitVec 32) (x : LineFault)
  /-- OBJECT_UPDATE_ARRIVE (R219). An arm or signal reaches the object's base die and is applied in the cycle order. -/
  | objectUpdateArrive (l : List (BitVec 32))
  /-- MEM_DATA_ARRIVE (R204). Data of a mem.ld, atomic or sy.read reaches the tile and the operation retires. -/
  | memDataArrive (r : BitVec 32) (ext : BitVec 64)
  /-- MEM_ACK_RETURN (R204). The acknowledgement of a store, atomic, append or signal returns and it counts as performed. -/
  | memAckReturn (r : BitVec 32)
  /-- IBUF_LINE_ARRIVE (R165). A fetched instruction line arrives in the instruction buffer. -/
  | ibufLineArrive (t : TileId) (line : BitVec 38) (x : FetchFault)
  /-- DEFERRED_TRAP_TAKEN (R63). After the drain the tile records a deferred trap and issues the first handler bundle 16 cycles later. -/
  | deferredTrapTaken (x : TrapTaken)
  /-- TAG_STALL_TIMEOUT (R48). A bundle waiting on tags beyond stall_to takes SYNCTO. -/
  | tagStallTimeout (t : TileId)
  /-- SYNC_WAIT_TIMEOUT (R218). A sy.wait unsatisfied beyond stall_to takes SYNCTO. -/
  | syncWaitTimeout (t : TileId)
  /-- TILE_HANG (R58). A tile still not ready hang_periods after its first failed check is declared hung and reset. -/
  | tileHang (t : TileId)
  /-- STEP_SAVE_REQUEST (R69). TILE.PREEMPT request for a step-boundary save. -/
  | stepSaveRequest (t : TileId)
  /-- URGENT_SAVE_REQUEST (R70). TILE.PREEMPT request for an urgent save at a pass boundary. -/
  | urgentSaveRequest (t : TileId)
  /-- RESTORE_REQUEST (R74). TILE.PREEMPT request to restore from TILE.SAVE_BASE. -/
  | restoreRequest (t : TileId)
  /-- PREEMPT_DRAIN_DONE (R70). Operations and DMA drain end and the save begins. -/
  | preemptDrainDone (t : TileId)
  /-- PREEMPT_DEFER (R70). A save not begun within 100 us is deferred to the step boundary. -/
  | preemptDefer (t : TileId)
  /-- SAVE_COMPLETE (R72). The save area is written and the tile goes to IDLE. -/
  | saveComplete (x : SaveEnd)
  /-- RESTORE_COMPLETE (R74). The save area is read and the tile resumes in its saved state. -/
  | restoreComplete (t : TileId)
  /-- DESCRIPTOR_FETCH_RETURN (R357). A fetched descriptor burst arrives and is checked. -/
  | descriptorFetchReturn (q : QId) (x : LineFault) (ext : List Byte)
  /-- DESCRIPTOR_START (R358). A descriptor starts once fences, tags and limits allow. -/
  | descriptorStart (q : QId)
  /-- DMA_LINE_RETURN (R352). A DMA line request completes and its bytes land. -/
  | dmaLineReturn (q : QId) (ix : BitVec 5) (x : LineFault) (ext : List Byte)
  /-- DESCRIPTOR_COMPLETE (R359). A descriptor completes: blocks go READY, a record is written and the object signalled. -/
  | descriptorComplete (q : DescEnd)
  /-- DMA_TAG_WAIT_TIMEOUT (R361). A descriptor waits on a tag beyond stall_to and ends with TIMEOUT. -/
  | dmaTagWaitTimeout (q : QId)
  /-- RING_FULL_TIMEOUT (R365). A record waiting for a full completion ring times out and halts the queue. -/
  | ringFullTimeout (q : QId)
  /-- DMA_QUEUE_RESUME (R371). DMA.QCTLq cmd resume restarts a halted descriptor. -/
  | dmaQueueResume (t : TileId) (q : Fin 8)
  /-- DMA_QUEUE_CANCEL (R371). DMA.QCTLq cmd cancel cancels a tile queue. -/
  | dmaQueueCancel (t : TileId) (q : Fin 8)
  /-- BULK_QUEUE_RESUME (R371). BULK.QCTLq cmd resume restarts a halted bulk descriptor. -/
  | bulkQueueResume (p : PartId) (q : Fin 80)
  /-- BULK_QUEUE_CANCEL (R371). BULK.QCTLq cmd cancel cancels a bulk queue. -/
  | bulkQueueCancel (p : PartId) (q : Fin 80)
  /-- CANCEL_COMPLETE (R372). In-flight reads of a cancelled queue return, records are written and the queue goes IDLE. -/
  | cancelComplete (q : QId)
  /-- BULK_QPOST (R382). A write to BULK.QPOSTq posts a chain head to a bulk queue. -/
  | bulkQpost (path : RegPath) (p : PartId) (q : Fin 80) (head : BitVec 64)
  /-- BULK_POST_FETCH (R377). A doorbell signal makes a bulk queue fetch its post-ring entry. -/
  | bulkPostFetch (c : CtxId) (p : PartId)
  /-- LAUNCH_RECORD_READ (R330). A doorbell signal makes the dispatcher read and check a launch record. -/
  | launchRecordRead (c : CtxId) (p : PartId)
  /-- LAUNCH_START (R331). When its units are idle a launch writes back lines, loads the program and starts the units. -/
  | launchStart (l : BitVec 32)
  /-- LAUNCH_END (R333). Every unit of the mask has ended or aborted; status is written and completion signalled. -/
  | launchEnd (l : BitVec 32) (faults : BitVec 32)
  /-- QUANTUM_BOUNDARY (R336). A quantum ends and waiting host-side accesses to leased lines are performed. -/
  | quantumBoundary (n : StackId) (c : Fin 32)
  /-- LEASE_LIMIT_EXPIRE (R338). lease_max passes and the program aborts with TIMEOUT at the next boundary. -/
  | leaseLimitExpire (n : StackId) (c : Fin 32)
  /-- LAUNCH_BUDGET_EXPIRE (R346). The record's time budget passes and the units abort with TIMEOUT. -/
  | launchBudgetExpire (l : BitVec 32)
  /-- CRU_ALU (R342). Unit scalar add, sub, and, or, xor, shl, shr or mul. -/
  | cruAlu (n : StackId) (c : UnitAt) (op : CruAluOp) (d a b : BitVec 4)
  /-- CRU_ADDI (R342). Unit add immediate. -/
  | cruAddi (n : StackId) (c : UnitAt) (d a : BitVec 4) (imm : BitVec 18)
  /-- CRU_LI (R342). Unit load immediate. -/
  | cruLi (n : StackId) (c : UnitAt) (d : BitVec 4) (imm : BitVec 18)
  /-- CRU_LUI (R342). Unit load upper immediate. -/
  | cruLui (n : StackId) (c : UnitAt) (d : BitVec 4) (imm : BitVec 18)
  /-- CRU_BRANCH (R342). Unit conditional branch. -/
  | cruBranch (n : StackId) (c : UnitAt) (cnd : CruCond) (a b : BitVec 4) (off : BitVec 18)
  /-- CRU_JMP (R342). Unit unconditional branch. -/
  | cruJmp (n : StackId) (c : UnitAt) (off : BitVec 18)
  /-- LD_S (R342). Unit loads 4 bytes from its store. -/
  | ldS (n : StackId) (c : UnitAt) (d a : BitVec 4) (imm : BitVec 18)
  /-- ST_S (R342). Unit stores 4 bytes to its store. -/
  | stS (n : StackId) (c : UnitAt) (d a : BitVec 4) (imm : BitVec 18)
  /-- FLD (R342). Unit loads 64 bytes into a vector register. -/
  | fld (n : StackId) (c : UnitAt) (fd a : BitVec 4) (imm : BitVec 18)
  /-- FST (R342). Unit stores a vector register. -/
  | fst (n : StackId) (c : UnitAt) (fs a : BitVec 4) (imm : BitVec 18)
  /-- CM_IN (R342). Unit reads lines of its pseudo-channel into its store. -/
  | cmIn (n : StackId) (c : UnitAt) (d a b : BitVec 4)
  /-- CM_IN_DATA (R326). Lines read by cm.in arrive decoded and decrypted. -/
  | cmInData (n : StackId) (c : Fin 32) (xs : List LineFault)
  /-- CM_OUT (R335). Unit writes lines to leased channel-local addresses. -/
  | cmOut (n : StackId) (c : UnitAt) (d a b : BitVec 4)
  /-- LEASE (R334). Unit leases granules of its pseudo-channel after write-back. -/
  | lease (n : StackId) (c : UnitAt) (a b : BitVec 4) (slot : BitVec 2)
  /-- QEND (R336). Unit ends the current quantum. -/
  | qend (n : StackId) (c : UnitAt)
  /-- END (R342). Unit waits for its work to finish and ends its leases. -/
  | cruEnd (n : StackId) (c : UnitAt)
  /-- BUS_PUT (R344). Unit sends lines over the stack's shared bus to another unit. -/
  | busPut (n : StackId) (c : UnitAt) (d a b : BitVec 4)
  /-- BUS_LINE_RECEIVE (R344). A bus line reaches its unit and the received-line count grows. -/
  | busLineReceive (n : StackId) (c : Fin 32)
  /-- BUS_WAIT (R342). Unit waits until its received-line count reaches a value. -/
  | busWait (n : StackId) (c : UnitAt) (a : BitVec 4)
  /-- CD_SET (R342). Empties a dot-product accumulator set and sets its formats. -/
  | cdSet (n : StackId) (c : UnitAt) (acc : BitVec 3) (wfmt ifmt : BitVec 3)
  /-- CD_STEP (R342). Adds exact products of one line and a broadcast element. -/
  | cdStep (n : StackId) (c : UnitAt) (acc : BitVec 3) (a b : BitVec 4)
  /-- CD_FIN (R343). Writes the block results of an accumulator set as FP32. -/
  | cdFin (n : StackId) (c : UnitAt) (acc : BitVec 3) (a b d : BitVec 4) (init : Bool)
  /-- CV_ARITH (R342). Unit lane-wise FP32 add, sub, mul, fma or max. -/
  | cvArith (n : StackId) (c : UnitAt) (op : CvOp) (fd fa fb fc : BitVec 4)
  /-- CV_EXP2 (R342). Unit lane-wise exp2. -/
  | cvExp2 (n : StackId) (c : UnitAt) (fd fa : BitVec 4)
  /-- CV_RMAX (R342). Unit maximum over 16 lanes. -/
  | cvRmax (n : StackId) (c : UnitAt) (fd fa : BitVec 4)
  /-- CV_BCAST (R342). Unit broadcast of one lane. -/
  | cvBcast (n : StackId) (c : UnitAt) (fd fa lane : BitVec 4)
  /-- CV_SUM (R342). Unit canonical sum of FP32 values in its store. -/
  | cvSum (n : StackId) (c : UnitAt) (fd a b : BitVec 4)
  /-- CV_CVT (R342). Unit converts 32 FP32 values into an MX block. -/
  | cvCvt (n : StackId) (c : UnitAt) (d a b : BitVec 4) (fmt : BitVec 3) (h : Bool)
  /-- CV_UNPK (R342). Unit expands an MX block into FP32 values. -/
  | cvUnpk (n : StackId) (c : UnitAt) (d a b : BitVec 4) (fmt : BitVec 3) (h : Bool)
  /-- COLL_INIT (R438). Collective command emptying a merge stack and reserving merge store. -/
  | collInit (c : CtxId) (p : PartId)
  /-- COLL_PUSH (R439). Collective command reading a node and pushing it at level q. -/
  | collPush (c : CtxId) (p : PartId) (x : LineFault) (ext : List Byte)
  /-- COLL_RECV (R441). Collective command receiving a tagged message and pushing it. -/
  | collRecv (c : CtxId) (p : PartId)
  /-- COLL_SEND (R441). Collective command streaming data to a peer after its CTS. -/
  | collSend (c : CtxId) (p : PartId) (x : LineFault) (ext : List Byte)
  /-- COLL_FIN (R438). Collective command folding the stack and writing the result. -/
  | collFin (c : CtxId) (p : PartId)
  /-- COLL_RECVW (R438). Collective command receiving a message and writing it to memory. -/
  | collRecvw (c : CtxId) (p : PartId)
  /-- COLL_SIGNAL (R438). Collective command signalling an object with release ordering. -/
  | collSignal (c : CtxId) (p : PartId)
  /-- COLL_WAIT (R438). Collective command holding the ring until an object reaches an amount. -/
  | collWait (c : CtxId) (p : PartId)
  /-- RD (R427). A fabric read request is checked and performed at the destination. -/
  | rd (port : PortId) (k : Packet) (x : LineFault)
  /-- WR (R427). A fabric write request is checked and performed at the destination. -/
  | wr (port : PortId) (k : Packet)
  /-- ATOM_PKT (R428). A fabric atomic request is checked and executed at its home. -/
  | atomPkt (port : PortId) (k : Packet) (x : LineFault)
  /-- SIG (R466). A fabric synchronisation signal is checked and applied. -/
  | sig (port : PortId) (k : Packet)
  /-- RD_RSP (R418). A read response returns data to the requester. -/
  | rdRsp (port : PortId) (k : Packet)
  /-- WR_ACK (R428). A write acknowledgement marks a remote write performed. -/
  | wrAck (port : PortId) (k : Packet)
  /-- ATOM_RSP (R417). An atomic response returns the old value. -/
  | atomRsp (port : PortId) (k : Packet)
  /-- SIG_ACK (R428). A signal acknowledgement marks a remote signal performed. -/
  | sigAck (port : PortId) (k : Packet)
  /-- CTS (R441). A collective clear-to-send lets a waiting SEND stream. -/
  | cts (port : PortId) (k : Packet)
  /-- CDATA (R441). A collective message packet lands; the last one is CRC-checked. -/
  | cdata (port : PortId) (k : Packet)
  /-- CACK (R441). A collective acknowledgement completes a SEND or asks for a resend. -/
  | cack (port : PortId) (k : Packet)
  /-- TRANSPORT_RESEND_TIMEOUT (R419). An unanswered packet is resent after rto, or ends with TIMEOUT. -/
  | transportResendTimeout (dst : BitVec 12) (vc : BitVec 2) (seq : BitVec 16)
  /-- FLIT_RECEIVE (R416). A fabric flit arrives; a CRC failure discards it and sends a retry request. -/
  | flitReceive (port : PortId) (f : Flit)
  /-- RETRY_REQUEST (R416). A retry request makes the sender resend from its retry buffer. -/
  | retryRequest (port : PortId) (seq : BitVec 12)
  /-- LANE_LOCK_LOSS (R414). A lane out of lock for 10 us retrains the port to a narrower width. -/
  | laneLockLoss (port : PortId) (lane : Fin 8)
  /-- PORT_TRAINING_DONE (R413). A fabric port finishes training at its width or stays down. -/
  | portTrainingDone (port : PortId) (lanes : BitVec 8)
  /-- PORT_DOWN (R443). A fabric port loses lock and traffic reroutes through alternate masks. -/
  | portDown (port : PortId)
  /-- PORT_RETRAIN (R447). PL.PCTLk cmd retrain. -/
  | portRetrain (path : RegPath) (port : PortId)
  /-- PORT_TAKE_DOWN (R447). PL.PCTLk cmd take down. -/
  | portTakeDown (path : RegPath) (port : PortId)
  /-- HELLO (R421). A neighbour's HELLO records its device and port. -/
  | hello (port : PortId) (k : Packet)
  /-- DEPART (R444). A neighbour's DEPART makes the device reroute around it. -/
  | depart (port : PortId) (k : Packet)
  /-- PROBE_TIMER (R431). Every 10 ms a device sends PROBE on its parent port. -/
  | probeTimer
  /-- PROBE (R431). A PROBE is answered with PROBE_RSP and the turnaround time. -/
  | probe (port : PortId) (k : Packet) (turnaround : BitVec 32)
  /-- PROBE_RSP (R431). A PROBE_RSP updates the measured link latency. -/
  | probeRsp (port : PortId) (k : Packet) (rtt : BitVec 32)
  /-- TICK_ANNOUNCE (R432). At T minus L the master sends TICK with its countdown. -/
  | tickAnnounce
  /-- TICK (R432). A received TICK schedules the local tick timer and is forwarded to children. -/
  | tick (port : PortId) (k : Packet)
  /-- READY_CHECK (R54). At T minus C tiles' readiness is sampled and NOT_READY sent if any is not ready. -/
  | readyCheck
  /-- NOT_READY (R433). A received NOT_READY is forwarded towards the master or collected there. -/
  | notReady (port : PortId) (k : Packet)
  /-- SLIP_DECISION (R433). At T minus D the master sends SLIP if a NOT_READY arrived. -/
  | slipDecision
  /-- SLIP (R433). A received SLIP reschedules the tick and counts the slip. -/
  | slip (port : PortId) (k : Packet)
  /-- BACKUP_MASTER_TAKEOVER (R436). No TICK by T minus C makes the backup master announce the tick. -/
  | backupMasterTakeover
  /-- TICK_FIRE (R55). The tick timer fires: shadows apply, counters clear and ready contexts advance. -/
  | tickFire
  /-- RECOVERY_POINT_COMPLETE (R538). Every byte of a recovery point is acknowledged and CTX.RPOINT advances. -/
  | recoveryPointComplete (c : CtxId) (all : Bool)
  /-- PLAN_STEP (R255). The step planner plans step s before its tick in six stages. -/
  | planStep (c : CtxId) (inp : PlanIn)
  /-- STALL_SET_EXCHANGE (R501). A peer planner's stall set is received and merged into the union. -/
  | stallSetExchange (c : CtxId) (device : BitVec 12) (seqs : List (BitVec 24))
  /-- STEP_RECORD_APPEND (R502). At the end of a step the step record is appended to the journal rings. -/
  | stepRecordAppend (c : CtxId) (tokens : List (BitVec 24 × BitVec 32 × BitVec 23))
  /-- REVIVAL_RESTART (R494). After the drains, every tile restarts at the step entry. -/
  | revivalRestart (c : CtxId)
  /-- REVIVAL_PROBE (R520). Every 1 ms a deferred revival probes the peer and starts once it answers. -/
  | revivalProbe (c : CtxId) (handle : BitVec 64)
  /-- ROLLBACK_TO_RECOVERY_POINT (R539). Devices restore a recovery point and regenerate to the last committed step. -/
  | rollbackToRecoveryPoint (c : CtxId) (pages : List (BitVec 44 × List Byte))
  /-- ENGINE_WATCHDOG_EXPIRE (R521). An engine without progress for eng_to ends its work with TIMEOUT and is reset. -/
  | engineWatchdogExpire (p : PartId) (kind : BitVec 8) (index : BitVec 24)
  /-- ENGINE_RESET_COMPLETE (R526). An engine reset ends; the engine returns to service or is disabled. -/
  | engineResetComplete (p : PartId) (kind : BitVec 8) (index : BitVec 24) (pass : Bool) (us : BitVec 32)
  /-- PARTITION_HEARTBEAT_MISSING (R528). A partition controller heartbeat missing for 10 ms starts a partition reset. -/
  | partitionHeartbeatMissing (p : PartId)
  /-- DEVICE_HEARTBEAT_MISSING (R524). The device controller heartbeat missing for 100 ms starts a chip reset. -/
  | deviceHeartbeatMissing
  /-- RESET_DEADLINE_EXPIRE (R522). A reset level misses its deadline and escalates. -/
  | resetDeadlineExpire (level : BitVec 2) (p : PartId) (kind : BitVec 8) (index : BitVec 24)
  /-- PARTITION_RESET_PHASE_END (R532). A phase of a partition reset completes and the next begins. -/
  | partitionResetPhaseEnd (p : PartId) (fails : List (BitVec 8 × BitVec 24)) (us : BitVec 32)
  /-- CHIP_RESET_PHASE_END (R535). A phase of a chip reset completes. -/
  | chipResetPhaseEnd (us : BitVec 32)
  /-- TEARDOWN_COMPLETE (R529). The context has drained; generation increments and the context is FREE. -/
  | teardownComplete (c : CtxId)
  /-- TEARDOWN_DEADLINE (R530). Teardown deadline passes and engines still holding the context are reset. -/
  | teardownDeadline (c : CtxId)
  /-- LOAD_COMPLETE (R463). Context load checks and set-up finish and the context is READY. -/
  | loadComplete (c : CtxId)
  /-- PEER_LOSS_LIMIT (R542). A stall set is awaited beyond loss_limit and the peer is reported lost. -/
  | peerLossLimit (c : CtxId) (device : BitVec 12)
  /-- NEIGHBOUR_PORTS_DOWN (R542). All ports to a device stay down 100 ms and a PEER record is written. -/
  | neighbourPortsDown (device : BitVec 12)
  /-- DEBUG_UNLOCK_FAILURE (R472). A failed debug unlock raises alarm source 3. -/
  | debugUnlockFailure
  /-- LID_TAMPER (R472). Lid tamper raises alarm source 4. -/
  | lidTamper
  /-- D2D_FLIT_RECEIVE (R392). A die-to-die flit arrives; a CRC failure triggers go-back-N resend. -/
  | d2dFlitReceive (edge : Fin 12) (module : Fin 16) (ok : Bool) (resent : BitVec 8) (laneErrors : BitVec 16)
      (marked : Option (Bool × BitVec 8))
  /-- SENSOR_SAMPLE (R616). Every 25 us sensors are sampled and thresholds evaluated. -/
  | sensorSample (samples : List (BitVec 12 × BitVec 16 × Bool))
  /-- REFRESH_RATE_LOWER (R280). A reading 2 C below a threshold for 10 ms lowers the refresh rate. -/
  | refreshRateLower (u : HotUnit)
  /-- SENSOR_STUCK_CHECK (R617). A sensor unchanged for 10 s while neighbours move is marked failed. -/
  | sensorStuckCheck (ix : Fin 3344) (moved nbrMoved : Bool)
  /-- PAIR_DISAGREEMENT (R618). A pair differing by 3 C for 1 s writes a THERMAL record. -/
  | pairDisagreement (ix : PairSeen)
  /-- THERMAL_GAP_STEP (R621). A tile's thermal gap falls by 16 cycles each 100 us below target. -/
  | thermalGapStep (t : TileId)
  /-- DIE_FREQUENCY_STEP (R621). Each 1 ms at gap 1023 above target lowers the die frequency by 25 MHz. -/
  | dieFrequencyStep (p : PartId)
  /-- QUIESCE_COOLANT_TIMEOUT (R622). A unit quiesced for 2 s is treated as loss of coolant. -/
  | quiesceCoolantTimeout (addr : BitVec 44)
  /-- LIMITER_WINDOW (R613). Each 1 ms the budget B is revised and divided among partitions. -/
  | limiterWindow (inputW inputV other : BitVec 16) (parts : List (BitVec 16 × BitVec 16 × BitVec 16))
  /-- FLOW_FAULT_ASSERT (R627). Flow stop clamps B to 400 W, moves to step 6 and holds contexts. -/
  | flowFaultAssert
  /-- INPUT_UNDERVOLTAGE (R627). Input below 40 V for 100 us clamps B to 400 W. -/
  | inputUndervoltage (v : BitVec 16)
  /-- UNDERVOLTAGE_RECOVER (R627). Input at 41 V for 100 ms lifts the voltage clamp. -/
  | undervoltageRecover
  /-- FLOW_RECOVERY (R628). Flow recovered: clamp lifts and contexts are released. -/
  | flowRecovery
  /-- FLOW_STOP_TIMEOUT (R629). No flow recovery after 10 s: writeback, tiles stop and power cycle is requested. -/
  | flowStopTimeout
  /-- REGULATOR_FAULT (R631). A regulator fault starts a partition or chip reset with cause 0x0A. -/
  | regulatorFault (rail : BitVec 8) (amps : BitVec 16)
  /-- COOLANT_REPORT (R566). The tray's coolant report updates MGT.COOLANT and the coolant limit. -/
  | coolantReport (c : Cmd) (w : BitVec 64) (seq : BitVec 32)
  /-- COOLANT_REPORT_STALE (R566). No valid report for 300 ms: default inlet and flow are used. -/
  | coolantReportStale
  /-- THM_SUBST_WRITE (R619). A write to THM.SUBSTi substitutes a failed sensor, checked for neighbours. -/
  | thmSubstWrite (path : RegPath) (ix : Fin 64) (x : BitVec 64)
  /-- PATROL_SCRUB_START (R312). The patrol period starts a scrub pass over each region. -/
  | patrolScrubStart (r : BitVec 23)
  /-- SCRUB_PASS_END (R312). A scrub pass ends and the region's floor advances. -/
  | scrubPassEnd (r : PassEnd)
  /-- CLEAR_ACCEPT (R311). A clear waiting on scrub is accepted and the generation increments. -/
  | clearAccept (p : PartId)
  /-- REGION_RETIRE (R316). A CAP.RETIRE write turns a 2 MiB region into a hole. -/
  | regionRetire (path : RegPath) (p : PartId) (op : BitVec 2) (r : BitVec 23)
  /-- WAY_WRITEBACK_DONE (R297). A way change's write-back completes; the change applies at the next tick. -/
  | wayWritebackDone (p : PartId) (w : WayEnd)
  /-- SYN_OBJ_WRITE (R467). A driver write to SYN.OBJ arms an object through the register path. -/
  | synObjWrite (p : PartId) (ix : BitVec 14) (x : BitVec 64)
  /-- SYN_SIG_WRITE (R467). A driver write to SYN.SIG signals an object. -/
  | synSigWrite (p : PartId) (ix : BitVec 14) (x : BitVec 64)
  /-- DEV_COMMIT (R37). A write to DEV.COMMIT applies selected shadow RWS fields within 2 us. -/
  | devCommit (x : BitVec 64)
  /-- SEC_ALARMPOL_WRITE (R475). A write to SEC.ALARMPOL, rejected whole if it would lower a locked level. -/
  | secAlarmpolWrite (path : RegPath) (x : BitVec 64)
  /-- HIF_RQ_PROD_WRITE (R554). The driver posts request entries by writing the producer count. -/
  | hifRqProdWrite (path : RegPath) (c : CtxId) (prod : BitVec 32)
  /-- HIF_CQ_CONS_WRITE (R556). The driver consumes completions, releasing a hold for ring room. -/
  | hifCqConsWrite (c : CtxId) (cons : BitVec 32)
  /-- PART_JTAIL_WRITE (R503). The driver advances the journal tail, releasing a journal hold. -/
  | partJtailWrite (path : RegPath) (p : PartId) (tail : BitVec 64)
  /-- CLK_METER_START (R590). CLK.METER start begins a clock measurement. -/
  | clkMeterStart (path : RegPath) (x : BitVec 64)
  /-- METER_COMPLETE (R590). A clock measurement completes and CLK.METERCNT becomes valid. -/
  | meterComplete (count : BitVec 40)
  /-- MXA_BIST_START (R116). MXA.BIST start begins an array test on an idle tile. -/
  | mxaBistStart (path : RegPath) (t : TileId) (pattern : BitVec 4)
  /-- BIST_COMPLETE (R117). An array test ends and its result is recorded. -/
  | bistComplete (t : TileId) (x : TestResult)
  /-- REGISTER_WRITE (R15). A write to a register with no behaviour of its own, applied or rejected with BOUND. -/
  | registerWrite (path : RegPath) (off : BitVec 28) (size : BitVec 4) (v : BitVec 64)
  /-- BAR2_READ (R550). A host read through a BAR2 segment. -/
  | bar2Read (off : BitVec 36) (n : BitVec 12) (x : LineFault)
  /-- BAR2_WRITE (R550). A host write through a BAR2 segment. -/
  | bar2Write (off : BitVec 36) (bytes : List Byte)
  /-- HOST_READ_TIMEOUT (R551). A device read of host memory unanswered for 50 ms ends with TIMEOUT. -/
  | hostReadTimeout (x : HostRead)
  /-- HOST_LINK_CHANGE (R552). The host link changes width or rate or goes down. -/
  | hostLinkChange (width : BitVec 5) (rate : BitVec 3)
  /-- PERST_ASSERT (R572). PERST# resets the host interface and holds contexts. -/
  | perstAssert
  /-- PERST_DEASSERT (R569). PERST# deasserted lets the host link train. -/
  | perstDeassert
  /-- ENTDAA (R558). The tray controller assigns the module's I3C dynamic address. -/
  | entdaa (addr : BitVec 7) (dup : Bool)
  /-- GET_INVENTORY (R565). GetInventory returns the ordering code, variant, ports, firmware and overrides. -/
  | getInventory (c : Cmd)
  /-- SET_HOST_REGION (R551). SetHostRegion configures a host region. -/
  | setHostRegion (c : Cmd) (region : BitVec 8) (value : BitVec 64)
  /-- CONFIRM_UPDATE (R578). ConfirmUpdate removes old-format records and fall-back banks. -/
  | confirmUpdate (c : Cmd)
  /-- GET_FIRMWARE_STATUS (R563). GetFirmwareStatus returns firmware delivery and activation state. -/
  | getFirmwareStatus (c : Cmd)
  /-- SET_POWER_LIMIT (R612). SetPowerLimit sets the tray limit and partition clocks. -/
  | setPowerLimit (c : Cmd) (items : List Item)
  /-- SET_STEP_POLICY (R76). SetStepPolicy sets the tile hang limit. -/
  | setStepPolicy (c : Cmd) (items : List Item)
  /-- RUN_ARRAY_TEST (R114). RunArrayTest schedules an array test at the next partition reset. -/
  | runArrayTest (c : Cmd) (pattern : BitVec 4)
  /-- SET_ARRAY_SMOOTHING (R114). SetArraySmoothing sets fill, ramp-down and ramp-up. -/
  | setArraySmoothing (c : Cmd) (items : List Item)
  /-- GET_ARITH_COUNTERS (R152). GetArithCounters returns arithmetic counters. -/
  | getArithCounters (c : Cmd)
  /-- SET_KV_POLICY (R268). SetKvPolicy sets the cold watermark. -/
  | setKvPolicy (c : Cmd) (items : List Item)
  /-- SET_MEMORY_POLICY (R318). SetMemoryPolicy sets remote lines, far share and spare slots. -/
  | setMemoryPolicy (c : Cmd) (items : List Item)
  /-- SET_SCRUB_POLICY (R318). SetScrubPolicy sets the patrol scrub period. -/
  | setScrubPolicy (c : Cmd) (items : List Item)
  /-- CLEAR_MEMORY (R310). ClearMemory (CAP.GENCLR) clears whole regions by generation. -/
  | clearMemory (c : Cmd) (region : BitVec 23) (count : BitVec 16)
  /-- RETIRE_MEMORY (R316). RetireMemory repairs or retires DRAM units. -/
  | retireMemory (c : Cmd) (u : RetireUnit)
  /-- SET_NEAR_MEMORY_POLICY (R348). SetNearMemoryPolicy sets quantum and lease limit. -/
  | setNearMemoryPolicy (c : Cmd) (items : List Item)
  /-- SET_BULK_POLICY (R379). SetBulkPolicy sets bulk mode and caps. -/
  | setBulkPolicy (c : Cmd) (items : List Item)
  /-- GET_PACKAGE_MAP (R410). GetPackageMap returns the package map. -/
  | getPackageMap (c : Cmd)
  /-- RUN_INTERCONNECT_TEST (R404). RunInterconnectTest sets full training and the test for the next chip reset. -/
  | runInterconnectTest (c : Cmd)
  /-- SET_FABRIC_IDENTITY (R420). SetFabricIdentity writes the device ID. -/
  | setFabricIdentity (c : Cmd) (device : BitVec 12)
  /-- SET_FABRIC_TOPOLOGY (R424). SetFabricTopology installs routes, datelines and the tick tree. -/
  | setFabricTopology (c : Cmd) (addr : BitVec 44) (lat : BitVec 22)
  /-- SET_PORT_POLICY (R446). SetPortPolicy sets width limit, reach and training. -/
  | setPortPolicy (c : Cmd) (items : List Item)
  /-- SET_TICK_ROLES (R446). SetTickRoles sets master, backup and tree. -/
  | setTickRoles (c : Cmd) (items : List Item) (lat : BitVec 22)
  /-- SET_TICK_POLICY (R446). SetTickPolicy sets the slip quantum. -/
  | setTickPolicy (c : Cmd) (items : List Item)
  /-- SET_FABRIC_POLICY (R446). SetFabricPolicy sets transport resend timeout and count. -/
  | setFabricPolicy (c : Cmd) (items : List Item)
  /-- DEPART_DEVICE (R444). DepartDevice holds contexts and removes the device from the fabric. -/
  | departDevice (c : Cmd)
  /-- DECLARE_DEVICE_LOST (R542). DeclareDeviceLost ends requests to a device and holds affected contexts. -/
  | declareDeviceLost (c : Cmd) (device : BitVec 12)
  /-- SET_PARTITION_GROUPS (R449). SetPartitionGroups (PART.GROUP) regroups partitions at the next reset. -/
  | setPartitionGroups (c : Cmd) (size : BitVec 2)
  /-- SET_PORT_OWNER (R451). SetPortOwner moves a fabric port to another partition. -/
  | setPortOwner (c : Cmd) (part : Fin 8)
  /-- LOAD_CONTEXT (R463). LoadContext checks a context record and sets the context up. -/
  | loadContext (c : Cmd) (addr : BitVec 64) (k : BitVec 8) (recent : List CtxId) (inbound : List (BitVec 17 × Bool))
  /-- START_CONTEXT (R464). StartContext starts the context's tiles at the next tick. -/
  | startContext (c : Cmd)
  /-- HOLD_CONTEXT (R464). HoldContext withholds ticks from the context at its next step boundary. -/
  | holdContext (c : Cmd)
  /-- RELEASE_CONTEXT (R464). ReleaseContext resumes ticks to the context. -/
  | releaseContext (c : Cmd)
  /-- PREEMPT_CONTEXT (R69). PreemptContext saves every tile of a context, step or urgent. -/
  | preemptContext (c : Cmd) (urgent : Bool)
  /-- RESUME_CONTEXT (R74). ResumeContext restores a saved context. -/
  | resumeContext (c : Cmd)
  /-- TEAR_DOWN_CONTEXT (R529). TearDownContext starts a context teardown. -/
  | tearDownContext (c : Cmd)
  /-- UPDATE_CONTEXT_WINDOWS (R460). UpdateContextWindows loads window shadows for the next tick. -/
  | updateContextWindows (c : Cmd) (addr : BitVec 64)
  /-- SET_CONTEXT_SHARE (R461). SetContextShare sets a context's bandwidth share. -/
  | setContextShare (c : Cmd) (items : List Item)
  /-- LOAD_MODEL_KEY (R562). LoadModelKey decapsulates and unwraps a model key into a slot. -/
  | loadModelKey (c : Cmd) (slot : BitVec 8) (counter : BitVec 64) (ct : List Byte) (wrapped : List Byte)
  /-- UNLOAD_MODEL_KEY (R468). UnloadModelKey clears a model-key slot. -/
  | unloadModelKey (c : Cmd) (slot : BitVec 8)
  /-- LOAD_MODEL_IMAGE (R469). LoadModelImage decrypts an image into a context window. -/
  | loadModelImage (c : Cmd) (slot : BitVec 8) (img : BitVec 64) (len : BitVec 64) (dst : BitVec 64) (ext : List Byte)
  /-- SET_ALARM_POLICY (R475). SetAlarmPolicy sets alarm levels and lock. -/
  | setAlarmPolicy (c : Cmd) (items : List Item)
  /-- CLEAR_FENCE (R474). ClearFence lifts a fence once keys are regenerated and regions cleared. -/
  | clearFence (c : Cmd)
  /-- GET_WRAP_KEY (R562). GetWrapKey returns the signed encapsulation key and counter. -/
  | getWrapKey (c : Cmd)
  /-- SET_TICK_PERIOD (R488). SetTickPeriod sets the tick period within R434. -/
  | setTickPeriod (c : Cmd) (items : List Item)
  /-- SET_JOURNAL (R511). SetJournal sets journal placement, size and policy. -/
  | setJournal (c : Cmd) (items : List Item)
  /-- REGENERATE_STEPS (R504). RegenerateSteps runs recorded steps again from their records. -/
  | regenerateSteps (c : Cmd) (first last addr : BitVec 64)
  /-- REVIVE_STEP (R493). ReviveStep requests revival of a context's uncommitted step. -/
  | reviveStep (c : Cmd) (first last : BitVec 64)
  /-- SET_ERROR_POLICY (R545). SetErrorPolicy sets error ring, alert, watchdog and thresholds. -/
  | setErrorPolicy (c : Cmd) (items : List Item)
  /-- RESET_ENGINE (R526). ResetEngine (ERR.ENGRST) starts an engine reset. -/
  | resetEngine (c : Cmd) (kind : BitVec 8) (index : BitVec 24)
  /-- RESET_PARTITION (R532). ResetPartition (PART.RESET) starts a partition reset. -/
  | resetPartition (c : Cmd)
  /-- RESET_DEVICE (R535). ResetDevice (DEV.RESET) starts a chip reset. -/
  | resetDevice (c : Cmd)
  /-- SET_RECOVERY_POLICY (R538). SetRecoveryPolicy sets partners, interval and loss limit. -/
  | setRecoveryPolicy (c : Cmd) (items : List Item) (partner : Option (BitVec 12))
  /-- GET_CERTIFICATE (R568). SPDM certificate request answered from slot 0. -/
  | getCertificate (slot : BitVec 4) (n : BitVec 16)
  /-- CHALLENGE (R568). SPDM challenge answered with an identity-key signature. -/
  | challenge (slot : BitVec 4) (nonce : List Byte)
  /-- GET_MEASUREMENTS (R568). SPDM measurement request returns SHA-384 digests. -/
  | getMeasurements (index : BitVec 8)
  /-- FIRMWARE_CHUNK_RECEIVE (R575). A PLDM firmware chunk is checked against its digest and staged. -/
  | firmwareChunkReceive (ix : BitVec 16) (bytes : List Byte) (m : Option Manifest)
  /-- ACTIVATE_FIRMWARE (R576). ActivateFirmware checks the matrix and activates processors in order. -/
  | activateFirmware
  /-- PROCESSOR_RESTART_DONE (R576). A processor starts its new image and its held contexts are released. -/
  | processorRestartDone
  /-- PROCESSOR_RESTART_TIMEOUT (R577). A processor not started in 200 ms rolls activation back. -/
  | processorRestartTimeout
  /-- SETTLE_COUNT_DONE (R585). The REFCLK settle count completes and bring-up step 1 begins. -/
  | settleCountDone (glitch : Bool)
  /-- START_STEP_DONE (R591). A start-sequence step completes and the next begins. -/
  | startStepDone (x : StepFind) (ms : BitVec 32)
  /-- START_STEP_TIMEOUT (R594). A step passes its maximum and the start restarts with full training. -/
  | startStepTimeout
  /-- RESTART_SUPERVISION_TIMEOUT (R594). The retry has not reached step 12 within 8 s and a power cycle is requested. -/
  | restartSupervisionTimeout
  /-- CROZIER_WAVE (R599). Each 200 us the next tile bring-up wave is powered. -/
  | crozierWave (p : Option PartId) (w : Fin 8)
  /-- TILE_POWER_GOOD_TIMEOUT (R600). A tile switch not good within 100 us fails its start-up test. -/
  | tilePowerGoodTimeout (t : TileId)
  /-- TILE_FIRMWARE_BLOCK (R601). A tile reports a test-image block CRC and bad blocks are resent. -/
  | tileFirmwareBlock (t : TileId) (block : BitVec 16) (crcOk : Bool)
  /-- REFCLK_GLITCH (R586). A REFCLK period out of range raises alarm source 2. -/
  | refclkGlitch
  /-- REFCLK_STOP (R586). No REFCLK edge for 10 us asserts POWER_CYCLE_REQ#. -/
  | refclkStop
  /-- CLK_OK_FALL (R586). CLK_OK falls after the settle count and a POWER record is written. -/
  | clkOkFall
  /-- PLL_LOCK_LOSS (R589). A PLL loses lock and its domain is reset at the matching level. -/
  | pllLockLoss (x : Pll)
  /-- PWR_EN_ASSERT (R652). PWR_EN enables the input stage and PWRGD follows. -/
  | pwrEnAssert (slot : BitVec 6) (settle : BitVec 3)
  /-- PWR_EN_DEASSERT (R654). PWR_EN deasserted powers the module down in order. -/
  | pwrEnDeassert
  /-- EFUSE_SWITCH_OFF (R651). Overvoltage, overcurrent or aux loss switches the input stage off. -/
  | efuseSwitchOff
  /-- AUX_POWER_UP (R657). P3V3_AUX reaches 3.0 V; SLOT_ID and the trip latch are sampled. -/
  | auxPowerUp (slot : BitVec 6)
  /-- SURPRISE_REMOVAL (R571). PRSNT# deasserts while powered and the device is lost. -/
  | surpriseRemoval
  /-- REGISTER_READ (R548). A register read through BAR0, a mailbox item or the controllers, which clears RC fields and, for an absent unit, returns all ones and records DEV.REGERR and an ACCESS record. -/
  | registerRead (path : RegPath) (off : BitVec 28) (size : BitVec 4)
  /-- NOP (R155). A tile bundle whose slots are all zero issues and advances the PC with no other effect. -/
  | nop (t : TileId) (more : Bool)
  /-- CRU_NOP (R342). A near-memory unit executes the all-zero nop instruction. -/
  | cruNop (n : StackId) (c : UnitAt)
  /-- RESERVED_OPCODE (R10). A tile slot or near-memory instruction with a reserved opcode reaches issue, trapping ILLOP in a tile or aborting the program with BOUND in a unit. -/
  | reservedOpcode (x : OpTarget) (w : BitVec 32)
  /-- VOLTAGE_GLITCH (R472). The voltage glitch detector on a rail fires and raises alarm source 2. -/
  | voltageGlitch
  /-- P3V3_AUX_LOSS (R623). The 3.3 V auxiliary supply is lost, losing the trip latch and switching the input stage off if PWR_EN is high. -/
  | p3v3AuxLoss
  /-- CLK_OK_RISE (R585). CLK_OK rises and the REFCLK settle count starts while PWRGD is high. -/
  | clkOkRise
  /-- CAP_WINDOW_END (R367). A 1 us window of 100 REFCLK cycles ends, and requests held back by FIXED-mode caps or capped bandwidth shares may go again. -/
  | capWindowEnd
  /-- SMOOTH_RAMP_DOWN_END (R103). The ramp-down of dummy density reaches zero after ramp_down cycles and the array becomes quiet. -/
  | smoothRampDownEnd (t : TileId)
  /-- COLLECTIVE_COMMAND_COMPLETE (R437). A collective command that read or wrote memory completes, writing its stack slots and letting the ring take its next command. -/
  | collectiveCommandComplete (c : CtxId) (p : PartId)
  /-- CONFIGURATION_REQUEST (R569). A PCIe configuration request reaches the function and is answered with Configuration Request Retry Status until HIF.LINK.ready is set. -/
  | configurationRequest
  /-- MCTP_ENDPOINT_ID_ASSIGN (R558). The tray controller assigns the module's MCTP endpoint ID, shown in MGT.ID.mctp_eid. -/
  | mctpEndpointIdAssign (eid : BitVec 8)
deriving DecidableEq, Repr

end Sys2Proof
end

