-- ==== Sys2Proof/Decode.lean ====
section
/-! DEFINITION. Commands spelled by words of the opcode table. The table gives no row any bits: a command is an event or an
access of the outside world and has no encoding (the words of tile bundles and near-memory programs are encoded by
`TileOp.word`, R157). -/

namespace Sys2Proof

/-- No word spells a command. [DESIGN CHOICE, log 9] -/
def decodeTableWord (_nbits _w : Nat) : Option Instr := none

end Sys2Proof
end

