-- ==== Sys2Proof/Machine/Keccak.lean ====
section
/-! DEFINITION. SHA-3 and SHAKE (FIPS 202), on which ML-KEM-1024 and ML-DSA-87 rest (R13, R562, R574). -/

namespace Sys2Proof.Machine

namespace Keccak

/-- Round constants of the last step of a round. -/
def roundConstants : List W64 :=
  [0x0000000000000001, 0x0000000000008082, 0x800000000000808A, 0x8000000080008000,
   0x000000000000808B, 0x0000000080000001, 0x8000000080008081, 0x8000000000008009,
   0x000000000000008A, 0x0000000000000088, 0x0000000080008009, 0x000000008000000A]
    ++ [0x000000008000808B, 0x800000000000008B, 0x8000000000008089, 0x8000000000008003,
   0x8000000000008002, 0x8000000000000080, 0x000000000000800A, 0x800000008000000A,
   0x8000000080008081, 0x8000000000008080, 0x0000000080000001, 0x8000000080008008]

/-- How far lane x + 5 y is rotated. -/
def rotations : List Nat :=
  [0, 1, 62, 28, 27, 36, 44, 6, 55, 20, 3, 10, 43, 25, 39, 41, 45, 15, 21, 8, 18, 2, 61, 56, 14]

def lane (a : List W64) (x y : Nat) : W64 := a.getD (x % 5 + 5 * (y % 5)) 0

/-- The parities of neighbouring columns into every lane. -/
def theta (a : List W64) : List W64 :=
  let c := (List.range 5).map fun x => (List.range 5).foldl (fun v y => v ^^^ lane a x y) 0
  (List.range 25).map fun i =>
    a.getD i 0 ^^^ c.getD ((i + 4) % 5) 0 ^^^ (c.getD ((i + 1) % 5) 0).rotateLeft 1

/-- Each lane rotated, then moved: lane (x, y) comes from (x + 3 y, x). -/
def rhoPi (a : List W64) : List W64 :=
  (List.range 25).map fun i =>
    let x := i % 5
    let y := i / 5
    let j := (x + 3 * y) % 5 + 5 * x
    (a.getD j 0).rotateLeft (rotations.getD j 0)

/-- The one step that is not linear. -/
def chi (a : List W64) : List W64 :=
  (List.range 25).map fun i =>
    a.getD i 0 ^^^ (~~~(lane a (i + 1) (i / 5)) &&& lane a (i + 2) (i / 5))

def round (a : List W64) (k : W64) : List W64 :=
  match chi (rhoPi (theta a)) with
  | [] => []
  | x :: rest => (x ^^^ k) :: rest

def permute (a : List W64) : List W64 := roundConstants.foldl round a

/-- A lane of a block, least significant byte first. -/
def laneOf (bs : List Byte) : W64 := BitVec.ofNat 64 (bs.foldr (fun b n => n * 256 + b.toNat) 0)

def absorbBlock (rate : Nat) (a : List W64) (block : List Byte) : List W64 :=
  permute ((List.range 25).map fun i =>
    a.getD i 0 ^^^ (if i < rate / 8 then laneOf ((block.drop (8 * i)).take 8) else 0))

/-- The message with its suffix bits, padded to whole blocks. -/
def pad (rate suffix : Nat) (m : List Byte) : List Byte :=
  let n := rate - m.length % rate
  if n = 1 then m ++ [BitVec.ofNat 8 (suffix + 128)]
  else m ++ [BitVec.ofNat 8 suffix] ++ List.replicate (n - 2) 0 ++ [128]

def absorb (rate suffix : Nat) (m : List Byte) : List W64 :=
  let p := pad rate suffix m
  (List.range (p.length / rate)).foldl (fun a b => absorbBlock rate a ((p.drop (rate * b)).take rate)) (List.replicate 25 0)

def bytesOf (rate : Nat) (a : List W64) : List Byte :=
  (a.take (rate / 8)).flatMap fun x => (List.range 8).map fun i => BitVec.ofNat 8 (x.toNat / 256 ^ i)

/-- `n` blocks of output. -/
def squeeze (rate : Nat) : Nat → List W64 → List Byte
  | 0, _ => []
  | n + 1, a => bytesOf rate a ++ squeeze rate n (permute a)

/-- `n` bytes of output of the sponge of a rate in bytes. -/
def sponge (rate suffix : Nat) (m : List Byte) (n : Nat) : List Byte :=
  (squeeze rate ((n + rate - 1) / rate) (absorb rate suffix m)).take n

end Keccak

def sha3x256 (m : List Byte) : List Byte := Keccak.sponge 136 0x06 m 32
def sha3x512 (m : List Byte) : List Byte := Keccak.sponge 72 0x06 m 64
def shake128 (m : List Byte) (n : Nat) : List Byte := Keccak.sponge 168 0x1F m n
def shake256 (m : List Byte) (n : Nat) : List Byte := Keccak.sponge 136 0x1F m n

/-! ### Polynomials over a prime (FIPS 203, FIPS 204) -/

namespace Poly

/-- The polynomial's value at a point. -/
def eval (q : Nat) (f : List Nat) (x : Nat) : Nat := f.foldr (fun c a => (a * x + c) % q) 0

def power (q x : Nat) : Nat → Nat
  | 0 => 1
  | n + 1 => power q x n * x % q

/-- The lowest `bits` bits in reverse order. -/
def bitRev (bits n : Nat) : Nat := (List.range bits).foldl (fun a i => 2 * a + n / 2 ^ i % 2) 0

/-- The values at the odd powers of `z`, a root of order 2^(bits + 1), in bit-reversed order. -/
def ntt (q z bits : Nat) (f : List Nat) : List Nat :=
  (List.range (2 ^ bits)).map fun i => eval q f (power q z (2 * bitRev bits i + 1))

/-- The polynomial that has the values; `inv` is the inverse of 2^bits. -/
def unNtt (q z bits inv : Nat) (g : List Nat) : List Nat :=
  let h := (List.range (2 ^ bits)).map fun m => g.getD (bitRev bits m) 0
  (List.range (2 ^ bits)).map fun j =>
    let x := power q z (2 ^ (bits + 1) - j)
    inv * x % q * eval q h (x * x % q) % q

def add (q : Nat) (a b : List Nat) : List Nat := List.zipWith (fun x y => (x + y) % q) a b
def sub (q : Nat) (a b : List Nat) : List Nat := List.zipWith (fun x y => (x + q - y % q) % q) a b

/-- `n` fields of `d` bits, least significant bit first. -/
def unpack (d n : Nat) (bs : List Byte) : List Nat :=
  let v := bs.foldr (fun b n => n * 256 + b.toNat) 0
  (List.range n).map fun i => v / 2 ^ (d * i) % 2 ^ d

def pack (d : Nat) (f : List Nat) : List Byte :=
  let v := f.foldr (fun x n => n * 2 ^ d + x) 0
  (List.range (f.length * d / 8)).map fun i => BitVec.ofNat 8 (v / 256 ^ i)

/-- Part `i` of a string cut into parts of `n` bytes. -/
def part (n i : Nat) (bs : List Byte) : List Byte := (bs.drop (n * i)).take n

end Poly

end Sys2Proof.Machine
end

