-- ==== Sys2Proof/Machine/MlDsa.lean ====
section
/-! DEFINITION. ML-DSA-87 signature verification (FIPS 204), under which a firmware manifest is accepted (R13, R574). -/

namespace Sys2Proof.Machine

namespace MlDsa

def q : Nat := 8380417
/-- Rows and columns of the matrix. -/
def k : Nat := 8
def l : Nat := 7
def gamma1 : Nat := 2 ^ 19
def gamma2 : Nat := (q - 1) / 32

def ntt (f : List Nat) : List Nat := Poly.ntt q 1753 8 f
def unNtt (f : List Nat) : List Nat := Poly.unNtt q 1753 8 8347681 f
def mul (a b : List Nat) : List Nat := List.zipWith (fun x y => x * y % q) a b
def zero : List Nat := List.replicate 256 0

/-- Coefficients from a stream of bytes, one candidate in three bytes. -/
def candidates : List Byte → List Nat
  | a :: b :: c :: rest => (a.toNat + 256 * b.toNat + 65536 * (c.toNat % 128)) :: candidates rest
  | _ => []

/-- Entry in row r, column s of the matrix of a public seed; the stream is cut at 20 blocks, as FIPS 204 lets one bound it. -/
def entry (rho : List Byte) (r s : Nat) : List Nat :=
  (((candidates (shake128 (rho ++ [BitVec.ofNat 8 s, BitVec.ofNat 8 r]) 3360)).filter fun x => decide (x < q)) ++ zero).take 256

/-- The next byte of a stream that is at most `i`, and the stream after it. -/
def nextIndex (i : Nat) : List Byte → Nat × List Byte
  | [] => (0, [])
  | b :: rest => if b.toNat ≤ i then (b.toNat, rest) else nextIndex i rest

/-- One step of drawing the challenge: sign number `n`, position 196 + n. -/
def ballStep (signs : Nat) (x : List Nat × List Byte) (n : Nat) : List Nat × List Byte :=
  let i := 196 + n
  let (j, rest) := nextIndex i x.2
  ((x.1.set i (x.1.getD j 0)).set j (if signs.testBit n then q - 1 else 1), rest)

/-- The challenge polynomial of a commitment hash: 60 coefficients are 1 or minus 1. -/
def challenge (ct : List Byte) : List Nat :=
  let out := shake256 ct 1088
  let signs := (out.take 8).foldr (fun b n => n * 256 + b.toNat) 0
  ((List.range 60).foldl (ballStep signs) (zero, out.drop 8)).1

/-- High and low part of a coefficient; the low part shifted by gamma2 to be a natural number. -/
def decompose (r : Nat) : Nat × Nat :=
  let low := (r + gamma2 - 1) % (2 * gamma2)
  let high := (r + gamma2 - 1 - low) / (2 * gamma2)
  if high = 16 then (0, low) else (high, low + 1)

/-- The high part after a hint. -/
def useHint (hint : Bool) (r : Nat) : Nat :=
  let (high, low) := decompose r
  if hint = false then high
  else if gamma2 < low then (high + 1) % 16
  else (high + 15) % 16

/-- The hint positions of row i from the 83 bytes of a signature; none when they are not written as FIPS 204 asks. -/
def hintRow (y : List Byte) (i : Nat) : Option (List Nat) :=
  let bound (j : Nat) : Nat := (y.getD (75 + j) 0).toNat
  let first := if i = 0 then 0 else bound (i - 1)
  let row := ((y.take (bound i)).drop first).map BitVec.toNat
  if bound i < first ∨ 75 < bound i then none
  else if (row.zip (row.drop 1)).all (fun p => decide (p.1 < p.2)) then some row else none

def hints (y : List Byte) : Option (List (List Nat)) :=
  let last := (y.getD 82 0).toNat
  if ((y.take 75).drop last).all (· == 0) then (List.range k).mapM (hintRow y) else none

/-- Absolute value of the representative nearest to 0. -/
def size (x : Nat) : Nat := if x ≤ q / 2 then x else q - x

/-- The signature of 4,627 bytes of a message under a public key of 2,592 bytes verifies, with an empty context. -/
def verify (pk msg sig : List Byte) : Bool :=
  let rho := pk.take 32
  let t1 := (List.range k).map fun i => Poly.unpack 10 256 (Poly.part 320 i (pk.drop 32))
  let ct := sig.take 64
  let z := (List.range l).map fun i => (Poly.unpack 20 256 (Poly.part 640 i (sig.drop 64))).map fun n => (gamma1 + q - n) % q
  let mu := shake256 (shake256 pk 64 ++ [0, 0] ++ msg) 64
  let c := ntt (challenge ct)
  let zs := z.map ntt
  let w (hs : List (List Nat)) (r : Nat) : List Byte :=
    let az := ((List.range l).map fun s => mul (entry rho r s) (zs.getD s zero)).foldl (Poly.add q) zero
    let ct1 := mul c (ntt ((t1.getD r zero).map (· * 2 ^ 13 % q)))
    let v := unNtt (Poly.sub q az ct1)
    Poly.pack 4 ((List.range 256).map fun n => useHint ((hs.getD r []).contains n) (v.getD n 0))
  pk.length == 2592 && sig.length == 4627 && z.all (fun f => f.all fun x => decide (size x < gamma1 - 120))
    && match hints (sig.drop 4544) with
      | none => false
      | some hs => shake256 (mu ++ (List.range k).flatMap (w hs)) 64 == ct

end MlDsa

end Sys2Proof.Machine
end

