-- ==== Sys2Proof/Config.lean ====
section
/-! DEFINITION. Free values: constants without a body, applied to a counter of the state, for every value the spec
leaves open although the machine goes on. Nothing can be proved of such a value, so a claim holds for all of them. -/

namespace Sys2Proof.Config

/-- Nanoseconds since the tick at an error record: timing outside the commitment (R481, R513). [DESIGN CHOICE, log 31] -/
opaque recordTime : Nat → BitVec 48

/-- Whether the last record of a ring was written less than 1 ms before (R516); the model has no clock. [DESIGN CHOICE, log 30] -/
opaque withinMs : Nat → Bool

/-- TILE.CYCLE and TILE.STALLCNT: timing outside the commitment (R59). [DESIGN CHOICE, log 23] -/
opaque cycles : Nat → W64

/-- Cycles of a wait or an idle run whose length the model's missing clock would give: by draw (R92, R102, R116).
[DESIGN CHOICE, log 23] -/
opaque idleCycles : Nat → Nat

/-- Whether a length that kv.append writes to a page table at a peer or in host memory lies within that table's bounds (R212): by
draw. [DESIGN CHOICE, log 122] -/
opaque lengthFits : Nat → Bool

/-- Serial number of the die at a site of NOC.DIEID, by partition and site (R408). [DESIGN CHOICE, log 90] -/
opaque dieSerial : Nat → Nat → W64

/-- Module serial number, fused at manufacture (R565). [DESIGN CHOICE, log 90] -/
opaque serialNumber : W64

/-- Bytes that the random source and the identity key give: by draw and position (R468, R562, R568). [DESIGN CHOICE, log 89] -/
opaque keyByte : Nat → Nat → Byte

/-- Byte of the second key of XTS for a model key of 32 bytes: the spec gives one key of 32 bytes, and XTS takes two (R469, R562).
[DESIGN CHOICE, log 89] -/
opaque tweakKeyByte : List Byte → Nat → Byte

/-- Byte of an image's last unit that no whole block of 16 bytes covers: by model key, unit number, unit and position (R469).
[DESIGN CHOICE, log 89] -/
opaque tailByte : List Byte → Nat → List Byte → Nat → Byte

/-- The partition controllers' own image of the tile fault handler (R275). [DESIGN CHOICE, log 80] -/
opaque handlerImage : List Byte

/-- Bytes that come from another device or from host memory where no command carries them (R263, R539): by draw and
position. [DESIGN CHOICE, log 77] -/
opaque remoteByte : Nat → Nat → Byte

/-- How many earlier errors of a unit lie within the counting window of R518; the model has no clock. By draw.
[DESIGN CHOICE, log 31] -/
opaque stillCounted : Nat → Nat

/-- The class that a THRESH record names for corrected reads, which have no class of their own (R513, R518). [DEDUCED, log 32] -/
opaque correctedClass : BitVec 8

/-- The SEC-DED syndrome that an SRAM_UE record shows (R315, R513): by draw. [DESIGN CHOICE, log 103] -/
opaque secDed : Nat → Byte

/-- Byte of the SHA-384 digest of a firmware component's image, by component and version (R568). [DESIGN CHOICE, log 90] -/
opaque imageDigest : Nat → W64 → Nat → Byte

/-- Byte of the certificate chain in slot 0 (R568). [DESIGN CHOICE, log 90] -/
opaque certByte : Nat → Byte

/-- Versions in a journal record that no register shows: configuration sequence number and compiler version (R499).
[DESIGN CHOICE, log 90] -/
opaque configSeq : Nat → BitVec 32
/-- [DESIGN CHOICE, log 90] -/
opaque compilerVersion : List Byte → W64

/-- Byte of the digest of a firmware key that is fused at a key index, and whether the fuses have revoked the index (R574).
[DESIGN CHOICE, log 90] -/
opaque fusedKeyByte : Nat → Nat → Byte
/-- [DESIGN CHOICE, log 90] -/
opaque keyRevoked : Nat → Bool

/-- Cycles for which a cap holds a request back (R367, R381): by draw. [DESIGN CHOICE, log 53] -/
opaque cappedCycles : Nat → BitVec 16

end Sys2Proof.Config
end

