-- ==== Sys2Proof/Machine/UnitState.lean ====
section
/-! DEFINITION. The state of the data movement queues, the near-memory units, the collective engines and the fabric
(R322 to R382, R412 to R448). -/

namespace Sys2Proof.Machine

/-! ### Data movement queues -/

/-- A posted chain head (R214, R356): address and window, the lo flag, the step its dma.post issued in (R363), the tile's operation
count at the post (R206, R354), and until its first fetch the bytes that later stores of the tile have replaced there (R375). -/
structure ChainHead where
  addr : Nat
  win : Nat
  lo : Bool
  step : W64
  mark : Nat
  kept : Option (List (Nat × Byte))
deriving DecidableEq, Repr

/-- A fetched descriptor: its 64 bytes as the eight words of R351. -/
structure Desc where
  addr : Nat
  win : Nat
  lo : Bool
  step : W64
  mark : Nat
  words : List W64
deriving DecidableEq, Repr

/-- How far a descriptor came: it ended at its fetch, at its start, or was started. -/
inductive DescPhase where
  | fetch | start | moving
deriving DecidableEq, Repr

/-- A started descriptor: stream bytes that have landed, source and destination local-store blocks it holds
(tile × 512 + block), writes to peers not yet acknowledged, the status of an abnormal end (0 none), how far it came, the bytes of a
record of its end that waits for room in the ring (R365), and whether the read of its next line has had its turn while the write still
waits for one (R366). -/
structure Active where
  d : Desc
  pos : Nat
  rd : List Nat
  wr : List Nat
  acks : Nat
  status : Nat
  phase : DescPhase
  owes : Option Nat
  readTurn : Bool
deriving DecidableEq, Repr

/-- State of a queue, coded as DMA.QSTATq.state. -/
inductive QSt where
  | idle | run | halted | cancelling | stopped
deriving DecidableEq, Repr

def QSt.code : QSt → Nat
  | .idle => 0 | .run => 1 | .halted => 2 | .cancelling => 3 | .stopped => 4

structure Queue where
  st : QSt
  heads : List ChainHead
  /-- Where the next fetch of the running chain reads. -/
  chain : Option ChainHead
  fetched : List Desc
  active : List Active
  done : Nat
  dropped : Nat
  lastStatus : Nat
  /-- The first descriptor a cancellation dropped. -/
  firstDropped : Nat
deriving DecidableEq, Repr

/-- [DESIGN CHOICE, log 7] -/
def Queue.reset : Queue := ⟨.idle, [], none, [], [], 0, 0, 0, 0⟩

/-! ### Near-memory units -/

/-- A dot-product accumulator set: formats and the steps since cd.set or cd.fin, newest first (R343). [DEDUCED, log 49] -/
structure AccSet where
  wfmt : BitVec 3
  ifmt : BitVec 3
  steps : List (List Byte × Byte)
deriving DecidableEq, Repr

/-- A cm.in in flight: store offset and the lines it reads (R342). -/
structure CmIn where
  store : Nat
  addr : Nat
  count : Nat
deriving DecidableEq, Repr

/-- Lines on the shared bus (R344). -/
structure BusLine where
  unit : Nat
  store : Nat
  bytes : List Byte
deriving DecidableEq, Repr

/-- How a unit stands in its launch. -/
inductive UnitSt where
  | idle | run | boundary | ended | aborted (status : Nat) (faulty : Bool)
deriving DecidableEq, Repr

structure CruUnit where
  /-- The instruction memory, 4,096 words, and where the program image it holds came from: its address and count (R322, R331). -/
  imem : List W32
  image : Nat × Nat
  st : UnitSt
  launch : Nat
  pc : Nat
  g : SMap W32
  f : SMap (BitVec 512)
  store : SMap (List Byte)
  accs : SMap AccSet
  /-- Slot to first granule (channel-local address / 4096) and granule count. -/
  leases : SMap (Nat × Nat)
  received : Nat
  reads : List CmIn
  bus : List BusLine
  leaseExpired : Bool
  /-- Its boundary is being performed: host-side accesses pass its leases (R336). -/
  pass : Bool
  disabled : Bool
deriving DecidableEq, Repr

/-- [DESIGN CHOICE, log 7] -/
def CruUnit.reset : CruUnit :=
  ⟨[], (0, 0), .idle, 0, 0, SMap.empty, SMap.empty, SMap.empty, SMap.empty, SMap.empty, 0, [], [], false, false, false⟩

/-- A launch: the record it came from, how often units have been rerun, and the unit that the shared bus served last (R330 to R333,
R344, R346). -/
structure Launch where
  ctx : Nat
  part : Nat
  record : Nat
  stack : Nat
  mask : Nat
  image : Nat
  count : Nat
  args : Nat
  argLines : Nat
  handle : BitVec 64
  amount : Nat
  param : BitVec 64
  started : Bool
  failures : Nat
  busTurn : Nat
deriving DecidableEq, Repr

/-! ### Collective engines -/

/-- A merge stack of a collective ring: kind, length in bytes, D / 64, count of level-0 nodes, and the slots by level
(R132, R438). -/
structure MergeStack where
  kind : Nat
  len : Nat
  dim : Nat
  count : Nat
  slots : SMap (List Byte)
deriving DecidableEq, Repr

/-- The command a ring is executing: its words, the bytes it has read or will write by offset, whether its message has
been sent, and how often the peer has asked for it again. -/
structure CollCmd where
  words : List W64
  parts : SMap (List Byte)
  sent : Bool
  again : Nat
deriving DecidableEq, Repr

/-- Room reserved for a message and what has arrived of it (R441). -/
structure Landing where
  peer : Nat
  tag : Nat
  len : Nat
  bytes : List Byte
  complete : Bool
  asked : Nat
deriving DecidableEq, Repr

structure CollRing where
  pos : Nat
  halted : Bool
  merge : SMap MergeStack
  cur : Option CollCmd
  landing : List Landing
  /-- Peers and tags whose clear-to-send has come. -/
  cts : List (Nat × Nat)
deriving DecidableEq, Repr

/-- [DESIGN CHOICE, log 7] -/
def CollRing.reset : CollRing := ⟨0, false, SMap.empty, none, [], []⟩

/-! ### Fabric -/

/-- Who waits for the answer of a fabric request. -/
inductive Requester where
  | mem (r : Nat)
  | dmaRead (q : Nat) (desc : Nat)
  | dmaWrite (q : Nat) (desc : Nat)
  /-- A line request of a queue whose descriptor has been cancelled (R374). -/
  | dropped (q : Nat)
  | signal
  /-- Bytes of a collective command: context, partition, offset. -/
  | coll (c p off : Nat)
  | probe (c : Nat)
deriving DecidableEq, Repr

/-- A request that has not been answered (R418, R419), with the partition that sends it, the packets sent so far, and
whether there was room for it among the 4,096 unanswered packets of its destination and channel. -/
structure FabReq where
  pkt : Packet
  vc : Nat
  who : Requester
  tries : Nat
  part : Nat
  sent : Bool
deriving DecidableEq, Repr

/-- Link layer of one port (R415, R416): next sequence numbers, whether it waits for a resent flit, sequence numbers in
the retry buffer, credits by virtual channel, and packets that wait for room in the retry buffer. [DESIGN CHOICE, log 61] -/
structure Link where
  rx : Nat
  tx : Nat
  waiting : Bool
  retry : List Nat
  credits : SMap Nat
  queue : List Packet
deriving DecidableEq, Repr

def Link.reset : Link := ⟨0, 0, false, [], SMap.empty, []⟩

structure Fabric where
  /-- Next transport sequence number by destination × 4 + channel. -/
  send : SMap Nat
  /-- Next expected sequence number by source × 4 + channel. -/
  recv : SMap Nat
  out : List FabReq
  /-- Packets ahead of a gap, by channel (R418). -/
  reorder : List (Nat × Packet)
  /-- Answers kept for duplicates, newest first, or that a performed request has none (R419). -/
  answers : List (Nat × Nat × Option Packet)
  links : SMap Link
  /-- Devices declared lost (R542). -/
  lost : List Nat
  /-- Requests dropped (R422, R427). -/
  drops : Nat
  /-- DepartDevice is in progress (R444). -/
  departing : Bool
  /-- Ports whose neighbour has sent DEPART. -/
  departed : List Nat
  /-- The ID of this device that a neighbour has announced as its own (R420). -/
  dupId : Option Nat
deriving DecidableEq, Repr

def Fabric.reset : Fabric := ⟨SMap.empty, SMap.empty, [], [], [], SMap.empty, [], 0, false, [], none⟩

/-- Tick distribution (R431 to R436): the tick announced and not fired, whether a NOT_READY for it has come to the master,
whether one has been sent, whether the master has passed its decision point, whether this device was not ready at the
check, the ports on which children probe this device, whether a probe is outstanding, and whether this backup has taken over from the
master (R436). -/
structure TickState where
  announced : Option Nat
  notReady : Bool
  sentNotReady : Bool
  decided : Bool
  missed : Bool
  children : Nat
  probing : Bool
  acting : Bool
deriving DecidableEq, Repr

def TickState.reset : TickState := ⟨none, false, false, false, false, 0, false, false⟩

end Sys2Proof.Machine
end

