-- ==== Sys2Proof/Machine/DeviceState.lean ====
section
/-! DEFINITION. The state of contexts and their planners, and of the board: power, start, flash, keys, sensors and
pending repairs (R254 to R264, R449 to R478, R488 to R512, R538 to R578, R583 to R657). -/

namespace Sys2Proof.Machine

/-! ### Contexts -/

/-- A memory window of a context (R456). -/
structure Window where
  valid : Bool
  f : Bool
  x : Bool
  w : Bool
  r : Bool
  kind : BitVec 3
  base : Nat
  limit : Nat
  /-- Destination device of a remote window, or region of a host window. -/
  dest : Nat
deriving DecidableEq, Repr

/-- A ring of R454: base address, order k, doorbell index, bulk queue. -/
structure RingDef where
  base : Nat
  k : Nat
  doorbell : Nat
  queue : Nat
deriving DecidableEq, Repr

/-- The three rings of a context in one partition, and how many entries of each have been taken. -/
structure CtxRings where
  launch : Option RingDef
  post : Option RingDef
  coll : Option RingDef
  launched : Nat
  posted : Nat
deriving DecidableEq, Repr

/-- A live sequence of a planner (R255, R500): request tag, positions of the prompt still to process, maximum length, the
length that the last planned step reaches and its positions in that step, its page tables by layer × 4096 + KV head, and
whether the last plan stalled it. -/
structure Seq where
  id : Nat
  tag : Nat
  prompt : Nat
  maxLen : Nat
  len : Nat
  span : Nat
  tables : SMap Nat
  stalled : Bool
deriving DecidableEq, Repr

/-- A pool region: address, size code, format, cold layout. -/
structure PageRegion where
  addr : Nat
  size : Nat
  fmt : Nat
  cold : Bool
deriving DecidableEq, Repr

/-- An arena of R257: its range, high-water mark and free regions (R258). -/
structure Arena where
  base : Nat
  size : Nat
  mark : Nat
  free : List PageRegion
deriving DecidableEq, Repr

/-- A page copied before a tick and named by its table's entry at it (R263, R265): table, entry, new and original descriptors,
bytes to copy, and for a cold page its format and dimension. -/
structure PageMove where
  table : Nat
  e : Nat
  d : Nat
  orig : Nat
  n : Nat
  cold : Option (Nat × Nat)
deriving DecidableEq, Repr

/-- A plan of one step (R254, R500): its admission entries in order, the page tables it names, counts of sequences advanced
and STALLED, and the completion entries it has produced so far. -/
structure StepPlan where
  step : W64
  entries : List (List Byte)
  named : List Nat
  advanced : Nat
  stalled : Nat
  completions : List (List Byte)
  moves : List PageMove
deriving DecidableEq, Repr

/-- A planner (R254): live sequences, arenas, pages waiting for the free list with the step whose tick frees them and their
arena (R264), the last step planned, the plans by step parity, a plan that waits for the
stall sets of peers with the sets heard so far (R501), and the statistics of the last plan (R271). -/
structure Planner where
  seqs : List Seq
  arenas : SMap Arena
  freeing : List (W64 × Nat × PageRegion)
  planned : Option W64
  plans : SMap StepPlan
  waiting : Option PlanIn
  union : List Nat
  heard : List Nat
  nAlloc : Nat
  nCopies : Nat
  nStalled : Nat
  nFreed : Nat
deriving DecidableEq, Repr

def Planner.reset : Planner := ⟨[], SMap.empty, [], none, SMap.empty, none, [], [], 0, 0, 0, 0⟩

/-- Why a context is held (R464, R503, R556, R572, R576, R627, R542, R444). -/
inductive HoldWhy where
  | driver | firmware | flow | hostLink | journal | queueRoom | peerLost | depart
deriving DecidableEq, Repr

/-- A regeneration (R504 to R507): the next step, the last one, the address of the next record, and the record of the step
before. -/
structure Regen where
  next : W64
  last : W64
  place : Nat
  before : List Byte
deriving DecidableEq, Repr

/-- A recovery point (R538): its step, whether the local copy and the partner's copy of the parity data are acknowledged,
and what the local copy holds of the planner and the committed lengths (table address and C). -/
structure RecPoint where
  step : W64
  parityDone : Bool
  planner : Planner
  lens : List (Nat × Nat)
deriving DecidableEq, Repr

/-- A loaded context (R452 to R463). -/
structure Ctx where
  /-- Firmware's copy of the context record. -/
  record : List Byte
  secure : Bool
  fabric : Bool
  /-- Physical partitions of the logical partition. -/
  mask : Nat
  seed : W64
  entry : Nat
  tiles : List Nat
  kvBlock : Nat
  /-- Address of the peer table, 0 when there is none (R455). -/
  peerTable : Nat
  startStep : W64
  windows : SMap Window
  nextWindows : Option (SMap Window)
  rings : SMap CtxRings
  /-- Ring positions and doorbell values at the tick that started the step (R494, R533). -/
  snapRings : SMap CtxRings
  snapColl : SMap Nat
  snapObjs : SMap W64
  /-- StartContext commands that wait for the load to complete (R464). -/
  startCmds : List Cmd
  startNext : Bool
  /-- Kind of a preemption of the whole context in progress: none, step, urgent. -/
  preempting : Nat
  holds : List HoldWhy
  /-- The step record of the uncommitted step has been appended (R502): its bytes in each member's ring. -/
  appended : Option (SMap (List Byte))
  /-- Last journal record of the context in each member's ring, for the chain hash. -/
  lastRecord : SMap (List Byte)
  /-- Inbound objects with their step parity (R484). -/
  inbound : List (Nat × Bool)
  /-- Tick period at the step's first tick (R499). -/
  firstPeriod : Nat
  /-- A revival deferred under R520, with the peer it waits for. -/
  deferred : Option Nat
  /-- Cause of a revival that waits for a release or a quiesced unit (R572, R622). -/
  waiting : Option Nat
  slips : Nat
  firstTick : Nat
  /-- Page tables whose committed length is still to follow the commit, with that length (R491). -/
  folds : List (Nat × Nat)
  planner : Planner
  regen : Option Regen
  partner : Option Nat
  recPoint : Option RecPoint
  /-- The last complete recovery point. -/
  lastPoint : Option RecPoint
  queueOrder : Nat
  /-- Place of the load among those of the loaded contexts (R568). -/
  loadNo : Nat
  /-- RESIDUE traps in the run of the step of each tile that has been saved (R68). -/
  residues : SMap Nat
deriving DecidableEq, Repr

/-! ### Board -/

/-- A pending repair or package-map record (R283, R316, R408): type, word A, word B, and the source, 0 screening, 1 package test,
2 field. -/
structure MapRec where
  typ : Nat
  a : Nat
  b : Nat
  src : Nat
deriving DecidableEq, Repr

/-- A record that firmware writes in the field. -/
def MapRec.field (typ a b : Nat) : MapRec := ⟨typ, a, b, 2⟩

/-- One copy of the package map in the flash: its checks pass as last read, its sequence number and its records (R406). -/
structure MapCopy where
  valid : Bool
  seq : Nat
  recs : List MapRec
deriving DecidableEq, Repr

/-- The strap code that site `j` of NOC.DIEID of partition `p` must read (R400, R411). -/
def strapOf (p j : Nat) : Nat :=
  if j = 0 then 8 + p else if j = 1 then 16 else if j < 6 then 24 + (j - 2) else if j < 10 then 40 + (j - 6)
  else 32 + (if p = 0 then 0 else 1)

/-- The die-identity record of a site (R408). -/
def identRec (p j : Nat) : MapRec := ⟨1, strapOf p j + p * 2 ^ 8, (Config.dieSerial p j).toNat, 1⟩

/-- The records that the package test leaves of an S32X2 without a defect: the identity of every die. [DESIGN CHOICE, log 8] -/
def identRecs : List MapRec :=
  (List.range 8).flatMap fun p => ((List.range 10) ++ if p = 0 ∨ p = 7 then [10] else []).map (identRec p)

/-- Flash contents: package map, training record, firmware banks and delivery (R406, R573 to R578, R597). -/
structure Flash where
  /-- The copies A and B of the package map (R406). -/
  mapA : MapCopy
  mapB : MapCopy
  trained : Bool
  /-- Active bank of each component, and versions by component × 2 + bank. -/
  bank : SMap Nat
  version : SMap W64
  /-- Digest of the manifest being delivered, chunk digests, stored chunks by number, and processors in activation order
  (component × 16 + index). -/
  manifest : List Byte
  digests : List (List Byte)
  chunks : SMap (List Byte)
  order : List Nat
  /-- The compatibility matrix (R574). -/
  matrix : List Accepts
  staged : SMap W64
  bothFormats : Bool
  /-- Rows that the stacks' own post-package repair has replaced, by stack × 32 + pseudo-channel (R316). -/
  rowRepairs : SMap Nat
deriving DecidableEq, Repr

/-- [DESIGN CHOICE, log 8] -/
def Flash.reset : Flash :=
  ⟨⟨true, 1, identRecs⟩, ⟨false, 0, []⟩, true, SMap.empty, SMap.empty, [], [], SMap.empty, [], [], SMap.empty, false, SMap.empty⟩

namespace Flash

/-- Copy B governs: it is valid, and A is not or has the lower sequence number (R406). -/
def newer (f : Flash) : Bool := f.mapB.valid && (!f.mapA.valid || decide (f.mapA.seq < f.mapB.seq))

/-- Some copy is valid. -/
def mapValid (f : Flash) : Bool := f.mapA.valid || f.mapB.valid

/-- The copy that governs. -/
def governing (f : Flash) : MapCopy := if f.newer then f.mapB else f.mapA

def mapSeq (f : Flash) : Nat := f.governing.seq

/-- The records in force; with no valid copy there are none (R407). -/
def mapRecs (f : Flash) : List MapRec := if f.mapValid then f.governing.recs else []

/-- Firmware writes a new map in full into the other copy and reads it back (R406). A map that would hold more than 8,190 records is
not written. [DESIGN CHOICE, log 136] -/
def writeMap (f : Flash) (recs : List MapRec) : Flash :=
  let c : MapCopy := ⟨true, f.mapSeq + 1, recs⟩
  if 8190 < recs.length then f else if f.newer then { f with mapA := c } else { f with mapB := c }

end Flash

structure Board where
  aux : Bool
  pwrEn : Bool
  input : Bool
  clkOk : Bool
  perst : Bool
  /-- The settle count is running, and REFCLK is trusted. -/
  settling : Bool
  settled : Bool
  /-- The start is the retry of R594. -/
  retry : Bool
  restart : Bool
  /-- A start step trained a unit in full. -/
  trainedFull : Bool
  lost : Bool
  /-- The input stage switched off; the module waits for PWR_EN to fall (R651). -/
  powerFault : Bool
  tripped : Bool
  powerCycleRequest : Bool
  flash : Flash
  /-- Processors still to activate and already activated (R576). -/
  activating : List Nat
  activated : List Nat
  previous : SMap Nat
  /-- Memory keys, model keys (partition × 16 + slot) and the wrap key: the draw each came from. -/
  memKeys : SMap Nat
  modelKeys : SMap (List Byte)
  wrapKey : Option Nat
  wrapCount : Nat
  wrapUses : Nat
  idKey : Bool
  restricted : Bool
  /-- Windows in a row at or below L - 50 W, and windows since B last rose (R613). -/
  calm : Nat
  sinceRise : Nat
  /-- Milliseconds a partition has been 10 A below, and over at step 6 (R615). -/
  below : SMap Nat
  overTen : SMap Nat
  /-- Thermal gap of each tile (R621). -/
  thermalGap : SMap Nat
  /-- Samples in a row at or above 115 °C, by sensor (R623). -/
  hot : SMap Nat
  /-- Last raw reading of each sensor, sensors that firmware found stuck, the highest tile frequency that R621 allows each die,
  and limiter windows since a tile of it was above its target. -/
  raw : SMap (BitVec 16)
  stuck : List Nat
  thermFreq : SMap Nat
  cool : SMap Nat
  flowStop : Bool
  undervolt : Bool
  outletHot : Bool
  goodReports : Nat
  /-- Repairs waiting for the next partition reset and lane repairs for the next chip reset. -/
  repairs : List MapRec
  lanes : List MapRec
  /-- Tile ports out of service, by partition × 272 + physical position (R396, R599). -/
  badPorts : List Nat
  retireTiles : List Nat
  /-- Tiles that a start counts as failing before their tests (R600, R601). -/
  startFail : List Nat
  arrayTests : List (Nat × Nat)
  /-- Errors counted for the thresholds of R518, by address × 8 and what is counted there. -/
  counts : SMap Nat
  /-- Ports given to other partitions, and hosted state of BAR2. -/
  bar2Size : Nat
  /-- Scrub passes in progress: region to (generation at its start, a clear was accepted). -/
  scrubs : SMap (Nat × Bool)
  /-- Clears that wait for a pass or a lease: partition, region, and whether a request of CAP.GENCLR asked for it. -/
  clearWait : List (Nat × Nat × Bool)
  /-- 64 KiB blocks that a context's windows left while their region could not be cleared, with the context, 512 for one that has been
  torn down (R314). -/
  unclean : List (Nat × Nat)
  /-- What the planner's journaled allocation puts into the page tables: the descriptor by the entry's address, and a table's entry
  count by the address of its count (R68, R242). -/
  tablePages : SMap Nat
  /-- Firmware region of each partition once step 9 has placed it (R275). -/
  fwPlaces : SMap Nat
  /-- Way changes whose write-back has not finished: partition × 16 + way (R297). -/
  wayWait : List Nat
  wayReady : List Nat
  i3cAddr : Nat
  /-- Retries of one die-to-die flit in a row, by edge × 16 + module (R394). -/
  d2dFails : SMap Nat
  /-- Tile firmware blocks resent, by tile (R601). -/
  fwResend : SMap Nat
  /-- Next crozier wave. -/
  wave : Nat
  /-- Level that last set a field, by offset × 64 + lowest bit: 1 basic, 2 expert (R17). -/
  setBy : SMap Nat
  /-- The same for fields whose value is still in a shadow copy. -/
  setNext : SMap Nat
  /-- Recovery partitions whose uncommitted steps are revived when the reset ends. -/
  groupNext : SMap Nat
deriving DecidableEq, Repr

/-- The board after power-up with a defect-free package map and PERST# asserted. [DESIGN CHOICE, log 8] -/
def Board.reset : Board :=
  { aux := true, pwrEn := false, input := false, clkOk := false, perst := true, settling := false, settled := false,
    retry := false, restart := false, trainedFull := false, lost := false, powerFault := false, tripped := false, powerCycleRequest := false,
    flash := Flash.reset, activating := [], activated := [], previous := SMap.empty, memKeys := SMap.empty,
    modelKeys := SMap.empty, wrapKey := none, wrapCount := 0, wrapUses := 0, idKey := false, restricted := false,
    calm := 0, sinceRise := 0, below := SMap.empty, overTen := SMap.empty, thermalGap := SMap.empty, hot := SMap.empty, raw := SMap.empty, stuck := [],
    thermFreq := SMap.empty, cool := SMap.empty, flowStop := false, undervolt := false, outletHot := false, goodReports := 0, repairs := [], lanes := [], badPorts := [],
    retireTiles := [], startFail := [], arrayTests := [], counts := SMap.empty, bar2Size := 0x40000000, scrubs := SMap.empty, clearWait := [], unclean := [], tablePages := SMap.empty, fwPlaces := SMap.empty,
    wayWait := [], wayReady := [], i3cAddr := 0, d2dFails := SMap.empty, fwResend := SMap.empty, wave := 0,
    setBy := SMap.empty, setNext := SMap.empty, groupNext := SMap.empty }

end Sys2Proof.Machine
end

