-- ==== Sys2Proof/Machine/RegTable.lean ====
section
/-! DEFINITION. The register map (R34 to R37, R77, R78, R115, R116, R153, R230, R270, R271, R319 to R321, R349,
R380 to R382, R411, R447, R448, R478, R512, R546, R549, R582, R608, R633, R662): BAR0 offsets, fields, access codes,
reset values and published ranges. -/

namespace Sys2Proof.Machine

/-- Access codes of R8. -/
inductive Acc where
  | ro | rw | rws | w1c | wo | rc
deriving DecidableEq, Repr

/-- Bits [hi:lo] of a register. -/
structure Fld where
  hi : Nat
  lo : Nat
deriving DecidableEq, Repr

/-- One field of a register table: bits, access, reset value (a strap, fuse, latch or flash value is supplied by
`RegTab.fixedField`) and the range of values it takes, others being reserved. -/
structure FieldDef where
  hi : Nat
  lo : Nat
  acc : Acc
  rst : Nat
  lim : Option (Nat × Nat)
deriving DecidableEq, Repr

/-- One register or register array: name, BAR0 offset and the count and stride of each index. -/
structure RegDef where
  name : String
  base : Nat
  dims : List (Nat × Nat)
  fields : List FieldDef
deriving DecidableEq, Repr

/-! ### Offsets -/

/-- DEV.VARIANT (R34). -/
def R.devVariant : Nat := 0x00000008
/-- DEV.STACKS (R35). -/
def R.devStacks : Nat := 0x00000010
/-- DEV.TICKPER (R512). -/
def R.devTickper : Nat := 0x00000040
/-- DEV.RESET (R546). -/
def R.devReset : Nat := 0x00000048
/-- DEV.RSTSTAT (R546). -/
def R.devRststat : Nat := 0x00000050
/-- DEV.COMMIT (R37). -/
def R.devCommit : Nat := 0x00000058
/-- DEV.REGERR (R549). -/
def R.devRegerr : Nat := 0x00000060
/-- PART.GROUP (R478). -/
def R.partGroup (i : Nat) : Nat := 0x01000000 + 0x10000 * i
/-- PART.STATUS (R478). -/
def R.partStatus (i : Nat) : Nat := 0x01000008 + 0x10000 * i
/-- PART.FENCE (R478). -/
def R.partFence (i : Nat) : Nat := 0x01000010 + 0x10000 * i
/-- PART.RESET (R546). -/
def R.partReset (i : Nat) : Nat := 0x01000020 + 0x10000 * i
/-- PART.RSTSTAT (R546). -/
def R.partRststat (i : Nat) : Nat := 0x01000028 + 0x10000 * i
/-- PART.RECOVCTL (R546). -/
def R.partRecovctl (i : Nat) : Nat := 0x01000030 + 0x10000 * i
/-- PART.JBASE (R512). -/
def R.partJbase (i : Nat) : Nat := 0x01000100 + 0x10000 * i
/-- PART.JHEAD (R512). -/
def R.partJhead (i : Nat) : Nat := 0x01000108 + 0x10000 * i
/-- PART.JTAIL (R512). -/
def R.partJtail (i : Nat) : Nat := 0x01000110 + 0x10000 * i
/-- PART.JSTAT (R512). -/
def R.partJstat (i : Nat) : Nat := 0x01000118 + 0x10000 * i
/-- PART.REPLAY (R512). -/
def R.partReplay (i : Nat) : Nat := 0x01000120 + 0x10000 * i
/-- PART.REPLAYSTEP (R512). -/
def R.partReplaystep (i : Nat) : Nat := 0x01000128 + 0x10000 * i
/-- PART.KVCTL (R271). -/
def R.partKvctl (i : Nat) : Nat := 0x01000800 + 0x10000 * i
/-- PART.KVSTAT (R271). -/
def R.partKvstat (i : Nat) : Nat := 0x01000808 + 0x10000 * i
/-- CTX.STATE (R478). -/
def R.ctxState (i : Nat) : Nat := 0x02000000 + 0x40 * i
/-- CTX.RECORD (R478). -/
def R.ctxRecord (i : Nat) : Nat := 0x02000008 + 0x40 * i
/-- CTX.SHARE (R478). -/
def R.ctxShare (i : Nat) : Nat := 0x02000010 + 0x40 * i
/-- CTX.DRAIN (R478). -/
def R.ctxDrain (i : Nat) : Nat := 0x02000018 + 0x40 * i
/-- CTX.CMD (R478). -/
def R.ctxCmd (i : Nat) : Nat := 0x02000020 + 0x40 * i
/-- CTX.COMMIT (R512). -/
def R.ctxCommit (i : Nat) : Nat := 0x02000028 + 0x40 * i
/-- CTX.REVIVE (R512). -/
def R.ctxRevive (i : Nat) : Nat := 0x02000030 + 0x40 * i
/-- CTX.RPOINT (R546). -/
def R.ctxRpoint (i : Nat) : Nat := 0x02000038 + 0x40 * i
/-- SYN.OBJ (R478). -/
def R.synObj (i : Nat) (j : Nat) : Nat := 0x03000000 + 0x20000 * i + 0x8 * j
/-- SYN.OWNb (R478). -/
def R.synOwn (i : Nat) (j : Nat) : Nat := 0x03100000 + 0x800 * i + 0x8 * j
/-- SYN.SIG (R478). -/
def R.synSig (i : Nat) (j : Nat) : Nat := 0x03200000 + 0x20000 * i + 0x8 * j
/-- CAP.FARCTL (R321). -/
def R.capFarctl (i : Nat) : Nat := 0x04000000 + 0x10000 * i
/-- CAP.GENCLR (R321). -/
def R.capGenclr (i : Nat) : Nat := 0x04000008 + 0x10000 * i
/-- CAP.GENSTAT (R321). -/
def R.capGenstat (i : Nat) : Nat := 0x04000010 + 0x10000 * i
/-- CAP.SCRUB (R321). -/
def R.capScrub (i : Nat) : Nat := 0x04000018 + 0x10000 * i
/-- CAP.RETIRE (R321). -/
def R.capRetire (i : Nat) : Nat := 0x04000020 + 0x10000 * i
/-- CAP.ORPHAN (R321). -/
def R.capOrphan (i : Nat) : Nat := 0x04000028 + 0x10000 * i
/-- CAP.SPARE (R321). -/
def R.capSpare (i : Nat) : Nat := 0x04000030 + 0x10000 * i
/-- CRU.DISP (R349). -/
def R.cruDisp (i : Nat) : Nat := 0x04000100 + 0x10000 * i
/-- CAP.STATUS (R321). -/
def R.capStatus (i : Nat) (j : Nat) : Nat := 0x04001000 + 0x10000 * i + 0x1000 * j
/-- CAP.ECC (R321). -/
def R.capEcc (i : Nat) (j : Nat) : Nat := 0x04001008 + 0x10000 * i + 0x1000 * j
/-- CAP.REPAIR (R321). -/
def R.capRepair (i : Nat) (j : Nat) : Nat := 0x04001010 + 0x10000 * i + 0x1000 * j
/-- CRU.CTL (R349). -/
def R.cruCtl (i : Nat) (j : Nat) : Nat := 0x04001800 + 0x10000 * i + 0x1000 * j
/-- CRU.STAT (R349). -/
def R.cruStat (i : Nat) (j : Nat) : Nat := 0x04001808 + 0x10000 * i + 0x1000 * j
/-- CRU.FAULT (R349). -/
def R.cruFault (i : Nat) (j : Nat) : Nat := 0x04001810 + 0x10000 * i + 0x1000 * j
/-- SCA.CTL (R320). -/
def R.scaCtl (i : Nat) : Nat := 0x05000000 + 0x1000 * i
/-- SCA.STAT (R320). -/
def R.scaStat (i : Nat) : Nat := 0x05000008 + 0x1000 * i
/-- SCA.ECC (R320). -/
def R.scaEcc (i : Nat) : Nat := 0x05000010 + 0x1000 * i
/-- SCA.WAYw (R320). -/
def R.scaWay (i : Nat) (j : Nat) : Nat := 0x05000100 + 0x1000 * i + 0x8 * j
/-- BULK.CTL (R382). -/
def R.bulkCtl (i : Nat) : Nat := 0x06000000 + 0x10000 * i
/-- BULK.QCTLq (R382). -/
def R.bulkQctl (i : Nat) (j : Nat) : Nat := 0x06001000 + 0x10000 * i + 0x40 * j
/-- BULK.QSTATq (R382). -/
def R.bulkQstat (i : Nat) (j : Nat) : Nat := 0x06001008 + 0x10000 * i + 0x40 * j
/-- BULK.QRINGq (R382). -/
def R.bulkQring (i : Nat) (j : Nat) : Nat := 0x06001010 + 0x10000 * i + 0x40 * j
/-- BULK.QNEXTq (R382). -/
def R.bulkQnext (i : Nat) (j : Nat) : Nat := 0x06001018 + 0x10000 * i + 0x40 * j
/-- BULK.QPRODq (R382). -/
def R.bulkQprod (i : Nat) (j : Nat) : Nat := 0x06001020 + 0x10000 * i + 0x40 * j
/-- BULK.QPOSTq (R382). -/
def R.bulkQpost (i : Nat) (j : Nat) : Nat := 0x06001028 + 0x10000 * i + 0x40 * j
/-- NOC.DIEIDj (R411). -/
def R.nocDieid (i : Nat) (j : Nat) : Nat := 0x07000000 + 0x10000 * i + 0x8 * j
/-- NOC.TMAPi (R411). -/
def R.nocTmap (i : Nat) (j : Nat) : Nat := 0x07000800 + 0x10000 * i + 0x8 * j
/-- NOC.OMAPk (R411). -/
def R.nocOmap (i : Nat) (j : Nat) : Nat := 0x07001000 + 0x10000 * i + 0x8 * j
/-- NOC.EDGEe (R411). -/
def R.nocEdge (i : Nat) : Nat := 0x07080000 + 0x10 * i
/-- NOC.EDGEERRe (R411). -/
def R.nocEdgeerr (i : Nat) : Nat := 0x07080008 + 0x10 * i
/-- TILE.ID (R78). -/
def R.tileId (i : Nat) : Nat := 0x08000000 + 0x1000 * i
/-- TILE.STATUS (R78). -/
def R.tileStatus (i : Nat) : Nat := 0x08000008 + 0x1000 * i
/-- TILE.PC (R78). -/
def R.tilePc (i : Nat) : Nat := 0x08000010 + 0x1000 * i
/-- TILE.STEP (R78). -/
def R.tileStep (i : Nat) : Nat := 0x08000018 + 0x1000 * i
/-- TILE.STEPCTL (R78). -/
def R.tileStepctl (i : Nat) : Nat := 0x08000020 + 0x1000 * i
/-- TILE.TRAP (R78). -/
def R.tileTrap (i : Nat) : Nat := 0x08000028 + 0x1000 * i
/-- TILE.TRAP_PC (R78). -/
def R.tileTrapPc (i : Nat) : Nat := 0x08000030 + 0x1000 * i
/-- TILE.RESUME_PC (R78). -/
def R.tileResumePc (i : Nat) : Nat := 0x08000038 + 0x1000 * i
/-- TILE.TRAP_OP (R78). -/
def R.tileTrapOp (i : Nat) : Nat := 0x08000040 + 0x1000 * i
/-- TILE.TRAP_ADDR (R78). -/
def R.tileTrapAddr (i : Nat) : Nat := 0x08000048 + 0x1000 * i
/-- TILE.FH_BASE (R78). -/
def R.tileFhBase (i : Nat) : Nat := 0x08000050 + 0x1000 * i
/-- TILE.SAVE_BASE (R78). -/
def R.tileSaveBase (i : Nat) : Nat := 0x08000058 + 0x1000 * i
/-- TILE.PREEMPT (R78). -/
def R.tilePreempt (i : Nat) : Nat := 0x08000060 + 0x1000 * i
/-- TILE.CYCLE (R78). -/
def R.tileCycle (i : Nat) : Nat := 0x08000068 + 0x1000 * i
/-- TILE.STALLCNT (R78). -/
def R.tileStallcnt (i : Nat) : Nat := 0x08000070 + 0x1000 * i
/-- TILE.IBUF (R78). -/
def R.tileIbuf (i : Nat) : Nat := 0x08000078 + 0x1000 * i
/-- TILE.LSTAG0 (R78). -/
def R.tileLstag (i : Nat) (j : Nat) : Nat := 0x08000200 + 0x1000 * i + 0x8 * j
/-- MXA.STATUS (R116). -/
def R.mxaStatus (i : Nat) : Nat := 0x08000400 + 0x1000 * i
/-- MXA.REPAIR (R116). -/
def R.mxaRepair (i : Nat) : Nat := 0x08000408 + 0x1000 * i
/-- MXA.SMOOTH (R116). -/
def R.mxaSmooth (i : Nat) : Nat := 0x08000410 + 0x1000 * i
/-- MXA.THROTTLE (R116). -/
def R.mxaThrottle (i : Nat) : Nat := 0x08000418 + 0x1000 * i
/-- MXA.RESIDUE (R116). -/
def R.mxaResidue (i : Nat) : Nat := 0x08000420 + 0x1000 * i
/-- MXA.PASSCNT (R116). -/
def R.mxaPasscnt (i : Nat) : Nat := 0x08000428 + 0x1000 * i
/-- MXA.BUSYCNT (R116). -/
def R.mxaBusycnt (i : Nat) : Nat := 0x08000430 + 0x1000 * i
/-- MXA.ACCERR (R116). -/
def R.mxaAccerr (i : Nat) : Nat := 0x08000438 + 0x1000 * i
/-- MXA.BIST (R116). -/
def R.mxaBist (i : Nat) : Nat := 0x08000440 + 0x1000 * i
/-- VXU.RESIDUE (R153). -/
def R.vxuResidue (i : Nat) : Nat := 0x08000500 + 0x1000 * i
/-- VXU.SPECIAL (R153). -/
def R.vxuSpecial (i : Nat) : Nat := 0x08000508 + 0x1000 * i
/-- LS.ECC (R230). -/
def R.lsEcc (i : Nat) : Nat := 0x08000600 + 0x1000 * i
/-- LS.MEMOPS (R230). -/
def R.lsMemops (i : Nat) : Nat := 0x08000608 + 0x1000 * i
/-- TILE.KVW_STAT (R270). -/
def R.tileKvwStat (i : Nat) : Nat := 0x08000700 + 0x1000 * i
/-- TILE.KVW_PAR (R270). -/
def R.tileKvwPar (i : Nat) : Nat := 0x08000708 + 0x1000 * i
/-- SLC.STATUS (R319). -/
def R.slcStatus (i : Nat) : Nat := 0x08000800 + 0x1000 * i
/-- SLC.CTL (R319). -/
def R.slcCtl (i : Nat) : Nat := 0x08000808 + 0x1000 * i
/-- SLC.ECC (R319). -/
def R.slcEcc (i : Nat) : Nat := 0x08000810 + 0x1000 * i
/-- SLC.REPAIR (R319). -/
def R.slcRepair (i : Nat) : Nat := 0x08000818 + 0x1000 * i
/-- DMA.GCTLg (R381). -/
def R.dmaGctl (i : Nat) (j : Nat) : Nat := 0x08000900 + 0x1000 * i + 0x8 * j
/-- DMA.GSTAT (R381). -/
def R.dmaGstat (i : Nat) : Nat := 0x08000910 + 0x1000 * i
/-- DMA.QCTLq (R381). -/
def R.dmaQctl (i : Nat) (j : Nat) : Nat := 0x08000A00 + 0x1000 * i + 0x40 * j
/-- DMA.QSTATq (R381). -/
def R.dmaQstat (i : Nat) (j : Nat) : Nat := 0x08000A08 + 0x1000 * i + 0x40 * j
/-- DMA.QRINGq (R381). -/
def R.dmaQring (i : Nat) (j : Nat) : Nat := 0x08000A10 + 0x1000 * i + 0x40 * j
/-- DMA.QNEXTq (R381). -/
def R.dmaQnext (i : Nat) (j : Nat) : Nat := 0x08000A18 + 0x1000 * i + 0x40 * j
/-- DMA.QPRODq (R381). -/
def R.dmaQprod (i : Nat) (j : Nat) : Nat := 0x08000A20 + 0x1000 * i + 0x40 * j
/-- PL.ID (R447). -/
def R.plId : Nat := 0x09000000
/-- PL.CTL (R447). -/
def R.plCtl : Nat := 0x09000008
/-- PL.TICKCTL (R447). -/
def R.plTickctl : Nat := 0x09000010
/-- PL.TICKSTAT (R447). -/
def R.plTickstat : Nat := 0x09000018
/-- PL.TICKNUM (R447). -/
def R.plTicknum : Nat := 0x09000020
/-- PL.PCTLk (R447). -/
def R.plPctl (i : Nat) : Nat := 0x09001000 + 0x100 * i
/-- PL.PSTATk (R447). -/
def R.plPstat (i : Nat) : Nat := 0x09001008 + 0x100 * i
/-- PL.PERRk (R447). -/
def R.plPerr (i : Nat) : Nat := 0x09001010 + 0x100 * i
/-- PL.RTd (R447). -/
def R.plRt (i : Nat) : Nat := 0x09020000 + 0x8 * i
/-- COLL.STAT (R448). -/
def R.collStat (i : Nat) : Nat := 0x0A000000 + 0x1000 * i
/-- SEC.ALARMPOL (R478). -/
def R.secAlarmpol : Nat := 0x0B000000
/-- SEC.ALARMSTAT (R478). -/
def R.secAlarmstat : Nat := 0x0B000008
/-- SEC.KEYSTAT (R478). -/
def R.secKeystat : Nat := 0x0B000010
/-- ERR.BASE (R546). -/
def R.errBase (i : Nat) : Nat := 0x0C000000 + 0x1000 * i
/-- ERR.HEAD (R546). -/
def R.errHead (i : Nat) : Nat := 0x0C000008 + 0x1000 * i
/-- ERR.TAIL (R546). -/
def R.errTail (i : Nat) : Nat := 0x0C000010 + 0x1000 * i
/-- ERR.STAT (R546). -/
def R.errStat (i : Nat) : Nat := 0x0C000018 + 0x1000 * i
/-- ERR.CTL (R546). -/
def R.errCtl (i : Nat) : Nat := 0x0C000020 + 0x1000 * i
/-- ERR.THRESH (R546). -/
def R.errThresh (i : Nat) : Nat := 0x0C000028 + 0x1000 * i
/-- ERR.ENGRST (R546). -/
def R.errEngrst (i : Nat) : Nat := 0x0C000030 + 0x1000 * i
/-- ERR.ENGSTAT (R546). -/
def R.errEngstat (i : Nat) : Nat := 0x0C000038 + 0x1000 * i
/-- HIF.LINK (R582). -/
def R.hifLink : Nat := 0x0D000000
/-- HIF.SEGs (R582). -/
def R.hifSeg (i : Nat) : Nat := 0x0D000100 + 0x8 * i
/-- HIF.HREGr (R582). -/
def R.hifHreg (i : Nat) : Nat := 0x0D001000 + 0x8 * i
/-- HIF.QBASEi (R582). -/
def R.hifQbase (i : Nat) : Nat := 0x0D008000 + 0x8 * i
/-- HIF.RQi (R582). -/
def R.hifRq (i : Nat) : Nat := 0x0D009000 + 0x8 * i
/-- HIF.CQi (R582). -/
def R.hifCq (i : Nat) : Nat := 0x0D00A000 + 0x8 * i
/-- MGT.ID (R582). -/
def R.mgtId : Nat := 0x0E000000
/-- MGT.MBCTL (R582). -/
def R.mgtMbctl : Nat := 0x0E000008
/-- MGT.MBSTAT (R582). -/
def R.mgtMbstat : Nat := 0x0E000010
/-- MGT.FWSTAT (R582). -/
def R.mgtFwstat : Nat := 0x0E000018
/-- MGT.COOLANT (R582). -/
def R.mgtCoolant : Nat := 0x0E000020
/-- MGT.PINS (R662). -/
def R.mgtPins : Nat := 0x0E000028
/-- CLK.STATUS (R608). -/
def R.clkStatus : Nat := 0x0F000000
/-- CLK.METER (R608). -/
def R.clkMeter : Nat := 0x0F000008
/-- CLK.METERCNT (R608). -/
def R.clkMetercnt : Nat := 0x0F000010
/-- BOOT.STATUS (R608). -/
def R.bootStatus : Nat := 0x0F010000
/-- BOOT.CTL (R608). -/
def R.bootCtl : Nat := 0x0F010008
/-- PWR.LIMIT (R633). -/
def R.pwrLimit : Nat := 0x0F020000
/-- PWR.STAT (R633). -/
def R.pwrStat : Nat := 0x0F020008
/-- PWR.PCTLp (R633). -/
def R.pwrPctl (i : Nat) : Nat := 0x0F020100 + 0x8 * i
/-- THM.CTL (R633). -/
def R.thmCtl : Nat := 0x0F040000
/-- THM.STAT (R633). -/
def R.thmStat : Nat := 0x0F040008
/-- THM.SUBSTi (R633). -/
def R.thmSubst (i : Nat) : Nat := 0x0F040100 + 0x8 * i
/-- THM.SENSs (R633). -/
def R.thmSens (i : Nat) : Nat := 0x0F080000 + 0x8 * i

/-! ### Fields -/

def F.devVariant_stepping : Fld := ⟨55, 48⟩
def F.devVariant_max_power : Fld := ⟨47, 36⟩
def F.devVariant_tiles_per_part : Fld := ⟨35, 27⟩
def F.devVariant_field_degraded : Fld := ⟨15, 15⟩
def F.devVariant_eff_grade : Fld := ⟨14, 13⟩
def F.devVariant_io_dies : Fld := ⟨7, 6⟩
def F.devVariant_assembly : Fld := ⟨5, 4⟩
def F.devVariant_tile_grade : Fld := ⟨1, 0⟩
def F.devStacks_retired : Fld := ⟨63, 32⟩
def F.devStacks_populated : Fld := ⟨31, 0⟩
def F.devTickper_active : Fld := ⟨60, 32⟩
def F.devTickper_period : Fld := ⟨28, 0⟩
def F.devReset_key : Fld := ⟨15, 8⟩
def F.devReset_cmd : Fld := ⟨1, 0⟩
def F.devRststat_count : Fld := ⟨63, 48⟩
def F.devRststat_last_cause : Fld := ⟨47, 40⟩
def F.devRststat_phase : Fld := ⟨35, 32⟩
def F.devRststat_last_us : Fld := ⟨31, 0⟩
def F.devCommit_device : Fld := ⟨8, 8⟩
def F.devCommit_partitions : Fld := ⟨7, 0⟩
def F.devRegerr_valid : Fld := ⟨63, 63⟩
def F.devRegerr_write : Fld := ⟨62, 62⟩
def F.devRegerr_path : Fld := ⟨61, 60⟩
def F.devRegerr_count : Fld := ⟨59, 44⟩
def F.devRegerr_offset : Fld := ⟨27, 0⟩
def F.partGroup_lead : Fld := ⟨10, 8⟩
def F.partGroup_size : Fld := ⟨1, 0⟩
def F.partStatus_free_blocks : Fld := ⟨40, 32⟩
def F.partStatus_contexts : Fld := ⟨6, 0⟩
def F.partFence_source : Fld := ⟨4, 2⟩
def F.partFence_keys_erased : Fld := ⟨1, 1⟩
def F.partFence_fenced : Fld := ⟨0, 0⟩
def F.partReset_key : Fld := ⟨15, 8⟩
def F.partReset_cmd : Fld := ⟨1, 0⟩
def F.partRststat_count : Fld := ⟨63, 48⟩
def F.partRststat_last_cause : Fld := ⟨47, 40⟩
def F.partRststat_phase : Fld := ⟨34, 32⟩
def F.partRststat_last_us : Fld := ⟨31, 0⟩
def F.partRecovctl_rp_interval : Fld := ⟨47, 32⟩
def F.partRecovctl_loss_limit : Fld := ⟨15, 0⟩
def F.partJbase_size : Fld := ⟨58, 54⟩
def F.partJbase_base : Fld := ⟨43, 20⟩
def F.partJhead_head : Fld := ⟨63, 0⟩
def F.partJtail_tail : Fld := ⟨63, 0⟩
def F.partJstat_lost : Fld := ⟨63, 32⟩
def F.partJstat_held : Fld := ⟨31, 16⟩
def F.partJstat_full : Fld := ⟨1, 1⟩
def F.partJstat_policy : Fld := ⟨0, 0⟩
def F.partReplay_state : Fld := ⟨63, 62⟩
def F.partReplay_status : Fld := ⟨61, 59⟩
def F.partReplay_steps : Fld := ⟨31, 0⟩
def F.partReplaystep_step : Fld := ⟨63, 0⟩
def F.partKvctl_cold_wm : Fld := ⟨47, 40⟩
def F.partKvctl_batch_max : Fld := ⟨12, 0⟩
def F.partKvstat_stalled : Fld := ⟨63, 48⟩
def F.partKvstat_copies : Fld := ⟨47, 32⟩
def F.partKvstat_freed : Fld := ⟨31, 16⟩
def F.partKvstat_allocated : Fld := ⟨15, 0⟩
def F.ctxState_ctx_id : Fld := ⟨31, 16⟩
def F.ctxState_secure : Fld := ⟨9, 9⟩
def F.ctxState_hold_pending : Fld := ⟨8, 8⟩
def F.ctxState_state : Fld := ⟨3, 0⟩
def F.ctxRecord_addr : Fld := ⟨43, 6⟩
def F.ctxShare_cap : Fld := ⟨7, 7⟩
def F.ctxShare_share : Fld := ⟨6, 0⟩
def F.ctxDrain_inflight : Fld := ⟨31, 0⟩
def F.ctxCmd_cmd : Fld := ⟨3, 0⟩
def F.ctxCommit_step : Fld := ⟨63, 0⟩
def F.ctxRevive_total : Fld := ⟨63, 48⟩
def F.ctxRevive_this_step : Fld := ⟨39, 32⟩
def F.ctxRevive_cause : Fld := ⟨7, 4⟩
def F.ctxRevive_state : Fld := ⟨3, 0⟩
def F.ctxRpoint_step : Fld := ⟨63, 0⟩
def F.synObj_value : Fld := ⟨63, 0⟩
def F.synOwn_valid : Fld := ⟨63, 63⟩
def F.synOwn_fabric : Fld := ⟨62, 62⟩
def F.synOwn_ctx_id : Fld := ⟨15, 0⟩
def F.synSig_amount : Fld := ⟨63, 0⟩
def F.capFarctl_share : Fld := ⟨4, 0⟩
def F.capGenclr_count : Fld := ⟨63, 48⟩
def F.capGenclr_region : Fld := ⟨43, 21⟩
def F.capGenstat_done : Fld := ⟨63, 48⟩
def F.capGenstat_result : Fld := ⟨17, 16⟩
def F.capGenstat_scrub_wait : Fld := ⟨1, 1⟩
def F.capGenstat_busy : Fld := ⟨0, 0⟩
def F.capScrub_urgent : Fld := ⟨63, 48⟩
def F.capScrub_period : Fld := ⟨7, 0⟩
def F.capRetire_op : Fld := ⟨63, 62⟩
def F.capRetire_region : Fld := ⟨43, 21⟩
def F.capOrphan_reserve : Fld := ⟨63, 60⟩
def F.capOrphan_usable : Fld := ⟨47, 0⟩
def F.capSpare_spare : Fld := ⟨47, 0⟩
def F.cruDisp_started : Fld := ⟨63, 32⟩
def F.cruDisp_waiting : Fld := ⟨31, 16⟩
def F.cruDisp_reruns : Fld := ⟨15, 0⟩
def F.capStatus_present : Fld := ⟨17, 17⟩
def F.capStatus_retired : Fld := ⟨16, 16⟩
def F.capStatus_quiesced : Fld := ⟨9, 9⟩
def F.capStatus_capped : Fld := ⟨8, 8⟩
def F.capStatus_rate : Fld := ⟨1, 0⟩
def F.capEcc_uncorrected : Fld := ⟨31, 16⟩
def F.capEcc_corrected : Fld := ⟨15, 0⟩
def F.capRepair_rows : Fld := ⟨47, 32⟩
def F.capRepair_spare_bank : Fld := ⟨31, 0⟩
def F.cruCtl_lease_max : Fld := ⟨31, 16⟩
def F.cruCtl_quantum : Fld := ⟨8, 0⟩
def F.cruStat_busy : Fld := ⟨63, 32⟩
def F.cruStat_leased : Fld := ⟨31, 0⟩
def F.cruFault_failed : Fld := ⟨63, 32⟩
def F.cruFault_aborts : Fld := ⟨31, 16⟩
def F.cruFault_last_status : Fld := ⟨15, 13⟩
def F.cruFault_last_unit : Fld := ⟨4, 0⟩
def F.scaCtl_remote_max : Fld := ⟨2, 0⟩
def F.scaStat_misses : Fld := ⟨63, 32⟩
def F.scaStat_hits : Fld := ⟨31, 0⟩
def F.scaEcc_tag_uncorrected : Fld := ⟨47, 32⟩
def F.scaEcc_data_uncorrected : Fld := ⟨31, 16⟩
def F.scaEcc_corrected : Fld := ⟨15, 0⟩
def F.scaWay_disabled : Fld := ⟨15, 15⟩
def F.scaWay_kind : Fld := ⟨13, 12⟩
def F.scaWay_ctx : Fld := ⟨8, 0⟩
def F.bulkCtl_mode : Fld := ⟨0, 0⟩
def F.bulkQctl_cmd : Fld := ⟨63, 62⟩
def F.bulkQctl_valid : Fld := ⟨61, 61⟩
def F.bulkQctl_ctx : Fld := ⟨60, 45⟩
def F.bulkQctl_rm : Fld := ⟨44, 38⟩
def F.bulkQctl_wr : Fld := ⟨37, 31⟩
def F.bulkQctl_rd : Fld := ⟨30, 24⟩
def F.bulkQctl_limit : Fld := ⟨8, 0⟩
def F.bulkQstat_done : Fld := ⟨63, 48⟩
def F.bulkQstat_dropped : Fld := ⟨47, 40⟩
def F.bulkQstat_inflight : Fld := ⟨39, 31⟩
def F.bulkQstat_fetched : Fld := ⟨30, 26⟩
def F.bulkQstat_pending : Fld := ⟨25, 23⟩
def F.bulkQstat_last_status : Fld := ⟨22, 20⟩
def F.bulkQstat_wait : Fld := ⟨10, 8⟩
def F.bulkQstat_state : Fld := ⟨2, 0⟩
def F.bulkQring_size : Fld := ⟨55, 52⟩
def F.bulkQring_win : Fld := ⟨51, 48⟩
def F.bulkQring_base : Fld := ⟨43, 5⟩
def F.bulkQnext_next : Fld := ⟨43, 6⟩
def F.bulkQnext_valid : Fld := ⟨0, 0⟩
def F.bulkQprod_prod : Fld := ⟨31, 0⟩
def F.bulkQpost_head : Fld := ⟨43, 6⟩
def F.nocDieid_present : Fld := ⟨15, 15⟩
def F.nocDieid_strap_fault : Fld := ⟨14, 14⟩
def F.nocDieid_mismatch : Fld := ⟨13, 13⟩
def F.nocDieid_strap : Fld := ⟨5, 0⟩
def F.nocTmap_valid : Fld := ⟨15, 15⟩
def F.nocTmap_field : Fld := ⟨14, 14⟩
def F.nocTmap_phys_col : Fld := ⟨12, 8⟩
def F.nocTmap_phys_row : Fld := ⟨3, 0⟩
def F.nocOmap_valid : Fld := ⟨15, 15⟩
def F.nocOmap_field : Fld := ⟨14, 14⟩
def F.nocOmap_spare : Fld := ⟨13, 13⟩
def F.nocOmap_phys_col : Fld := ⟨12, 8⟩
def F.nocOmap_phys_row : Fld := ⟨3, 0⟩
def F.nocEdge_half : Fld := ⟨63, 48⟩
def F.nocEdge_module_good : Fld := ⟨31, 16⟩
def F.nocEdge_spares_max : Fld := ⟨10, 8⟩
def F.nocEdge_repair_pending : Fld := ⟨3, 3⟩
def F.nocEdge_degraded : Fld := ⟨2, 2⟩
def F.nocEdge_state : Fld := ⟨1, 0⟩
def F.nocEdgeerr_retries : Fld := ⟨63, 32⟩
def F.nocEdgeerr_lane_errors : Fld := ⟨31, 0⟩
def F.tileId_ctx_valid : Fld := ⟨47, 47⟩
def F.tileId_ctx_index : Fld := ⟨46, 38⟩
def F.tileId_ctx_gen : Fld := ⟨37, 31⟩
def F.tileId_phys_col : Fld := ⟨20, 16⟩
def F.tileId_phys_row : Fld := ⟨15, 12⟩
def F.tileId_logical_id : Fld := ⟨10, 0⟩
def F.tileStatus_write_pending : Fld := ⟨11, 11⟩
def F.tileStatus_ready : Fld := ⟨10, 10⟩
def F.tileStatus_stall : Fld := ⟨9, 8⟩
def F.tileStatus_state : Fld := ⟨3, 0⟩
def F.tilePc_pc : Fld := ⟨43, 4⟩
def F.tileStep_step : Fld := ⟨63, 0⟩
def F.tileStepctl_hang_periods : Fld := ⟨31, 28⟩
def F.tileStepctl_stall_to : Fld := ⟨23, 0⟩
def F.tileTrap_count : Fld := ⟨47, 32⟩
def F.tileTrap_pending : Fld := ⟨22, 16⟩
def F.tileTrap_double : Fld := ⟨15, 15⟩
def F.tileTrap_slot : Fld := ⟨11, 10⟩
def F.tileTrap_valid : Fld := ⟨7, 7⟩
def F.tileTrap_cause : Fld := ⟨2, 0⟩
def F.tileTrapPc_pc : Fld := ⟨43, 4⟩
def F.tileResumePc_pc : Fld := ⟨43, 4⟩
def F.tileTrapOp_op : Fld := ⟨31, 0⟩
def F.tileTrapAddr_addr : Fld := ⟨55, 0⟩
def F.tileFhBase_base : Fld := ⟨43, 12⟩
def F.tileSaveBase_base : Fld := ⟨43, 16⟩
def F.tilePreempt_result : Fld := ⟨7, 6⟩
def F.tilePreempt_busy : Fld := ⟨3, 3⟩
def F.tilePreempt_request : Fld := ⟨1, 0⟩
def F.tileCycle_cycle : Fld := ⟨63, 0⟩
def F.tileStallcnt_sync_stall : Fld := ⟨63, 32⟩
def F.tileStallcnt_tag_stall : Fld := ⟨31, 0⟩
def F.tileIbuf_refetch : Fld := ⟨15, 0⟩
def F.mxaStatus_gap_now : Fld := ⟨25, 16⟩
def F.mxaStatus_throttled : Fld := ⟨14, 14⟩
def F.mxaStatus_smooth_state : Fld := ⟨13, 12⟩
def F.mxaStatus_xfer_busy : Fld := ⟨11, 11⟩
def F.mxaStatus_h1_owned : Fld := ⟨10, 10⟩
def F.mxaStatus_h0_owned : Fld := ⟨9, 9⟩
def F.mxaStatus_array_busy : Fld := ⟨8, 8⟩
def F.mxaStatus_wfmt : Fld := ⟨3, 1⟩
def F.mxaStatus_wvalid : Fld := ⟨0, 0⟩
def F.mxaRepair_spare_bad : Fld := ⟨15, 15⟩
def F.mxaRepair_field : Fld := ⟨14, 14⟩
def F.mxaRepair_spare_en : Fld := ⟨5, 5⟩
def F.mxaRepair_bad_row : Fld := ⟨4, 0⟩
def F.mxaSmooth_enable : Fld := ⟨47, 47⟩
def F.mxaSmooth_ramp_up : Fld := ⟨40, 32⟩
def F.mxaSmooth_ramp_down : Fld := ⟨28, 16⟩
def F.mxaSmooth_fill_max : Fld := ⟨9, 0⟩
def F.mxaThrottle_gap_cycles : Fld := ⟨63, 32⟩
def F.mxaThrottle_gap : Fld := ⟨9, 0⟩
def F.mxaResidue_step_fails : Fld := ⟨47, 32⟩
def F.mxaResidue_fails : Fld := ⟨31, 16⟩
def F.mxaResidue_last_col : Fld := ⟨13, 8⟩
def F.mxaResidue_last_vec : Fld := ⟨7, 0⟩
def F.mxaPasscnt_abandoned : Fld := ⟨63, 32⟩
def F.mxaPasscnt_committed : Fld := ⟨31, 0⟩
def F.mxaBusycnt_dummy : Fld := ⟨63, 32⟩
def F.mxaBusycnt_active : Fld := ⟨31, 0⟩
def F.mxaAccerr_corrected : Fld := ⟨15, 0⟩
def F.mxaBist_fail_count : Fld := ⟨47, 40⟩
def F.mxaBist_fail_col : Fld := ⟨39, 34⟩
def F.mxaBist_fail_row : Fld := ⟨33, 28⟩
def F.mxaBist_result : Fld := ⟨19, 18⟩
def F.mxaBist_busy : Fld := ⟨17, 17⟩
def F.mxaBist_pattern : Fld := ⟨7, 4⟩
def F.mxaBist_start : Fld := ⟨0, 0⟩
def F.vxuResidue_step_fails : Fld := ⟨47, 32⟩
def F.vxuResidue_fails : Fld := ⟨31, 16⟩
def F.vxuResidue_last_kind : Fld := ⟨9, 8⟩
def F.vxuResidue_last_lane : Fld := ⟨5, 0⟩
def F.vxuSpecial_nan_out : Fld := ⟨63, 48⟩
def F.vxuSpecial_inf_out : Fld := ⟨47, 32⟩
def F.vxuSpecial_ftz_out : Fld := ⟨31, 16⟩
def F.vxuSpecial_daz_in : Fld := ⟨15, 0⟩
def F.lsEcc_last_block : Fld := ⟨40, 32⟩
def F.lsEcc_uncorrected : Fld := ⟨31, 16⟩
def F.lsEcc_corrected : Fld := ⟨15, 0⟩
def F.lsMemops_outstanding : Fld := ⟨37, 32⟩
def F.lsMemops_issued : Fld := ⟨31, 0⟩
def F.tileKvwStat_pagef : Fld := ⟨55, 48⟩
def F.tileKvwStat_misses : Fld := ⟨47, 24⟩
def F.tileKvwStat_walks : Fld := ⟨23, 0⟩
def F.tileKvwPar_refetch : Fld := ⟨15, 0⟩
def F.slcStatus_quiesced : Fld := ⟨9, 9⟩
def F.slcStatus_capped : Fld := ⟨8, 8⟩
def F.slcStatus_rate : Fld := ⟨7, 0⟩
def F.slcCtl_cap : Fld := ⟨7, 0⟩
def F.slcEcc_uncorrected : Fld := ⟨31, 16⟩
def F.slcEcc_corrected : Fld := ⟨15, 0⟩
def F.slcRepair_exhausted : Fld := ⟨63, 32⟩
def F.slcRepair_spared : Fld := ⟨15, 0⟩
def F.dmaGctl_rm : Fld := ⟨38, 32⟩
def F.dmaGctl_wr : Fld := ⟨30, 24⟩
def F.dmaGctl_rd : Fld := ⟨22, 16⟩
def F.dmaGctl_weight : Fld := ⟨11, 8⟩
def F.dmaGctl_mode : Fld := ⟨0, 0⟩
def F.dmaGstat_late1 : Fld := ⟨63, 48⟩
def F.dmaGstat_late0 : Fld := ⟨47, 32⟩
def F.dmaGstat_capped1 : Fld := ⟨31, 16⟩
def F.dmaGstat_capped0 : Fld := ⟨15, 0⟩
def F.dmaQctl_cmd : Fld := ⟨63, 62⟩
def F.dmaQctl_limit : Fld := ⟨8, 0⟩
def F.dmaQstat_done : Fld := ⟨63, 48⟩
def F.dmaQstat_dropped : Fld := ⟨47, 40⟩
def F.dmaQstat_inflight : Fld := ⟨39, 31⟩
def F.dmaQstat_fetched : Fld := ⟨30, 26⟩
def F.dmaQstat_pending : Fld := ⟨25, 23⟩
def F.dmaQstat_last_status : Fld := ⟨22, 20⟩
def F.dmaQstat_wait : Fld := ⟨10, 8⟩
def F.dmaQstat_state : Fld := ⟨2, 0⟩
def F.dmaQring_size : Fld := ⟨55, 52⟩
def F.dmaQring_win : Fld := ⟨51, 48⟩
def F.dmaQring_base : Fld := ⟨43, 5⟩
def F.dmaQnext_next : Fld := ⟨43, 6⟩
def F.dmaQnext_valid : Fld := ⟨0, 0⟩
def F.dmaQprod_prod : Fld := ⟨31, 0⟩
def F.plId_valid : Fld := ⟨31, 31⟩
def F.plId_device : Fld := ⟨11, 0⟩
def F.plCtl_rto : Fld := ⟨47, 32⟩
def F.plCtl_retries : Fld := ⟨27, 24⟩
def F.plCtl_enable : Fld := ⟨0, 0⟩
def F.plTickctl_role : Fld := ⟨63, 62⟩
def F.plTickctl_parent : Fld := ⟨61, 57⟩
def F.plTickctl_alt_parent : Fld := ⟨56, 52⟩
def F.plTickctl_slip_q : Fld := ⟨51, 36⟩
def F.plTickctl_check : Fld := ⟨35, 24⟩
def F.plTickctl_decide : Fld := ⟨23, 12⟩
def F.plTickctl_lead : Fld := ⟨11, 0⟩
def F.plTickstat_slips : Fld := ⟨63, 32⟩
def F.plTickstat_late : Fld := ⟨31, 16⟩
def F.plTickstat_cut_off : Fld := ⟨0, 0⟩
def F.plTicknum_tick : Fld := ⟨63, 0⟩
def F.plPctl_ring : Fld := ⟨19, 18⟩
def F.plPctl_dateline : Fld := ⟨17, 17⟩
def F.plPctl_part : Fld := ⟨16, 14⟩
def F.plPctl_width_max : Fld := ⟨11, 10⟩
def F.plPctl_reach : Fld := ⟨9, 9⟩
def F.plPctl_full_train : Fld := ⟨8, 8⟩
def F.plPctl_cmd : Fld := ⟨1, 0⟩
def F.plPstat_nbr_dev : Fld := ⟨63, 52⟩
def F.plPstat_nbr_port : Fld := ⟨51, 47⟩
def F.plPstat_latency : Fld := ⟨46, 36⟩
def F.plPstat_lanes_good : Fld := ⟨35, 28⟩
def F.plPstat_width : Fld := ⟨23, 22⟩
def F.plPstat_state : Fld := ⟨18, 16⟩
def F.plPerr_fec_uncorr : Fld := ⟨63, 48⟩
def F.plPerr_retries : Fld := ⟨47, 32⟩
def F.plPerr_fec_corr : Fld := ⟨31, 0⟩
def F.plRt_valid : Fld := ⟨63, 63⟩
def F.plRt_hops : Fld := ⟨55, 48⟩
def F.plRt_alt : Fld := ⟨47, 24⟩
def F.plRt_primary : Fld := ⟨23, 0⟩
def F.collStat_crc_fail : Fld := ⟨63, 48⟩
def F.collStat_halts : Fld := ⟨47, 32⟩
def F.collStat_commands : Fld := ⟨31, 0⟩
def F.secAlarmpol_lock : Fld := ⟨16, 16⟩
def F.secAlarmpol_levels : Fld := ⟨9, 0⟩
def F.secAlarmstat_count : Fld := ⟨63, 32⟩
def F.secAlarmstat_last_level : Fld := ⟨17, 16⟩
def F.secAlarmstat_last_part : Fld := ⟨14, 12⟩
def F.secAlarmstat_last_source : Fld := ⟨10, 8⟩
def F.secAlarmstat_pending : Fld := ⟨4, 0⟩
def F.secKeystat_id_erased : Fld := ⟨17, 17⟩
def F.secKeystat_id_valid : Fld := ⟨16, 16⟩
def F.secKeystat_model_any : Fld := ⟨15, 8⟩
def F.secKeystat_mem_valid : Fld := ⟨7, 0⟩
def F.errBase_size : Fld := ⟨58, 54⟩
def F.errBase_base : Fld := ⟨43, 16⟩
def F.errHead_head : Fld := ⟨63, 0⟩
def F.errTail_tail : Fld := ⟨63, 0⟩
def F.errStat_lost : Fld := ⟨63, 32⟩
def F.errStat_buffered : Fld := ⟨24, 16⟩
def F.errStat_alert : Fld := ⟨0, 0⟩
def F.errCtl_eng_to : Fld := ⟨15, 8⟩
def F.errCtl_alert_min : Fld := ⟨2, 0⟩
def F.errThresh_region_ue : Fld := ⟨39, 32⟩
def F.errThresh_window : Fld := ⟨31, 24⟩
def F.errThresh_bank_ue : Fld := ⟨23, 16⟩
def F.errThresh_row_ue : Fld := ⟨15, 8⟩
def F.errThresh_row_ce : Fld := ⟨7, 0⟩
def F.errEngrst_kind : Fld := ⟨31, 24⟩
def F.errEngrst_index : Fld := ⟨23, 0⟩
def F.errEngstat_resets : Fld := ⟨63, 32⟩
def F.errEngstat_result : Fld := ⟨2, 0⟩
def F.hifLink_downs : Fld := ⟨63, 32⟩
def F.hifLink_ready : Fld := ⟨8, 8⟩
def F.hifLink_rate : Fld := ⟨7, 5⟩
def F.hifLink_width : Fld := ⟨4, 0⟩
def F.hifSeg_valid : Fld := ⟨63, 63⟩
def F.hifSeg_wr : Fld := ⟨62, 62⟩
def F.hifSeg_base : Fld := ⟨43, 26⟩
def F.hifHreg_base : Fld := ⟨63, 21⟩
def F.hifHreg_size : Fld := ⟨20, 15⟩
def F.hifHreg_w : Fld := ⟨14, 14⟩
def F.hifHreg_r : Fld := ⟨13, 13⟩
def F.hifHreg_valid : Fld := ⟨0, 0⟩
def F.hifQbase_valid : Fld := ⟨63, 63⟩
def F.hifQbase_k : Fld := ⟨51, 48⟩
def F.hifQbase_base : Fld := ⟨43, 6⟩
def F.hifRq_cons : Fld := ⟨63, 32⟩
def F.hifRq_prod : Fld := ⟨31, 0⟩
def F.hifCq_cons : Fld := ⟨63, 32⟩
def F.hifCq_prod : Fld := ⟨31, 0⟩
def F.mgtId_vendor_iana : Fld := ⟨63, 32⟩
def F.mgtId_pci_vendor : Fld := ⟨31, 16⟩
def F.mgtId_mctp_eid : Fld := ⟨7, 0⟩
def F.mgtMbctl_go : Fld := ⟨0, 0⟩
def F.mgtMbstat_done : Fld := ⟨1, 1⟩
def F.mgtMbstat_busy : Fld := ⟨0, 0⟩
def F.mgtFwstat_chunks_done : Fld := ⟨63, 48⟩
def F.mgtFwstat_chunks_total : Fld := ⟨47, 32⟩
def F.mgtFwstat_processor : Fld := ⟨10, 8⟩
def F.mgtFwstat_state : Fld := ⟨2, 0⟩
def F.mgtCoolant_stale : Fld := ⟨63, 63⟩
def F.mgtCoolant_report : Fld := ⟨50, 0⟩
def F.mgtPins_perst : Fld := ⟨22, 22⟩
def F.mgtPins_clk_ok : Fld := ⟨21, 21⟩
def F.mgtPins_flow_fault : Fld := ⟨20, 20⟩
def F.mgtPins_alert : Fld := ⟨19, 19⟩
def F.mgtPins_power_cycle_req : Fld := ⟨18, 18⟩
def F.mgtPins_trip_prev : Fld := ⟨17, 17⟩
def F.mgtPins_slot_dup : Fld := ⟨16, 16⟩
def F.mgtPins_slot_id : Fld := ⟨5, 0⟩
def F.clkStatus_timing_lock : Fld := ⟨47, 40⟩
def F.clkStatus_tile_lock : Fld := ⟨39, 32⟩
def F.clkStatus_noc_lock : Fld := ⟨31, 24⟩
def F.clkStatus_glitches : Fld := ⟨23, 16⟩
def F.clkStatus_refclk_ok : Fld := ⟨8, 8⟩
def F.clkStatus_settle : Fld := ⟨2, 0⟩
def F.clkMeter_busy : Fld := ⟨31, 31⟩
def F.clkMeter_window : Fld := ⟨28, 24⟩
def F.clkMeter_ref : Fld := ⟨23, 16⟩
def F.clkMeter_meas : Fld := ⟨15, 8⟩
def F.clkMeter_start : Fld := ⟨0, 0⟩
def F.clkMetercnt_valid : Fld := ⟨63, 63⟩
def F.clkMetercnt_count : Fld := ⟨39, 0⟩
def F.bootStatus_duration_ms : Fld := ⟨63, 32⟩
def F.bootStatus_fail_code : Fld := ⟨31, 24⟩
def F.bootStatus_step : Fld := ⟨19, 16⟩
def F.bootStatus_kind : Fld := ⟨9, 8⟩
def F.bootStatus_bank_fallback : Fld := ⟨4, 4⟩
def F.bootStatus_retrained : Fld := ⟨3, 3⟩
def F.bootStatus_map_lost : Fld := ⟨2, 2⟩
def F.bootStatus_failed : Fld := ⟨1, 1⟩
def F.bootStatus_ready : Fld := ⟨0, 0⟩
def F.bootCtl_full_next : Fld := ⟨0, 0⟩
def F.pwrLimit_coolant : Fld := ⟨47, 36⟩
def F.pwrLimit_effective : Fld := ⟨35, 24⟩
def F.pwrLimit_budget : Fld := ⟨23, 12⟩
def F.pwrLimit_tray : Fld := ⟨11, 0⟩
def F.pwrStat_input_w : Fld := ⟨47, 32⟩
def F.pwrStat_input_v : Fld := ⟨31, 16⟩
def F.pwrStat_over : Fld := ⟨2, 2⟩
def F.pwrStat_flow_fault : Fld := ⟨1, 1⟩
def F.pwrStat_clamp : Fld := ⟨0, 0⟩
def F.pwrPctl_fmax : Fld := ⟨55, 50⟩
def F.pwrPctl_memcap : Fld := ⟨49, 48⟩
def F.pwrPctl_step : Fld := ⟨47, 45⟩
def F.pwrPctl_freq : Fld := ⟨41, 36⟩
def F.pwrPctl_gap : Fld := ⟨35, 26⟩
def F.pwrPctl_ilim_now : Fld := ⟨25, 16⟩
def F.pwrPctl_ilim_max : Fld := ⟨5, 0⟩
def F.thmCtl_dram_target : Fld := ⟨31, 24⟩
def F.thmCtl_junction_target : Fld := ⟨23, 16⟩
def F.thmStat_failed : Fld := ⟨63, 48⟩
def F.thmStat_disagree : Fld := ⟨47, 32⟩
def F.thmStat_hottest : Fld := ⟨31, 16⟩
def F.thmStat_hottest_index : Fld := ⟨11, 0⟩
def F.thmSubst_valid : Fld := ⟨63, 63⟩
def F.thmSubst_substitute : Fld := ⟨55, 44⟩
def F.thmSubst_failed : Fld := ⟨43, 32⟩
def F.thmSubst_offset : Fld := ⟨5, 0⟩
def F.thmSens_valid : Fld := ⟨31, 31⟩
def F.thmSens_failed : Fld := ⟨30, 30⟩
def F.thmSens_substituted : Fld := ⟨29, 29⟩
def F.thmSens_reading : Fld := ⟨15, 0⟩

/-! ### Tables -/

/-- Registers of the DEV block. -/
def RegTab.dev0 : List RegDef := [
  ⟨"DEV.VARIANT", 0x00000008, [],
   [⟨55, 48, .ro, 0, none⟩, ⟨47, 36, .ro, 0, none⟩, ⟨35, 27, .ro, 0, none⟩, ⟨15, 15, .ro, 0, none⟩, ⟨14, 13, .ro, 0, none⟩, ⟨7, 6, .ro, 0, none⟩, ⟨5, 4, .ro, 0, none⟩, ⟨1, 0, .ro, 0, none⟩]⟩,
  ⟨"DEV.STACKS", 0x00000010, [],
   [⟨63, 32, .ro, 0, none⟩, ⟨31, 0, .ro, 0, none⟩]⟩,
  ⟨"DEV.TICKPER", 0x00000040, [],
   [⟨60, 32, .ro, 0, none⟩, ⟨28, 0, .rws, 0xf4240, some (2000, 400000000)⟩]⟩,
  ⟨"DEV.RESET", 0x00000048, [],
   [⟨15, 8, .wo, 0, none⟩, ⟨1, 0, .wo, 0, none⟩]⟩,
  ⟨"DEV.RSTSTAT", 0x00000050, [],
   [⟨63, 48, .ro, 0, none⟩, ⟨47, 40, .ro, 0, none⟩, ⟨35, 32, .ro, 0, none⟩, ⟨31, 0, .ro, 0, none⟩]⟩,
  ⟨"DEV.COMMIT", 0x00000058, [],
   [⟨8, 8, .wo, 0, none⟩, ⟨7, 0, .wo, 0, none⟩]⟩,
  ⟨"DEV.REGERR", 0x00000060, [],
   [⟨63, 63, .w1c, 0, none⟩, ⟨62, 62, .ro, 0, none⟩, ⟨61, 60, .ro, 0, none⟩, ⟨59, 44, .ro, 0, none⟩, ⟨27, 0, .ro, 0, none⟩]⟩]

/-- Registers of the PART block. -/
def RegTab.part0 : List RegDef := [
  ⟨"PART.GROUP", 0x01000000, [(8, 0x10000)],
   [⟨10, 8, .ro, 0, none⟩, ⟨1, 0, .rw, 0, none⟩]⟩,
  ⟨"PART.STATUS", 0x01000008, [(8, 0x10000)],
   [⟨40, 32, .ro, 0x100, none⟩, ⟨6, 0, .ro, 0, none⟩]⟩,
  ⟨"PART.FENCE", 0x01000010, [(8, 0x10000)],
   [⟨4, 2, .ro, 0, none⟩, ⟨1, 1, .ro, 0, none⟩, ⟨0, 0, .w1c, 0, none⟩]⟩,
  ⟨"PART.RESET", 0x01000020, [(8, 0x10000)],
   [⟨15, 8, .wo, 0, none⟩, ⟨1, 0, .wo, 0, none⟩]⟩,
  ⟨"PART.RSTSTAT", 0x01000028, [(8, 0x10000)],
   [⟨63, 48, .ro, 0, none⟩, ⟨47, 40, .ro, 0, none⟩, ⟨34, 32, .ro, 0, none⟩, ⟨31, 0, .ro, 0, none⟩]⟩,
  ⟨"PART.RECOVCTL", 0x01000030, [(8, 0x10000)],
   [⟨47, 32, .rws, 0, none⟩, ⟨15, 0, .rws, 0x1f4, some (100, 6000)⟩]⟩,
  ⟨"PART.JBASE", 0x01000100, [(8, 0x10000)],
   [⟨58, 54, .rw, 0x1e, some (20, 36)⟩, ⟨43, 20, .rw, 0, none⟩]⟩,
  ⟨"PART.JHEAD", 0x01000108, [(8, 0x10000)],
   [⟨63, 0, .ro, 0, none⟩]⟩,
  ⟨"PART.JTAIL", 0x01000110, [(8, 0x10000)],
   [⟨63, 0, .rw, 0, none⟩]⟩,
  ⟨"PART.JSTAT", 0x01000118, [(8, 0x10000)],
   [⟨63, 32, .ro, 0, none⟩, ⟨31, 16, .ro, 0, none⟩, ⟨1, 1, .ro, 0, none⟩, ⟨0, 0, .rws, 0, none⟩]⟩,
  ⟨"PART.REPLAY", 0x01000120, [(8, 0x10000)],
   [⟨63, 62, .ro, 0, none⟩, ⟨61, 59, .ro, 0, none⟩, ⟨31, 0, .ro, 0, none⟩]⟩,
  ⟨"PART.REPLAYSTEP", 0x01000128, [(8, 0x10000)],
   [⟨63, 0, .ro, 0, none⟩]⟩]

/-- Registers of the PART block. -/
def RegTab.part1 : List RegDef := [
  ⟨"PART.KVCTL", 0x01000800, [(8, 0x10000)],
   [⟨47, 40, .rws, 0xa, some (0, 50)⟩, ⟨12, 0, .rws, 0x1000, some (1, 4096)⟩]⟩,
  ⟨"PART.KVSTAT", 0x01000808, [(8, 0x10000)],
   [⟨63, 48, .ro, 0, none⟩, ⟨47, 32, .ro, 0, none⟩, ⟨31, 16, .ro, 0, none⟩, ⟨15, 0, .ro, 0, none⟩]⟩]

/-- Registers of the CTX block. -/
def RegTab.ctx0 : List RegDef := [
  ⟨"CTX.STATE", 0x02000000, [(512, 0x40)],
   [⟨31, 16, .ro, 0, none⟩, ⟨9, 9, .ro, 0, none⟩, ⟨8, 8, .ro, 0, none⟩, ⟨3, 0, .ro, 0, none⟩]⟩,
  ⟨"CTX.RECORD", 0x02000008, [(512, 0x40)],
   [⟨43, 6, .rw, 0, none⟩]⟩,
  ⟨"CTX.SHARE", 0x02000010, [(512, 0x40)],
   [⟨7, 7, .rws, 0, none⟩, ⟨6, 0, .rws, 0, some (1, 64)⟩]⟩,
  ⟨"CTX.DRAIN", 0x02000018, [(512, 0x40)],
   [⟨31, 0, .ro, 0, none⟩]⟩,
  ⟨"CTX.CMD", 0x02000020, [(512, 0x40)],
   [⟨3, 0, .wo, 0, some (1, 9)⟩]⟩,
  ⟨"CTX.COMMIT", 0x02000028, [(512, 0x40)],
   [⟨63, 0, .ro, 0, none⟩]⟩,
  ⟨"CTX.REVIVE", 0x02000030, [(512, 0x40)],
   [⟨63, 48, .ro, 0, none⟩, ⟨39, 32, .ro, 0, none⟩, ⟨7, 4, .ro, 0, none⟩, ⟨3, 0, .ro, 0, none⟩]⟩,
  ⟨"CTX.RPOINT", 0x02000038, [(512, 0x40)],
   [⟨63, 0, .ro, 0, none⟩]⟩]

/-- Registers of the SYN block. -/
def RegTab.syn0 : List RegDef := [
  ⟨"SYN.OBJ", 0x03000000, [(8, 0x20000), (16384, 0x8)],
   [⟨63, 0, .rw, 0, none⟩]⟩,
  ⟨"SYN.OWN", 0x03100000, [(8, 0x800), (256, 0x8)],
   [⟨63, 63, .ro, 0, none⟩, ⟨62, 62, .ro, 0, none⟩, ⟨15, 0, .ro, 0, none⟩]⟩,
  ⟨"SYN.SIG", 0x03200000, [(8, 0x20000), (16384, 0x8)],
   [⟨63, 0, .wo, 0, none⟩]⟩]

/-- Registers of the CAP block. -/
def RegTab.cap0 : List RegDef := [
  ⟨"CAP.FARCTL", 0x04000000, [(8, 0x10000)],
   [⟨4, 0, .rws, 2, some (0, 16)⟩]⟩,
  ⟨"CAP.GENCLR", 0x04000008, [(8, 0x10000)],
   [⟨63, 48, .wo, 0, none⟩, ⟨43, 21, .wo, 0, none⟩]⟩,
  ⟨"CAP.GENSTAT", 0x04000010, [(8, 0x10000)],
   [⟨63, 48, .ro, 0, none⟩, ⟨17, 16, .ro, 0, none⟩, ⟨1, 1, .ro, 0, none⟩, ⟨0, 0, .ro, 0, none⟩]⟩,
  ⟨"CAP.SCRUB", 0x04000018, [(8, 0x10000)],
   [⟨63, 48, .ro, 0, none⟩, ⟨7, 0, .rws, 0xc, some (1, 168)⟩]⟩,
  ⟨"CAP.RETIRE", 0x04000020, [(8, 0x10000)],
   [⟨63, 62, .wo, 0, some (1, 1)⟩, ⟨43, 21, .wo, 0, none⟩]⟩,
  ⟨"CAP.ORPHAN", 0x04000028, [(8, 0x10000)],
   [⟨63, 60, .rws, 1, some (0, 8)⟩, ⟨47, 0, .ro, 0, none⟩]⟩,
  ⟨"CAP.SPARE", 0x04000030, [(8, 0x10000)],
   [⟨47, 0, .ro, 0, none⟩]⟩,
  ⟨"CAP.STATUS", 0x04001000, [(8, 0x10000), (4, 0x1000)],
   [⟨17, 17, .ro, 0, none⟩, ⟨16, 16, .ro, 0, none⟩, ⟨9, 9, .ro, 0, none⟩, ⟨8, 8, .ro, 0, none⟩, ⟨1, 0, .ro, 0, none⟩]⟩,
  ⟨"CAP.ECC", 0x04001008, [(8, 0x10000), (4, 0x1000)],
   [⟨31, 16, .rc, 0, none⟩, ⟨15, 0, .rc, 0, none⟩]⟩,
  ⟨"CAP.REPAIR", 0x04001010, [(8, 0x10000), (4, 0x1000)],
   [⟨47, 32, .ro, 0, none⟩, ⟨31, 0, .ro, 0, none⟩]⟩]

/-- Registers of the CRU block. -/
def RegTab.cru0 : List RegDef := [
  ⟨"CRU.DISP", 0x04000100, [(8, 0x10000)],
   [⟨63, 32, .ro, 0, none⟩, ⟨31, 16, .ro, 0, none⟩, ⟨15, 0, .rc, 0, none⟩]⟩,
  ⟨"CRU.CTL", 0x04001800, [(8, 0x10000), (4, 0x1000)],
   [⟨31, 16, .rws, 0x3e8, some (1, 1000)⟩, ⟨8, 0, .rws, 0xc8, some (25, 370)⟩]⟩,
  ⟨"CRU.STAT", 0x04001808, [(8, 0x10000), (4, 0x1000)],
   [⟨63, 32, .ro, 0, none⟩, ⟨31, 0, .ro, 0, none⟩]⟩,
  ⟨"CRU.FAULT", 0x04001810, [(8, 0x10000), (4, 0x1000)],
   [⟨63, 32, .ro, 0, none⟩, ⟨31, 16, .rc, 0, none⟩, ⟨15, 13, .ro, 0, none⟩, ⟨4, 0, .ro, 0, none⟩]⟩]

/-- Registers of the SCA block. -/
def RegTab.sca0 : List RegDef := [
  ⟨"SCA.CTL", 0x05000000, [(8, 0x1000)],
   [⟨2, 0, .rws, 4, some (0, 4)⟩]⟩,
  ⟨"SCA.STAT", 0x05000008, [(8, 0x1000)],
   [⟨63, 32, .ro, 0, none⟩, ⟨31, 0, .ro, 0, none⟩]⟩,
  ⟨"SCA.ECC", 0x05000010, [(8, 0x1000)],
   [⟨47, 32, .rc, 0, none⟩, ⟨31, 16, .rc, 0, none⟩, ⟨15, 0, .rc, 0, none⟩]⟩,
  ⟨"SCA.WAY", 0x05000100, [(8, 0x1000), (16, 0x8)],
   [⟨15, 15, .ro, 0, none⟩, ⟨13, 12, .rws, 0, some (0, 2)⟩, ⟨8, 0, .rws, 0, none⟩]⟩]

/-- Registers of the BULK block. -/
def RegTab.bulk0 : List RegDef := [
  ⟨"BULK.CTL", 0x06000000, [(8, 0x10000)],
   [⟨0, 0, .rws, 1, none⟩]⟩,
  ⟨"BULK.QCTL", 0x06001000, [(8, 0x10000), (80, 0x40)],
   [⟨63, 62, .wo, 0, none⟩, ⟨61, 61, .rw, 0, none⟩, ⟨60, 45, .rw, 0, none⟩, ⟨44, 38, .rws, 0x64, some (1, 100)⟩, ⟨37, 31, .rws, 0x64, some (1, 100)⟩, ⟨30, 24, .rws, 0x64, some (1, 100)⟩, ⟨8, 0, .rws, 0x40, some (1, 256)⟩]⟩,
  ⟨"BULK.QSTAT", 0x06001008, [(8, 0x10000), (80, 0x40)],
   [⟨63, 48, .ro, 0, none⟩, ⟨47, 40, .ro, 0, none⟩, ⟨39, 31, .ro, 0, none⟩, ⟨30, 26, .ro, 0, none⟩, ⟨25, 23, .ro, 0, none⟩, ⟨22, 20, .ro, 0, none⟩, ⟨10, 8, .ro, 0, none⟩, ⟨2, 0, .ro, 0, none⟩]⟩,
  ⟨"BULK.QRING", 0x06001010, [(8, 0x10000), (80, 0x40)],
   [⟨55, 52, .rw, 8, some (4, 15)⟩, ⟨51, 48, .rw, 0, none⟩, ⟨43, 5, .rw, 0, none⟩]⟩,
  ⟨"BULK.QNEXT", 0x06001018, [(8, 0x10000), (80, 0x40)],
   [⟨43, 6, .ro, 0, none⟩, ⟨0, 0, .ro, 0, none⟩]⟩,
  ⟨"BULK.QPROD", 0x06001020, [(8, 0x10000), (80, 0x40)],
   [⟨31, 0, .rw, 0, none⟩]⟩,
  ⟨"BULK.QPOST", 0x06001028, [(8, 0x10000), (80, 0x40)],
   [⟨43, 6, .wo, 0, none⟩]⟩]

/-- Registers of the NOC block. -/
def RegTab.noc0 : List RegDef := [
  ⟨"NOC.DIEID", 0x07000000, [(8, 0x10000), (11, 0x8)],
   [⟨15, 15, .ro, 0, none⟩, ⟨14, 14, .ro, 0, none⟩, ⟨13, 13, .ro, 0, none⟩, ⟨5, 0, .ro, 0, none⟩]⟩,
  ⟨"NOC.TMAP", 0x07000800, [(8, 0x10000), (256, 0x8)],
   [⟨15, 15, .ro, 0, none⟩, ⟨14, 14, .ro, 0, none⟩, ⟨12, 8, .ro, 0, none⟩, ⟨3, 0, .ro, 0, none⟩]⟩,
  ⟨"NOC.OMAP", 0x07001000, [(8, 0x10000), (48, 0x8)],
   [⟨15, 15, .ro, 0, none⟩, ⟨14, 14, .ro, 0, none⟩, ⟨13, 13, .ro, 0, none⟩, ⟨12, 8, .ro, 0, none⟩, ⟨3, 0, .ro, 0, none⟩]⟩,
  ⟨"NOC.EDGE", 0x07080000, [(12, 0x10)],
   [⟨63, 48, .ro, 0, none⟩, ⟨31, 16, .ro, 0, none⟩, ⟨10, 8, .ro, 0, none⟩, ⟨3, 3, .w1c, 0, none⟩, ⟨2, 2, .ro, 0, none⟩, ⟨1, 0, .ro, 0, none⟩]⟩,
  ⟨"NOC.EDGEERR", 0x07080008, [(12, 0x10)],
   [⟨63, 32, .rc, 0, none⟩, ⟨31, 0, .rc, 0, none⟩]⟩]

/-- Registers of the TILE block. -/
def RegTab.tile0 : List RegDef := [
  ⟨"TILE.ID", 0x08000000, [(2048, 0x1000)],
   [⟨47, 47, .ro, 0, none⟩, ⟨46, 38, .ro, 0, none⟩, ⟨37, 31, .ro, 0, none⟩, ⟨20, 16, .ro, 0, none⟩, ⟨15, 12, .ro, 0, none⟩, ⟨10, 0, .ro, 0, none⟩]⟩,
  ⟨"TILE.STATUS", 0x08000008, [(2048, 0x1000)],
   [⟨11, 11, .ro, 0, none⟩, ⟨10, 10, .ro, 0, none⟩, ⟨9, 8, .ro, 0, none⟩, ⟨3, 0, .ro, 0, none⟩]⟩,
  ⟨"TILE.PC", 0x08000010, [(2048, 0x1000)],
   [⟨43, 4, .ro, 0, none⟩]⟩,
  ⟨"TILE.STEP", 0x08000018, [(2048, 0x1000)],
   [⟨63, 0, .ro, 0, none⟩]⟩,
  ⟨"TILE.STEPCTL", 0x08000020, [(2048, 0x1000)],
   [⟨31, 28, .rws, 2, some (1, 15)⟩, ⟨23, 0, .rws, 0x3e8, some (1, 16777215)⟩]⟩,
  ⟨"TILE.TRAP", 0x08000028, [(2048, 0x1000)],
   [⟨47, 32, .ro, 0, none⟩, ⟨22, 16, .w1c, 0, none⟩, ⟨15, 15, .w1c, 0, none⟩, ⟨11, 10, .ro, 0, none⟩, ⟨7, 7, .w1c, 0, none⟩, ⟨2, 0, .ro, 0, none⟩]⟩,
  ⟨"TILE.TRAP_PC", 0x08000030, [(2048, 0x1000)],
   [⟨43, 4, .ro, 0, none⟩]⟩,
  ⟨"TILE.RESUME_PC", 0x08000038, [(2048, 0x1000)],
   [⟨43, 4, .rw, 0, none⟩]⟩,
  ⟨"TILE.TRAP_OP", 0x08000040, [(2048, 0x1000)],
   [⟨31, 0, .ro, 0, none⟩]⟩,
  ⟨"TILE.TRAP_ADDR", 0x08000048, [(2048, 0x1000)],
   [⟨55, 0, .ro, 0, none⟩]⟩,
  ⟨"TILE.FH_BASE", 0x08000050, [(2048, 0x1000)],
   [⟨43, 12, .rw, 0, none⟩]⟩,
  ⟨"TILE.SAVE_BASE", 0x08000058, [(2048, 0x1000)],
   [⟨43, 16, .rw, 0, none⟩]⟩]

/-- Registers of the TILE block. -/
def RegTab.tile1 : List RegDef := [
  ⟨"TILE.PREEMPT", 0x08000060, [(2048, 0x1000)],
   [⟨7, 6, .ro, 0, none⟩, ⟨3, 3, .ro, 0, none⟩, ⟨1, 0, .wo, 0, none⟩]⟩,
  ⟨"TILE.CYCLE", 0x08000068, [(2048, 0x1000)],
   [⟨63, 0, .ro, 0, none⟩]⟩,
  ⟨"TILE.STALLCNT", 0x08000070, [(2048, 0x1000)],
   [⟨63, 32, .ro, 0, none⟩, ⟨31, 0, .ro, 0, none⟩]⟩,
  ⟨"TILE.IBUF", 0x08000078, [(2048, 0x1000)],
   [⟨15, 0, .rc, 0, none⟩]⟩,
  ⟨"TILE.LSTAG", 0x08000200, [(2048, 0x1000), (32, 0x8)],
   [⟨2, 0, .ro, 0, none⟩, ⟨6, 4, .ro, 0, none⟩, ⟨10, 8, .ro, 0, none⟩, ⟨14, 12, .ro, 0, none⟩, ⟨18, 16, .ro, 0, none⟩, ⟨22, 20, .ro, 0, none⟩, ⟨26, 24, .ro, 0, none⟩, ⟨30, 28, .ro, 0, none⟩, ⟨34, 32, .ro, 0, none⟩, ⟨38, 36, .ro, 0, none⟩, ⟨42, 40, .ro, 0, none⟩, ⟨46, 44, .ro, 0, none⟩, ⟨50, 48, .ro, 0, none⟩, ⟨54, 52, .ro, 0, none⟩, ⟨58, 56, .ro, 0, none⟩, ⟨62, 60, .ro, 0, none⟩]⟩,
  ⟨"TILE.KVW_STAT", 0x08000700, [(2048, 0x1000)],
   [⟨55, 48, .ro, 0, none⟩, ⟨47, 24, .ro, 0, none⟩, ⟨23, 0, .ro, 0, none⟩]⟩,
  ⟨"TILE.KVW_PAR", 0x08000708, [(2048, 0x1000)],
   [⟨15, 0, .rc, 0, none⟩]⟩]

/-- Registers of the MXA block. -/
def RegTab.mxa0 : List RegDef := [
  ⟨"MXA.STATUS", 0x08000400, [(2048, 0x1000)],
   [⟨25, 16, .ro, 0, none⟩, ⟨14, 14, .ro, 0, none⟩, ⟨13, 12, .ro, 0, none⟩, ⟨11, 11, .ro, 0, none⟩, ⟨10, 10, .ro, 0, none⟩, ⟨9, 9, .ro, 0, none⟩, ⟨8, 8, .ro, 0, none⟩, ⟨3, 1, .ro, 0, none⟩, ⟨0, 0, .ro, 0, none⟩]⟩,
  ⟨"MXA.REPAIR", 0x08000408, [(2048, 0x1000)],
   [⟨15, 15, .ro, 0, none⟩, ⟨14, 14, .ro, 0, none⟩, ⟨5, 5, .ro, 0, none⟩, ⟨4, 0, .ro, 0, none⟩]⟩,
  ⟨"MXA.SMOOTH", 0x08000410, [(2048, 0x1000)],
   [⟨47, 47, .rws, 1, none⟩, ⟨40, 32, .rws, 0x40, some (0, 256)⟩, ⟨28, 16, .rws, 0x100, some (16, 4096)⟩, ⟨9, 0, .rws, 0x40, none⟩]⟩,
  ⟨"MXA.THROTTLE", 0x08000418, [(2048, 0x1000)],
   [⟨63, 32, .ro, 0, none⟩, ⟨9, 0, .ro, 0, none⟩]⟩,
  ⟨"MXA.RESIDUE", 0x08000420, [(2048, 0x1000)],
   [⟨47, 32, .ro, 0, none⟩, ⟨31, 16, .rc, 0, none⟩, ⟨13, 8, .ro, 0, none⟩, ⟨7, 0, .ro, 0, none⟩]⟩,
  ⟨"MXA.PASSCNT", 0x08000428, [(2048, 0x1000)],
   [⟨63, 32, .ro, 0, none⟩, ⟨31, 0, .ro, 0, none⟩]⟩,
  ⟨"MXA.BUSYCNT", 0x08000430, [(2048, 0x1000)],
   [⟨63, 32, .ro, 0, none⟩, ⟨31, 0, .ro, 0, none⟩]⟩,
  ⟨"MXA.ACCERR", 0x08000438, [(2048, 0x1000)],
   [⟨15, 0, .rc, 0, none⟩]⟩,
  ⟨"MXA.BIST", 0x08000440, [(2048, 0x1000)],
   [⟨47, 40, .ro, 0, none⟩, ⟨39, 34, .ro, 0, none⟩, ⟨33, 28, .ro, 0, none⟩, ⟨19, 18, .ro, 0, none⟩, ⟨17, 17, .ro, 0, none⟩, ⟨7, 4, .rw, 0, some (0, 2)⟩, ⟨0, 0, .wo, 0, none⟩]⟩]

/-- Registers of the VXU block. -/
def RegTab.vxu0 : List RegDef := [
  ⟨"VXU.RESIDUE", 0x08000500, [(2048, 0x1000)],
   [⟨47, 32, .ro, 0, none⟩, ⟨31, 16, .rc, 0, none⟩, ⟨9, 8, .ro, 0, none⟩, ⟨5, 0, .ro, 0, none⟩]⟩,
  ⟨"VXU.SPECIAL", 0x08000508, [(2048, 0x1000)],
   [⟨63, 48, .ro, 0, none⟩, ⟨47, 32, .ro, 0, none⟩, ⟨31, 16, .ro, 0, none⟩, ⟨15, 0, .ro, 0, none⟩]⟩]

/-- Registers of the LS block. -/
def RegTab.ls0 : List RegDef := [
  ⟨"LS.ECC", 0x08000600, [(2048, 0x1000)],
   [⟨40, 32, .ro, 0, none⟩, ⟨31, 16, .ro, 0, none⟩, ⟨15, 0, .rc, 0, none⟩]⟩,
  ⟨"LS.MEMOPS", 0x08000608, [(2048, 0x1000)],
   [⟨37, 32, .ro, 0, none⟩, ⟨31, 0, .ro, 0, none⟩]⟩]

/-- Registers of the SLC block. -/
def RegTab.slc0 : List RegDef := [
  ⟨"SLC.STATUS", 0x08000800, [(2048, 0x1000)],
   [⟨9, 9, .ro, 0, none⟩, ⟨8, 8, .ro, 0, none⟩, ⟨7, 0, .ro, 0, none⟩]⟩,
  ⟨"SLC.CTL", 0x08000808, [(2048, 0x1000)],
   [⟨7, 0, .rws, 0x40, some (16, 128)⟩]⟩,
  ⟨"SLC.ECC", 0x08000810, [(2048, 0x1000)],
   [⟨31, 16, .rc, 0, none⟩, ⟨15, 0, .rc, 0, none⟩]⟩,
  ⟨"SLC.REPAIR", 0x08000818, [(2048, 0x1000)],
   [⟨63, 32, .ro, 0, none⟩, ⟨15, 0, .ro, 0, none⟩]⟩]

/-- Registers of the DMA block. -/
def RegTab.dma0 : List RegDef := [
  ⟨"DMA.GCTL", 0x08000900, [(2048, 0x1000), (2, 0x8)],
   [⟨38, 32, .rws, 0x64, some (1, 100)⟩, ⟨30, 24, .rws, 0x64, some (1, 100)⟩, ⟨22, 16, .rws, 0x64, some (1, 100)⟩, ⟨11, 8, .rws, 8, some (1, 15)⟩, ⟨0, 0, .rws, 1, none⟩]⟩,
  ⟨"DMA.GSTAT", 0x08000910, [(2048, 0x1000)],
   [⟨63, 48, .ro, 0, none⟩, ⟨47, 32, .ro, 0, none⟩, ⟨31, 16, .ro, 0, none⟩, ⟨15, 0, .ro, 0, none⟩]⟩,
  ⟨"DMA.QCTL", 0x08000A00, [(2048, 0x1000), (8, 0x40)],
   [⟨63, 62, .wo, 0, none⟩, ⟨8, 0, .rws, 0x40, some (1, 256)⟩]⟩,
  ⟨"DMA.QSTAT", 0x08000A08, [(2048, 0x1000), (8, 0x40)],
   [⟨63, 48, .ro, 0, none⟩, ⟨47, 40, .ro, 0, none⟩, ⟨39, 31, .ro, 0, none⟩, ⟨30, 26, .ro, 0, none⟩, ⟨25, 23, .ro, 0, none⟩, ⟨22, 20, .ro, 0, none⟩, ⟨10, 8, .ro, 0, none⟩, ⟨2, 0, .ro, 0, none⟩]⟩,
  ⟨"DMA.QRING", 0x08000A10, [(2048, 0x1000), (8, 0x40)],
   [⟨55, 52, .rw, 8, some (4, 15)⟩, ⟨51, 48, .rw, 0, none⟩, ⟨43, 5, .rw, 0, none⟩]⟩,
  ⟨"DMA.QNEXT", 0x08000A18, [(2048, 0x1000), (8, 0x40)],
   [⟨43, 6, .ro, 0, none⟩, ⟨0, 0, .ro, 0, none⟩]⟩,
  ⟨"DMA.QPROD", 0x08000A20, [(2048, 0x1000), (8, 0x40)],
   [⟨31, 0, .rw, 0, none⟩]⟩]

/-- Registers of the PL block. -/
def RegTab.pl0 : List RegDef := [
  ⟨"PL.ID", 0x09000000, [],
   [⟨31, 31, .rw, 0, none⟩, ⟨11, 0, .rw, 0, none⟩]⟩,
  ⟨"PL.CTL", 0x09000008, [],
   [⟨47, 32, .rws, 0x32, some (10, 10000)⟩, ⟨27, 24, .rws, 3, some (1, 15)⟩, ⟨0, 0, .rw, 0, none⟩]⟩,
  ⟨"PL.TICKCTL", 0x09000010, [],
   [⟨63, 62, .rws, 0, some (0, 2)⟩, ⟨61, 57, .rws, 0x1f, none⟩, ⟨56, 52, .rws, 0x1f, none⟩, ⟨51, 36, .rws, 0xa, some (1, 1000)⟩, ⟨35, 24, .rws, 3, none⟩, ⟨23, 12, .rws, 1, none⟩, ⟨11, 0, .rws, 4, none⟩]⟩,
  ⟨"PL.TICKSTAT", 0x09000018, [],
   [⟨63, 32, .ro, 0, none⟩, ⟨31, 16, .rc, 0, none⟩, ⟨0, 0, .ro, 0, none⟩]⟩,
  ⟨"PL.TICKNUM", 0x09000020, [],
   [⟨63, 0, .ro, 0, none⟩]⟩,
  ⟨"PL.PCTL", 0x09001000, [(24, 0x100)],
   [⟨19, 18, .rw, 3, none⟩, ⟨17, 17, .rw, 0, none⟩, ⟨16, 14, .rw, 0, none⟩, ⟨11, 10, .rw, 3, none⟩, ⟨9, 9, .rw, 0, none⟩, ⟨8, 8, .rw, 0, none⟩, ⟨1, 0, .wo, 0, none⟩]⟩,
  ⟨"PL.PSTAT", 0x09001008, [(24, 0x100)],
   [⟨63, 52, .ro, 0, none⟩, ⟨51, 47, .ro, 0, none⟩, ⟨46, 36, .ro, 0, none⟩, ⟨35, 28, .ro, 0, none⟩, ⟨23, 22, .ro, 0, none⟩, ⟨18, 16, .ro, 0, none⟩]⟩,
  ⟨"PL.PERR", 0x09001010, [(24, 0x100)],
   [⟨63, 48, .rc, 0, none⟩, ⟨47, 32, .rc, 0, none⟩, ⟨31, 0, .rc, 0, none⟩]⟩,
  ⟨"PL.RT", 0x09020000, [(4096, 0x8)],
   [⟨63, 63, .rw, 0, none⟩, ⟨55, 48, .rw, 0, none⟩, ⟨47, 24, .rw, 0, none⟩, ⟨23, 0, .rw, 0, none⟩]⟩]

/-- Registers of the COLL block. -/
def RegTab.coll0 : List RegDef := [
  ⟨"COLL.STAT", 0x0A000000, [(8, 0x1000)],
   [⟨63, 48, .rc, 0, none⟩, ⟨47, 32, .rc, 0, none⟩, ⟨31, 0, .ro, 0, none⟩]⟩]

/-- Registers of the SEC block. -/
def RegTab.sec0 : List RegDef := [
  ⟨"SEC.ALARMPOL", 0x0B000000, [],
   [⟨16, 16, .rw, 0, none⟩, ⟨9, 0, .rw, 0x395, none⟩]⟩,
  ⟨"SEC.ALARMSTAT", 0x0B000008, [],
   [⟨63, 32, .ro, 0, none⟩, ⟨17, 16, .ro, 0, none⟩, ⟨14, 12, .ro, 0, none⟩, ⟨10, 8, .ro, 0, none⟩, ⟨4, 0, .w1c, 0, none⟩]⟩,
  ⟨"SEC.KEYSTAT", 0x0B000010, [],
   [⟨17, 17, .ro, 0, none⟩, ⟨16, 16, .ro, 0, none⟩, ⟨15, 8, .ro, 0, none⟩, ⟨7, 0, .ro, 0, none⟩]⟩]

/-- Registers of the ERR block. -/
def RegTab.err0 : List RegDef := [
  ⟨"ERR.BASE", 0x0C000000, [(8, 0x1000)],
   [⟨58, 54, .rw, 0x16, some (16, 30)⟩, ⟨43, 16, .rw, 0, none⟩]⟩,
  ⟨"ERR.HEAD", 0x0C000008, [(8, 0x1000)],
   [⟨63, 0, .ro, 0, none⟩]⟩,
  ⟨"ERR.TAIL", 0x0C000010, [(8, 0x1000)],
   [⟨63, 0, .rw, 0, none⟩]⟩,
  ⟨"ERR.STAT", 0x0C000018, [(8, 0x1000)],
   [⟨63, 32, .ro, 0, none⟩, ⟨24, 16, .ro, 0, none⟩, ⟨0, 0, .w1c, 0, none⟩]⟩,
  ⟨"ERR.CTL", 0x0C000020, [(8, 0x1000)],
   [⟨15, 8, .rws, 0xa, some (1, 255)⟩, ⟨2, 0, .rws, 3, some (1, 5)⟩]⟩,
  ⟨"ERR.THRESH", 0x0C000028, [(8, 0x1000)],
   [⟨39, 32, .rws, 4, some (1, 255)⟩, ⟨31, 24, .rws, 0x18, some (1, 168)⟩, ⟨23, 16, .rws, 4, some (1, 255)⟩, ⟨15, 8, .rws, 2, some (1, 255)⟩, ⟨7, 0, .rws, 0x10, some (1, 255)⟩]⟩,
  ⟨"ERR.ENGRST", 0x0C000030, [(8, 0x1000)],
   [⟨31, 24, .wo, 0, none⟩, ⟨23, 0, .wo, 0, none⟩]⟩,
  ⟨"ERR.ENGSTAT", 0x0C000038, [(8, 0x1000)],
   [⟨63, 32, .ro, 0, none⟩, ⟨2, 0, .ro, 0, none⟩]⟩]

/-- Registers of the HIF block. -/
def RegTab.hif0 : List RegDef := [
  ⟨"HIF.LINK", 0x0D000000, [],
   [⟨63, 32, .ro, 0, none⟩, ⟨8, 8, .ro, 0, none⟩, ⟨7, 5, .ro, 0, none⟩, ⟨4, 0, .ro, 0, none⟩]⟩,
  ⟨"HIF.SEG", 0x0D000100, [(16, 0x8)],
   [⟨63, 63, .rw, 0, none⟩, ⟨62, 62, .rw, 0, none⟩, ⟨43, 26, .rw, 0, none⟩]⟩,
  ⟨"HIF.HREG", 0x0D001000, [(256, 0x8)],
   [⟨63, 21, .rw, 0, none⟩, ⟨20, 15, .rw, 0, some (21, 52)⟩, ⟨14, 14, .rw, 0, none⟩, ⟨13, 13, .rw, 0, none⟩, ⟨0, 0, .rw, 0, none⟩]⟩,
  ⟨"HIF.QBASE", 0x0D008000, [(512, 0x8)],
   [⟨63, 63, .ro, 0, none⟩, ⟨51, 48, .ro, 0, none⟩, ⟨43, 6, .ro, 0, none⟩]⟩,
  ⟨"HIF.RQ", 0x0D009000, [(512, 0x8)],
   [⟨63, 32, .ro, 0, none⟩, ⟨31, 0, .rw, 0, none⟩]⟩,
  ⟨"HIF.CQ", 0x0D00A000, [(512, 0x8)],
   [⟨63, 32, .rw, 0, none⟩, ⟨31, 0, .ro, 0, none⟩]⟩]

/-- Registers of the MGT block. -/
def RegTab.mgt0 : List RegDef := [
  ⟨"MGT.ID", 0x0E000000, [],
   [⟨63, 32, .ro, 0, none⟩, ⟨31, 16, .ro, 0, none⟩, ⟨7, 0, .ro, 0, none⟩]⟩,
  ⟨"MGT.MBCTL", 0x0E000008, [],
   [⟨0, 0, .wo, 0, none⟩]⟩,
  ⟨"MGT.MBSTAT", 0x0E000010, [],
   [⟨1, 1, .w1c, 0, none⟩, ⟨0, 0, .ro, 0, none⟩]⟩,
  ⟨"MGT.FWSTAT", 0x0E000018, [],
   [⟨63, 48, .ro, 0, none⟩, ⟨47, 32, .ro, 0, none⟩, ⟨10, 8, .ro, 0, none⟩, ⟨2, 0, .ro, 0, none⟩]⟩,
  ⟨"MGT.COOLANT", 0x0E000020, [],
   [⟨63, 63, .ro, 1, none⟩, ⟨50, 0, .ro, 0, none⟩]⟩,
  ⟨"MGT.PINS", 0x0E000028, [],
   [⟨22, 22, .ro, 0, none⟩, ⟨21, 21, .ro, 0, none⟩, ⟨20, 20, .ro, 0, none⟩, ⟨19, 19, .ro, 0, none⟩, ⟨18, 18, .ro, 0, none⟩, ⟨17, 17, .w1c, 0, none⟩, ⟨16, 16, .ro, 0, none⟩, ⟨5, 0, .ro, 0, none⟩]⟩]

/-- Registers of the CLK block. -/
def RegTab.clk0 : List RegDef := [
  ⟨"CLK.STATUS", 0x0F000000, [],
   [⟨47, 40, .ro, 0, none⟩, ⟨39, 32, .ro, 0, none⟩, ⟨31, 24, .ro, 0, none⟩, ⟨23, 16, .rc, 0, none⟩, ⟨8, 8, .ro, 0, none⟩, ⟨2, 0, .ro, 0, none⟩]⟩,
  ⟨"CLK.METER", 0x0F000008, [],
   [⟨31, 31, .ro, 0, none⟩, ⟨28, 24, .rw, 0x10, some (10, 24)⟩, ⟨23, 16, .rw, 0, none⟩, ⟨15, 8, .rw, 0, none⟩, ⟨0, 0, .wo, 0, none⟩]⟩,
  ⟨"CLK.METERCNT", 0x0F000010, [],
   [⟨63, 63, .ro, 0, none⟩, ⟨39, 0, .ro, 0, none⟩]⟩]

/-- Registers of the BOOT block. -/
def RegTab.boot0 : List RegDef := [
  ⟨"BOOT.STATUS", 0x0F010000, [],
   [⟨63, 32, .ro, 0, none⟩, ⟨31, 24, .ro, 0, none⟩, ⟨19, 16, .ro, 0, none⟩, ⟨9, 8, .ro, 0, none⟩, ⟨4, 4, .ro, 0, none⟩, ⟨3, 3, .ro, 0, none⟩, ⟨2, 2, .ro, 0, none⟩, ⟨1, 1, .ro, 0, none⟩, ⟨0, 0, .ro, 0, none⟩]⟩,
  ⟨"BOOT.CTL", 0x0F010008, [],
   [⟨0, 0, .rw, 0, none⟩]⟩]

/-- Registers of the PWR block. -/
def RegTab.pwr0 : List RegDef := [
  ⟨"PWR.LIMIT", 0x0F020000, [],
   [⟨47, 36, .ro, 0, none⟩, ⟨35, 24, .ro, 0, none⟩, ⟨23, 12, .ro, 0, none⟩, ⟨11, 0, .rws, 0, none⟩]⟩,
  ⟨"PWR.STAT", 0x0F020008, [],
   [⟨47, 32, .ro, 0, none⟩, ⟨31, 16, .ro, 0, none⟩, ⟨2, 2, .ro, 0, none⟩, ⟨1, 1, .ro, 0, none⟩, ⟨0, 0, .ro, 0, none⟩]⟩,
  ⟨"PWR.PCTL", 0x0F020100, [(8, 0x8)],
   [⟨55, 50, .rws, 0x3c, some (20, 60)⟩, ⟨49, 48, .ro, 0, none⟩, ⟨47, 45, .ro, 0, none⟩, ⟨41, 36, .ro, 0x3c, none⟩, ⟨35, 26, .ro, 0, none⟩, ⟨25, 16, .ro, 0, none⟩, ⟨5, 0, .rws, 0x28, some (5, 40)⟩]⟩]

/-- Registers of the THM block. -/
def RegTab.thm0 : List RegDef := [
  ⟨"THM.CTL", 0x0F040000, [],
   [⟨31, 24, .rws, 0x5f, some (80, 103)⟩, ⟨23, 16, .rws, 0x67, some (90, 103)⟩]⟩,
  ⟨"THM.STAT", 0x0F040008, [],
   [⟨63, 48, .ro, 0, none⟩, ⟨47, 32, .rc, 0, none⟩, ⟨31, 16, .ro, 0, none⟩, ⟨11, 0, .ro, 0, none⟩]⟩,
  ⟨"THM.SUBST", 0x0F040100, [(64, 0x8)],
   [⟨63, 63, .rw, 0, none⟩, ⟨55, 44, .rw, 0, none⟩, ⟨43, 32, .rw, 0, none⟩, ⟨5, 0, .rw, 0, none⟩]⟩,
  ⟨"THM.SENS", 0x0F080000, [(3344, 0x8)],
   [⟨31, 31, .ro, 0, none⟩, ⟨30, 30, .ro, 0, none⟩, ⟨29, 29, .ro, 0, none⟩, ⟨15, 0, .ro, 0, none⟩]⟩]

/-- Every register of the map. -/
def RegTab.all : List RegDef :=
  RegTab.dev0 ++ RegTab.part0 ++ RegTab.part1 ++ RegTab.ctx0 ++ RegTab.syn0 ++ RegTab.cap0 ++ RegTab.cru0 ++ RegTab.sca0 ++ RegTab.bulk0 ++ RegTab.noc0 ++ RegTab.tile0 ++ RegTab.tile1 ++ RegTab.mxa0 ++ RegTab.vxu0 ++ RegTab.ls0 ++ RegTab.slc0 ++ RegTab.dma0 ++ RegTab.pl0 ++ RegTab.coll0 ++ RegTab.sec0 ++ RegTab.err0 ++ RegTab.hif0 ++ RegTab.mgt0 ++ RegTab.clk0 ++ RegTab.boot0 ++ RegTab.pwr0 ++ RegTab.thm0

/-- The indices an offset has in an array, if it lies on one of its elements. -/
def RegTab.indices : List (Nat × Nat) → Nat → Option (List Nat)
  | [], x => if x = 0 then some [] else none
  | (n, st) :: t, x =>
    if x / st < n then (RegTab.indices t (x % st)).map (x / st :: ·) else none

/-- The register at a BAR0 offset. -/
def RegTab.findIn : List RegDef → Nat → Option (RegDef × List Nat)
  | [], _ => none
  | d :: t, off =>
    match if d.base ≤ off then RegTab.indices d.dims (off - d.base) else none with
    | some l => some (d, l)
    | none => RegTab.findIn t off

def RegTab.find (off : Nat) : Option (RegDef × List Nat) := RegTab.findIn RegTab.all off

end Sys2Proof.Machine
end

