-- ==== Sys2Proof/Machine/TileWord.lean ====
section
/-! DEFINITION. What the encoding and the tables of R154 to R228 give each tile operation: its slot, the 32-bit slot word that
encodes it, the registers it reads and writes, and its latency. -/

namespace Sys2Proof

def Slot.code : Slot → BitVec 2
  | .d => 0 | .m => 1 | .v => 2 | .s => 3

namespace AluOp
def opcode : AluOp → Nat
  | add => 1 | sub => 2 | and => 3 | or => 4 | xor => 5 | sll => 6 | srl => 7 | sra => 8 | slt => 9 | sltu => 10
  | min => 11 | max => 12 | minu => 13 | maxu => 14 | mul => 15 | mulh => 16 | mulhu => 17
end AluOp

namespace AluiOp
def opcode : AluiOp → Nat
  | addi => 0x12 | andi => 0x13 | ori => 0x14 | xori => 0x15 | slli => 0x16 | srli => 0x17 | srai => 0x18
  | slti => 0x19 | sltiu => 0x1A
end AluiOp

namespace BrCond
def opcode : BrCond → Nat
  | eq => 0x21 | ne => 0x22 | lt => 0x23 | ge => 0x24 | ltu => 0x25 | geu => 0x26
end BrCond

namespace VArith
def opcode : VArith → Nat
  | add => 1 | sub => 2 | mul => 3 | fma => 4 | fms => 5 | fnma => 6 | max => 7 | min => 8 | abs => 9 | neg => 0xA
  | iadd => 0xD | isub => 0xE | imul => 0xF | imulh => 0x10 | iand => 0x11 | ior => 0x12 | ixor => 0x13
  | ishl => 0x14 | ishr => 0x15 | isar => 0x16 | imax => 0x17 | imin => 0x18 | imac => 0x19

/-- Floating-point operations, which may take t = 1 (R172). -/
def isFp : VArith → Bool
  | add | sub | mul | fma | fms | fnma | max | min | abs | neg => true
  | _ => false

/-- Number of vector sources. -/
def arity : VArith → Nat
  | abs | neg => 1
  | fma | fms | fnma | imac => 3
  | _ => 2

def latency : VArith → Nat
  | add | sub | mul | fma | fms | fnma | max | min | abs | neg | imul | imulh | imac => 4
  | _ => 2
end VArith

def VFun.opcode : VFun → Nat
  | .exp2 => 0x1E | .log2 => 0x1F | .rcp => 0x20 | .rsqrt => 0x21

def VRed.opcode : VRed → Nat
  | .rsum => 0x23 | .rmax => 0x24 | .rmin => 0x25 | .irsum => 0x26 | .scan => 0x27 | .iscan => 0x28

def VRed.latency : VRed → Nat
  | .rsum | .rmax | .rmin => 26
  | .irsum | .iscan => 14
  | .scan => 30

def VLane3.opcode : VLane3 → Nat
  | .perm => 0x2C | .sel => 0x2F | .mov => 0x35

def VLaneI.opcode : VLaneI → Nat
  | .rot => 0x2D | .bfly => 0x2E | .bcastl => 0x31

def VPredOp.opcode : VPredOp → Nat
  | .pand => 0x36 | .por => 0x37 | .pxor => 0x38 | .pandn => 0x39

/-- One field of a slot word: the value `x` at bit `lo`. -/
def fieldAt (lo : Nat) {w : Nat} (x : BitVec w) : Nat := x.toNat * 2 ^ lo

def flagAt (lo : Nat) (b : Bool) : Nat := if b then 2 ^ lo else 0

def opWord (opcode : Nat) (fields : List Nat) : W32 := BitVec.ofNat 32 (opcode * 2 ^ 25 + fields.foldl (· + ·) 0)

def VCtl.fields (c : VCtl) : Nat := fieldAt 2 c.pg + flagAt 1 c.z + flagAt 0 c.t

namespace TileOp

/-- The slot an operation occupies; the whole-bundle nop is given the S slot. -/
def slot : TileOp → Slot
  | nop | alu .. | alui .. | li .. | insh .. | aSet .. | aGet .. | aAddi .. | aAdd .. | br .. | brP .. | jmp .. | jal ..
  | jr .. | loopSet .. | loopSeti .. | loopBr .. | loopGet .. | rdsr .. | stepWait .. | fret | fretReplay => .s
  | vArith .. | vCmp .. | vCvt .. | vCvtMx .. | vCvtMxs .. | vCvtMxf .. | vFun .. | vOsm .. | vRed .. | vTreeInit ..
  | vTreePush .. | vTreeFin .. | vLane3 .. | vLaneI .. | vBcast .. | vIns .. | vExt .. | vIota .. | vPred .. | vPs2p ..
  | vPp2s .. | vPcnt .. | vRng .. => .v
  | mxaWload .. | mxaPass .. | accMv .. | accSt .. | accZero .. => .m
  | lsLd .. | lsSt .. | lsVld .. | lsVst .. | lsClaim .. | lsPublish .. | lsRelease .. | lsZero .. | memLd .. | memSt ..
  | memPf .. | memDrop .. | memFence .. | atom .. | kvWalk .. | kvAppend .. | dmaPost .. | dmaStat .. | dmaCancel ..
  | sySignal .. | syWait .. | syArm .. | syRead .. => .d
  | raw sl _ => sl

/-- The slot word of an operation (R155, R157, R158, R189, R192), which TILE.TRAP_OP records. -/
def word : TileOp → W32
  | nop => 0
  | alu op sd sa sb => opWord op.opcode [fieldAt 20 sd, fieldAt 15 sa, fieldAt 10 sb]
  | alui op sd sa imm => opWord op.opcode [fieldAt 20 sd, fieldAt 15 sa, fieldAt 0 imm]
  | li sd imm => opWord 0x1B [fieldAt 20 sd, fieldAt 0 imm]
  | insh sd h imm => opWord 0x1C [fieldAt 20 sd, fieldAt 18 h, fieldAt 0 imm]
  | aSet ad sa => opWord 0x1D [fieldAt 20 ad, fieldAt 15 sa]
  | aGet sd aa => opWord 0x1E [fieldAt 20 sd, fieldAt 15 aa]
  | aAddi ad aa imm => opWord 0x1F [fieldAt 20 ad, fieldAt 15 aa, fieldAt 0 imm]
  | aAdd ad aa sb => opWord 0x20 [fieldAt 20 ad, fieldAt 15 aa, fieldAt 10 sb]
  | br c sa sb off => opWord c.opcode [fieldAt 20 sa, fieldAt 15 sb, fieldAt 0 off]
  | brP any pa off => opWord (if any then 0x27 else 0x28) [fieldAt 22 pa, fieldAt 0 off]
  | jmp off => opWord 0x29 [fieldAt 0 off]
  | jal sd off => opWord 0x2A [fieldAt 20 sd, fieldAt 0 off]
  | jr sa => opWord 0x2B [fieldAt 15 sa]
  | loopSet lc sa => opWord 0x2C [fieldAt 23 lc, fieldAt 15 sa]
  | loopSeti lc imm => opWord 0x2D [fieldAt 23 lc, fieldAt 0 imm]
  | loopBr lc off => opWord 0x2E [fieldAt 23 lc, fieldAt 0 off]
  | loopGet sd lc => opWord 0x2F [fieldAt 20 sd, fieldAt 15 lc]
  | rdsr sd sr => opWord 0x30 [fieldAt 20 sd, fieldAt 0 sr]
  | stepWait rev => opWord 0x31 [flagAt 24 rev]
  | fret => opWord 0x32 []
  | fretReplay => opWord 0x33 []
  | vArith op vd va vb vc c => opWord op.opcode [fieldAt 20 vd, fieldAt 15 va, fieldAt 10 vb, fieldAt 5 vc, c.fields]
  | vCmp int pd va vb cnd c =>
    opWord (if int then 0xC else 0xB) [fieldAt 20 pd, fieldAt 15 va, fieldAt 10 vb, fieldAt 5 cnd, c.fields]
  | vCvt vd va kind pg z => opWord 0x1A [fieldAt 20 vd, fieldAt 15 va, fieldAt 10 kind, fieldAt 2 pg, flagAt 1 z]
  | vCvtMx vd va fmt pg z => opWord 0x1B [fieldAt 20 vd, fieldAt 15 va, fieldAt 10 fmt, fieldAt 2 pg, flagAt 1 z]
  | vCvtMxs vd va fmt sc pg z =>
    opWord 0x1C [fieldAt 20 vd, fieldAt 15 va, fieldAt 10 fmt, fieldAt 5 sc, fieldAt 2 pg, flagAt 1 z]
  | vCvtMxf vd va fmt pg z => opWord 0x1D [fieldAt 20 vd, fieldAt 15 va, fieldAt 10 fmt, fieldAt 2 pg, flagAt 1 z]
  | vFun f vd va c => opWord f.opcode [fieldAt 20 vd, fieldAt 15 va, c.fields]
  | vOsm vd va vb vc pg z ml =>
    opWord 0x22 [fieldAt 20 vd, fieldAt 15 va, fieldAt 10 vb, fieldAt 5 vc, fieldAt 2 pg, flagAt 1 z, flagAt 0 ml]
  | vRed op vd va c => opWord op.opcode [fieldAt 20 vd, fieldAt 15 va, c.fields]
  | vTreeInit aa => opWord 0x29 [fieldAt 15 aa]
  | vTreePush va aa q i => opWord 0x2A [fieldAt 20 va, fieldAt 15 aa, fieldAt 11 q, flagAt 10 i]
  | vTreeFin vd aa i => opWord 0x2B [fieldAt 20 vd, fieldAt 15 aa, flagAt 10 i]
  | vLane3 op vd va vb c => opWord op.opcode [fieldAt 20 vd, fieldAt 15 va, fieldAt 10 vb, c.fields]
  | vLaneI op vd va n c => opWord op.opcode [fieldAt 20 vd, fieldAt 15 va, fieldAt 9 n, c.fields]
  | vBcast vd sa c => opWord 0x30 [fieldAt 20 vd, fieldAt 15 sa, c.fields]
  | vIns vd sa n c => opWord 0x32 [fieldAt 20 vd, fieldAt 15 sa, fieldAt 9 n, c.fields]
  | vExt sd va n c => opWord 0x33 [fieldAt 20 sd, fieldAt 15 va, fieldAt 9 n, c.fields]
  | vIota vd n c => opWord 0x34 [fieldAt 20 vd, fieldAt 9 n, c.fields]
  | vPred op pd pa pb => opWord op.opcode [fieldAt 20 pd, fieldAt 15 pa, fieldAt 10 pb]
  | vPs2p pd sa => opWord 0x3A [fieldAt 20 pd, fieldAt 15 sa]
  | vPp2s sd pa => opWord 0x3B [fieldAt 20 sd, fieldAt 15 pa]
  | vPcnt sd pa => opWord 0x3C [fieldAt 20 sd, fieldAt 15 pa]
  | vRng u vd sa sb w pg z =>
    opWord (if u then 0x3E else 0x3D) [fieldAt 20 vd, fieldAt 15 sa, fieldAt 10 sb, fieldAt 5 w, fieldAt 2 pg, flagAt 1 z]
  | mxaWload aa wfmt c => opWord 1 [fieldAt 21 aa, fieldAt 18 wfmt, flagAt 17 c]
  | mxaPass ai as sr ifmt init c cs =>
    opWord 2 [fieldAt 21 ai, fieldAt 17 as, fieldAt 12 sr, fieldAt 9 ifmt, flagAt 8 init, flagAt 7 c, flagAt 6 cs]
  | accMv vd sr => opWord 3 [fieldAt 20 vd, fieldAt 15 sr]
  | accSt tr aa sr pub => opWord (if tr then 5 else 4) [fieldAt 21 aa, fieldAt 16 sr, flagAt 15 pub]
  | accZero sr => opWord 6 [fieldAt 16 sr]
  | lsLd sd aa off c => opWord 1 [fieldAt 20 sd, fieldAt 16 aa, flagAt 15 c, fieldAt 0 off]
  | lsSt sa aa off pub => opWord 2 [fieldAt 20 sa, fieldAt 16 aa, flagAt 15 pub, fieldAt 0 off]
  | lsVld vd aa off c => opWord 3 [fieldAt 20 vd, fieldAt 16 aa, flagAt 15 c, fieldAt 0 off]
  | lsVst va aa off pub => opWord 4 [fieldAt 20 va, fieldAt 16 aa, flagAt 15 pub, fieldAt 0 off]
  | lsClaim aa => opWord 5 [fieldAt 16 aa]
  | lsPublish aa => opWord 6 [fieldAt 16 aa]
  | lsRelease aa => opWord 7 [fieldAt 16 aa]
  | lsZero aa pub => opWord 8 [fieldAt 16 aa, flagAt 15 pub]
  | memLd sd aa off hint => opWord 0x10 [fieldAt 20 sd, fieldAt 16 aa, fieldAt 14 hint, fieldAt 0 off]
  | memSt sa aa off hint => opWord 0x11 [fieldAt 20 sa, fieldAt 16 aa, fieldAt 14 hint, fieldAt 0 off]
  | memPf aa off hint => opWord 0x12 [fieldAt 16 aa, fieldAt 14 hint, fieldAt 0 off]
  | memDrop aa off hint => opWord 0x13 [fieldAt 16 aa, fieldAt 14 hint, fieldAt 0 off]
  | memFence rel d => opWord 0x14 [flagAt 24 rel, flagAt 23 d]
  | atom sd sb sc aa w op =>
    opWord 0x18 [fieldAt 20 sd, fieldAt 15 sb, fieldAt 10 sc, fieldAt 6 aa, flagAt 5 w, fieldAt 1 op]
  | kvWalk ad aa sb sd => opWord 0x20 [fieldAt 21 ad, fieldAt 17 aa, fieldAt 12 sb, fieldAt 7 sd]
  | kvAppend aa sb => opWord 0x21 [fieldAt 17 aa, fieldAt 12 sb]
  | dmaPost q aa lo => opWord 0x28 [fieldAt 17 q, fieldAt 13 aa, flagAt 12 lo]
  | dmaStat sd q => opWord 0x29 [fieldAt 20 sd, fieldAt 17 q]
  | dmaCancel q => opWord 0x2A [fieldAt 17 q]
  | sySignal sa sb rel => opWord 0x30 [fieldAt 20 sa, fieldAt 15 sb, flagAt 14 rel]
  | syWait sa sb acq => opWord 0x31 [fieldAt 20 sa, fieldAt 15 sb, flagAt 14 acq]
  | syArm sa sb => opWord 0x32 [fieldAt 20 sa, fieldAt 15 sb]
  | syRead sd sa => opWord 0x33 [fieldAt 20 sd, fieldAt 15 sa]
  | raw _ w => w

/-- The destination keeps its inactive lanes (R171): it is then a source too. -/
def keepV (vd : BitVec 5) (pg : BitVec 3) (z : Bool) : List RegId :=
  if z = false ∧ pg ≠ 0 then [.v vd] else []

def keepP (pd : BitVec 3) (pg : BitVec 3) (z : Bool) : List RegId :=
  if z = false ∧ pg ≠ 0 then [.p pd] else []

/-- Registers an operation reads, before s0 and p0 are dropped (R159, R223). -/
def reads : TileOp → List RegId
  | nop | li .. | jmp .. | jal .. | loopSeti .. | rdsr .. | stepWait .. | fret | fretReplay => []
  | alu _ _ sa sb => [.s sa, .s sb]
  | alui _ _ sa _ => [.s sa]
  | insh sd _ _ => [.s sd]
  | aSet _ sa => [.s sa]
  | aGet _ aa => [.a aa]
  | aAddi _ aa _ => [.a aa]
  | aAdd _ aa sb => [.a aa, .s sb]
  | br _ sa sb _ => [.s sa, .s sb]
  | brP _ pa _ => [.p pa]
  | jr sa => [.s sa]
  | loopSet _ sa => [.s sa]
  | loopBr lc _ => [.lc lc]
  | loopGet _ lc => [.lc lc]
  | vArith op vd va vb vc c =>
    [.v va] ++ (if op.arity ≥ 2 then [.v vb] else []) ++ (if op.arity = 3 then [.v vc] else []) ++ [.p c.pg]
      ++ keepV vd c.pg c.z
  | vCmp _ pd va vb _ c => [.v va, .v vb, .p c.pg] ++ keepP pd c.pg c.z
  | vCvt vd va kind pg z =>
    [.v va, .p pg] ++ (if kind.toNat ≤ 5 then keepV vd pg z else [])
  | vCvtMx _ va _ pg _ => [.v va, .p pg]
  | vCvtMxs _ va _ sc pg _ => [.v va, .s sc, .p pg]
  | vCvtMxf vd va _ pg z => [.v va, .p pg] ++ keepV vd pg z
  | vFun _ vd va c => [.v va, .p c.pg] ++ keepV vd c.pg c.z
  | vOsm vd va vb vc pg z _ => [.v va, .v vb, .v vc, .p pg] ++ keepV vd pg z
  | vRed _ _ va c => [.v va, .p c.pg]
  | vTreeInit aa => [.a aa]
  | vTreePush va aa _ _ => [.v va, .a aa]
  | vTreeFin _ aa _ => [.a aa]
  | vLane3 .perm vd va vb c => [.v va, .v vb, .p c.pg] ++ keepV vd c.pg c.z
  | vLane3 .sel _ va vb c => [.v va, .v vb, .p c.pg]
  | vLane3 .mov vd va _ c => [.v va, .p c.pg] ++ keepV vd c.pg c.z
  | vLaneI _ vd va _ c => [.v va, .p c.pg] ++ keepV vd c.pg c.z
  | vBcast vd sa c => [.s sa, .p c.pg] ++ keepV vd c.pg c.z
  | vIns vd sa _ _ => [.s sa, .v vd]
  | vExt _ va _ _ => [.v va]
  | vIota vd _ c => [.p c.pg] ++ keepV vd c.pg c.z
  | vPred _ _ pa pb => [.p pa, .p pb]
  | vPs2p _ sa => [.s sa]
  | vPp2s _ pa => [.p pa]
  | vPcnt _ pa => [.p pa]
  | vRng _ vd sa sb _ pg z => [.s sa, .s sb, .p pg] ++ keepV vd pg z
  | mxaWload aa _ _ => [.a aa]
  | mxaPass ai as sr ifmt _ _ _ => [.a ai, .s sr] ++ (if ifmt = 5 ∨ ifmt = 7 then [] else [.a as])
  | accMv _ sr => [.s sr]
  | accSt _ aa sr _ => [.a aa, .s sr]
  | accZero sr => [.s sr]
  | lsLd _ aa _ _ => [.a aa]
  | lsSt sa aa _ _ => [.s sa, .a aa]
  | lsVld _ aa _ _ => [.a aa]
  | lsVst va aa _ _ => [.v va, .a aa]
  | lsClaim aa | lsPublish aa | lsRelease aa | lsZero aa _ => [.a aa]
  | memLd _ aa _ _ => [.a aa]
  | memSt sa aa _ _ => [.s sa, .a aa]
  | memPf aa _ _ | memDrop aa _ _ => [.a aa]
  | memFence .. => []
  | atom _ sb sc aa _ op => [.s sb, .a aa] ++ (if op = 9 then [.s sc] else [])
  | kvWalk _ aa sb _ => [.a aa, .s sb]
  | kvAppend aa sb => [.a aa, .s sb]
  | dmaPost _ aa _ => [.a aa]
  | dmaStat .. | dmaCancel .. => []
  | sySignal sa sb _ | syWait sa sb _ | syArm sa sb => [.s sa, .s sb]
  | syRead _ sa => [.s sa]
  | raw .. => []

/-- Registers an operation writes, before s0 and p0 are dropped. -/
def writes : TileOp → List RegId
  | alu _ sd _ _ | alui _ sd _ _ | li sd _ | insh sd _ _ | aGet sd _ | jal sd _ | loopGet sd _ | rdsr sd _ => [.s sd]
  | aSet ad _ | aAddi ad _ _ | aAdd ad _ _ => [.a ad]
  | loopSet lc _ | loopSeti lc _ | loopBr lc _ => [.lc lc]
  | vArith _ vd _ _ _ _ | vCvt vd _ _ _ _ | vCvtMx vd _ _ _ _ | vCvtMxs vd _ _ _ _ _ | vCvtMxf vd _ _ _ _
  | vFun _ vd _ _ | vRed _ vd _ _ | vTreeFin vd _ _ | vLane3 _ vd _ _ _ | vLaneI _ vd _ _ _ | vBcast vd _ _
  | vIns vd _ _ _ | vIota vd _ _ | vRng _ vd _ _ _ _ _ => [.v vd]
  | vOsm vd _ _ vc _ _ ml => if ml then [.v vd, .v vc] else [.v vd]
  | vCmp _ pd _ _ _ _ | vPred _ pd _ _ | vPs2p pd _ => [.p pd]
  | vExt sd _ _ _ | vPp2s sd _ | vPcnt sd _ => [.s sd]
  | accMv vd _ => [.v vd]
  | lsLd sd _ _ _ => [.s sd]
  | lsVld vd _ _ _ => [.v vd]
  | memLd sd _ _ _ | atom sd _ _ _ _ _ | dmaStat sd _ | syRead sd _ => [.s sd]
  | kvWalk ad _ _ sd => [.a ad, .s sd]
  | _ => []

/-- The registers ownership applies to: s0 and p0 are left out (R159). -/
def tracked (l : List RegId) : List RegId := l.filter fun r => r != .s 0 && r != .p 0

def srcs (op : TileOp) : List RegId := tracked op.reads
def dsts (op : TileOp) : List RegId := tracked op.writes

end TileOp

end Sys2Proof
end

