-- ==== Sys2Proof/Machine/TileState.lean ====
section
/-! DEFINITION. The state of one compute tile: register files, local-store tags, matrix array, operations in flight,
the bundle at issue, traps and preemption (R38 to R75, R79 to R106, R159 to R161). -/

namespace Sys2Proof.Machine

/-- Tile states, coded as TILE.STATUS.state (R60). -/
inductive TileSt where
  | off | idle | run | stepwait | handler | save | restore | halted | reset
deriving DecidableEq, Repr

def TileSt.code : TileSt → BitVec 4
  | .off => 0 | .idle => 1 | .run => 2 | .stepwait => 3 | .handler => 4 | .save => 5 | .restore => 6 | .halted => 7
  | .reset => 8

/-- Local-store tag states (R41). -/
inductive TagSt where
  | free | fill | ready | held | drain
deriving DecidableEq, Repr

def TagSt.code : TagSt → BitVec 3
  | .free => 0 | .fill => 1 | .ready => 2 | .held => 3 | .drain => 4

/-- The tag of one block: its state, the queue that owns it in FILL, reads in flight of the tile (at most 15, R46)
and DMA reads in flight. -/
structure BlkTag where
  st : TagSt
  owner : Nat
  reads : Nat
  dmaReads : Nat
deriving DecidableEq, Repr

def BlkTag.free : BlkTag := ⟨.free, 0, 0, 0⟩

/-- A register write an operation makes when it retires. `s` says with `h` whether it goes to the handler bank
of R40. -/
inductive RegWrite where
  | s (h : Bool) (n : BitVec 5) (x : W64)
  | v (n : BitVec 5) (x : VReg)
  | p (n : BitVec 3) (x : W64)
  | a (n : BitVec 4) (x : BitVec 48)
  | lc (n : BitVec 2) (x : W32)
deriving DecidableEq, Repr

/-- The local-store blocks an operation reads, writes, consumes and publishes (R42, R43). -/
structure BlockUse where
  rd : List Nat
  wr : List Nat
  consume : List Nat
  publish : List Nat
deriving DecidableEq, Repr

def BlockUse.none : BlockUse := ⟨[], [], [], []⟩

/-- One accumulator row: 64 entries, K elements in the open segment, and whether it is INT32 (R90, R95, R101). -/
structure AccRow where
  cols : VReg
  count : Nat
  int : Bool
deriving DecidableEq, Repr

/-- A row at context start: every entry +0 and no open segment (R87). -/
def AccRow.zero : AccRow := ⟨0, 0, false⟩

/-- How an operation in flight ends. -/
inductive FlightKind where
  /-- A fixed latency: it ends with OP_RETIRE. -/
  | fixed
  /-- A pass: it ends with PASS_VERDICT. -/
  | pass
  /-- step.wait: it ends with STEP_WAIT_RETIRE. -/
  | stepWait
  /-- A load, atomic or sy.read: it ends when its data arrives. -/
  | data (req : Nat)
  /-- A kv.walk that missed the entry cache: it ends after the entry's read returns. -/
  | walkMiss
  /-- mem.fence: it ends with RELEASE_WRITEBACK_DONE. -/
  | fence (rel d : Bool)
  /-- sy.signal with rel: it ends with RELEASE_WRITEBACK_DONE. -/
  | release
  /-- dma.cancel: it ends with CANCEL_COMPLETE. -/
  | cancel (q : Nat)
deriving DecidableEq, Repr

/-- VXU.SPECIAL counts of one operation (R153): NaN, infinite and flushed lane results, subnormal inputs. -/
structure Special where
  nan : Nat
  inf : Nat
  ftz : Nat
  daz : Nat
deriving DecidableEq, Repr

/-- What an operation does when it retires. -/
structure Effect where
  /-- Register writes. -/
  res : List RegWrite
  /-- Local-store writes, in groups that an accumulator store writes in order (R96, R197). -/
  ls : List (List (Nat × List Byte))
  /-- Accumulator rows that become committed. -/
  rows : List (Nat × AccRow)
  /-- A weight image that becomes the stationary weights: format and bytes 0x000 to 0x87F. -/
  image : Option (BitVec 3 × List Byte)
  special : Special
deriving DecidableEq, Repr

def Effect.none : Effect := ⟨[], [], [], Option.none, ⟨0, 0, 0, 0⟩⟩

/-- An operation that has issued and not retired. -/
structure Flight where
  id : Nat
  op : TileOp
  /-- Address of its bundle. -/
  pc : BitVec 44
  kind : FlightKind
  /-- Cycles from issue to retirement (R160, R193, R198). -/
  lat : Nat
  srcs : List RegId
  dsts : List RegId
  use : BlockUse
  /-- Accumulator halves it owns (R94). -/
  halves : List Nat
  eff : Effect
  /-- It issued in handler mode, so that s24 to s31 name the handler's bank (R40). -/
  handler : Bool
  /-- The s registers it uses after its issue, as it read them then (R50). -/
  args : List W64
  /-- It is abandoned and runs out its remaining cycles (R85, R100). -/
  dead : Bool
deriving DecidableEq, Repr

/-- A trap the tile takes: cause code of R61, TRAP_ADDR, slot, slot word and bundle address. -/
structure TrapRec where
  cause : Nat
  addr : BitVec 56
  slot : Slot
  op : Option TileOp
  pc : BitVec 44
deriving DecidableEq, Repr

/-- Preemption requests of TILE.PREEMPT (R69, R70, R74). -/
inductive PreemptKind where
  | step | urgent | restore
deriving DecidableEq, Repr

structure Tile where
  st : TileSt
  /-- TILE.STATUS.stall: 1 tags, 2 register, half or read count, 3 synchronisation object. -/
  stall : BitVec 2
  ctxValid : Bool
  ctxIndex : Nat
  ctxGen : Nat
  pc : BitVec 44
  step : W64
  s : SMap W64
  /-- The handler's bank of s24 to s31 (R40). -/
  hs : SMap W64
  v : SMap VReg
  p : SMap W64
  a : SMap (BitVec 48)
  lc : SMap W32
  /-- Registers holding the uncorrectable code of R207; `true` marks a register of the handler's bank. -/
  bad : List (Bool × RegId)
  tags : SMap BlkTag
  flights : List Flight
  nextId : Nat
  /-- Slots received of the bundle at issue. -/
  asm : List TileOp
  /-- The bundle at issue is complete and held (R49). -/
  held : Bool
  /-- The count word of the tree operation at issue reads uncorrectable (R181). -/
  countUe : Bool
  /-- A deferred trap being drained, and the later deferred causes of the drain in their order (R63). -/
  drain : Option TrapRec
  drainMore : List TrapRec
  trapCount : BitVec 16
  trapPending : BitVec 7
  trapDouble : Bool
  trapValid : Bool
  trapSlot : BitVec 2
  trapCause : BitVec 3
  trapPc : BitVec 44
  resumePc : BitVec 44
  trapOp : Option TileOp
  trapAddr : BitVec 56
  /-- RESIDUE traps taken in this run of the step (R68). -/
  residues : Nat
  /-- The handler asked for an array test at the next partition reset (R68). -/
  bistDue : Bool
  /-- Marked for revival by step.wait with rev (R67). -/
  revive : Bool
  /-- Weights are loaded; their format and image bytes 0x000 to 0x87F (R84, R85, R101). -/
  wvalid : Bool
  wfmt : BitVec 3
  wimg : List Byte
  acc : SMap AccRow
  /-- MXA.STATUS.smooth_state (R116). -/
  smooth : BitVec 2
  /-- The ramp-up in progress started from quiet (R104). -/
  rampQuiet : Bool
  /-- No idle cycle of the array has passed since its ramp-up ended (R104). -/
  noIdle : Bool
  /-- A bundle waited on tags, or on a synchronisation object, in the current step (R78). -/
  stalledTags : Bool
  stalledSync : Bool
  /-- Instruction-buffer lines: `true` held, `false` requested (R165). -/
  ibuf : SMap Bool
  /-- Lines that wait for one of the four requests (R165). -/
  lineQ : List Nat
  /-- Walker cache: entry address to header and entry bytes (R211). -/
  walker : SMap (List Byte)
  /-- A preemption request in progress, and whether the save or restore has begun. -/
  preempt : Option PreemptKind
  saving : Bool
  /-- TILE.PREEMPT.result. -/
  preemptResult : BitVec 2
  /-- State the save recorded, and whether the save is an urgent one (R72). -/
  savedRun : Bool
  savedUrgent : Bool
  /-- Failed ready checks since the tile was last ready (R58). -/
  notReady : Nat
  /-- The context's tile teardown suppresses commits (R99). -/
  suppress : Bool
  /-- An array test is running (R117). -/
  bist : Bool
deriving DecidableEq, Repr

/-- A tile after reset: power-gated, with no context and every register zero (R39, R60, R87). [DESIGN CHOICE, log 7] -/
def Tile.reset : Tile :=
  { st := .off, stall := 0, ctxValid := false, ctxIndex := 0, ctxGen := 0, pc := 0, step := 0,
    s := SMap.empty, hs := SMap.empty, v := SMap.empty, p := SMap.empty, a := SMap.empty, lc := SMap.empty,
    bad := [], tags := SMap.empty, flights := [], nextId := 0, asm := [], held := false, countUe := false,
    drain := none, drainMore := [], trapCount := 0, trapPending := 0, trapDouble := false, trapValid := false, trapSlot := 0,
    trapCause := 0, trapPc := 0, resumePc := 0, trapOp := none, trapAddr := 0, residues := 0, bistDue := false,
    revive := false, wvalid := false, wfmt := 0, wimg := [], acc := SMap.empty, smooth := 0, rampQuiet := false,
    noIdle := false, stalledTags := false, stalledSync := false, ibuf := SMap.empty,
    lineQ := [], walker := SMap.empty, preempt := none, saving := false, preemptResult := 0, savedRun := false,
    savedUrgent := false, notReady := 0, suppress := false, bist := false }

namespace Tile

/-- The handler bank replaces s24 to s31 in handler mode (R40). -/
def useBank (T : Tile) (n : BitVec 5) : Bool := T.st == .handler && decide (24 ≤ n.toNat)

/-- s0 reads as zero (R39). -/
def rs (T : Tile) (n : BitVec 5) : W64 :=
  if n = 0 then 0 else if T.useBank n then T.hs.getD n.toNat 0 else T.s.getD n.toNat 0

def rv (T : Tile) (n : BitVec 5) : VReg := T.v.getD n.toNat 0

/-- p0 reads as all ones (R39). -/
def rp (T : Tile) (n : BitVec 3) : W64 := if n = 0 then BitVec.allOnes 64 else T.p.getD n.toNat 0

def ra (T : Tile) (n : BitVec 4) : BitVec 48 := T.a.getD n.toNat 0

def rlc (T : Tile) (n : BitVec 2) : W32 := T.lc.getD n.toNat 0

def tag (T : Tile) (b : Nat) : BlkTag := T.tags.getD b BlkTag.free

def setTag (T : Tile) (b : Nat) (g : BlkTag) : Tile := { T with tags := T.tags.set b g }

def accRow (T : Tile) (r : Nat) : AccRow := T.acc.getD r AccRow.zero

/-- A register written with good data loses the code of R207. -/
def good (T : Tile) (h : Bool) (r : RegId) : List (Bool × RegId) := T.bad.filter (· != (h, r))

/-- One register write; writes to s0 and p0 are discarded (R39). -/
def writeReg (T : Tile) : RegWrite → Tile
  | .s h n x =>
    if n = 0 then T
    else if h then { T with hs := T.hs.set n.toNat x, bad := T.good true (.s n) }
    else { T with s := T.s.set n.toNat x, bad := T.good false (.s n) }
  | .v n x => { T with v := T.v.set n.toNat x, bad := T.good false (.v n) }
  | .p n x => if n = 0 then T else { T with p := T.p.set n.toNat x, bad := T.good false (.p n) }
  | .a n x => { T with a := T.a.set n.toNat x, bad := T.good false (.a n) }
  | .lc n x => { T with lc := T.lc.set n.toNat x, bad := T.good false (.lc n) }

/-- The code of R207 written to a register: 0 marked uncorrectable. s0 discards it. -/
def writeBad (T : Tile) (w : RegWrite) : Tile :=
  let T1 := T.writeReg w
  match w with
  | .s h n _ => if n = 0 then T1 else { T1 with bad := (h, .s n) :: T1.bad }
  | .v n _ => { T1 with bad := (false, .v n) :: T1.bad }
  | .p n _ => if n = 0 then T1 else { T1 with bad := (false, .p n) :: T1.bad }
  | .a n _ => { T1 with bad := (false, .a n) :: T1.bad }
  | .lc n _ => { T1 with bad := (false, .lc n) :: T1.bad }

/-- The register that an operation of the tile's mode names. -/
def bankOf (T : Tile) : RegId → Bool × RegId
  | .s n => (T.useBank n, .s n)
  | r => (false, r)

def writeRegs (T : Tile) (l : List RegWrite) : Tile := l.foldl writeReg T

/-- The flight with an identifier. -/
def flight? (T : Tile) (i : Nat) : Option Flight := T.flights.find? fun f => f.id == i

def dropFlight (T : Tile) (i : Nat) : Tile := { T with flights := T.flights.filter fun f => f.id != i }

/-- A flight changed in place. -/
def mapFlight (T : Tile) (i : Nat) (g : Flight → Flight) : Tile :=
  { T with flights := T.flights.map fun f => if f.id == i then g f else f }

end Tile

end Sys2Proof.Machine
end

