-- ==== Sys2Proof/Machine/State.lean ====
section
/-! DEFINITION. The state of the module as plain data, and the state right after reset. -/

namespace Sys2Proof.Machine

/-- Reasons a command stops with a fault. -/
inductive Fault where
  /-- Raised by a fabric command whose packet's payload contradicts the form its type has (`Packet.fits`). Safe: no packet
  on a link has that form. -/
  | illFormed
deriving DecidableEq, Repr

/-- Reasons a command is refused. -/
inductive Refusal where
  /-- Raised by an arm of `exec` whose command has no meaning yet. Safe. -/
  | notModelled (mnemonic : String)
deriving DecidableEq, Repr

/-- What fuses, straps, the trip latch and flash give one module (R9). -/
structure Part where
  grade : BitVec 2
  assembly : BitVec 2
  stepping : Byte
  slotId : BitVec 6
  settle : BitVec 3
  fullNext : Bool
  trip : Bool
  /-- What the fuses record of the compute dies, by partition × 272 + physical position: bad tiles, working rows that the spare row
  replaces, and defective spare rows (R110, R397, R403). -/
  badTiles : List Nat
  spareRows : List (Nat × Nat)
  badSpares : List Nat
deriving DecidableEq, Repr

/-- What a memory or object request asks for (R202, R208, R212, R217). -/
inductive ReqKind where
  | load
  | store
  | atomic (op : BitVec 4) (w : Bool)
  | prefetch
  | drop
  /-- kv.append: the table header's address is the request's. -/
  | append
  | signal
  | arm
  | readObj
  /-- Accesses of a handler to the register block (R66). -/
  | regLoad
  | regStore
deriving DecidableEq, Repr

/-- Where a request is performed. -/
inductive Dest where
  | local
  | peer (device : Nat)
  | host (region : Nat)
deriving DecidableEq, Repr

/-- A request of a tile that has left it (R204). -/
structure MemReq where
  tile : Nat
  flight : Nat
  kind : ReqKind
  dest : Dest
  /-- Device address, offset in a host region, or object number (partition × 16,384 + index). -/
  addr : Nat
  data : W64
  cmp : W64
  hint : BitVec 2
  /-- The context's index and generation. -/
  ctx : Nat
  /-- Performed at its place. -/
  done : Bool
  /-- Held in a stack arbiter until the next quantum boundary (R337). -/
  arbiter : Bool
  /-- Value it returns, and whether it is the uncorrectable code (R207). -/
  val : W64
  bad : Bool
deriving DecidableEq, Repr

/-- What a DRAM line stores beside its 64 data bytes (R303): generation, poison, whether its code is uncorrectable, and then
the code's syndrome symbols and whether the decoder finds the error in the line's address (R304, R305). -/
structure LineMeta where
  gen : Nat
  poison : Bool
  ue : Bool
  synd : W64
  addrErr : Bool
deriving DecidableEq, Repr

/-- A good line of generation `g`. -/
def LineMeta.good (g : Nat) : LineMeta := ⟨g, false, false, 0, false⟩

/-- A line in a base die's shared cache. A home line's bytes lie in memory, and `bytes` are those that DRAM still stores where the
line is dirty (R332); a remote line holds its 64 bytes, its context index and its dirty mask (R293, R298). -/
structure CacheLine where
  die : Nat
  way : Nat
  line : Nat
  ctx : Nat
  home : Bool
  bytes : List Byte
  dirty : BitVec 64
  keep : Bool
deriving DecidableEq, Repr

/-- The error ring of one partition (R514 to R516): next sequence number, the last record and where it lies, and the
records of the always-on buffer that wait for the ring (R515). -/
structure ErrRing where
  seq : Nat
  last : Option (List Nat)
  lastAt : Nat
  waiting : List (List Byte)
deriving DecidableEq, Repr

def ErrRing.reset : ErrRing := ⟨0, none, 0, []⟩

/-- An engine reset in progress: partition, unit kind and index of the table "Unit kinds", cause (R522, R526). -/
structure EngRst where
  part : Nat
  kind : Nat
  index : Nat
  cause : Nat
deriving DecidableEq, Repr

/-- A host-side access that a stack arbiter holds (R337, R340), with the operands of the command that brought it: a tile's request, a
line request, fetch or completion of a queue, the read of a page-table entry, a command of a collective ring, a host access, a packet in
its turn, the rewrite of a corrected line (R328), a clear of a region asked of a partition, or a scrub pass; `past` are the units whose boundaries a clear or a pass has waited
for. -/
inductive HeldAccess where
  | mem (r : BitVec 32) (x : LineFault)
  | line (q : QId) (ix : BitVec 5) (x : LineFault) (ext : List Byte)
  | fetch (q : QId) (x : LineFault) (ext : List Byte)
  | complete (d : DescEnd)
  | walk (t : TileId) (id : BitVec 32) (x : LineFault) (ext : List Byte)
  | collPush (c : CtxId) (p : PartId) (x : LineFault) (ext : List Byte)
  | collSend (c : CtxId) (p : PartId) (x : LineFault) (ext : List Byte)
  | collEnd (c : CtxId) (p : PartId)
  | hostRead (off : BitVec 36) (n : BitVec 12) (x : LineFault)
  | hostWrite (off : BitVec 36) (bytes : List Byte)
  | packet (k : Packet) (x : LineFault)
  | rewrite (l : Nat) (old fixed : List Nat)
  | clear (p r : Nat) (request : Bool) (past : List Nat)
  | scrub (x : PassEnd) (past : List Nat)
deriving DecidableEq, Repr

/-- What the device sends to the outside. -/
inductive Out where
  /-- An MSI-X vector of the host interface. -/
  | msix (vector : Nat)
  /-- A PLDM event to the tray controller (R517). -/
  | alertEvent (partition : Nat)
  /-- A PLDM event of the start (R595, R605). -/
  | bootEvent (ready : Bool)
  /-- The value a register read returns. -/
  | regValue (x : W64)
  /-- The bytes a BAR2 read returns, and whether the completion is poisoned (R550). -/
  | bar2Value (bytes : List Byte) (poisoned : Bool)
  /-- A packet sent on a port (R422). -/
  | packet (port : Nat) (p : Packet)
  /-- A retry request for a flit (R416). -/
  | retryRequest (port seq : Nat)
  /-- Flits resent from a sequence number. -/
  | resend (port seq : Nat)
  /-- A write to host memory: host address and bytes (R551). -/
  | hostWrite (addr : Nat) (bytes : List Byte)
  /-- A read of host memory. -/
  | hostRead (addr n : Nat)
  /-- A response to a management command: its tag, status and payload (R560). -/
  | response (tag status : Nat) (payload : List Byte)
  /-- An SPDM answer or error (R568). -/
  | spdm (ok : Bool) (payload : List Byte)
  /-- A PLDM firmware chunk is requested, or the apply is complete (R575). -/
  | chunkRequest (i : Nat)
  | applyComplete
  /-- Firmware activation ended (R576, R577). -/
  | activation (ok : Bool)
  /-- The vendor message PowerCycleRequest with its cause (R524, R629). -/
  | powerCycleRequest (cause : Nat)
  /-- Configuration Request Retry Status, or a completed configuration request (R569). -/
  | config (retry : Bool)
  /-- The stall set of a step sent to a peer's planner (R501). -/
  | stallSet (device : Nat) (step : W64) (seqs : List Nat)
  /-- A tile-firmware block sent again by unicast (R601). -/
  | fwBlock (tile block : Nat)
  /-- The bulk copy of a recovery point sent to the partner (R538). -/
  | recoveryPoint (device ctx : Nat) (step : W64)
  /-- Firmware asks a read-only replica or a recovery point for committed data (R537). -/
  | rebuild (ctx addr : Nat)
deriving DecidableEq, Repr

structure State where
  pending : List Instr
  part : Part
  /-- Registers by BAR0 offset; an unlisted one holds its reset value. -/
  regs : SMap W64
  /-- Shadow copies of RWS fields: pending mask and value (R8). -/
  shadow : SMap (W64 × W64)
  /-- Bytes by 44-bit device address; an unlisted byte reads 0. -/
  mem : List Host.Cell
  /-- DRAM lines (address / 64) that store more than good data of their region's base generation. -/
  lines : SMap LineMeta
  /-- Current generation and floor of each 2 MiB region (R309). -/
  gens : SMap (Nat × Nat)
  /-- What the context image holds of code lines found uncorrectable, by line (R68). -/
  imageLines : SMap (List Byte)
  /-- Generation that the unlisted lines of a region store, where it is not 0 (R312). -/
  baseGens : SMap Nat
  /-- Regions whose entry of the generation table is uncorrectable (R315). -/
  genBad : List Nat
  /-- The mirror of `gens` in the stack logic dies, for the regions of the capacity stacks (R327). -/
  mirror : SMap (Nat × Nat)
  /-- 2 MiB regions retired (R316). -/
  holes : List Nat
  /-- Lines of the shared caches, the least recently used first. -/
  cache : List CacheLine
  /-- Replacement trees of the sets, by base die × 2^18 + set; node n of a tree is bit n (R292). -/
  cacheTree : SMap Nat
  /-- Ways disabled in a set after a tag error: base die × 16 + way, and the set (R315). -/
  wayOff : List (Nat × Nat)
  /-- Poisoned lines recorded in the current step (R307). -/
  poisonSeen : List Nat
  tiles : SMap Tile
  ctxs : SMap Ctx
  objs : SMap W64
  reqs : SMap MemReq
  nextReq : Nat
  rings : SMap ErrRing
  engResets : List EngRst
  /-- Engines disabled after a failed self-test: partition, unit kind and index (R526). -/
  offEngines : List (Nat × Nat × Nat)
  /-- Tile queues by tile × 8 + queue, bulk queues by 16384 + partition × 80 + queue. -/
  queues : SMap Queue
  /-- Bytes moved in the current 1 µs window under FIXED-mode caps (R367), by queue group × 4 + kind. -/
  capUsed : SMap Nat
  /-- At a port of a tile (tile × 4 + port) the queue group that has its turn and the turns it has used (R366), and by port × 2 +
  group the queue served last (R367). -/
  dmaTurn : SMap (Nat × Nat)
  dmaLast : SMap Nat
  /-- Near-memory units by stack × 32 + unit. -/
  units : SMap CruUnit
  launches : SMap Launch
  nextLaunch : Nat
  /-- The context whose launch the dispatcher of a partition started last (R331). -/
  launchTurn : SMap Nat
  /-- Host-side accesses held on leased lines, by unit, in the order of their arrival (R337). -/
  held : List (Nat × HeldAccess)
  /-- Collective rings by context × 8 + partition. -/
  coll : SMap CollRing
  fab : Fabric
  ticks : TickState
  board : Board
  /-- What has been sent, oldest first. -/
  outbox : List Out
  /-- The model's own counter that free values are drawn with. -/
  freeCtr : Nat
deriving DecidableEq, Repr

/-- A defect-free MY9-T2048-S32X2 (R397). [DESIGN CHOICE, log 8] -/
def Part.reset : Part :=
  { grade := 0, assembly := 0, stepping := 0, slotId := 0x3F, settle := 0, fullNext := false, trip := false,
    badTiles := [], spareRows := [], badSpares := [] }

/-- [DESIGN CHOICE, log 7] -/
def State.reset : State :=
  { pending := [], part := Part.reset, regs := SMap.empty, shadow := SMap.empty, mem := [], lines := SMap.empty, gens := SMap.empty, imageLines := SMap.empty, baseGens := SMap.empty, genBad := [], mirror := SMap.empty, holes := [],
    cache := [], cacheTree := SMap.empty, wayOff := [], poisonSeen := [], tiles := SMap.empty,
    ctxs := SMap.empty, objs := SMap.empty, reqs := SMap.empty, nextReq := 0, rings := SMap.empty, engResets := [],
    offEngines := [], queues := SMap.empty, capUsed := SMap.empty, dmaTurn := SMap.empty, dmaLast := SMap.empty, units := SMap.empty, launches := SMap.empty, nextLaunch := 0, launchTurn := SMap.empty, held := [], coll := SMap.empty,
    fab := Fabric.reset, ticks := TickState.reset, board := Board.reset, outbox := [], freeCtr := 0 }

end Sys2Proof.Machine
end

