-- ==== Sys2Proof/Machine/Ops.lean ====
section
/-! DEFINITION. The named operations over registers, memory, the address map, windows, handles and error records that
every meaning is written with. -/

namespace Sys2Proof.Machine

/-! ### The part (R1 to R4, R34, R397) -/

namespace Part

def tilesPerPart (p : Part) : Nat := if p.grade = 0 then 256 else if p.grade = 1 then 240 else 224

def stacksPerPart (p : Part) : Nat := if p.assembly = 0 then 4 else if p.assembly = 1 then 3 else 2

def maxPower (p : Part) : Nat := if p.assembly = 0 then 3600 else if p.assembly = 1 then 3400 else 3000

def ioDies (p : Part) : Nat := if p.assembly = 2 then 1 else 2

def ports (p : Part) : Nat := 12 * p.ioDies

/-- The assembly has a die at site `j` of NOC.DIEID of partition `i` (R4, R411). -/
def dieSite (p : Part) (i j : Nat) : Bool :=
  decide (j < 6) || (decide (6 ≤ j) && decide (j < 6 + p.stacksPerPart) && decide (j < 10))
    || (j == 10 && (i == 0 || (i == 7 && p.ioDies == 2)))

/-- Bit n: stack csn is populated. -/
def populated (p : Part) : Nat :=
  (List.range 32).foldl (fun acc n => if n % 4 < p.stacksPerPart then acc + 2 ^ n else acc) 0

/-- Orphan slots of the grade. -/
def orphanSlots (p : Part) : Nat := 272 - p.tilesPerPart

/-- Good positions of compute die `q`, ascending, when the tiles of `bad` are called bad (R397). -/
def goodAt (bad : List Nat) (q : Nat) : List Nat := (List.range 272).filter fun x => !(bad.contains (q * 272 + x))

/-- Some tile of compute die `q` is called bad. -/
def anyBad (bad : List Nat) (q : Nat) : Bool := bad.any fun x => x / 272 == q

/-- Physical position of logical index `i`: the `i`-th good tile (R397). -/
def tilePos (p : Part) (bad : List Nat) (q i : Nat) : Option Nat :=
  if p.tilesPerPart ≤ i then none else if anyBad bad q then (goodAt bad q)[i]? else some i

/-- Physical position of orphan slot `k`: the `k`-th tile without a logical index (R397). -/
def slotPos (p : Part) (bad : List Nat) (q k : Nat) : Nat :=
  if anyBad bad q then
    let used := (goodAt bad q).take p.tilesPerPart
    ((List.range 272).filter fun x => !(used.contains x)).getD k 0
  else p.tilesPerPart + k

/-- NOC.TMAP of an index, from the numbering. -/
def tmapBits (p : Part) (bad : List Nat) (q i : Nat) : Nat :=
  match p.tilePos bad q i with
  | some pos => 2 ^ 15 + pos % 17 * 2 ^ 8 + pos / 17
  | none => 0

/-- NOC.OMAP of a slot, from the numbering. -/
def omapBits (p : Part) (bad : List Nat) (q k : Nat) : Nat :=
  let pos := p.slotPos bad q k
  if p.orphanSlots ≤ k then 0
  else 2 ^ 15 + (if bad.contains (q * 272 + pos) then 0 else 2 ^ 13) + pos % 17 * 2 ^ 8 + pos / 17

/-- TILE.ID of a tile at a position: the physical place and the logical ID. -/
def idBits (t pos : Nat) : Nat := pos % 17 * 2 ^ 16 + pos / 17 * 2 ^ 12 + t

/-- MXA.REPAIR of the tile at a physical position, as its fuses give it (R110, R116). -/
def repairBits (p : Part) (q pos : Nat) : Nat :=
  (if p.badSpares.contains (q * 272 + pos) then 2 ^ 15 else 0)
    + ((p.spareRows.find? (·.1 == q * 272 + pos)).elim 0 fun r => 2 ^ 5 + r.2 % 32)

end Part

/-- Reset value of the fuse, strap, latch and flash fields of a register (R9, R397, R400, R633). [DESIGN CHOICE, log 8] -/
def fixedBits (p : Part) (base : Nat) (idx : List Nat) : Nat :=
  let i := idx.headD 0
  let j := idx.getLastD 0
  if base = R.devVariant then
    p.stepping.toNat * 2 ^ 48 + p.maxPower * 2 ^ 36 + p.tilesPerPart * 2 ^ 27 + p.grade.toNat * 2 ^ 13
      + p.ioDies * 2 ^ 6 + p.assembly.toNat * 2 ^ 4 + p.grade.toNat
  else if base = R.devStacks then p.populated
  else if base = R.partGroup 0 then i * 2 ^ 8
  else if base = R.bulkQctl 0 0 then (if 64 ≤ j then 2 ^ 61 else 0)
  else if base = R.capOrphan 0 then 2 ^ p.orphanSlots - 1
  else if base = R.capStatus 0 0 then (if j < p.stacksPerPart then 2 ^ 17 else 0)
  else if base = R.nocDieid 0 0 then
    if p.dieSite i j = false then 0 else 2 ^ 15 + strapOf i j
  else if base = R.nocTmap 0 0 then p.tmapBits p.badTiles i j
  else if base = R.nocOmap 0 0 then p.omapBits p.badTiles i j
  else if base = R.tileId 0 then Part.idBits i ((p.tilePos p.badTiles (i / 256) (i % 256)).getD (i % 256))
  else if base = R.mxaRepair 0 then p.repairBits (i / 256) ((p.tilePos p.badTiles (i / 256) (i % 256)).getD (i % 256))
  else if base = R.plPctl 0 then i % 8 * 2 ^ 14
  else if base = R.mgtId then 71404 * 2 ^ 32 + 0x2B7C * 2 ^ 16
  else if base = R.mgtPins then (if p.trip then 2 ^ 17 else 0) + p.slotId.toNat
  else if base = R.clkStatus then p.settle.toNat
  else if base = R.bootCtl then (if p.fullNext then 1 else 0)
  else if base = R.pwrLimit then
    p.maxPower * 2 ^ 36 + p.maxPower * 2 ^ 24 + p.maxPower * 2 ^ 12 + p.maxPower
  else 0

/-- Reset value of the register at an offset. -/
def resetReg (p : Part) (off : Nat) : W64 :=
  match RegTab.find off with
  | none => 0
  | some (d, idx) =>
    BitVec.ofNat 64 (d.fields.foldl (fun acc f => acc + f.rst * 2 ^ f.lo) 0 + fixedBits p d.base idx)

namespace State

/-! ### Registers (R7, R8) -/

/-- The register at a BAR0 offset. -/
def reg (s : State) (off : Nat) : W64 :=
  match s.regs.get? off with
  | some x => x
  | none => resetReg s.part off

def setReg (s : State) (off : Nat) (x : W64) : State := { s with regs := s.regs.set off x }

/-- A field of a register. -/
def fld (s : State) (off : Nat) (f : Fld) : Nat := bitsOf (s.reg off).toNat f.hi f.lo

/-- Fabric ports that the device has: those of I/O die 1 are absent on S16X1, and where that die is absent or a strap fault leaves
it out of service (R401). -/
def ports (s : State) : Nat :=
  if s.fld (R.nocDieid 7 10) F.nocDieid_strap_fault = 1 ∨ s.fld (R.nocDieid 7 10) F.nocDieid_present = 0 then 12 else s.part.ports

def setFld (s : State) (off : Nat) (f : Fld) (v : Nat) : State :=
  s.setReg off (BitVec.ofNat 64 (setBitsOf (s.reg off).toNat f.hi f.lo v))

/-- A saturating counter field increased by `n`. -/
def bump (s : State) (off : Nat) (f : Fld) (n : Nat) : State :=
  s.setFld off f (satAdd (f.hi + 1 - f.lo) (s.fld off f) n)

/-- The shadow copy of a register applied (R8). -/
def applyShadow (s : State) (off : Nat) : State :=
  match s.shadow.get? off with
  | none => s
  | some (m, x) =>
    -- the level that set the fields is named from now on (R16, R17)
    let mine := s.board.setNext.rows.filter fun r => r.1 / 64 == off
    { s.setReg off ((s.reg off &&& ~~~m) ||| (x &&& m)) with
        shadow := s.shadow.erase off,
        board := { s.board with setBy := mine.foldl (fun b r => b.set r.1 r.2) s.board.setBy,
                                setNext := mine.foldl (fun b r => b.erase r.1) s.board.setNext } }

/-- A value written to fields of a register's shadow copy. -/
def writeShadow (s : State) (off : Nat) (mask x : W64) : State :=
  match s.shadow.get? off with
  | none => { s with shadow := s.shadow.set off (mask, x &&& mask) }
  | some (m, y) => { s with shadow := s.shadow.set off (m ||| mask, (y &&& ~~~mask) ||| (x &&& mask)) }

def applyShadows (s : State) (p : Nat → Bool) : State :=
  (s.shadow.keys.filter p).foldl applyShadow s

/-! ### Tiles and objects -/

def tile (s : State) (t : Nat) : Tile := s.tiles.getD t Tile.reset

def setTile (s : State) (t : Nat) (T : Tile) : State := { s with tiles := s.tiles.set t T }

/-- Number of object `i` of partition `p`. -/
def objKey (p i : Nat) : Nat := p * 16384 + i

def obj (s : State) (k : Nat) : W64 := s.objs.getD k 0

def setObj (s : State) (k : Nat) (x : W64) : State := { s with objs := s.objs.set k x }

/-- A fresh free-value index and the state that has used it. [DESIGN CHOICE, log 97] -/
def draw (s : State) : Nat × State := (s.freeCtr, { s with freeCtr := s.freeCtr + 1 })

/-- [DESIGN CHOICE, log 98] -/
def emit (s : State) (o : Out) : State := { s with outbox := s.outbox ++ [o] }

end State

/-! ### Bytes of memory -/

/-- The byte at an address; an unlisted byte reads 0. [DESIGN CHOICE, log 6] -/
def Mem.read : List Host.Cell → Nat → Byte
  | [], _ => 0
  | (k, b) :: t, a => if k = a then b else Mem.read t a

/-- A byte stored: a 0 removes the entry, so that the list keeps its canonical form. -/
def Mem.write : List Host.Cell → Nat → Byte → List Host.Cell
  | [], a, b => if b = 0 then [] else [(a, b)]
  | (k, c) :: t, a, b =>
    if a < k then (if b = 0 then (k, c) :: t else (a, b) :: (k, c) :: t)
    else if a = k then (if b = 0 then t else (a, b) :: t)
    else (k, c) :: Mem.write t a b

def Mem.readN (m : List Host.Cell) (a n : Nat) : List Byte := (List.range n).map fun i => Mem.read m (a + i)

def Mem.writeN : List Host.Cell → Nat → List Byte → List Host.Cell
  | m, _, [] => m
  | m, a, b :: t => Mem.writeN (Mem.write m a b) (a + 1) t

/-- Canonical form: addresses strictly rising and no listed 0. -/
def Mem.wf : List Host.Cell → Bool
  | [] => true
  | [(_, b)] => b != 0
  | (a, b) :: (a', b') :: t => decide (a < a') && b != 0 && Mem.wf ((a', b') :: t)

namespace State

def readByte (s : State) (a : Nat) : Byte := Mem.read s.mem a

/-- `n` bytes as they lie in memory, without the line outcomes of R307. -/
def readRaw (s : State) (a n : Nat) : List Byte := Mem.readN s.mem a n

def writeRaw (s : State) (a : Nat) (bs : List Byte) : State := { s with mem := Mem.writeN s.mem a bs }

end State

/-- Every byte of [a, a + n) reads as 0. -/
def State.clearRange (s : State) (a n : Nat) : State :=
  { s with mem := s.mem.filter fun c => decide (c.1 < a) || decide (a + n ≤ c.1) }

/-! ### The device address map (R272, R276, R287) -/

inductive Region where
  /-- A slice index of a partition's private range: logical slices, then orphan slots. -/
  | slice (p i : Nat)
  | capacity (n : Nat)
  | scratch (p : Nat)
  | localStore (t : Nat)
  | registers
  | hole
deriving DecidableEq, Repr

/-- Base address of the local store of a tile (R41). -/
def lsBase (t : Nat) : Nat := 0xE8000000000 + t * 0x200000

/-- Base address of the slice of a logical tile (R276). -/
def sliceBase (t : Nat) : Nat := t / 256 * 0x2000000000 + t % 256 * 0x18000000

def capBase (n : Nat) : Nat := 0x20000000000 + n * 0x1000000000

def scratchBase (p : Nat) : Nat := 0xE0000000000 + p * 0x10000000

def regBase : Nat := 0xF0000000000

namespace State

def stackOn (s : State) (n : Nat) : Bool :=
  (s.fld R.devStacks F.devStacks_populated).testBit n && !(s.fld R.devStacks F.devStacks_retired).testBit n

/-- A logical index has a tile in the partition's map (R399, R541). -/
def mapped (s : State) (p i : Nat) : Bool := s.fld (R.nocTmap p i) F.nocTmap_valid == 1

/-- Physical position, row × 17 + column, of the tile whose slice an index of a partition's private range names (R284, R411). -/
def posOfIndex (s : State) (p i : Nat) : Nat :=
  if i < s.part.tilesPerPart then
    s.fld (R.nocTmap p i) F.nocTmap_phys_row * 17 + s.fld (R.nocTmap p i) F.nocTmap_phys_col
  else
    let o := R.nocOmap p (i - s.part.tilesPerPart)
    s.fld o F.nocOmap_phys_row * 17 + s.fld o F.nocOmap_phys_col

/-- Sensor region of a physical position within a DRAM layer. -/
def regionOfPos (pos : Nat) : Nat := 4 * (pos / 17 / 4) + pos % 17 * 4 / 17

/-- The region an address lies in; retired regions, unusable slots and unserved stacks are holes (R36, R273, R284). -/
def region (s : State) (a : Nat) : Region :=
  if s.holes.contains (a / 0x200000) then .hole
  else if a < 0x10000000000 then
    let p := a / 0x2000000000
    let i := a % 0x2000000000 / 0x18000000
    if i < s.part.tilesPerPart then (if s.mapped p i then .slice p i else .hole)
    else if i < 272 ∧ (s.fld (R.capOrphan p) F.capOrphan_usable).testBit (i - s.part.tilesPerPart) = true then .slice p i
    else .hole
  else if 0x20000000000 ≤ a ∧ a < 0x40000000000 then
    let n := (a - 0x20000000000) / 0x1000000000
    if s.stackOn n then .capacity n else .hole
  else if 0xE0000000000 ≤ a ∧ a < 0xE0080000000 then .scratch ((a - 0xE0000000000) / 0x10000000)
  else if 0xE8000000000 ≤ a ∧ a < 0xE8100000000 then
    let t := (a - 0xE8000000000) / 0x200000
    if t % 256 < s.part.tilesPerPart ∧ s.mapped (t / 256) (t % 256) = true then .localStore t else .hole
  else if regBase ≤ a ∧ a < regBase + 0x10000000 then .registers
  else .hole

/-- Partition whose base die is the home of an address. -/
def homeOf (s : State) (a : Nat) : Nat :=
  match s.region a with
  | .slice p _ => p
  | .capacity n => n / 4
  | .scratch p => p
  | .localStore t => t / 256
  | _ => 0

/-! ### Routes between base dies (R387, R395) -/

/-- Link codes of the base-die edges that a packet from base die `p` to base die `q` crosses: first along its row to the destination
column, then along the column (R387, R391). -/
def routeEdges (p q : Nat) : List Nat :=
  let x := min (p % 4) (q % 4)
  ((List.range (max (p % 4) (q % 4) - x)).map fun j => p / 4 * 3 + x + j) ++ if p / 4 = q / 4 then [] else [6 + q % 4]

/-- Once the start is over, an edge without a working module cuts the routes over it until the next chip reset: nothing sent over it
arrives (R395). -/
def routeCut (s : State) (p q : Nat) : Bool :=
  s.fld R.bootStatus F.bootStatus_ready == 1
    && (routeEdges p q).any fun e => s.fld (R.nocEdge e) F.nocEdge_module_good == 0

end State

/-! ### DRAM lines (R303 to R308) -/

/-- Outcome of a line read (R307). -/
inductive LineSt where
  | ok | poison | ue
deriving DecidableEq, Repr

def LineSt.worse : LineSt → LineSt → LineSt
  | .ue, _ => .ue
  | _, .ue => .ue
  | .poison, _ => .poison
  | _, .poison => .poison
  | .ok, .ok => .ok

namespace State

def isDram (s : State) (a : Nat) : Bool :=
  match s.region a with
  | .slice _ _ => true
  | .capacity _ => true
  | _ => false

/-- [DEDUCED, log 69] -/
def lineMeta (s : State) (l : Nat) : LineMeta := s.lines.getD l (LineMeta.good (s.baseGens.getD (l / 32768) 0))

def gen (s : State) (r : Nat) : Nat × Nat := s.gens.getD r (0, 0)

/-- Current generation of the region of a line. -/
def genOfLine (s : State) (l : Nat) : Nat := (s.gen (l / 32768)).1

/-- A stale line: its stored generation differs from the region's (R307). -/
def stale (s : State) (l : Nat) : Bool := s.isDram (64 * l) && (s.lineMeta l).gen != s.genOfLine l

/-- The home line of the shared cache that holds a line (R293). -/
def homeLine? (s : State) (l : Nat) : Option CacheLine := s.cache.find? fun x => x.home && x.line == l

/-- Outcome of a read of a line at its home, where a copy in the shared cache serves it (R300, R307). -/
def lineSt (s : State) (l : Nat) : LineSt :=
  let m := s.lineMeta l
  if (m.ue && (s.homeLine? l).isNone) || s.genBad.contains (l / 32768) then .ue else if s.stale l then .ok else if m.poison then .poison else .ok

/-- The 64 bytes a line read delivers: zeros for a stale line, otherwise the bytes stored (R307). -/
def lineData (s : State) (l : Nat) : List Byte :=
  if (s.lineMeta l).ue = false ∧ s.stale l = true then List.replicate 64 0 else s.readRaw (64 * l) 64

/-- The 64 bytes that DRAM stores for a line: where its home line is dirty, those from before the stores (R332). -/
def dramBytes (s : State) (l : Nat) : List Byte :=
  match s.homeLine? l with
  | none => s.readRaw (64 * l) 64
  | some x => (List.range 64).map fun i => if x.dirty.getLsbD i then x.bytes.getD i 0 else s.readByte (64 * l + i)

/-- DRAM stores 64 bytes for a line: a home line that holds it keeps what it has (R300). -/
def setDram (s : State) (l : Nat) (bs : List Byte) : State :=
  match s.homeLine? l with
  | none => s.writeRaw (64 * l) bs
  | some x =>
    let old := (List.range 64).map fun i => s.readByte (64 * l + i)
    let dirty := BitVec.ofNat 64 ((List.range 64).foldl (fun m i =>
      if x.dirty.getLsbD i = true ∨ bs.getD i 0 ≠ old.getD i 0 then m + 2 ^ i else m) 0)
    { s with cache := s.cache.map fun y => if y = x then { x with bytes := bs, dirty := dirty } else y }

/-- Byte at an address as a read delivers it. [DESIGN CHOICE, log 6] -/
def byteAt (s : State) (a : Nat) : Byte :=
  if (s.lineMeta (a / 64)).ue = false ∧ s.stale (a / 64) = true then 0 else s.readByte a

def bytesAt (s : State) (a n : Nat) : List Byte := (List.range n).map fun i => s.byteAt (a + i)

/-- Lines touched by `n` bytes at `a`. -/
def linesOf (a n : Nat) : List Nat :=
  if n = 0 then [] else (List.range ((a + n - 1) / 64 + 1 - a / 64)).map (a / 64 + ·)

/-- Worst outcome over the lines that `n` bytes at `a` touch. -/
def statusAt (s : State) (a n : Nat) : LineSt :=
  (linesOf a n).foldl (fun st l => st.worse (s.lineSt l)) .ok

/-- A write of bytes inside one line: a stale line merges as zeros, a whole line clears poison, and a partial write into a
poisoned or uncorrectable line keeps it poisoned (R308). [DEDUCED, log 28] -/
def writeLine (s : State) (a : Nat) (bs : List Byte) : State :=
  let l := a / 64
  if s.isDram a then
    let s1 := if s.stale l = true ∧ (s.lineMeta l).ue = false then s.writeRaw (64 * l) (List.replicate 64 0) else s
    let bad := decide (bs.length < 64) && (s.lineSt l != .ok)
    { s1.writeRaw a bs with lines := s1.lines.set l ⟨s.genOfLine l, bad, false, 0, false⟩ }
  else if (s.lineMeta l).poison = true ∧ bs.length = 64 then { s.writeRaw a bs with lines := s.lines.erase l }
  else s.writeRaw a bs

/-- Bytes written line by line. `fuel` bounds the number of lines. -/
def writeLines : Nat → State → Nat → List Byte → State
  | 0, s, _, _ => s
  | n + 1, s, a, bs =>
    if bs = [] then s
    else
      let k := 64 - a % 64
      writeLines n (s.writeLine a (bs.take k)) (a + k) (bs.drop k)

def writeBytes (s : State) (a : Nat) (bs : List Byte) : State := writeLines (bs.length / 64 + 2) s a bs

/-- A little-endian value of `n` bytes as a read delivers it. -/
def load (s : State) (a n : Nat) : Nat := leVal (s.bytesAt a n)

def store (s : State) (a n x : Nat) : State := s.writeBytes a (leBytes n x)

end State

/-- This device's ID (R274). -/
def State.localDev (s : State) : Nat := s.fld R.plId F.plId_device

/-! ### Windows (R456 to R459) -/

/-- A permission an access needs. -/
structure Perm where
  r : Bool
  w : Bool
  x : Bool
deriving DecidableEq, Repr

def Perm.rd : Perm := ⟨true, false, false⟩
def Perm.wr : Perm := ⟨false, true, false⟩
def Perm.rw : Perm := ⟨true, true, false⟩
def Perm.ex : Perm := ⟨false, false, true⟩

namespace State

def window (s : State) (c w : Nat) : Option Window := (s.ctxs.get? c).bind fun x => x.windows.get? w

/-- The window check of R459 for `n` bytes at `a` of window `w` of context `c`. -/
def winOk (s : State) (c w a n : Nat) (p : Perm) : Bool :=
  match s.window c w with
  | none => false
  | some x =>
    x.valid && (!p.r || x.r) && (!p.w || x.w) && (!p.x || x.x) && decide (x.base ≤ a) && decide (a + n - 1 ≤ x.limit)

/-- An address of window `w` in the 56-bit global form of R274: the device of a peer window, this device otherwise. -/
def globalOf (s : State) (c w a : Nat) : Nat :=
  (match s.window c w with
    | some x => if x.kind.toNat = 5 then x.dest else s.localDev
    | none => s.localDev) * 2 ^ 44 + a

/-- A local address in global form. -/
def globalHere (s : State) (a : Nat) : Nat := s.localDev * 2 ^ 44 + a

/-- Where the firmware region of a partition is to lie: the highest 256 MiB of its lowest-numbered stack in service (R275). -/
def fwHome (s : State) (p : Nat) : Option Nat :=
  match (List.range 4).find? fun i => s.stackOn (4 * p + i) with
  | some i => some (capBase (4 * p + i) + 0xFF0000000)
  | none => none

/-- The firmware region of a partition: where firmware last placed it; it moves only at a partition reset (R275).
[DESIGN CHOICE, log 80] -/
def fwRegion (s : State) (p : Nat) : Option Nat :=
  match s.board.fwPlaces.get? p with
  | some b => some b
  | none => s.fwHome p

def inFwRegion (s : State) (p a : Nat) : Bool :=
  match s.fwRegion p with
  | some b => decide (b ≤ a) && decide (a < b + 0x10000000)
  | none => false

/-- A range meets no firmware region (R275). -/
def offFirmware (s : State) (a n : Nat) : Bool :=
  (List.range 8).all fun p => match s.fwRegion p with
    | some b => decide (a + n ≤ b) || decide (b + 0x10000000 ≤ a)
    | none => true

/-- A context's 16-bit ID from its index and the generation CTX.STATE.ctx_id holds (R452). -/
def ctxId (s : State) (c : Nat) : Nat := s.fld (R.ctxState c) F.ctxState_ctx_id

end State

/-! ### Object handles (R216) -/

/-- The fields of a handle: remote, device, partition, index, and whether its reserved bits are zero. -/
structure Handle where
  remote : Bool
  device : Nat
  part : Nat
  index : Nat
  clean : Bool
deriving DecidableEq, Repr

def Handle.ofBits (h : W64) : Handle :=
  { remote := h.getLsbD 29, device := bitsOf h.toNat 28 17, part := bitsOf h.toNat 16 14, index := bitsOf h.toNat 13 0,
    clean := bitsOf h.toNat 63 30 == 0 && (h.getLsbD 29 || bitsOf h.toNat 28 17 == 0) }

namespace State

/-- Block `i / 64` of partition `p` is owned by context ID `id` (R465). -/
def ownsObj (s : State) (id p i : Nat) : Bool :=
  s.fld (R.synOwn p (i / 64)) F.synOwn_valid == 1 && s.fld (R.synOwn p (i / 64)) F.synOwn_ctx_id == id

end State

/-! ### Error records (R513 to R517) -/

/-- CRC-32 of IEEE 802.3, one bit at a time. -/
def crc32Bits : Nat → Nat → Nat
  | 0, c => c
  | n + 1, c => crc32Bits n (if c % 2 = 1 then (c / 2) ^^^ 0xEDB88320 else c / 2)

def crc32 (bs : List Byte) : Nat :=
  (bs.foldl (fun c b => crc32Bits 8 (c ^^^ b.toNat)) 0xFFFFFFFF) ^^^ 0xFFFFFFFF

/-- What an event reports; the ring adds sequence number, tick, time and device. -/
structure ErrRec where
  cls : Nat
  sev : Nat
  device : Bool
  part : Nat
  ctx : Option Nat
  kind : Nat
  index : Nat
  addr : Nat
  addrKind : Nat
  synd : Nat
  step : Nat
  addrErr : Bool
deriving DecidableEq, Repr

/-- A record of a class about a unit, with no address and no context. -/
def ErrRec.mk0 (cls sev part kind index synd : Nat) : ErrRec :=
  { cls := cls, sev := sev, device := false, part := part, ctx := none, kind := kind, index := index, addr := 0,
    addrKind := 0, synd := synd, step := 0, addrErr := false }

/-- The fields that make two records identical under R516. -/
def ErrRec.key (r : ErrRec) : List Nat := [r.cls, r.kind, r.index, r.addr, r.addrKind, r.synd]

/-- The 64 bytes of a record (R513). -/
def ErrRec.bytes (r : ErrRec) (tick time seq repeats dev : Nat) : List Byte :=
  let w0 := r.cls % 256 + r.sev % 8 * 2 ^ 8 + (if r.device then 2 ^ 11 else 0) + r.part % 8 * 2 ^ 12
    + (match r.ctx with | some id => 2 ^ 15 + id % 65536 * 2 ^ 48 | none => 0) + r.kind % 256 * 2 ^ 16
    + r.index % 2 ^ 24 * 2 ^ 24
  let w1 := r.addr % 2 ^ 56 + r.addrKind % 8 * 2 ^ 56
  let w6 := seq % 2 ^ 32 + repeats % 2 ^ 16 * 2 ^ 32 + (if r.addrErr then 2 ^ 48 else 0)
  let body := leBytes 8 w0 ++ leBytes 8 w1 ++ leBytes 8 r.synd ++ leBytes 8 (if r.ctx.isSome then r.step else 0)
    ++ leBytes 8 tick ++ leBytes 8 (time % 2 ^ 48) ++ leBytes 8 w6
  let head := body ++ leBytes 4 (dev % 4096)
  head ++ leBytes 4 (crc32 body)

namespace State

def ring (s : State) (p : Nat) : ErrRing := s.rings.getD p ErrRing.reset

def setRing (s : State) (p : Nat) (r : ErrRing) : State := { s with rings := s.rings.set p r }

/-- The ring can be written: a base has been placed, in a stack in service, and the partition is not in reset (R515). -/
def ringUp (s : State) (p : Nat) : Bool :=
  let b := s.fld (R.errBase p) F.errBase_base * 0x10000
  (match s.region b with | .capacity _ => true | _ => false) && s.fld (R.partRststat p) F.partRststat_phase == 0

/-- One record's bytes put at the head of the ring (R514). -/
def ringPut (s : State) (p : Nat) (bs : List Byte) : State :=
  let size := 2 ^ s.fld (R.errBase p) F.errBase_size
  let base := s.fld (R.errBase p) F.errBase_base * 0x10000
  let head := (s.reg (R.errHead p)).toNat
  let tail := (s.reg (R.errTail p)).toNat
  let s1 := if head - tail ≥ size then s.bump (R.errStat p) F.errStat_lost 1 else s
  let s2 := s1.writeBytes (base + head % size) bs
  s2.setReg (R.errHead p) (BitVec.ofNat 64 (head + 64))

/-- ALERT# is driven while any partition has ERR.STAT.alert set, and after a failed start (R517, R595). -/
def updateAlert (s : State) : State :=
  let on := (s.fld R.bootStatus F.bootStatus_failed == 1)
    || (List.range 8).any fun p => s.fld (R.errStat p) F.errStat_alert == 1
  s.setFld R.mgtPins F.mgtPins_alert (if on then 1 else 0)

def raiseAlert (s : State) (p sev : Nat) : State :=
  if s.fld (R.errCtl p) F.errCtl_alert_min ≤ sev then
    ((s.setFld (R.errStat p) F.errStat_alert 1).updateAlert.emit (.alertEvent p)).emit (.msix 512)
  else s

/-- A record's first 60 bytes with its repeats field one higher, saturating, and the CRC that covers it (R516). [DEDUCED, log 29] -/
def repeated (bs : List Byte) : List Byte :=
  let body := bs.take 52 ++ leBytes 2 (satAdd 16 (leVal ((bs.drop 52).take 2)) 1) ++ (bs.drop 54).take 2
  body ++ (bs.drop 56).take 4 ++ leBytes 4 (crc32 body)

/-- A record of partition `p`: merged into the last one when identical and less than 1 ms younger, otherwise written to
the ring, or to the always-on buffer while the ring cannot take it (R514 to R517). [DEDUCED, log 29] -/
def record (s : State) (p : Nat) (r : ErrRec) : State :=
  let (n, s) := s.draw
  let g := s.ring p
  let dev := if s.fld R.plId F.plId_valid = 1 then s.fld R.plId F.plId_device else 0
  if g.last = some r.key ∧ Config.withinMs n = true then
    match g.waiting.getLast? with
    | some bs => s.setRing p { g with waiting := g.waiting.dropLast ++ [repeated bs] }
    | none => s.writeBytes g.lastAt (repeated (s.bytesAt g.lastAt 60))
  else
    let bs := r.bytes (s.reg R.plTicknum).toNat (Config.recordTime n).toNat g.seq 0 dev
    let g1 := { g with seq := g.seq + 1, last := some r.key }
    if s.ringUp p then
      let at' := s.fld (R.errBase p) F.errBase_base * 0x10000
        + (s.reg (R.errHead p)).toNat % 2 ^ s.fld (R.errBase p) F.errBase_size
      ((s.setRing p { g1 with lastAt := at' }).ringPut p bs).raiseAlert p r.sev
    else if g.waiting.length < 256 then
      ((s.setRing p { g1 with waiting := g.waiting ++ [bs] }).setFld (R.errStat p) F.errStat_buffered
        (g.waiting.length + 1)).raiseAlert p r.sev
    else (s.setRing p { g1 with last := g.last }).bump (R.errStat p) F.errStat_lost 1

/-- The always-on buffer written to the ring once the ring can take it (R515). -/
def flushRing (s : State) (p : Nat) : State :=
  let g := s.ring p
  if s.ringUp p && !g.waiting.isEmpty then
    let s1 := g.waiting.foldl (fun s bs => s.ringPut p bs) s
    let last := s1.fld (R.errBase p) F.errBase_base * 0x10000
      + ((s1.reg (R.errHead p)).toNat - 64) % 2 ^ s1.fld (R.errBase p) F.errBase_size
    (s1.setRing p { g with waiting := [], lastAt := last }).setFld (R.errStat p) F.errStat_buffered 0
  else s

/-- A record about a device-scoped unit goes to the ring of every partition (R515). -/
def recordAll (s : State) (r : ErrRec) : State :=
  (List.range 8).foldl (fun s p => s.record p { r with device := true, part := p }) s

end State

end Sys2Proof.Machine
end

