-- ==== Sys2Proof/Machine/Engine.lean ====
section
/-! DEFINITION. Starting an engine reset, and clearing a tile (R522, R523, R526). -/

namespace Sys2Proof.Machine

/-- A tile cleared as an engine reset clears it: registers, tags, accumulator, instruction buffer and array weights; its
owner, step number, trap record and array-test mark are kept (R526). -/
def Tile.cleared (T : Tile) (st : TileSt) : Tile :=
  { Tile.reset with
    st := st, ctxValid := T.ctxValid, ctxIndex := T.ctxIndex, ctxGen := T.ctxGen, step := T.step,
    trapCount := T.trapCount, trapPending := T.trapPending, trapDouble := T.trapDouble, trapValid := T.trapValid,
    trapSlot := T.trapSlot, trapCause := T.trapCause, trapPc := T.trapPc, resumePc := T.resumePc, trapOp := T.trapOp,
    trapAddr := T.trapAddr, bistDue := T.bistDue, preemptResult := T.preemptResult }

namespace State

/-- Partition `p` is inside a partition or chip reset. -/
def inReset (s : State) (p : Nat) : Bool :=
  s.fld (R.partRststat p) F.partRststat_phase != 0 || s.fld R.devRststat F.devRststat_phase != 0

/-- A stack, scratch window or slice of another partition that is in a partition reset: a request to it ends with
TIMEOUT (R532). -/
def resetHome (s : State) (p a : Nat) : Bool :=
  let q := s.homeOf a
  q != p && s.fld (R.partRststat q) F.partRststat_phase != 0
    && (match s.region a with | .slice _ _ => true | .capacity _ => true | .scratch _ => true | _ => false)

/-- A tile's registers, tags, array and local store cleared, its state set. -/
def clearTile (s : State) (t : Nat) (st : TileSt) : State :=
  let s1 := (s.setTile t ((s.tile t).cleared st)).clearRange (lsBase t) 0x200000
  { s1 with reqs := s.reqs.keep fun _ r => r.tile != t }

/-- RESET record of a level (R513). -/
def resetRecord (s : State) (p kind index level cause : Nat) (fin : Bool) : State :=
  s.record p (ErrRec.mk0 0x0D (if fin then 0 else 3) p kind index
    (level + (if fin then 2 ^ 4 else 0) + cause * 2 ^ 8))

/-- Start of an engine reset; inside a higher reset it is recorded and not started (R522, R523). A tile in OFF stays there, and one in
SAVE is cleared when its save has ended (R60). [DEDUCED, log 132] -/
def startEngineReset (s : State) (p kind index cause : Nat) : State :=
  let s1 := s.resetRecord p kind index 1 cause false
  if s.inReset p ∨ s.engResets.any (fun e => e.kind == kind && e.index == index && e.part == p) = true then s1
  else
    let s2 := { s1 with engResets := s1.engResets ++ [(⟨p, kind, index, cause⟩ : EngRst)] }
    let s3 := (s2.setFld (R.errEngstat p) F.errEngstat_result 1).bump (R.errEngstat p) F.errEngstat_resets 1
    if kind = 1 then
      match (s.tile index).st with
      | .off => s3.clearTile index .off
      | .save => s3
      | _ => s3.clearTile index .reset
    else s3

end State

end Sys2Proof.Machine
end

