-- ==== Sys2Proof/Machine/Thermal.lean ====
section
/-! DEFINITION. Sensors, their places and pairs, governing readings and thermal gaps (R92, R105, R282, R616 to R622). -/

namespace Sys2Proof.Machine

/-! ### Sensor indices (R616) -/

def tileSensor (p pos : Nat) : Nat := p * 272 + pos
def layerSensor (p l k : Nat) : Nat := 2176 + p * 64 + l * 16 + k
def baseSensor (p k : Nat) : Nat := 2688 + p * 64 + k
def ioSensor (d k : Nat) : Nat := 3200 + d * 8 + k
def stackSensor (n k : Nat) : Nat := 3216 + n * 4 + k

/-- What a sensor measures. -/
inductive Spot where
  | tile (p pos : Nat)
  | layer (p l k : Nat)
  | base (p k : Nat)
  | io (d k : Nat)
  | stack (n k : Nat)
  | nothing
deriving DecidableEq, Repr

def spotOf (i : Nat) : Spot :=
  if i < 2176 then .tile (i / 272) (i % 272)
  else if i < 2688 then .layer ((i - 2176) / 64) ((i - 2176) / 16 % 4) ((i - 2176) % 16)
  else if i < 3200 then .base ((i - 2688) / 64) ((i - 2688) % 64)
  else if i < 3216 then .io ((i - 3200) / 8) ((i - 3200) % 8)
  else if i < 3344 then .stack ((i - 3216) / 4) ((i - 3216) % 4)
  else .nothing

/-- Sensors of base dies, I/O dies and stacks are paired. -/
def paired (i : Nat) : Bool := decide (2688 ≤ i) && decide (i < 3344)

/-- The partner of a paired sensor. -/
def partnerOf (i : Nat) : Nat := if i % 2 = 0 then i + 1 else i - 1

/-- Neighbours by place (R617), whether or not they are failed. -/
def neighbours (i : Nat) : List Nat :=
  match spotOf i with
  | .tile p pos =>
    let r := pos / 17
    let c := pos % 17
    (if 0 < r then [tileSensor p (pos - 17)] else []) ++ (if r < 15 then [tileSensor p (pos + 17)] else [])
      ++ (if 0 < c then [tileSensor p (pos - 1)] else []) ++ (if c < 16 then [tileSensor p (pos + 1)] else [])
  | .layer p l k =>
    let a := k / 4
    let b := k % 4
    (if 0 < b then [layerSensor p l (k - 1)] else []) ++ (if b < 3 then [layerSensor p l (k + 1)] else [])
      ++ (if 0 < a then [layerSensor p l (k - 4)] else []) ++ (if a < 3 then [layerSensor p l (k + 4)] else [])
      ++ (if 0 < l then [layerSensor p (l - 1) k] else []) ++ (if l < 3 then [layerSensor p (l + 1) k] else [])
  | .base p k =>
    let i2 := k / 2 * 2
    [baseSensor p (if k % 2 = 0 then k + 1 else k - 1)]
      ++ (if 0 < i2 then [baseSensor p (i2 - 2), baseSensor p (i2 - 1)] else [])
      ++ (if i2 < 62 then [baseSensor p (i2 + 2), baseSensor p (i2 + 3)] else [])
  | .io d k =>
    let i2 := k / 2 * 2
    [ioSensor d (if k % 2 = 0 then k + 1 else k - 1)]
      ++ (if 0 < i2 then [ioSensor d (i2 - 2), ioSensor d (i2 - 1)] else [])
      ++ (if i2 < 6 then [ioSensor d (i2 + 2), ioSensor d (i2 + 3)] else [])
  | .stack n k => ((List.range 4).filter (· != k)).map (stackSensor n)
  | .nothing => []

namespace State

/-! ### Readings -/

def sensFailed (s : State) (i : Nat) : Bool := s.fld (R.thmSens i) F.thmSens_failed == 1
def sensSubst (s : State) (i : Nat) : Bool := s.fld (R.thmSens i) F.thmSens_substituted == 1
def sensValid (s : State) (i : Nat) : Bool := s.fld (R.thmSens i) F.thmSens_valid == 1

/-- A failed sensor without a substitute: its region runs at the floor of R617. -/
def sensDead (s : State) (i : Nat) : Bool := s.sensFailed i && !s.sensSubst i

/-- The reading governs: a valid sensor, or a substitute. -/
def sensUsable (s : State) (i : Nat) : Bool := s.sensSubst i || (s.sensValid i && !s.sensFailed i)

/-- Reading in units of 0.25 °C. -/
def reading (s : State) (i : Nat) : Int := (BitVec.ofNat 16 (s.fld (R.thmSens i) F.thmSens_reading)).toInt

/-- Some usable sensor of a list reads above a limit in units of 0.25 °C. -/
def anyAbove (s : State) (l : List Nat) (limit : Int) : Bool := l.any fun i => s.sensUsable i && decide (limit < s.reading i)

/-- Physical position of a logical tile, from NOC.TMAP. -/
def posOf (s : State) (t : Nat) : Nat :=
  let r := R.nocTmap (t / 256) (t % 256)
  s.fld r F.nocTmap_phys_row * 17 + s.fld r F.nocTmap_phys_col

/-- The DRAM-layer sensors over a tile. -/
def layersOf (s : State) (t : Nat) : List Nat :=
  (List.range 4).map fun l => layerSensor (t / 256) l (regionOfPos (s.posOf t))

def diodeOf (s : State) (t : Nat) : Nat := tileSensor (t / 256) (s.posOf t)

def junctionTarget (s : State) : Int := 4 * (s.fld R.thmCtl F.thmCtl_junction_target : Nat)
def dramTarget (s : State) : Int := 4 * (s.fld R.thmCtl F.thmCtl_dram_target : Nat)

/-- A reading that governs the tile lies above its target (R620, R621). -/
def tileHot (s : State) (t : Nat) : Bool :=
  s.anyAbove [s.diodeOf t] s.junctionTarget || s.anyAbove (s.layersOf t) s.dramTarget

/-- Every reading that governs the tile lies at least 2 °C below its target. -/
def tileCool (s : State) (t : Nat) : Bool :=
  !(s.anyAbove [s.diodeOf t] (s.junctionTarget - 8)) && !(s.anyAbove (s.layersOf t) (s.dramTarget - 8))

/-- A base die is above 103 °C. -/
def baseHot (s : State) (p : Nat) : Bool := s.anyAbove ((List.range 64).map (baseSensor p)) 412

/-- Both sensors of a pair of a base die have failed: the partition runs at ladder step 6. -/
def baseDead (s : State) (p : Nat) : Bool :=
  (List.range 32).any fun i => s.sensDead (baseSensor p (2 * i)) && s.sensDead (baseSensor p (2 * i + 1))

/-! ### Thermal gaps (R105, R621, R622) -/

/-- A quiesced slice above the tile, or a quiesced stack of its partition, holds the gap at 1,023. -/
def quiescedAbove (s : State) (t : Nat) : Bool :=
  s.fld (R.slcStatus t) F.slcStatus_quiesced == 1
    || (List.range 4).any fun j => s.fld (R.capStatus (t / 256) j) F.capStatus_quiesced == 1

def thermalGap (s : State) (t : Nat) : Nat := s.board.thermalGap.getD t 0

/-- The thermal gap that the tile holds: a failed diode or a quiesced unit above it asks for 1,023 (R617, R622). -/
def heldGap (s : State) (t : Nat) : Nat :=
  if s.sensDead (s.diodeOf t) = true ∨ s.quiescedAbove t = true then 1023 else s.thermalGap t

/-- The gap that the tile is to hold: the larger of thermal gap and power gap. -/
def wantedGap (s : State) (t : Nat) : Nat := max (s.heldGap t) (s.fld (R.pwrPctl (t / 256)) F.pwrPctl_gap)

/-- What the issue of a pass does to the gaps: the thermal gap rises by 16 above the target, the imposed gap moves by at most 16 towards the
wanted one, and its cycles are counted. -/
def stepGap (s : State) (t : Nat) : State :=
  let s1 := if s.tileHot t then
      { s with board := { s.board with thermalGap := s.board.thermalGap.set t (min 1023 (s.thermalGap t + 16)) } }
    else s
  let now := s1.fld (R.mxaThrottle t) F.mxaThrottle_gap
  let want := s1.wantedGap t
  let next := if now ≤ want then min want (now + 16) else max want (now - 16)
  s1.setFld (R.mxaThrottle t) F.mxaThrottle_gap next

end State

end Sys2Proof.Machine
end

