-- ==== Sys2Proof/Machine/Crypto.lean ====
section
/-! DEFINITION. The published algorithms that the spec names: AES-256, its XTS mode and key wrap, and SHA-384 (R13, R306, R469,
R499, R562, R575). -/

namespace Sys2Proof.Machine

/-! ### GF(2^8) of AES: x^8 + x^4 + x^3 + x + 1 -/

namespace Aes

def double (a : Nat) : Nat := if a < 128 then 2 * a else (2 * a - 256) ^^^ 0x1B

/-- Product over the lowest `n` bits of the second factor. -/
def mulFrom : Nat → Nat → Nat → Nat
  | 0, _, _ => 0
  | n + 1, a, b => (if b % 2 = 1 then a else 0) ^^^ mulFrom n (double a) (b / 2)

def mul (a b : Nat) : Nat := mulFrom 8 a b

def pow (a : Nat) : Nat → Nat
  | 0 => 1
  | n + 1 => mul a (pow a n)

/-- Inverse, with 0 for 0. -/
def inv (a : Nat) : Nat := pow a 254

/-- A byte rotated left by `n` bits. -/
def rotl (b n : Nat) : Nat := (b * 2 ^ n % 256) + b / 2 ^ (8 - n)

def subByte (a : Nat) : Nat :=
  let b := inv a
  b ^^^ rotl b 1 ^^^ rotl b 2 ^^^ rotl b 3 ^^^ rotl b 4 ^^^ 0x63

def invSubByte (a : Nat) : Nat := inv (rotl a 1 ^^^ rotl a 3 ^^^ rotl a 6 ^^^ 0x05)

/-! ### AES-256 -/

def xorBytes (a b : List Nat) : List Nat := List.zipWith (· ^^^ ·) a b

/-- The 60 words of the key schedule, each of 4 bytes. -/
def keySchedule (key : List Nat) : List (List Nat) :=
  let first := (List.range 8).map fun i => (key.drop (4 * i)).take 4
  ((List.range 52).map (· + 8)).foldl (fun w i =>
    let prev := w.getD (i - 1) []
    let t :=
      if i % 8 = 0 then xorBytes ((prev.drop 1 ++ prev.take 1).map subByte) [pow 2 (i / 8 - 1), 0, 0, 0]
      else if i % 8 = 4 then prev.map subByte
      else prev
    w ++ [xorBytes (w.getD (i - 8) []) t]) first

def roundKey (w : List (List Nat)) (r : Nat) : List Nat := ((w.drop (4 * r)).take 4).flatten

/-- Row r of the state moves left by r columns; bytes lie column by column. -/
def shiftRows (s : List Nat) : List Nat := (List.range 16).map fun i => s.getD ((i + 4 * (i % 4)) % 16) 0

def invShiftRows (s : List Nat) : List Nat := (List.range 16).map fun i => s.getD ((i + 16 - 4 * (i % 4)) % 16) 0

/-- Each column times a circulant matrix. -/
def mixWith (m : List Nat) (s : List Nat) : List Nat :=
  (List.range 16).map fun i =>
    (List.range 4).foldl (fun x j => x ^^^ mul (m.getD ((j + 4 - i % 4) % 4) 0) (s.getD (i / 4 * 4 + j) 0)) 0

def encryptBlock (key block : List Nat) : List Nat :=
  let w := keySchedule key
  let s := ((List.range 13).map (· + 1)).foldl (fun s r =>
    xorBytes (mixWith [2, 3, 1, 1] (shiftRows (s.map subByte))) (roundKey w r)) (xorBytes block (roundKey w 0))
  xorBytes (shiftRows (s.map subByte)) (roundKey w 14)

def decryptBlock (key block : List Nat) : List Nat :=
  let w := keySchedule key
  let s := ((List.range 13).map (13 - ·)).foldl (fun s r =>
    mixWith [14, 11, 13, 9] (xorBytes ((invShiftRows s).map invSubByte) (roundKey w r))) (xorBytes block (roundKey w 14))
  xorBytes ((invShiftRows s).map invSubByte) (roundKey w 0)

/-! ### XTS on a 64-byte unit (IEEE 1619) -/

/-- The tweak value of the next block: times x, least significant byte first. -/
def nextTweak (t : List Nat) : List Nat :=
  let top := t.getD 15 0 / 128
  (List.range 16).map fun i =>
    (t.getD i 0 * 2 % 256 + (if i = 0 then 0 else t.getD (i - 1) 0 / 128)) ^^^ (if i = 0 ∧ top = 1 then 0x87 else 0)

def tweakAt (t : List Nat) : Nat → List Nat
  | 0 => t
  | n + 1 => nextTweak (tweakAt t n)

/-- A unit of whole blocks under the block cipher `f` of the first key; the second key encrypts the tweak number. -/
def xtsWith (f : List Nat → List Nat) (key2 : List Nat) (tweak : Nat) (data : List Nat) : List Nat :=
  let t0 := encryptBlock key2 ((List.range 16).map fun i => tweak / 256 ^ i % 256)
  (List.range (data.length / 16)).flatMap fun j =>
    let t := tweakAt t0 j
    xorBytes (f (xorBytes ((data.drop (16 * j)).take 16) t)) t

def xtsEncrypt (key1 key2 : List Nat) (tweak : Nat) (data : List Nat) : List Nat :=
  xtsWith (encryptBlock key1) key2 tweak data

def xtsDecrypt (key1 key2 : List Nat) (tweak : Nat) (data : List Nat) : List Nat :=
  xtsWith (decryptBlock key1) key2 tweak data

/-! ### Key wrap (NIST SP 800-38F, KW) -/

/-- One step of unwrapping: step number `t` with register `i` of the `n`. -/
def unwrapStep (kek : List Nat) (n : Nat) (x : List Nat × List (List Nat)) (t : Nat) : List Nat × List (List Nat) :=
  let i := (t - 1) % n
  let a := xorBytes x.1 ((List.range 8).map fun j => t / 256 ^ (7 - j) % 256)
  let b := decryptBlock kek (a ++ x.2.getD i [])
  (b.take 8, x.2.set i (b.drop 8))

/-- The key that a wrapped key of 8 (n + 1) bytes holds; none when its integrity value is wrong. -/
def unwrapKey (kek wrapped : List Nat) : Option (List Nat) :=
  let n := wrapped.length / 8 - 1
  let r := (List.range n).map fun i => (wrapped.drop (8 * (i + 1))).take 8
  let out := ((List.range (6 * n)).map (6 * n - ·)).foldl (unwrapStep kek n) (wrapped.take 8, r)
  if out.1 = List.replicate 8 0xA6 then some out.2.flatten else none

end Aes

/-! ### SHA-384 (FIPS 180-4) -/

namespace Sha

def roundConstants : List W64 :=
[0x428A2F98D728AE22, 0x7137449123EF65CD, 0xB5C0FBCFEC4D3B2F, 0xE9B5DBA58189DBBC,
   0x3956C25BF348B538, 0x59F111F1B605D019, 0x923F82A4AF194F9B, 0xAB1C5ED5DA6D8118,
   0xD807AA98A3030242, 0x12835B0145706FBE, 0x243185BE4EE4B28C, 0x550C7DC3D5FFB4E2,
   0x72BE5D74F27B896F, 0x80DEB1FE3B1696B1, 0x9BDC06A725C71235, 0xC19BF174CF692694]
    ++ [0xE49B69C19EF14AD2, 0xEFBE4786384F25E3, 0x0FC19DC68B8CD5B5, 0x240CA1CC77AC9C65,
   0x2DE92C6F592B0275, 0x4A7484AA6EA6E483, 0x5CB0A9DCBD41FBD4, 0x76F988DA831153B5,
   0x983E5152EE66DFAB, 0xA831C66D2DB43210, 0xB00327C898FB213F, 0xBF597FC7BEEF0EE4,
   0xC6E00BF33DA88FC2, 0xD5A79147930AA725, 0x06CA6351E003826F, 0x142929670A0E6E70]
    ++ [0x27B70A8546D22FFC, 0x2E1B21385C26C926, 0x4D2C6DFC5AC42AED, 0x53380D139D95B3DF,
   0x650A73548BAF63DE, 0x766A0ABB3C77B2A8, 0x81C2C92E47EDAEE6, 0x92722C851482353B,
   0xA2BFE8A14CF10364, 0xA81A664BBC423001, 0xC24B8B70D0F89791, 0xC76C51A30654BE30,
   0xD192E819D6EF5218, 0xD69906245565A910, 0xF40E35855771202A, 0x106AA07032BBD1B8]
    ++ [0x19A4C116B8D2D0C8, 0x1E376C085141AB53, 0x2748774CDF8EEB99, 0x34B0BCB5E19B48A8,
   0x391C0CB3C5C95A63, 0x4ED8AA4AE3418ACB, 0x5B9CCA4F7763E373, 0x682E6FF3D6B2B8A3,
   0x748F82EE5DEFB2FC, 0x78A5636F43172F60, 0x84C87814A1F0AB72, 0x8CC702081A6439EC,
   0x90BEFFFA23631E28, 0xA4506CEBDE82BDE9, 0xBEF9A3F7B2C67915, 0xC67178F2E372532B]
    ++ [0xCA273ECEEA26619C, 0xD186B8C721C0C207, 0xEADA7DD6CDE0EB1E, 0xF57D4F7FEE6ED178,
   0x06F067AA72176FBA, 0x0A637DC5A2C898A6, 0x113F9804BEF90DAE, 0x1B710B35131C471B,
   0x28DB77F523047D84, 0x32CAAB7B40C72493, 0x3C9EBE0A15C9BEBC, 0x431D67C49C100D4C,
   0x4CC5D4BECB3E42B6, 0x597F299CFC657E2A, 0x5FCB6FAB3AD6FAEC, 0x6C44198C4A475817]

def startValue : List W64 :=
  [0xCBBB9D5DC1059ED8, 0x629A292A367CD507, 0x9159015A3070DD17, 0x152FECD8F70E5939,
   0x67332667FFC00B31, 0x8EB44A8768581511, 0xDB0C2E0D64F98FA7, 0x47B5481DBEFA4FA4]

def bigS0 (x : W64) : W64 := x.rotateRight 28 ^^^ x.rotateRight 34 ^^^ x.rotateRight 39
def bigS1 (x : W64) : W64 := x.rotateRight 14 ^^^ x.rotateRight 18 ^^^ x.rotateRight 41
def smallS0 (x : W64) : W64 := x.rotateRight 1 ^^^ x.rotateRight 8 ^^^ x >>> 7
def smallS1 (x : W64) : W64 := x.rotateRight 19 ^^^ x.rotateRight 61 ^^^ x >>> 6

/-- The 80 words of a block's schedule. -/
def schedule (block : List W64) : List W64 :=
  ((List.range 64).map (· + 16)).foldl (fun w t =>
    w ++ [smallS1 (w.getD (t - 2) 0) + w.getD (t - 7) 0 + smallS0 (w.getD (t - 15) 0) + w.getD (t - 16) 0]) block

def round (h : List W64) (kw : W64 × W64) : List W64 :=
  let g (i : Nat) : W64 := h.getD i 0
  let t1 := g 7 + bigS1 (g 4) + ((g 4 &&& g 5) ^^^ (~~~(g 4) &&& g 6)) + kw.1 + kw.2
  let t2 := bigS0 (g 0) + ((g 0 &&& g 1) ^^^ (g 0 &&& g 2) ^^^ (g 1 &&& g 2))
  [t1 + t2, g 0, g 1, g 2, g 3 + t1, g 4, g 5, g 6]

def compress (h : List W64) (block : List W64) : List W64 :=
  List.zipWith (· + ·) h ((roundConstants.zip (schedule block)).foldl round h)

/-- A big-endian word of 8 bytes. -/
def word (bs : List Byte) : W64 := BitVec.ofNat 64 (bs.foldl (fun n b => n * 256 + b.toNat) 0)

/-- The message padded to whole blocks of 128 bytes. -/
def pad (bs : List Byte) : List Byte :=
  let zeros := (239 - bs.length % 128) % 128
  bs ++ [0x80] ++ List.replicate zeros 0 ++ (List.range 16).map fun i => BitVec.ofNat 8 (8 * bs.length / 256 ^ (15 - i))

end Sha

/-- The 48 bytes of the digest. -/
def sha384 (bs : List Byte) : List Byte :=
  let p := Sha.pad bs
  let h := (List.range (p.length / 128)).foldl (fun h b =>
    Sha.compress h ((List.range 16).map fun i => Sha.word ((p.drop (128 * b + 8 * i)).take 8))) Sha.startValue
  (h.take 6).flatMap fun x => (List.range 8).map fun i => BitVec.ofNat 8 (x.toNat / 256 ^ (7 - i))

end Sys2Proof.Machine
end

