-- ==== Sys2Proof/Machine/LineCode.lean ====
section
/-! DEFINITION. The code word of a DRAM line: its symbols, its Reed-Solomon check symbols and its decoder, and the
stored line with its encryption (R303 to R306). -/

namespace Sys2Proof.Machine

/-! ### GF(2^8) with x^8 + x^4 + x^3 + x^2 + 1 -/

/-- A symbol times α = 0x02. -/
def gfDouble (a : Nat) : Nat := if a < 128 then 2 * a else (2 * a - 256) ^^^ 0x1D

/-- Product over the lowest `n` bits of the second factor. -/
def gfMulFrom : Nat → Nat → Nat → Nat
  | 0, _, _ => 0
  | n + 1, a, b => (if b % 2 = 1 then a else 0) ^^^ gfMulFrom n (gfDouble a) (b / 2)

def gfMul (a b : Nat) : Nat := gfMulFrom 8 a b

def alphaPow : Nat → Nat
  | 0 => 1
  | n + 1 => gfDouble (alphaPow n)

/-- Coefficients of (x − α^0) … (x − α^(n−1)), highest power first. -/
def genPoly : Nat → List Nat
  | 0 => [1]
  | n + 1 => List.zipWith (· ^^^ ·) (genPoly n ++ [0]) (0 :: (genPoly n).map (gfMul (alphaPow n)))

/-- k0 to k7: the coefficients of M(x) × x^8 mod g(x). -/
def checkSymbols (msg : List Nat) : List Nat :=
  let g := (genPoly 8).drop 1
  msg.foldl (fun r m => List.zipWith (· ^^^ ·) (r.drop 1 ++ [0]) (g.map (gfMul (m ^^^ r.headD 0)))) (List.replicate 8 0)

/-- Symbol S_j of the syndrome: the code word's polynomial at α^j. -/
def syndromeAt (cw : List Nat) (j : Nat) : Nat := cw.foldl (fun x c => gfMul x (alphaPow j) ^^^ c) 0

def syndromes (cw : List Nat) : List Nat := (List.range 8).map (syndromeAt cw)

/-- The one symbol whose error explains the syndrome. -/
def locate (syn : List Nat) : Option Nat :=
  let s0 := syn.getD 0 0
  if s0 = 0 then none
  else (List.range 79).find? fun i => (List.range 8).all fun j => syn.getD j 0 == gfMul s0 (alphaPow (j * (78 - i)))

/-- What a decoder makes of a code word: good, corrected, or uncorrectable with the syndrome and whether the error lies in the
address symbols m66 to m70 (R305). -/
inductive Decoded where
  | good
  | corrected (cw : List Nat)
  | uncorrectable (addrErr : Bool) (syndrome : W64)
deriving DecidableEq, Repr

def flipSymbol (cw : List Nat) (i e : Nat) : List Nat := cw.set i (cw.getD i 0 ^^^ e)

def decodeLine (cw : List Nat) : Decoded :=
  let syn := syndromes cw
  let w : W64 := BitVec.ofNat 64 (leVal (syn.map (BitVec.ofNat 8)))
  if syn.all (· == 0) then .good
  else match locate syn with
    | some i => if 66 ≤ i ∧ i ≤ 70 then .uncorrectable true w else .corrected (flipSymbol cw i (syn.getD 0 0))
    | none => .uncorrectable false w

/-! ### Code words of the state -/

namespace State

/-- The code word of a line as its last write stored it: data, both copies of the generation, the poison bits, the line's
address, and the check symbols (R303, R304, R308). -/
def codeWord (s : State) (l : Nat) : List Nat :=
  let m := s.lineMeta l
  let msg := (s.dramBytes l).map BitVec.toNat ++ [m.gen % 16 * 17, if m.poison then 3 else 0]
    ++ (leBytes 5 l).map BitVec.toNat
  msg ++ checkSymbols msg

/-- The line holds what a code word says. Two copies of the generation that differ are no generation. -/
def holdWord (s : State) (l : Nat) (cw : List Nat) : State :=
  let g := cw.getD 64 0
  { s.setDram l ((cw.take 64).map (BitVec.ofNat 8)) with
    lines := s.lines.set l (⟨if g % 16 = g / 16 then g % 16 else 16, cw.getD 65 0 % 4 != 0, false, 0, false⟩ : LineMeta) }

/-- The two halves of the memory key of a partition (R306, R468). [DESIGN CHOICE, log 89] -/
def memKey (s : State) (p : Nat) : List Nat × List Nat :=
  let byte (i : Nat) : Nat := (Config.keyByte (s.board.memKeys.getD p 0) i).toNat
  ((List.range 32).map byte, (List.range 32).map fun i => byte (32 + i))

/-- The 74 bytes that DRAM stores for a line: m0 to m63 encrypted with the partition key and the line's device address, m64, m65 and
the check symbols (R303, R306). -/
def storedLine (s : State) (l : Nat) : List Nat :=
  let cw := s.codeWord l
  let k := s.memKey (s.homeOf (64 * l))
  Aes.xtsEncrypt k.1 k.2 (64 * l) (cw.take 64) ++ (cw.drop 64).take 2 ++ cw.drop 71

/-- The code word that reaches the decoder from 74 stored bytes: m0 to m63 decrypted, and the line's own address as m66 to m70. -/
def fetchedWord (s : State) (l : Nat) (stored : List Nat) : List Nat :=
  let k := s.memKey (s.homeOf (64 * l))
  Aes.xtsDecrypt k.1 k.2 (64 * l) (stored.take 64) ++ (stored.drop 64).take 2 ++ (leBytes 5 l).map BitVec.toNat ++ stored.drop 66

/-- A line of a code window: a window with X (R457). -/
def inCode (s : State) (l : Nat) : Bool :=
  s.ctxs.vals.any fun x => x.windows.vals.any fun w => w.valid && w.x && decide (w.base ≤ 64 * l) && decide (64 * l ≤ w.limit)

/-- The context image still has what a code line held (R68). -/
def keepImage (s : State) (l : Nat) : State :=
  { s with imageLines := if s.inCode l then s.imageLines.set l (s.readRaw (64 * l) 64) else s.imageLines.erase l }

/-- A DRAM line is read as a code word. A corrected line that is current and not poisoned is rewritten and counted; an
uncorrectable one keeps the bytes as read, beside which a home line of the shared cache keeps its own (R300, R307, R308).
[DESIGN CHOICE, log 102] -/
def readWord (s : State) (l : Nat) (cw : List Nat) (count : State → State) : State :=
  if s.isDram (64 * l) = false ∨ (s.lineMeta l).ue = true then s
  else
    let old := s.codeWord l
    match decodeLine cw with
    | .good => if cw = old then s else s.holdWord l cw
    | .corrected fixed =>
      let s1 := if fixed = old then s else s.holdWord l fixed
      if s1.stale l = true ∨ (s1.lineMeta l).poison = true then s else count s1
    | .uncorrectable addrErr syn =>
      let s1 := if (s.homeLine? l).isSome then s else (s.keepImage l).writeRaw (64 * l) ((cw.take 64).map (BitVec.ofNat 8))
      { s1 with lines := s1.lines.set l { s1.lineMeta l with ue := true, synd := syn, addrErr := addrErr } }

/-- The code word of a line with changed symbols, and the one that reaches the decoder when bytes of the stored line have changed. -/
def changedWord (s : State) (l : Nat) (errs : List (Fin 79 × Byte)) : List Nat :=
  errs.foldl (fun c e => flipSymbol c e.1.val e.2.toNat) (s.codeWord l)

def changedStored (s : State) (l : Nat) (errs : List (Fin 74 × Byte)) : List Nat :=
  s.fetchedWord l (errs.foldl (fun c e => flipSymbol c e.1.val e.2.toNat) (s.storedLine l))

end State

end Sys2Proof.Machine
end

