-- ==== Sys2Proof/Machine/Fp.lean ====
section
/-! DEFINITION. The arithmetic of R118 to R135: element formats, FP32 and BF16 arithmetic, conversions,
exact block sums and canonical sums. A value is decoded to an exact signed multiple of a power of two, the
operation is done exactly, and the result is rounded once. -/

namespace Sys2Proof.Fp

/-- A decoded value: NaN, an infinity, or (-1)^s × m × 2^e exactly. -/
inductive FV where
  | nan
  | inf (s : Bool)
  | fin (s : Bool) (m : Nat) (e : Int)
deriving DecidableEq, Repr

/-- The canonical NaN on output (R118). -/
def qnan : W32 := 0x7FC00000

def isNan (x : W32) : Bool := x.extractLsb' 23 8 == 255 && x.extractLsb' 0 23 != 0
def isInf (x : W32) : Bool := x.extractLsb' 23 8 == 255 && x.extractLsb' 0 23 == 0
/-- A subnormal input, which reads as zero of its sign (R120). -/
def isSub (x : W32) : Bool := x.extractLsb' 23 8 == 0 && x.extractLsb' 0 23 != 0

/-- Decoding of an FP32 pattern, a subnormal reading as zero of its sign (R120). -/
def dec (x : W32) : FV :=
  let s := x.getLsbD 31
  let e := (x.extractLsb' 23 8).toNat
  let f := (x.extractLsb' 0 23).toNat
  if e = 255 then (if f = 0 then .inf s else .nan)
  else if e = 0 then .fin s 0 0
  else .fin s (2 ^ 23 + f) ((e : Int) - 150)

/-- A BF16 operand in bits [31:16] of a lane, bits [15:0] ignored (R172). -/
def decB (x : W32) : FV := dec (x &&& 0xFFFF0000)

/-- `m / 2^sh` rounded to nearest, ties to even. -/
def rneShift (m sh : Nat) : Nat :=
  if sh = 0 then m
  else
    let q := m / 2 ^ sh
    let r := m % 2 ^ sh
    let h := 2 ^ (sh - 1)
    if r > h ∨ (r = h ∧ q % 2 = 1) then q + 1 else q

def signBit (s : Bool) : Nat := if s then 2 ^ 31 else 0

/-- A packed result and whether R121 flushed it. -/
structure Rounded where
  bits : W32
  ftz : Bool
deriving DecidableEq, Repr

/-- Rounding to `p` significant bits in the FP32 exponent range (R120, R121): p = 24 gives FP32, p = 8 gives BF16
in bits [31:16]. -/
def roundFin (p : Nat) (s : Bool) (m : Nat) (e : Int) : Rounded :=
  if m = 0 then ⟨BitVec.ofNat 32 (signBit s), false⟩
  else
    let len := Nat.log2 m + 1
    let q0 := if len ≤ p then m * 2 ^ (p - len) else rneShift m (len - p)
    let e0 : Int := e + ((len : Int) - (p : Int))
    let q := if q0 = 2 ^ p then 2 ^ (p - 1) else q0
    let e1 : Int := if q0 = 2 ^ p then e0 + 1 else e0
    let ex : Int := e1 + (p : Int) - 1
    if ex < -126 then ⟨BitVec.ofNat 32 (signBit s), true⟩
    else if ex > 127 then ⟨BitVec.ofNat 32 (signBit s + 255 * 2 ^ 23), false⟩
    else ⟨BitVec.ofNat 32 (signBit s + (ex + 127).toNat * 2 ^ 23 + (q - 2 ^ (p - 1)) * 2 ^ (24 - p)), false⟩

def roundTo (p : Nat) : FV → Rounded
  | .nan => ⟨qnan, false⟩
  | .inf s => ⟨BitVec.ofNat 32 (signBit s + 255 * 2 ^ 23), false⟩
  | .fin s m e => roundFin p s m e

/-- FP32 rounding of an exact value. -/
def fl (v : FV) : W32 := (roundTo 24 v).bits

/-- The signed integer a value is at exponent `e0` (with `e0 ≤ e`). -/
def atExp (e0 : Int) (s : Bool) (m : Nat) (e : Int) : Int :=
  let k : Int := (m * 2 ^ (e - e0).toNat : Nat)
  if s then -k else k

/-- A signed integer multiple of `2^e0` as a value; a zero takes the sign given. -/
def ofInt (zs : Bool) (k e0 : Int) : FV :=
  if k = 0 then .fin zs 0 0 else .fin (k < 0) k.natAbs e0

/-- Exact sum. An exact zero from operands of different sign is +0 (R120). -/
def addX : FV → FV → FV
  | .nan, _ => .nan
  | _, .nan => .nan
  | .inf s, .inf t => if s = t then .inf s else .nan
  | .inf s, .fin _ _ _ => .inf s
  | .fin _ _ _, .inf t => .inf t
  | .fin s m e, .fin t n f =>
    let e0 := min e f
    ofInt (s && t) (atExp e0 s m e + atExp e0 t n f) e0

/-- Exact product; an infinity times zero is NaN. -/
def mulX : FV → FV → FV
  | .nan, _ => .nan
  | _, .nan => .nan
  | .inf s, .inf t => .inf (s != t)
  | .inf s, .fin t n _ => if n = 0 then .nan else .inf (s != t)
  | .fin s m _, .inf t => if m = 0 then .nan else .inf (s != t)
  | .fin s m e, .fin t n f => .fin (s != t) (m * n) (e + f)

def negX : FV → FV
  | .nan => .nan
  | .inf s => .inf (!s)
  | .fin s m e => .fin (!s) m e

def absX : FV → FV
  | .nan => .nan
  | .inf _ => .inf false
  | .fin _ m e => .fin false m e

/-- Exact order of two values that are not NaN: `some` of less, equal or greater; a NaN has none. -/
def cmpX : FV → FV → Option Ordering
  | .nan, _ => none
  | _, .nan => none
  | .inf s, .inf t => some (if s = t then .eq else if s then .lt else .gt)
  | .inf s, .fin _ _ _ => some (if s then .lt else .gt)
  | .fin _ _ _, .inf t => some (if t then .gt else .lt)
  | .fin s m e, .fin t n f =>
    let e0 := min e f
    some (compare (atExp e0 s m e) (atExp e0 t n f))

def isNegZero : FV → Bool
  | .fin true 0 _ => true
  | _ => false

/-- Maximum of R122. -/
def maxX (a b : FV) : FV :=
  match cmpX a b with
  | none => .nan
  | some .lt => b
  | some .gt => a
  | some .eq => if isNegZero a then b else a

/-- Minimum of R122. -/
def minX (a b : FV) : FV :=
  match cmpX a b with
  | none => .nan
  | some .lt => a
  | some .gt => b
  | some .eq => if isNegZero a then a else b

/-- fl(a + b), fl(a × b) and the single rounding of a × b + c, in FP32. -/
def fadd (a b : W32) : W32 := fl (addX (dec a) (dec b))
def fmul (a b : W32) : W32 := fl (mulX (dec a) (dec b))
def fma (a b c : W32) : W32 := fl (addX (mulX (dec a) (dec b)) (dec c))
def fsub (a b : W32) : W32 := fl (addX (dec a) (negX (dec b)))
def fmax (a b : W32) : W32 := fl (maxX (dec a) (dec b))
def fmin (a b : W32) : W32 := fl (minX (dec a) (dec b))

/-! ### Conversions (R123 to R126) -/

/-- Integer nearest to a value, ties to even, saturated to [lo, hi]; NaN gives 0 (R126). -/
def toIntSat (lo hi : Int) : FV → Int
  | .nan => 0
  | .inf s => if s then lo else hi
  | .fin s m e =>
    let k : Int := if e ≥ 0 then (m * 2 ^ e.toNat : Nat) else (rneShift m (-e).toNat : Nat)
    let k := if s then -k else k
    if k < lo then lo else if k > hi then hi else k

/-- INT32 to FP32, rounded to nearest even (R126). -/
def ofI32 (x : W32) : W32 := fl (ofInt false x.toInt 0)

/-- The element formats an MX block can hold (R81 codes 0 to 4 and 6). -/
structure Fmt where
  ebits : Nat
  mbits : Nat
  bias : Int
  emax : Int
  maxCode : Nat
deriving DecidableEq, Repr

def e4m3 : Fmt := ⟨4, 3, 7, 8, 0x7E⟩
def e5m2 : Fmt := ⟨5, 2, 15, 15, 0x7B⟩
def e3m2 : Fmt := ⟨3, 2, 3, 4, 0x1F⟩
def e2m3 : Fmt := ⟨2, 3, 1, 2, 0x1F⟩
def e2m1 : Fmt := ⟨2, 1, 1, 2, 0x7⟩

/-- The float format of an array format code, none for MXINT8, INT8 and BF16. -/
def fmtOf (code : BitVec 3) : Option Fmt :=
  if code = 0 then some e4m3 else if code = 1 then some e5m2 else if code = 2 then some e3m2
  else if code = 3 then some e2m3 else if code = 6 then some e2m1 else none

/-- A float element code as a value (R118): E4M3 keeps its one NaN, E5M2 its NaNs and infinities. -/
def decElem (f : Fmt) (c : Nat) : FV :=
  let w := f.ebits + f.mbits
  let s := c / 2 ^ w % 2 = 1
  let e := c / 2 ^ f.mbits % 2 ^ f.ebits
  let m := c % 2 ^ f.mbits
  if f.ebits = 4 ∧ e = 15 ∧ m = 7 then .nan
  else if f.ebits = 5 ∧ e = 31 then (if m = 0 then .inf s else .nan)
  else if e = 0 then .fin s m (1 - f.bias - f.mbits)
  else .fin s (2 ^ f.mbits + m) ((e : Int) - f.bias - f.mbits)

/-- Two's-complement element of 8 bits times `2^sc` (MXINT8 has sc = -6, INT8 has 0). -/
def decInt8 (c : Nat) (sc : Int) : FV := ofInt false (BitVec.ofNat 8 c).toInt sc

/-- The element of an array format code (R81, R83): the array ignores bits the format does not use. -/
def decCode (fmt : BitVec 3) (c : Nat) : FV :=
  if fmt = 4 then decInt8 c (-6)
  else if fmt = 5 then decInt8 c 0
  else if fmt = 7 then dec (BitVec.ofNat 32 (c % 65536 * 65536))
  else match fmtOf fmt with
    | some f => decElem f (c % 2 ^ (1 + f.ebits + f.mbits))
    | none => .nan

/-- Rounding of an exact value into a float format, subnormals kept, saturating (R123 step 4). -/
def encElem (f : Fmt) (s : Bool) (m : Nat) (e : Int) : Nat :=
  let sgn := if s then 2 ^ (f.ebits + f.mbits) else 0
  if m = 0 then sgn
  else
    let ex : Int := e + (Nat.log2 m : Nat)
    let qmin : Int := 1 - f.bias - f.mbits
    let q : Int := max (ex - f.mbits) qmin
    let n := if e ≥ q then m * 2 ^ (e - q).toNat else rneShift m (q - e).toNat
    let q1 := if n = 2 ^ (f.mbits + 1) then q + 1 else q
    let n1 := if n = 2 ^ (f.mbits + 1) then 2 ^ f.mbits else n
    let code := if n1 < 2 ^ f.mbits then n1
      else (q1 + f.mbits + f.bias).toNat * 2 ^ f.mbits + (n1 - 2 ^ f.mbits)
    sgn + min code f.maxCode

def encCode (fmt : BitVec 3) (s : Bool) (m : Nat) (e : Int) : Nat :=
  if fmt = 4 then
    (BitVec.ofInt 8 (toIntSat (-127) 127 (.fin s m (e + 6)))).toNat
  else match fmtOf fmt with
    | some f => encElem f s m e
    | none => 0

def emaxOf (fmt : BitVec 3) : Int :=
  if fmt = 4 then 0 else match fmtOf fmt with
    | some f => f.emax
    | none => 0

/-- Scale code and element codes of one MX block from FP32 values (R123); `sc` supplies a scale code (R124). -/
def cvtBlock (fmt : BitVec 3) (sc : Option Nat) (xs : List W32) : Nat × List Nat :=
  let vs := xs.map dec
  let special := vs.any fun v => match v with | .fin _ _ _ => false | _ => true
  if special ∨ sc = some 255 then (255, vs.map fun _ => 0)
  else
    let amax := vs.foldl (fun a v => match a, v with
      | .fin _ m e, .fin _ n f =>
        if cmpX (.fin false m e) (.fin false n f) = some .lt then .fin false n f else .fin false m e
      | a, _ => a) (FV.fin false 0 0)
    let el (x : Int) : List Nat := vs.map fun v => match v with
      | .fin s m e => encCode fmt s m (e - x)
      | _ => 0
    match sc with
    | some c => (c, el ((c : Int) - 127))
    | none =>
      match amax with
      | .fin _ 0 _ => (127, vs.map fun v => match v with | .fin s _ _ => encCode fmt s 0 0 | _ => 0)
      | .fin _ m e =>
        let x : Int := e + (Nat.log2 m : Nat) - emaxOf fmt
        let x := max (-127) (min 127 x)
        ((x + 127).toNat, el x)
      | _ => (127, [])

/-- FP32 value of an MX element under a scale code (R125). -/
def mxToF32 (fmt : BitVec 3) (code scale : Nat) : Rounded :=
  if scale = 255 then ⟨qnan, false⟩
  else roundTo 24 (mulX (decCode fmt code) (.fin false 1 ((scale : Int) - 127)))

/-! ### Exact block sums (R127) -/

/-- Exact sum of a list of finite values; an exact zero is +0. -/
def sumFin : List FV → FV
  | [] => .fin false 0 0
  | v :: t => match addX v (sumFin t) with
    | .fin _ 0 _ => .fin false 0 0
    | r => r

/-- Block result of R127: the products' sum times the two scales, rounded once. -/
def blockResult (prods : List FV) (scale : Int) : W32 :=
  if prods.any (· == .nan) then qnan
  else
    let pos := prods.any (· == .inf false)
    let neg := prods.any (· == .inf true)
    if pos && neg then qnan
    else if pos then fl (.inf false)
    else if neg then fl (.inf true)
    else match sumFin prods with
      | .fin _ 0 _ => 0
      | v => fl (mulX v (.fin false 1 scale))

/-- Block result of an MX block with scale codes `sa` and `sw`. -/
def mxBlock (prods : List FV) (sa sw : Nat) : W32 :=
  if sa = 255 ∨ sw = 255 then qnan else blockResult prods ((sa : Int) + sw - 254)

/-- Exact integer block sum of the 8-bit integer mode, as INT32. -/
def intBlock (a w : List Nat) : W32 :=
  BitVec.ofInt 32 ((List.zipWith (fun x y => (BitVec.ofNat 8 x).toInt * (BitVec.ofNat 8 y).toInt) a w).foldl (· + ·) 0)

/-! ### Canonical sums (R129) -/

/-- The carry loop of R129 from level `l`: slots that are occupied are the 1 bits of count. `fuel` bounds the
levels. -/
def pushAt {α : Type} (add : α → α → α) : (fuel : Nat) → SMap α → Nat → Nat → α → SMap α
  | 0, sl, _, l, c => sl.set l c
  | n + 1, sl, count, l, c =>
    if count / 2 ^ l % 2 = 1 then
      match sl.get? l with
      | some x => pushAt add n sl count (l + 1) (add x c)
      | none => sl.set l c
    else sl.set l c

/-- One term pushed at level `q`: the slots and the count after it. -/
def pushNode {α : Type} (add : α → α → α) (st : SMap α × Nat) (q : Nat) (x : α) : SMap α × Nat :=
  (pushAt add 64 st.1 st.2 q x, st.2 + 2 ^ q)

/-- The final fold of R129 over levels `l`, `l+1`, …. -/
def foldFrom {α : Type} (add : α → α → α) : (fuel : Nat) → SMap α → Nat → Nat → Option α → Option α
  | 0, _, _, _, r => r
  | n + 1, sl, count, l, r =>
    if count / 2 ^ l % 2 = 1 then
      match sl.get? l, r with
      | some x, none => foldFrom add n sl count (l + 1) (some x)
      | some x, some y => foldFrom add n sl count (l + 1) (some (add x y))
      | none, r => foldFrom add n sl count (l + 1) r
    else foldFrom add n sl count (l + 1) r

def foldAll {α : Type} (add : α → α → α) (zero : α) (st : SMap α × Nat) : α :=
  (foldFrom add 64 st.1 st.2 0 none).getD zero

/-- Σc of a list of FP32 terms (R129). [DEDUCED, log 41] -/
def canonSum (xs : List W32) : W32 :=
  foldAll fadd 0 (xs.foldl (fun st x => pushNode fadd st 0 x) (SMap.empty, 0))

/-- An addition that keeps whether its result was flushed (R121). -/
def faddR (a b : Rounded) : Rounded := roundTo 24 (addX (dec a.bits) (dec b.bits))

/-- Σc of FP32 terms with whether its last addition was flushed. -/
def canonSumR (xs : List W32) : Rounded :=
  foldAll faddR ⟨0, false⟩ (xs.foldl (fun st x => pushNode faddR st 0 ⟨x, false⟩) (SMap.empty, 0))

/-- INT32 sum modulo 2^32 (R134). -/
def intSum (xs : List W32) : W32 := xs.foldl (· + ·) 0

end Sys2Proof.Fp
end

