-- ==== Sys2Proof/Machine/Trans.lean ====
section
/-! DEFINITION. Transcendental tables and functions (R139 to R144), the online-softmax merge (R136) and the
Philox-4x32-10 generator (R146, R147). -/

namespace Sys2Proof.Fp

/-- Integer square root, one result bit at a time from bit `b`. -/
def isqrtFrom : Nat → Nat → Nat → Nat
  | 0, n, r => if (r + 1) * (r + 1) ≤ n then r + 1 else r
  | b + 1, n, r =>
    let c := r + 2 ^ (b + 1)
    isqrtFrom b n (if c * c ≤ n then c else r)

/-- floor(sqrt n) for n below 2^512. -/
def isqrt (n : Nat) : Nat := isqrtFrom 256 n 0

/-- FP32 nearest to `x / 2^k` for a positive `x` (ties do not occur in the tables, R139). -/
def nearest (x k : Nat) : W32 := fl (.fin false x (-(k : Int)))

/-- 2^(1/2^n) in fixed point with 160 fraction bits. -/
def rootTwo : Nat → Nat
  | 0 => 2 ^ 161
  | n + 1 => isqrt (rootTwo n * 2 ^ 160)

def powFix (r : Nat) : Nat → Nat
  | 0 => 2 ^ 160
  | j + 1 => powFix r j * r / 2 ^ 160

/-- T_exp: 2^(j/256). -/
def tExp (j : Nat) : W32 := nearest (powFix (rootTwo 8) j) 160

/-- The first `n` fraction bits of log2 of `x / 2^160` in [1, 2). -/
def log2Bits : Nat → Nat → Nat → Nat
  | 0, _, acc => acc
  | n + 1, x, acc =>
    let y := x * x / 2 ^ 160
    if y ≥ 2 ^ 161 then log2Bits n (y / 2) (2 * acc + 1) else log2Bits n y (2 * acc)

/-- L: log2(1 + j/256). -/
def tL (j : Nat) : W32 :=
  if j = 0 then 0 else nearest (log2Bits 64 ((256 + j) * 2 ^ 152) 0) 64

/-- R: 1 / (1 + j/256). -/
def tR (j : Nat) : W32 := nearest (2 ^ 168 / (256 + j)) 160

/-- c_j of the rsqrt tables as a multiple of 1/128. -/
def cj (j : Nat) : Nat := if j < 128 then 128 + j else 256 + 2 * (j - 128)

/-- T_rs: 1 / sqrt(c_j). -/
def tRs (j : Nat) : W32 := nearest (isqrt (2 ^ 327 / cj j)) 160

/-- Q: 1 / c_j. -/
def tQ (j : Nat) : W32 := nearest (2 ^ 167 / cj j) 160

/-- Polynomial coefficients (R140). -/
def c1 : W32 := 0x3F317218
def c2 : W32 := 0x3E75FDF0
def c3 : W32 := 0x3D635847
def b1 : W32 := 0x3FB8AA3B
def b2 : W32 := 0xBF38AA3B
def b3 : W32 := 0x3EF6384F
def k1 : W32 := 0xBF000000
def k2 : W32 := 0x3EC00000
def k3 : W32 := 0xBEA00000

/-- 1.0 and -1.0. -/
def one : W32 := 0x3F800000
def negOne : W32 := 0xBF800000

/-- A packed value times 2^i, exact in range, +0 below 2^-126 and an infinity at 2^128 or above. -/
def scaleBy (y : W32) (i : Int) : Rounded := roundTo 24 (mulX (dec y) (.fin false 1 i))

/-- exp2 (R141). -/
def exp2R (x : W32) : Rounded :=
  match dec x with
  | .nan => ⟨qnan, false⟩
  | .inf s => if s then ⟨0, false⟩ else ⟨fl (.inf false), false⟩
  | .fin s m e =>
    if cmpX (.fin s m e) (.fin false 128 0) ≠ some .lt then ⟨fl (.inf false), false⟩
    else if cmpX (.fin s m e) (.fin true 126 0) = some .lt then ⟨0, false⟩
    else
      let n : Int := if s then -(m : Int) else m
      -- floor(x × 256)
      let e8 := e + 8
      let k : Int := if e8 ≥ 0 then n * (2 ^ e8.toNat : Nat) else n.fdiv (2 ^ (-e8).toNat : Nat)
      let i : Int := k.fdiv 256
      let j : Nat := (k - 256 * i).toNat
      let r := fl (addX (.fin s m e) (ofInt false (-k) (-8)))
      let p := fma (fma c3 r c2) r c1
      let q := fmul r p
      let t := tExp j
      scaleBy (fma t q t) i

/-- Exponent, top-8 fraction index and the exact offset d of R142 for a finite non-zero pattern. -/
def split8 (x : W32) : Int × Nat × FV :=
  let f := (x.extractLsb' 0 23).toNat
  let e := (x.extractLsb' 23 8).toNat
  ((e : Int) - 127, f / 2 ^ 15, .fin false (f % 2 ^ 15) (-23))

/-- log2 (R142). -/
def log2R (x : W32) : Rounded :=
  match dec x with
  | .nan => ⟨qnan, false⟩
  | .inf s => if s then ⟨qnan, false⟩ else ⟨fl (.inf false), false⟩
  | .fin s m _ =>
    if m = 0 then ⟨fl (.inf true), false⟩
    else if s then ⟨qnan, false⟩
    else
      let (e, j, d) := split8 x
      let u := fl (mulX d (dec (tR j)))
      let p := fma (fma b3 u b2) u b1
      let q := fmul u p
      roundTo 24 (addX (dec (fl (addX (ofInt false e 0) (dec (tL j))))) (dec q))

/-- rcp (R143). -/
def rcpR (x : W32) : Rounded :=
  match dec x with
  | .nan => ⟨qnan, false⟩
  | .inf s => ⟨fl (.fin s 0 0), false⟩
  | .fin s m _ =>
    if m = 0 then ⟨fl (.inf s), false⟩
    else
      let (e, j, d) := split8 x
      let u := fl (mulX d (dec (tR j)))
      let a := fsub one u
      let b := fma u a negOne
      let p := fmul u b
      let y := fma (tR j) p (tR j)
      roundTo 24 (mulX (dec y) (.fin s 1 (-e)))

/-- rsqrt (R144). -/
def rsqrtR (x : W32) : Rounded :=
  match dec x with
  | .nan => ⟨qnan, false⟩
  | .inf s => if s then ⟨qnan, false⟩ else ⟨0, false⟩
  | .fin s m _ =>
    if m = 0 then ⟨fl (.inf s), false⟩
    else if s then ⟨qnan, false⟩
    else
      let f := (x.extractLsb' 0 23).toNat
      let e := ((x.extractLsb' 23 8).toNat : Int) - 127
      let odd := e % 2 = 1
      let j7 := f / 2 ^ 16
      let j := if odd then 128 + j7 else j7
      let h : Int := if odd then (e - 1) / 2 else e / 2
      -- s - c_j: the fraction bits below the index, doubled when e is odd
      let d : FV := .fin false (f % 2 ^ 16) (if odd then -22 else -23)
      let u := fl (mulX d (dec (tQ j)))
      let p := fmul u (fma (fma k3 u k2) u k1)
      let y := fma (tRs j) p (tRs j)
      roundTo 24 (mulX (dec y) (.fin false 1 (-h)))

def exp2 (x : W32) : W32 := (exp2R x).bits

/-- A state of one query row: maximum, sum and output lanes (R136). -/
structure Soft where
  m : W32
  l : W32
  o : List W32
deriving DecidableEq, Repr

/-- The online-softmax merge M(A, B) of R136. -/
def softMerge (a b : Soft) : Soft :=
  let m := fmax a.m b.m
  if isNan m then ⟨qnan, qnan, a.o.map fun _ => qnan⟩
  else if m = 0xFF800000 then ⟨0xFF800000, 0, a.o.map fun _ => 0⟩
  else
    let aA := exp2 (fsub a.m m)
    let aB := exp2 (fsub b.m m)
    ⟨m, fma a.l aA (fmul b.l aB), List.zipWith (fun x y => fma x aA (fmul y aB)) a.o b.o⟩

/-- Whether the last addition of each lane of a merge was flushed (R121). -/
def softFtz (a b : Soft) : List Bool :=
  let m := fmax a.m b.m
  if isNan m = true ∨ m = 0xFF800000 then a.o.map fun _ => false
  else
    let aA := exp2 (fsub a.m m)
    let aB := exp2 (fsub b.m m)
    List.zipWith (fun x y => (roundTo 24 (addX (mulX (dec x) (dec aA)) (dec (fmul y aB)))).ftz) a.o b.o

/-! ### Philox-4x32-10 (R146) -/

def philoxRound (k0 k1 : W32) (c : W32 × W32 × W32 × W32) : W32 × W32 × W32 × W32 :=
  let (x0, x1, x2, x3) := c
  let p0 := x0.toNat * 0xD2511F53
  let p1 := x2.toNat * 0xCD9E8D57
  let hi (p : Nat) : W32 := BitVec.ofNat 32 (p / 2 ^ 32)
  let lo (p : Nat) : W32 := BitVec.ofNat 32 p
  (hi p1 ^^^ x1 ^^^ k0, lo p1, hi p0 ^^^ x3 ^^^ k1, lo p0)

def philoxLoop : Nat → W32 → W32 → W32 × W32 × W32 × W32 → W32 × W32 × W32 × W32
  | 0, _, _, c => c
  | n + 1, k0, k1, c => philoxLoop n (k0 + 0x9E3779B9) (k1 + 0xBB67AE85) (philoxRound k0 k1 c)

/-- Output word `w` of Philox-4x32-10 under a 64-bit key and a 128-bit counter. -/
def philox (key : W64) (ctr : BitVec 128) (w : Nat) : W32 :=
  let word (i : Nat) : W32 := ctr.extractLsb' (32 * i) 32
  let (a, b, c, d) := philoxLoop 10 (key.extractLsb' 0 32) (key.extractLsb' 32 32) (word 0, word 1, word 2, word 3)
  if w = 0 then a else if w = 1 then b else if w = 2 then c else d

/-- (word >> 8) × 2^-24 as FP32 (R147). -/
def unitOf (w : W32) : W32 := fl (.fin false (w.toNat / 256) (-24))

end Sys2Proof.Fp
end

