-- ==== Sys2Proof/Machine/Flags.lean ====
section
/-! DEFINITION. Condition and flag computations: the compare conditions of R174, the predicate bits a compare writes and
the VXU.SPECIAL counts of R153. -/

namespace Sys2Proof.Machine

open Sys2Proof.Fp

/-- An FP compare condition; -0 equals +0 and a NaN makes every condition false except ne and unord (R174). -/
def fpCond (cnd : BitVec 3) (a b : FV) : Bool :=
  match cmpX a b with
  | none => cnd == 1 || cnd == 6
  | some o =>
    if cnd = 0 then o == .eq
    else if cnd = 1 then o != .eq
    else if cnd = 2 then o == .lt
    else if cnd = 3 then o != .gt
    else if cnd = 4 then o == .gt
    else if cnd = 5 then o != .lt
    else if cnd = 6 then false
    else true

/-- An integer compare condition (R174). -/
def intCond (cnd : BitVec 3) (a b : W32) : Bool :=
  if cnd = 0 then a == b
  else if cnd = 1 then a != b
  else if cnd = 2 then a.slt b
  else if cnd = 3 then a.sle b
  else if cnd = 4 then a.ult b
  else a.ule b

/-- Lane `i` is active under predicate value `p` (R171). -/
def active (p : W64) (i : Nat) : Bool := p.getLsbD i

/-- A predicate from its bits. -/
def predOf (f : Nat → Bool) : W64 :=
  BitVec.ofNat 64 ((List.range 64).foldl (fun acc i => if f i then acc + 2 ^ i else acc) 0)

/-- Predicate bits of a compare: inactive bits are cleared with z and kept without (R174). -/
def comparePred (p old : W64) (z : Bool) (f : Nat → Bool) : W64 :=
  predOf fun i => if active p i then f i else if z then false else old.getLsbD i

def countTrue (l : List Bool) : Nat := (l.filter id).length

/-- VXU.SPECIAL counts of the active lane results and of the subnormal source lanes (R153, R171). -/
def specialOf (p : W64) (out : Nat → Rounded) (ins : List VReg) (t : Bool) : Special :=
  let act := (List.range 64).filter (active p)
  let src (v : VReg) (i : Nat) : W32 := if t then lane v i &&& 0xFFFF0000 else lane v i
  ⟨countTrue (act.map fun i => isNan (out i).bits), countTrue (act.map fun i => isInf (out i).bits),
   countTrue (act.map fun i => (out i).ftz),
   (ins.map fun v => countTrue (act.map fun i => isSub (src v i))).foldl (· + ·) 0⟩

end Sys2Proof.Machine
end

