-- ==== Sys2Proof/Machine/Operands.lean ====
section
/-! DEFINITION. Operand forms of the tile operations: addresses, local-store and memory operands, row ranges, handles,
branch targets, the blocks and accumulator halves an operation uses, and every condition that traps precisely at issue
(R61, R155, R171 to R187, R189 to R226). -/

namespace Sys2Proof.Machine

/-- A precise trap condition met at issue: cause code of R61, TRAP_ADDR and slot. -/
structure Hit where
  cause : Nat
  addr : Nat
  slot : Slot
deriving DecidableEq, Repr

def Cause.iferr : Nat := 1
def Cause.lserr : Nat := 2
def Cause.residue : Nat := 3
def Cause.illop : Nat := 4
def Cause.bound : Nat := 5
def Cause.syncto : Nat := 6
def Cause.pagef : Nat := 7

def illop (sl : Slot) : List Hit := [⟨Cause.illop, 0, sl⟩]
def boundAt (sl : Slot) (a : Nat) : List Hit := [⟨Cause.bound, a, sl⟩]
/-- ILLOP when the condition holds. -/
def illopIf (b : Bool) (sl : Slot) : List Hit := if b then illop sl else []

/-! ### Addresses -/

/-- aa[43:0] plus a signed offset of `w` bits in units of `size`, modulo 2^44 (R192, R202). -/
def addrOf {w : Nat} (aa : BitVec 48) (off : BitVec w) (size : Nat) : Nat :=
  (aa.extractLsb' 0 44 + BitVec.ofInt 44 (off.toInt * size)).toNat

def winSel (aa : BitVec 48) : Nat := (aa.extractLsb' 44 4).toNat

/-- Block of the tile's own local store that an address lies in. -/
def blockOf (t a : Nat) : Nat := (a - lsBase t) / 0x1000

/-- Blocks that `n` bytes at `a` of the tile's own local store touch. -/
def blocksOf (t a n : Nat) : List Nat :=
  if n = 0 then [] else (List.range (blockOf t (a + n - 1) + 1 - blockOf t a)).map (blockOf t a + ·)

def ownLs (t a n : Nat) : Bool := decide (lsBase t ≤ a) && decide (a + n ≤ lsBase t + 0x200000)

/-- The window is one of this device's memory, not of a peer or the host. -/
def localWin (s : State) (c w : Nat) : Bool :=
  match s.window c w with
  | some x => x.kind.toNat != 5 && x.kind.toNat != 6
  | none => false

/-- A local-store operand of `n` bytes at `a` in window `w` (R182, R191). -/
def lsHits (s : State) (t : Nat) (T : Tile) (sl : Slot) (w a n align : Nat) (p : Perm) : List Hit :=
  if s.winOk T.ctxIndex w a n p then illopIf (!localWin s T.ctxIndex w || !ownLs t a n || a % align != 0) sl
  else boundAt sl (s.globalOf T.ctxIndex w a)

/-- The TILE register block and the partition's error ring, which a handler may reach (R66). [DEDUCED, log 19] -/
def handlerReach (s : State) (t a n : Nat) : Bool :=
  let r := regBase + R.tileId t
  let p := t / 256
  let eb := s.fld (R.errBase p) F.errBase_base * 0x10000
  (decide (r ≤ a) && decide (a + n ≤ r + 0x1000))
    || (decide (eb ≤ a) && decide (a + n ≤ eb + 2 ^ s.fld (R.errBase p) F.errBase_size))

/-- A memory operand of `n` bytes at `a` in window `w` (R202). -/
def memHits (s : State) (t : Nat) (T : Tile) (w a n align : Nat) (p : Perm) : List Hit :=
  if T.st = .handler ∧ handlerReach s t a n = true then illopIf (a % align != 0) .d
  else if s.winOk T.ctxIndex w a n p then
    match s.window T.ctxIndex w with
    | some x =>
      if x.kind.toNat = 5 ∨ x.kind.toNat = 6 then illopIf (a % align != 0) .d
      else match s.region a with
        | .localStore _ => illop .d
        | .registers => boundAt .d (s.globalHere a)
        | _ => illopIf (a % align != 0) .d
    | none => boundAt .d (s.globalHere a)
  else boundAt .d (s.globalOf T.ctxIndex w a)

/-! ### Accumulator ranges and matrix operands (R89, R190) -/

def rowFirst (sr : W64) : Nat := bitsOf sr.toNat 7 0
def rowCount (sr : W64) : Nat := bitsOf sr.toNat 16 8

def rangeBad (sr : W64) : Bool :=
  rowCount sr == 0 || decide (rowCount sr > 256) || decide (rowFirst sr + rowCount sr > 256)

/-- Halves that rows r to r + n - 1 lie in (R94). -/
def halvesOf (r n : Nat) : List Nat :=
  if n = 0 then [] else (if r < 128 then [0] else []) ++ (if r + n > 128 then [1] else [])

/-- Array modes of R80. -/
inductive ArrMode where
  | mx8 | int8 | fp4 | bf16
deriving DecidableEq, Repr

def modeOf (fmt : BitVec 3) : ArrMode :=
  if fmt = 5 then .int8 else if fmt = 6 then .fp4 else if fmt = 7 then .bf16 else .mx8

/-- K elements of one pass. -/
def ArrMode.k : ArrMode → Nat
  | .mx8 => 32 | .int8 => 32 | .fp4 => 64 | .bf16 => 16

/-- Scale bytes of one vector (R88). -/
def ArrMode.scales : ArrMode → Nat
  | .mx8 => 1 | .fp4 => 2 | _ => 0

/-- The row states that make a pass without init ILLOP (R89). -/
def segmentBad (T : Tile) (fmt : BitVec 3) (r m : Nat) : Bool :=
  (List.range m).any fun i =>
    let row := T.accRow (r + i)
    row.count == 0 || (row.int != (modeOf fmt == .int8)) || decide (row.count + (modeOf fmt).k > 512)

/-! ### Blocks an operation uses -/

def lsUse (t a n : Nat) (rd wr cons pub : Bool) : BlockUse :=
  let b := blocksOf t a n
  ⟨if rd then b else [], if wr then b else [], if cons then b else [], if pub then b else []⟩

def isTree : TileOp → Bool
  | .vTreeInit .. | .vTreePush .. | .vTreeFin .. => true
  | _ => false

/-- Local-store blocks of an operation, from the registers as they stand (R43, R194, R197, R198). -/
def blockUse (t : Nat) (T : Tile) : TileOp → BlockUse
  | .vTreeInit aa | .vTreePush _ aa _ _ | .vTreeFin _ aa _ => lsUse t (addrOf (T.ra aa) (0 : BitVec 1) 1) 4096 false true false false
  | .mxaWload aa _ c => lsUse t (addrOf (T.ra aa) (0 : BitVec 1) 1) 4096 true false c false
  | .mxaPass ai as sr ifmt _ c cs =>
    let m := rowCount (T.rs sr)
    let ib := blocksOf t (addrOf (T.ra ai) (0 : BitVec 1) 1) (32 * m)
    let sb := blocksOf t (addrOf (T.ra as) (0 : BitVec 1) 1) ((modeOf ifmt).scales * m)
    let sb := if (modeOf ifmt).scales = 0 then [] else sb
    let all := (ib ++ sb).dedup
    ⟨all, [], ((if c then ib else []) ++ (if cs then sb else [])).dedup, []⟩
  | .accSt _ aa sr pub => lsUse t (addrOf (T.ra aa) (0 : BitVec 1) 1) (256 * rowCount (T.rs sr)) false true false pub
  | .lsLd _ aa off c => lsUse t (addrOf (T.ra aa) off 8) 8 true false c false
  | .lsSt _ aa off pub => lsUse t (addrOf (T.ra aa) off 8) 8 false true false pub
  | .lsVld _ aa off c => lsUse t (addrOf (T.ra aa) off 256) 256 true false c false
  | .lsVst _ aa off pub => lsUse t (addrOf (T.ra aa) off 256) 256 false true false pub
  | .lsClaim aa => lsUse t (addrOf (T.ra aa) (0 : BitVec 1) 1) 4096 false true false false
  | .lsPublish aa => lsUse t (addrOf (T.ra aa) (0 : BitVec 1) 1) 4096 false true false true
  | .lsRelease aa => lsUse t (addrOf (T.ra aa) (0 : BitVec 1) 1) 4096 true false true false
  | .lsZero aa pub => lsUse t (addrOf (T.ra aa) (0 : BitVec 1) 1) 4096 false true false pub
  | _ => BlockUse.none

/-- Accumulator halves an operation owns from issue to retirement (R94). -/
def halvesUsed (T : Tile) : TileOp → List Nat
  | .mxaPass _ _ sr _ _ _ _ => halvesOf (rowFirst (T.rs sr)) (rowCount (T.rs sr))
  | .accMv _ sr => halvesOf (rowFirst (T.rs sr)) 1
  | .accSt _ _ sr _ => halvesOf (rowFirst (T.rs sr)) (rowCount (T.rs sr))
  | .accZero sr => halvesOf (rowFirst (T.rs sr)) (rowCount (T.rs sr))
  | _ => []

/-! ### Branches (R162 to R166) -/

def target {w : Nat} (pc : BitVec 44) (off : BitVec w) : BitVec 44 := pc + BitVec.ofInt 44 (off.toInt * 16)

/-- Where a taken branch goes; none for an operation that does not branch. -/
def branchTo (T : Tile) : TileOp → Option (BitVec 44)
  | .br c sa sb off =>
    let a := T.rs sa
    let b := T.rs sb
    let taken := match c with
      | .eq => a == b | .ne => a != b | .lt => a.slt b | .ge => b.sle a | .ltu => a.ult b | .geu => b.ule a
    if taken then some (target T.pc off) else none
  | .brP any pa off => if (T.rp pa != 0) = any then some (target T.pc off) else none
  | .jmp off => some (target T.pc off)
  | .jal _ off => some (target T.pc off)
  | .jr sa => some ((T.rs sa).extractLsb' 0 44)
  | .loopBr lc off => if (T.rlc lc).toNat ≤ 1 then none else some (target T.pc off)
  | _ => none

/-- The window R156 allows: window 0 with X in the context, the firmware region in handler mode. -/
def fetchOk (s : State) (t : Nat) (T : Tile) (a : Nat) : Bool :=
  if T.st = .handler then s.inFwRegion (t / 256) a else s.winOk T.ctxIndex 0 a 16 .ex

/-- The bundle itself lies outside what the tile may fetch (R156): BOUND, with its address. [DEDUCED, log 104] -/
def fetchHits (s : State) (t : Nat) (T : Tile) : List Hit :=
  if fetchOk s t T T.pc.toNat then [] else boundAt .s (s.globalHere T.pc.toNat)

def branchHits (s : State) (t : Nat) (T : Tile) (op : TileOp) : List Hit :=
  match branchTo T op with
  | none => []
  | some a =>
    let mis := match op with
      | .jr _ => a.toNat % 16 != 0
      | _ => false
    if mis then illop .s
    else if fetchOk s t T a.toNat then [] else boundAt .s (s.globalHere a.toNat)

/-! ### Reserved encodings (R155, R171, R172, R174, R176, R177, R183, R203, R208) -/

/-- Slot-word bits an opcode's operation uses, by slot; none for an opcode that is not defined (R228). -/
def usedBits : Slot → Nat → Option Nat
  | .s, o =>
    if o = 0 then some 0
    else if o ≤ 0x11 then some 0x01FFFC00
    else if 0x16 ≤ o ∧ o ≤ 0x18 then some 0x01FF803F
    else if o ≤ 0x1A then some 0x01FFFFFF
    else if o = 0x1B then some 0x01FFFFFF
    else if o = 0x1C then some 0x01FCFFFF
    else if o = 0x1D then some 0x00FF8000
    else if o = 0x1E then some 0x01F78000
    else if o = 0x1F then some 0x00F7FFFF
    else if o = 0x20 then some 0x00F7FC00
    else if o ≤ 0x26 then some 0x01FFFFFF
    else if o ≤ 0x28 then some 0x01C07FFF
    else if o ≤ 0x2A then some 0x01FFFFFF
    else if o = 0x2B then some 0x000F8000
    else if o = 0x2C then some 0x018F8000
    else if o ≤ 0x2E then some 0x01FFFFFF
    else if o = 0x2F then some 0x01F18000
    else if o = 0x30 then some 0x01F0003F
    else if o = 0x31 then some 0x01000000
    else if o ≤ 0x33 then some 0
    else none
  | .v, o =>
    if o = 0 then some 0
    else if 4 ≤ o ∧ o ≤ 6 ∨ o = 0x19 ∨ o = 0x22 then some 0x01FFFFFF
    else if o = 9 ∨ o = 0xA then some 0x01FF801F
    else if o = 0xB ∨ o = 0xC then some 0x007FFCFF
    else if o ≤ 0x18 then some 0x01FFFC1F
    else if o = 0x1A then some 0x01FFFC1E
    else if o = 0x1B ∨ o = 0x1D then some 0x01FF9C1E
    else if o = 0x1C then some 0x01FF9FFE
    else if o ≤ 0x28 then some 0x01FF801F
    else if o = 0x29 then some 0x00078000
    else if o = 0x2A then some 0x01F7FC00
    else if o = 0x2B then some 0x01F78400
    else if o = 0x2C ∨ o = 0x2F then some 0x01FFFC1F
    else if o = 0x2D ∨ o = 0x2E ∨ o = 0x31 ∨ o = 0x32 ∨ o = 0x33 then some 0x01FFFE1F
    else if o = 0x30 ∨ o = 0x35 then some 0x01FF801F
    else if o = 0x34 then some 0x01F07E1F
    else if o ≤ 0x39 then some 0x00739C00
    else if o = 0x3A then some 0x007F8000
    else if o ≤ 0x3C then some 0x01F38000
    else if o ≤ 0x3E then some 0x01FFFC7E
    else none
  | .m, o =>
    if o = 0 then some 0
    else if o = 1 then some 0x01FE0000
    else if o = 2 then some 0x01FFFFC0
    else if o = 3 then some 0x01FF8000
    else if o = 4 ∨ o = 5 then some 0x01FF8000
    else if o = 6 then some 0x001F0000
    else none
  | .d, o =>
    if o = 0 then some 0
    else if o ≤ 4 then some 0x01FFFFFF
    else if o ≤ 7 then some 0x000F0000
    else if o = 8 then some 0x000F8000
    else if o = 0x10 ∨ o = 0x11 then some 0x01FFFFFF
    else if o = 0x12 ∨ o = 0x13 then some 0x000FFFFF
    else if o = 0x14 then some 0x01800000
    else if o = 0x18 then some 0x01FFFFFE
    else if o = 0x20 then some 0x01FFFF80
    else if o = 0x21 then some 0x001FF000
    else if o = 0x28 then some 0x000FF000
    else if o = 0x29 then some 0x01FE0000
    else if o = 0x2A then some 0x000E0000
    else if o = 0x30 ∨ o = 0x31 then some 0x01FFC000
    else if o = 0x32 ∨ o = 0x33 then some 0x01FF8000
    else none

/-- A slot word that is reserved by its opcode or by a non-zero unused field (R155). -/
def wordReserved (sl : Slot) (w : W32) : Bool :=
  match usedBits sl (w.extractLsb' 25 7).toNat with
  | none => true
  | some m => (bitsOf w.toNat 24 0 &&& (0x1FFFFFF - m)) != 0

/-- Reserved field values and forbidden flags that the operands alone decide. -/
def encodingBad : TileOp → Bool
  | .alui op _ _ imm =>
    match op with
    | .slli | .srli | .srai => imm.extractLsb' 6 9 != 0
    | _ => false
  | .vArith op _ _ _ _ c => c.t && !op.isFp
  | .vCmp int _ _ _ cnd c => int && (c.t || decide (6 ≤ cnd.toNat))
  | .vCvt _ _ kind _ z => decide (9 < kind.toNat) || (z && decide (6 ≤ kind.toNat))
  | .vCvtMx _ _ fmt _ z => fmt == 5 || fmt == 7 || z
  | .vCvtMxs _ _ fmt _ _ z => fmt == 5 || fmt == 7 || z
  | .vCvtMxf _ _ fmt _ _ => fmt == 5 || fmt == 7
  | .vFun _ _ _ c => c.t
  | .vOsm vd _ _ vc _ _ ml => ml && vd == vc
  | .vRed _ _ _ c => c.t || c.z
  | .vTreePush _ _ q _ => q == 15
  | .vLane3 op _ _ _ c => c.t || (op == .sel && c.z)
  | .vLaneI op _ _ n c => c.t || (op == .bfly && decide (5 < n.toNat))
  | .vBcast _ _ c | .vIota _ _ c => c.t
  | .vIns _ _ _ c | .vExt _ _ _ c => c.t || c.z || c.pg != 0
  | .mxaPass _ as _ ifmt _ _ cs => (ifmt == 5 || ifmt == 7) && (as != 0 || cs)
  | .memSt _ _ _ hint => hint == 3
  | .memPf _ _ hint => hint == 1 || hint == 3
  | .memDrop _ _ hint => hint != 0
  | .atom _ _ sc _ w op => decide (10 < op.toNat) || (op == 10 && !w) || (op != 9 && sc != 0)
  | .raw sl w => wordReserved sl w
  | _ => false

/-- Handler-only operations and special values (R167 to R169). -/
def modeBad (T : Tile) : TileOp → Bool
  | .stepWait rev => rev && T.st != .handler
  | .fret | .fretReplay => T.st != .handler
  | .rdsr _ sr =>
    if sr.toNat ≤ 5 then false
    else if 0x10 ≤ sr.toNat ∧ sr.toNat ≤ 0x14 then T.st != .handler
    else true
  | _ => false

/-- step.wait, fret and fret.replay stand alone in their bundle (R167, R168). -/
def mustBeAlone : TileOp → Bool
  | .stepWait _ | .fret | .fretReplay => true
  | _ => false

/-! ### Handles (R216, R217) -/

/-- Physical partitions of the logical partition that context `c` belongs to. -/
def ctxMembers (s : State) (c : Nat) : List Nat :=
  let p := c / 64
  let size := 2 ^ s.fld (R.partGroup p) F.partGroup_size
  (List.range size).map (p / size * size + ·)

/-- The context ID the peer table of `c` gives for a device, none for an invalid entry (R455). -/
def peerCtx (s : State) (c d : Nat) : Option Nat :=
  match s.ctxs.get? c with
  | none => none
  | some x =>
    if x.peerTable = 0 then none
    else
      let e := s.load (x.peerTable + 4 * d) 4
      if e / 2 ^ 31 % 2 = 1 then some (e % 65536) else none

def handleHits (s : State) (T : Tile) (h : W64) (remoteOk : Bool) : List Hit :=
  let x := Handle.ofBits h
  let ok :=
    x.clean && (if x.remote then remoteOk && (peerCtx s T.ctxIndex x.device).isSome
      else (ctxMembers s T.ctxIndex).contains x.part && s.ownsObj (s.ctxId T.ctxIndex) x.part x.index)
  if ok then [] else boundAt .d (bitsOf h.toNat 29 0)

/-! ### Page-table entries (R238, R242) -/

/-- Entry that holds a position. -/
def kvEntry (p : Nat) : Nat :=
  if p < 16 then 0 else if p < 4096 then Nat.log2 (p / 16) + 1 else 8 + p / 4096

def kvStart (e : Nat) : Nat := if e = 0 then 0 else if e < 9 then 16 * 2 ^ (e - 1) else 4096 * (e - 8)

/-- Size code of an entry in the page schedule. -/
def kvSize (e : Nat) : Nat := if e ≤ 1 then 0 else if e ≤ 8 then e - 1 else 8

/-- The count word of a merge-stack block is checked at issue: the block can be written, and the word reads (R181, R182). -/
def countChecked (t : Nat) (T : Tile) (a : Nat) : Bool :=
  let g := (T.tag (blockOf t a)).st
  !T.countUe && (g == .free || g == .held)

/-- Every precise trap condition of one operation that its registers decide (R187, R226); v.tree.init reads the count and
checks nothing of it, since it sets the count to 0. [DEDUCED, log 42; DESIGN CHOICE, log 105] -/
def opHits (s : State) (t : Nat) (T : Tile) (op : TileOp) : List Hit :=
  let a0 (r : BitVec 4) : Nat := addrOf (T.ra r) (0 : BitVec 1) 1
  match op with
  | .vTreeInit aa => lsHits s t T .v (winSel (T.ra aa)) (a0 aa) 4096 4096 .rw
  | .vTreePush _ aa q _ =>
    let h := lsHits s t T .v (winSel (T.ra aa)) (a0 aa) 4096 4096 .rw
    let c := leVal (s.readRaw (a0 aa) 8)
    h ++ illopIf (h.isEmpty && countChecked t T (a0 aa) && (decide (c ≥ 2 ^ 15) || c % 2 ^ q.toNat != 0 || decide (c + 2 ^ q.toNat ≥ 2 ^ 15))) .v
  | .vTreeFin _ aa _ =>
    let h := lsHits s t T .v (winSel (T.ra aa)) (a0 aa) 4096 4096 .rw
    h ++ illopIf (h.isEmpty && countChecked t T (a0 aa) && decide (leVal (s.readRaw (a0 aa) 8) ≥ 2 ^ 15)) .v
  | .mxaWload aa _ _ => lsHits s t T .m (winSel (T.ra aa)) (a0 aa) 4096 4096 .rd
  | .mxaPass ai as sr ifmt init _ _ =>
    let m := rowCount (T.rs sr)
    let r := rowFirst (T.rs sr)
    let bad := rangeBad (T.rs sr) || !T.wvalid || (modeOf ifmt != modeOf T.wfmt)
      || (!init && segmentBad T ifmt r m)
    illopIf bad .m ++ lsHits s t T .m (winSel (T.ra ai)) (a0 ai) (32 * m) 32 .rd
      ++ (if (modeOf ifmt).scales = 0 then []
          else lsHits s t T .m (winSel (T.ra as)) (a0 as) ((modeOf ifmt).scales * m) 1 .rd)
  | .accSt _ aa sr _ =>
    illopIf (rangeBad (T.rs sr)) .m
      ++ lsHits s t T .m (winSel (T.ra aa)) (a0 aa) (256 * rowCount (T.rs sr)) 256 .wr
  | .accZero sr => illopIf (rangeBad (T.rs sr)) .m
  | .lsLd _ aa off _ => lsHits s t T .d (winSel (T.ra aa)) (addrOf (T.ra aa) off 8) 8 8 .rd
  | .lsSt _ aa off _ => lsHits s t T .d (winSel (T.ra aa)) (addrOf (T.ra aa) off 8) 8 8 .wr
  | .lsVld _ aa off _ => lsHits s t T .d (winSel (T.ra aa)) (addrOf (T.ra aa) off 256) 256 256 .rd
  | .lsVst _ aa off _ => lsHits s t T .d (winSel (T.ra aa)) (addrOf (T.ra aa) off 256) 256 256 .wr
  | .lsClaim aa | .lsPublish aa | .lsZero aa _ => lsHits s t T .d (winSel (T.ra aa)) (a0 aa) 4096 4096 .wr
  | .lsRelease aa => lsHits s t T .d (winSel (T.ra aa)) (a0 aa) 4096 4096 .rd
  | .memLd _ aa off _ => memHits s t T (winSel (T.ra aa)) (addrOf (T.ra aa) off 8) 8 8 .rd
  | .memSt _ aa off _ => memHits s t T (winSel (T.ra aa)) (addrOf (T.ra aa) off 8) 8 8 .wr
  | .memPf aa off _ | .memDrop aa off _ => memHits s t T (winSel (T.ra aa)) (addrOf (T.ra aa) off 8) 8 1 .rd
  | .atom _ _ _ aa w _ =>
    let n := if w then 4 else 8
    let host := match s.window T.ctxIndex (winSel (T.ra aa)) with
      | some x => x.kind.toNat == 6
      | none => false
    if host then boundAt .d (s.globalHere (a0 aa)) else memHits s t T (winSel (T.ra aa)) (a0 aa) n n .rw
  | .kvWalk _ aa sb _ =>
    let h := memHits s t T (winSel (T.ra aa)) (a0 aa) 64 1 .rd
    if (T.rs sb).toNat ≥ 4194304 then h
    else h ++ memHits s t T (winSel (T.ra aa)) (a0 aa + 64 + 16 * kvEntry (T.rs sb).toNat) 16 1 .rd
  | .kvAppend aa _ => memHits s t T (winSel (T.ra aa)) (a0 aa) 64 1 .rw
  | .dmaPost _ aa _ =>
    if s.winOk T.ctxIndex (winSel (T.ra aa)) (a0 aa) 64 .rd then illopIf (a0 aa % 64 != 0) .d
    else boundAt .d (s.globalOf T.ctxIndex (winSel (T.ra aa)) (a0 aa))
  | .sySignal sa _ _ => handleHits s T (T.rs sa) true
  | .syWait sa _ _ | .syArm sa _ => handleHits s T (T.rs sa) false
  | .syRead _ sa => handleHits s T (T.rs sa) false
  | op => branchHits s t T op

end Sys2Proof.Machine
end

