-- ==== Sys2Proof/Machine/VectorUnit.lean ====
section
/-! DEFINITION. Results of the V-slot operations (R171 to R185). -/

namespace Sys2Proof.Machine

open Sys2Proof.Fp

/-- One lane of an arithmetic operation of R173: FP32 for t = 0, BF16 for t = 1 (R172). -/
def lane1 (op : VArith) (t : Bool) (a b c : W32) : Rounded :=
  let d (x : W32) : FV := if t then decB x else dec x
  let r (v : FV) : Rounded := roundTo (if t then 8 else 24) v
  let i (x : W32) : Rounded := ⟨x, false⟩
  let n := (b.extractLsb' 0 5).toNat
  match op with
  | .add => r (addX (d a) (d b))
  | .sub => r (addX (d a) (negX (d b)))
  | .mul => r (mulX (d a) (d b))
  | .fma => r (addX (mulX (d a) (d b)) (d c))
  | .fms => r (addX (mulX (d a) (d b)) (negX (d c)))
  | .fnma => r (addX (mulX (negX (d a)) (d b)) (d c))
  | .max => r (maxX (d a) (d b))
  | .min => r (minX (d a) (d b))
  | .abs => r (absX (d a))
  | .neg => r (negX (d a))
  | .iadd => i (a + b)
  | .isub => i (a - b)
  | .imul => i (a * b)
  | .imulh => i (BitVec.ofInt 32 (a.toInt * b.toInt / 2 ^ 32))
  | .iand => i (a &&& b)
  | .ior => i (a ||| b)
  | .ixor => i (a ^^^ b)
  | .ishl => i (a <<< n)
  | .ishr => i (a >>> n)
  | .isar => i (a.sshiftRight n)
  | .imax => i (if a.slt b then b else a)
  | .imin => i (if a.slt b then a else b)
  | .imac => i (a * b + c)

/-- Lanes written under a predicate: inactive lanes keep `old`, or are zero with z (R171). -/
def masked (p : W64) (z : Bool) (old : VReg) (f : Nat → W32) : VReg :=
  ofLanes ((List.range 64).map fun i => if active p i then f i else if z then 0 else lane old i)

/-- A v register whose lane `i` is `f i` in every lane. -/
def allLanes (f : Nat → W32) : VReg := ofLanes ((List.range 64).map f)

def satI8 (x : Int) : W32 := BitVec.ofInt 32 (if x < -128 then -128 else if x > 127 then 127 else x)

/-- Per-lane conversions, kinds 0x00 to 0x05 (R176). -/
def cvt1 (kind : Nat) (a : W32) : Rounded :=
  if kind = 0 then roundTo 8 (dec a)
  else if kind = 1 then roundTo 24 (decB a)
  else if kind = 2 then ⟨BitVec.ofInt 32 (toIntSat (-2147483648) 2147483647 (dec a)), false⟩
  else if kind = 3 then ⟨ofI32 a, false⟩
  else if kind = 4 then ⟨BitVec.ofInt 32 (toIntSat (-128) 127 (dec a)), false⟩
  else ⟨satI8 a.toInt, false⟩

/-- The byte image of a v register (R175). -/
def image (v : VReg) : List Byte := (List.range 256).map fun b => v.extractLsb' (8 * b) 8

def ofImage (l : List Byte) : VReg := BitVec.ofNat 2048 (leVal (l.take 256))

/-- All-lane conversions, kinds 0x06 to 0x09 (R176). -/
def cvtAll (kind : Nat) (p : W64) (va : VReg) : VReg :=
  let act (i : Nat) (x : Nat) : Nat := if active p i then x else 0
  if kind = 6 then
    ofImage ((List.range 64).map fun i => BitVec.ofNat 8 (act i (lane va i).toNat))
  else if kind = 7 then
    allLanes fun i => if active p i then (va.extractLsb' (8 * i) 8).signExtend 32 else 0
  else if kind = 8 then
    ofImage ((List.range 64).flatMap fun i => leBytes 2 (act i ((lane va i).toNat / 65536)))
  else allLanes fun i => if active p i then (va.extractLsb' (16 * i) 16).setWidth 32 <<< 16 else 0

/-- The packed image of two MX blocks (R177); `sc` supplies the two scale codes (R124). -/
def mxPack (fmt : BitVec 3) (sc : Option (Nat × Nat)) (p : W64) (va : VReg) : VReg :=
  let x (i : Nat) : W32 := if active p i then lane va i else 0
  let (s0, e0) := cvtBlock fmt (sc.map (·.1)) ((List.range 32).map x)
  let (s1, e1) := cvtBlock fmt (sc.map (·.2)) ((List.range 32).map fun i => x (32 + i))
  let el := e0 ++ e1
  let bytes : List Byte :=
    if fmt = 6 then (List.range 128).map fun b =>
        if b < 32 then BitVec.ofNat 8 (el.getD (2 * b) 0 + 16 * el.getD (2 * b + 1) 0) else 0
      else (List.range 128).map fun b => BitVec.ofNat 8 (el.getD b 0)
  ofImage (bytes ++ [BitVec.ofNat 8 s0, BitVec.ofNat 8 s1])

/-- Lane `i` of an expanded packed image (R125, R177). -/
def mxUnpack1 (fmt : BitVec 3) (va : VReg) (i : Nat) : Rounded :=
  let byte (b : Nat) : Nat := (va.extractLsb' (8 * b) 8).toNat
  let code := if fmt = 6 then (if i % 2 = 0 then byte (i / 2) % 16 else byte (i / 2) / 16) else byte i
  mxToF32 fmt code (byte (if i < 32 then 128 else 129))

def fun1 (f : VFun) (a : W32) : Rounded :=
  match f with
  | .exp2 => exp2R a
  | .log2 => log2R a
  | .rcp => rcpR a
  | .rsqrt => rsqrtR a

/-- The lanes a reduction or scan adds: an inactive lane contributes +0 (R180). -/
def contrib (p : W64) (va : VReg) : List W32 := (List.range 64).map fun i => if active p i then lane va i else 0

/-- [DEDUCED, log 41] -/
def redLanes (op : VRed) (p : W64) (va : VReg) : VReg :=
  let xs := contrib p va
  let acts := ((List.range 64).filter (active p)).map (lane va)
  match op with
  | .rsum => splat (canonSum xs)
  | .rmax => splat (fl ((acts.map dec).foldl maxX (.inf true)))
  | .rmin => splat (fl ((acts.map dec).foldl minX (.inf false)))
  | .irsum => splat (intSum xs)
  | .scan => allLanes fun i => canonSum (xs.take (i + 1))
  | .iscan => allLanes fun i => intSum (xs.take (i + 1))

/-- Whether a lane's sum of a reduction or scan was flushed in its last addition (R121, R153). -/
def redFtz (op : VRed) (p : W64) (va : VReg) (i : Nat) : Bool :=
  match op with
  | .rsum => (canonSumR (contrib p va)).ftz
  | .scan => (canonSumR ((contrib p va).take (i + 1))).ftz
  | _ => false

/-! ### The merge stack (R132, R181) -/

def addV (i : Bool) (a b : VReg) : VReg :=
  ofLanes (List.zipWith (fun x y => if i then x + y else fadd x y) (lanes a) (lanes b))

/-- Slots of the stack at `base`, from memory. -/
def treeSlots (s : State) (base : Nat) : SMap VReg :=
  ⟨(List.range 15).map fun l => (l, ofImage (s.readRaw (base + 0x100 * (l + 1)) 256))⟩

def treeCount (s : State) (base : Nat) : Nat := leVal (s.readRaw base 8)

/-- Number of consecutive 1 bits of `count` from bit `q` upward. -/
def onesFrom : Nat → Nat → Nat → Nat
  | 0, _, _ => 0
  | n + 1, count, q => if count / 2 ^ q % 2 = 1 then 1 + onesFrom n count (q + 1) else 0

def popcount (n : Nat) : Nat := ((List.range 64).filter fun i => n.testBit i).length

/-- Bytes a push writes: the new count and the slot that took the carry (R132). -/
def treePushBytes (s : State) (base q : Nat) (i : Bool) (x : VReg) : List (Nat × List Byte) :=
  let c := treeCount s base
  let (sl, c') := pushNode (addV i) (treeSlots s base, c) q x
  let l := q + onesFrom 64 c q
  [(base, leBytes 8 c'), (base + 0x100 * (l + 1), image (sl.getD l 0))]

def treeFold (s : State) (base : Nat) (i : Bool) : VReg := foldAll (addV i) 0 (treeSlots s base, treeCount s base)

/-- Lane `i` of a push or a fold with whether its last addition was flushed (R121). -/
def laneSlots (s : State) (base i : Nat) : SMap Rounded := ⟨(treeSlots s base).rows.map fun r => (r.1, ⟨lane r.2 i, false⟩)⟩

def treePushLane (s : State) (base q : Nat) (x : VReg) (i : Nat) : Rounded :=
  let c := treeCount s base
  ((pushNode faddR (laneSlots s base i, c) q ⟨lane x i, false⟩).1).getD (q + onesFrom 64 c q) ⟨0, false⟩

def treeFoldLane (s : State) (base i : Nat) : Rounded := foldAll faddR ⟨0, false⟩ (laneSlots s base i, treeCount s base)

/-! ### Effects -/

def Effect.regs (l : List RegWrite) : Effect := { Effect.none with res := l }

def vEff (vd : BitVec 5) (x : VReg) (sp : Special) : Effect := { Effect.regs [.v vd x] with special := sp }

def noSpecial : Special := ⟨0, 0, 0, 0⟩

/-- An FP result in each active lane, with its VXU.SPECIAL counts. -/
def fpEff (T : Tile) (vd : BitVec 5) (pg : BitVec 3) (z t : Bool) (ins : List VReg) (f : Nat → Rounded) : Effect :=
  vEff vd (masked (T.rp pg) z (T.rv vd) fun i => (f i).bits) (specialOf (T.rp pg) f ins t)

/-- Latency and effect of a V-slot operation. The one result of a reduction counts as 64 equal lanes in VXU.SPECIAL, and m and l
of v.osm do not count; v.tree.fin of one slot, which adds nothing, counts the lanes of its result. [DESIGN CHOICE, log 116] -/
def vectorEff (s : State) (T : Tile) : TileOp → Option (Nat × Effect)
  | .vArith op vd va vb vc c =>
    let f (i : Nat) : Rounded := lane1 op c.t (lane (T.rv va) i) (lane (T.rv vb) i) (lane (T.rv vc) i)
    let ins := if op.arity = 1 then [T.rv va] else if op.arity = 2 then [T.rv va, T.rv vb]
      else [T.rv va, T.rv vb, T.rv vc]
    some (op.latency,
      if op.isFp then fpEff T vd c.pg c.z c.t ins f
      else vEff vd (masked (T.rp c.pg) c.z (T.rv vd) fun i => (f i).bits) noSpecial)
  | .vCmp int pd va vb cnd c =>
    let d (x : W32) : FV := if c.t then decB x else dec x
    let f (i : Nat) : Bool :=
      if int then intCond cnd (lane (T.rv va) i) (lane (T.rv vb) i)
      else fpCond cnd (d (lane (T.rv va) i)) (d (lane (T.rv vb) i))
    let sp := specialOf (T.rp c.pg) (fun _ => ⟨0, false⟩) (if int then [] else [T.rv va, T.rv vb]) c.t
    some (if int then 2 else 4,
      { Effect.regs [.p pd (comparePred (T.rp c.pg) (T.rp pd) c.z f)] with special := sp })
  | .vCvt vd va kind pg z =>
    if kind.toNat ≤ 5 then
      let f (i : Nat) : Rounded := cvt1 kind.toNat (lane (T.rv va) i)
      let fpIn := kind.toNat ≠ 3 ∧ kind.toNat ≠ 5
      some (4, if kind.toNat ≤ 1 ∨ kind.toNat = 3
        then fpEff T vd pg z (kind == 1) (if fpIn then [T.rv va] else []) f
        else { vEff vd (masked (T.rp pg) z (T.rv vd) fun i => (f i).bits)
            (specialOf (T.rp pg) (fun _ => ⟨0, false⟩) (if fpIn then [T.rv va] else []) false) with ls := [] })
    else some (4, vEff vd (cvtAll kind.toNat (T.rp pg) (T.rv va)) noSpecial)
  | .vCvtMx vd va fmt pg _ =>
    some (8, vEff vd (mxPack fmt none (T.rp pg) (T.rv va)) (specialOf (T.rp pg) (fun _ => ⟨0, false⟩) [T.rv va] false))
  | .vCvtMxs vd va fmt sc pg _ =>
    some (8, vEff vd (mxPack fmt (some (bitsOf (T.rs sc).toNat 7 0, bitsOf (T.rs sc).toNat 15 8)) (T.rp pg) (T.rv va))
      (specialOf (T.rp pg) (fun _ => ⟨0, false⟩) [T.rv va] false))
  | .vCvtMxf vd va fmt pg z => some (6, fpEff T vd pg z false [] (mxUnpack1 fmt (T.rv va)))
  | .vFun f vd va c => some (14, fpEff T vd c.pg c.z false [T.rv va] fun i => fun1 f (lane (T.rv va) i))
  | .vOsm vd va vb vc pg z ml =>
    let q := T.rv vc
    let r := softMerge ⟨lane q 0, lane q 1, lanes (T.rv va)⟩ ⟨lane q 2, lane q 3, lanes (T.rv vb)⟩
    let flush := softFtz ⟨lane q 0, lane q 1, lanes (T.rv va)⟩ ⟨lane q 2, lane q 3, lanes (T.rv vb)⟩
    let o (i : Nat) : Rounded := ⟨r.o.getD i 0, flush.getD i false⟩
    let e0 := fpEff T vd pg z false [T.rv va, T.rv vb] o
    let heads := countTrue ((List.range 4).map fun i => isSub (lane q i))
    let e := { e0 with special := { e0.special with daz := e0.special.daz + heads } }
    let qn := allLanes fun i => if i = 0 then r.m else if i = 1 then r.l else lane q i
    some (26, if ml then { e with res := e.res ++ [.v vc qn] } else e)
  | .vRed op vd va c =>
    let r := redLanes op (T.rp c.pg) (T.rv va)
    let fp := op != .irsum && op != .iscan
    some (op.latency, vEff vd r (if fp then
      specialOf (BitVec.allOnes 64) (fun i => ⟨lane r i, redFtz op (T.rp c.pg) (T.rv va) i⟩)
        [ofLanes (contrib (T.rp c.pg) (T.rv va))] false
      else noSpecial))
  | .vTreeInit aa =>
    let b := addrOf (T.ra aa) (0 : BitVec 1) 1
    some (2, { Effect.none with ls := [[(b, List.replicate 256 0)]] })
  | .vTreePush va aa q i =>
    let b := addrOf (T.ra aa) (0 : BitVec 1) 1
    some (17 + 4 * onesFrom 64 (treeCount s b) q.toNat,
      { Effect.none with
          ls := [treePushBytes s b q.toNat i (T.rv va)],
          special := if i = true ∨ onesFrom 64 (treeCount s b) q.toNat = 0 then noSpecial
            else specialOf (BitVec.allOnes 64) (treePushLane s b q.toNat (T.rv va)) [T.rv va] false })
  | .vTreeFin vd aa i =>
    let b := addrOf (T.ra aa) (0 : BitVec 1) 1
    some (17 + 4 * (popcount (treeCount s b) - 1),
      { Effect.regs [.v vd (treeFold s b i)] with
          ls := [[(b, leBytes 8 0)]],
          special := if i then noSpecial else specialOf (BitVec.allOnes 64) (treeFoldLane s b) [] false })
  | .vLane3 op vd va vb c =>
    match op with
    | .perm => some (3, vEff vd (masked (T.rp c.pg) c.z (T.rv vd) fun i =>
        lane (T.rv va) ((lane (T.rv vb) i).extractLsb' 0 6).toNat) noSpecial)
    | .sel => some (2, vEff vd (allLanes fun i =>
        if active (T.rp c.pg) i then lane (T.rv va) i else lane (T.rv vb) i) noSpecial)
    | .mov => some (2, vEff vd (masked (T.rp c.pg) c.z (T.rv vd) (lane (T.rv va))) noSpecial)
  | .vLaneI op vd va n c =>
    let src (i : Nat) : Nat := match op with
      | .rot => (i + n.toNat) % 64
      | .bfly => i ^^^ 2 ^ n.toNat
      | .bcastl => n.toNat
    some (3, vEff vd (masked (T.rp c.pg) c.z (T.rv vd) fun i => lane (T.rv va) (src i)) noSpecial)
  | .vBcast vd sa c =>
    some (2, vEff vd (masked (T.rp c.pg) c.z (T.rv vd) fun _ => (T.rs sa).extractLsb' 0 32) noSpecial)
  | .vIns vd sa n _ =>
    some (2, vEff vd (allLanes fun i => if i = n.toNat then (T.rs sa).extractLsb' 0 32 else lane (T.rv vd) i) noSpecial)
  | .vExt sd va n _ => some (2, Effect.regs [.s (T.useBank sd) sd ((lane (T.rv va) n.toNat).setWidth 64)])
  | .vIota vd n c =>
    some (2, vEff vd (masked (T.rp c.pg) c.z (T.rv vd) fun i => BitVec.ofNat 32 (i + n.toNat)) noSpecial)
  | .vPred op pd pa pb =>
    let a := T.rp pa
    let b := T.rp pb
    some (2, Effect.regs [.p pd (match op with
      | .pand => a &&& b
      | .por => a ||| b
      | .pxor => a ^^^ b
      | .pandn => a &&& ~~~b)])
  | .vPs2p pd sa => some (2, Effect.regs [.p pd (T.rs sa)])
  | .vPp2s sd pa => some (2, Effect.regs [.s (T.useBank sd) sd (T.rp pa)])
  | .vPcnt sd pa => some (2, Effect.regs [.s (T.useBank sd) sd (BitVec.ofNat 64 (popcount (T.rp pa).toNat))])
  | .vRng u vd sa sb w pg z =>
    let seed := ((s.ctxs.get? T.ctxIndex).map (·.seed)).getD 0
    let ctr (i : Nat) : BitVec 128 :=
      BitVec.ofNat 128 ((T.rs sa).toNat * 2 ^ 64 + (T.rs sb).toNat / 64 * 64 + i)
    let word (i : Nat) : W32 := philox seed (ctr i) w.toNat
    some (12, vEff vd (masked (T.rp pg) z (T.rv vd) fun i => if u then unitOf (word i) else word i) noSpecial)
  | _ => none

end Sys2Proof.Machine
end

