-- ==== Sys2Proof/Machine/MatrixUnit.lean ====
section
/-! DEFINITION. What the matrix array and the accumulator transfer unit compute (R80 to R98). -/

namespace Sys2Proof.Machine

open Sys2Proof.Fp

def byteOf (l : List Byte) (i : Nat) : Nat := (l.getD i 0).toNat

/-- K elements of an input vector of 32 bytes (R83, R88). -/
def inputElems (fmt : BitVec 3) (v : List Byte) : List Nat :=
  match modeOf fmt with
  | .mx8 | .int8 => (List.range 32).map (byteOf v)
  | .bf16 => (List.range 16).map fun k => byteOf v (2 * k) + 256 * byteOf v (2 * k + 1)
  | .fp4 => (List.range 64).map fun k => if k % 2 = 0 then byteOf v (k / 2) % 16 else byteOf v (k / 2) / 16

/-- K elements of column `n` of a weight image (R84). -/
def weightElems (fmt : BitVec 3) (img : List Byte) (n : Nat) : List Nat :=
  match modeOf fmt with
  | .mx8 | .int8 => (List.range 32).map fun k => byteOf img (k * 64 + n)
  | .bf16 => (List.range 16).map fun k => byteOf img (k * 64 + 2 * n) + 256 * byteOf img (k * 64 + 2 * n + 1)
  | .fp4 => (List.range 64).map fun k =>
      if k < 32 then byteOf img (k * 64 + n) % 16 else byteOf img ((k - 32) * 64 + n) / 16

/-- Exact products of an input block and a weight block. -/
def products (fa fw : BitVec 3) (a w : List Nat) : List FV :=
  List.zipWith (fun x y => mulX (decCode fa x) (decCode fw y)) a w

/-- Accumulator entry after a pass (R90): `none` leaves it unchanged. -/
def accEntry (fa fw : BitVec 3) (init : Bool) (old : W32) (a w : List Nat) (sa sw : Nat × Nat) : W32 :=
  match modeOf fa with
  | .mx8 =>
    let r := mxBlock (products fa fw a w) sa.1 sw.1
    if init then r else fadd old r
  | .int8 => if init then intBlock a w else old + intBlock a w
  | .fp4 =>
    let r0 := mxBlock (products fa fw (a.take 32) (w.take 32)) sa.1 sw.1
    let r1 := mxBlock (products fa fw (a.drop 32) (w.drop 32)) sa.2 sw.2
    if init then fadd r0 r1 else fadd (fadd old r0) r1
  | .bf16 =>
    let r := blockResult (products fa fw a w) 0
    if init then r else fadd old r

/-- A row after one vector of a pass commits (R90). -/
def passRow (fa fw : BitVec 3) (init : Bool) (img : List Byte) (row : AccRow) (vec : List Byte) (sa : Nat × Nat) : AccRow :=
  let a := inputElems fa vec
  let cols := if modeOf fa = .bf16 then 32 else 64
  let f (n : Nat) : W32 :=
    if n < cols then
      accEntry fa fw init (lane row.cols n) a (weightElems fw img n) sa (byteOf img (0x800 + n), byteOf img (0x840 + n))
    else lane row.cols n
  ⟨allLanes f, if init then (modeOf fa).k else row.count + (modeOf fa).k, modeOf fa == .int8⟩

/-- Rows a pass commits, from the inputs in the local store (R88, R90). -/
def passRows (s : State) (T : Tile) (ifmt : BitVec 3) (init : Bool) (ain asc r m : Nat) : List (Nat × AccRow) :=
  (List.range m).map fun i =>
    let vec := s.readRaw (ain + 32 * i) 32
    let k := (modeOf ifmt).scales
    let sb := s.readRaw (asc + k * i) k
    (r + i, passRow ifmt T.wfmt init T.wimg (T.accRow (r + i)) vec (byteOf sb 0, byteOf sb 1))

/-- Latency and effect of an M-slot operation (R193). A weight load keeps the source block's bytes that its mode ignores, and a
save returns them. [DESIGN CHOICE, log 113] -/
def matrixEff (s : State) (T : Tile) : TileOp → Option (Nat × Effect)
  | .mxaWload aa wfmt _ =>
    some (32, { Effect.none with image := some (wfmt, s.readRaw (addrOf (T.ra aa) (0 : BitVec 1) 1) 0x880) })
  | .mxaPass ai as sr ifmt init _ _ =>
    let m := rowCount (T.rs sr)
    let rows := passRows s T ifmt init (addrOf (T.ra ai) (0 : BitVec 1) 1) (addrOf (T.ra as) (0 : BitVec 1) 1)
      (rowFirst (T.rs sr)) m
    some (m + 97, { Effect.none with rows := rows })
  | .accMv vd sr => some (4, Effect.regs [.v vd (T.accRow (rowFirst (T.rs sr))).cols])
  | .accSt tr aa sr _ =>
    let n := rowCount (T.rs sr)
    let r := rowFirst (T.rs sr)
    let dst := addrOf (T.ra aa) (0 : BitVec 1) 1
    let rowBytes (i : Nat) : List (Nat × List Byte) :=
      let v := (T.accRow (r + i)).cols
      if tr then (List.range 64).map fun c => (dst + 4 * n * c + 4 * i, leBytes 4 (lane v c).toNat)
      else [(dst + 256 * i, image v)]
    some (if tr then 16 * n + 64 else ceilDiv n 2 + 4, { Effect.none with ls := (List.range n).map rowBytes })
  | .accZero sr =>
    let n := rowCount (T.rs sr)
    some (ceilDiv n 8, { Effect.none with rows := (List.range n).map fun i => (rowFirst (T.rs sr) + i, AccRow.zero) })
  | _ => none

/-- Latency and effect of a local-store operation (R198). -/
def localEff (s : State) (T : Tile) : TileOp → Option (Nat × Effect)
  | .lsLd sd aa off _ =>
    some (3, Effect.regs [.s (T.useBank sd) sd (BitVec.ofNat 64 (leVal (s.readRaw (addrOf (T.ra aa) off 8) 8)))])
  | .lsSt sa aa off _ => some (2, { Effect.none with ls := [[(addrOf (T.ra aa) off 8, leBytes 8 (T.rs sa).toNat)]] })
  | .lsVld vd aa off _ => some (4, Effect.regs [.v vd (ofImage (s.readRaw (addrOf (T.ra aa) off 256) 256))])
  | .lsVst va aa off _ => some (2, { Effect.none with ls := [[(addrOf (T.ra aa) off 256, image (T.rv va))]] })
  | .lsClaim _ | .lsPublish _ | .lsRelease _ => some (1, Effect.none)
  | .lsZero aa _ =>
    some (16, { Effect.none with ls := [[(addrOf (T.ra aa) (0 : BitVec 1) 1, List.replicate 4096 0)]] })
  | _ => none

/-! ### The page walker (R210, R212, R238 to R243, R266) -/

/-- Slab bytes of a page table (R239). -/
def slabBytes (fmt d : Nat) : Nat := if fmt = 6 then 68 * d else 132 * d

/-- What kv.walk returns for a position from the header and entry bytes: ad and sd, or no page (R243, R266). [DEDUCED, log 42] -/
def walkResult (hdr ent : List Byte) (p : Nat) : Option (BitVec 48 × W64) :=
  let h0 := leVal (hdr.take 8)
  let h2 := leVal ((hdr.drop 0x10).take 8)
  let h6 := leVal ((hdr.drop 0x30).take 8)
  let e := kvEntry p
  let d0 := leVal (ent.take 8)
  let d1 := leVal ((ent.drop 8).take 8)
  let n := bitsOf d0 47 44
  if p ≥ 4194304 ∨ e ≥ bitsOf h2 10 0 ∨ bitsOf d1 9 9 = 0 ∨ n ≠ kvSize e ∨ bitsOf h0 15 0 ≠ 1 then none
  else
    let dim := 64 * bitsOf h0 22 19
    let ch := slabBytes (bitsOf h0 18 16) dim
    let o := p - kvStart e
    let base := bitsOf d0 43 0
    let a :=
      if n ≤ 1 then base + 2 * dim * o
      else if bitsOf d1 8 8 = 0 then base + ch * (o / 64)
      else
        let j := o / 256
        let x := ch * ((o - 256 * j) / 64)
        base + j * 0x1000 + x / 0x1000 * 0x20000 + x % 0x1000
    let w := bitsOf h6 (4 * bitsOf d0 49 48 + 3) (4 * bitsOf d0 49 48)
    some (BitVec.ofNat 48 (w * 2 ^ 44 + a % 2 ^ 44), BitVec.ofNat 64 (16 * 2 ^ n - o))

/-- kv.append is in bounds: at least the committed length and at most the positions allocated (R212). -/
def appendOk (hdr : List Byte) (len : Nat) : Bool :=
  let c := bitsOf (leVal ((hdr.drop 0x18).take 8)) 22 0
  let n := bitsOf (leVal ((hdr.drop 0x10).take 8)) 10 0
  decide (c ≤ len) && decide (len ≤ kvStart n)

end Sys2Proof.Machine
end

