-- ==== Sys2Proof/Machine/FabricOps.lean ====
section
/-! DEFINITION. Shared operations of the fabric and of global addresses: routing, requests, answers, and where a windowed
56-bit address lies (R274, R351, R418, R422, R426, R455, R459, R542, R551). -/

namespace Sys2Proof.Machine

/-- Packet types of R417. -/
def Pk.rd : BitVec 8 := 0x01
def Pk.rdRsp : BitVec 8 := 0x02
def Pk.wr : BitVec 8 := 0x03
def Pk.wrAck : BitVec 8 := 0x04
def Pk.atom : BitVec 8 := 0x05
def Pk.atomRsp : BitVec 8 := 0x06
def Pk.sig : BitVec 8 := 0x07
def Pk.sigAck : BitVec 8 := 0x08
def Pk.cts : BitVec 8 := 0x10
def Pk.cdata : BitVec 8 := 0x11
def Pk.cack : BitVec 8 := 0x12
def Pk.tick : BitVec 8 := 0x20
def Pk.slip : BitVec 8 := 0x21
def Pk.notReady : BitVec 8 := 0x22
def Pk.probe : BitVec 8 := 0x23
def Pk.probeRsp : BitVec 8 := 0x24
def Pk.hello : BitVec 8 := 0x25
def Pk.depart : BitVec 8 := 0x26

/-- Status codes of the table "Completion record". -/
def St.ok : Nat := 1
def St.cancelled : Nat := 2
def St.poison : Nat := 3
def St.bound : Nat := 4
def St.timeout : Nat := 5
def St.stalled : Nat := 6

namespace State

/-- A port is up: trained, or retraining after the loss of a lane (R413, R414). [DEDUCED, log 62] -/
def portUp (s : State) (k : Nat) : Bool :=
  decide (k < s.ports) && (s.fld (R.plPstat k) F.plPstat_state == 3 || s.fld (R.plPstat k) F.plPstat_state == 4)

/-- Ports of a mask that are up. -/
def upPorts (s : State) (mask : Nat) : List Nat := (List.range 24).filter fun k => mask.testBit k && s.portUp k && !s.fab.departed.contains k

/-- Physical partitions of the logical partition of `p`. -/
def members (s : State) (p : Nat) : List Nat :=
  let size := 2 ^ s.fld (R.partGroup p) F.partGroup_size
  (List.range size).map (p / size * size + ·)

/-- Ports on the route to device `d`: the primary mask while one of them is up, then the alternate (R422 step 1). -/
def routePorts (s : State) (d : Nat) : List Nat :=
  if s.fld (R.plRt d) F.plRt_valid = 0 then []
  else
    let pr := s.upPorts (s.fld (R.plRt d) F.plRt_primary)
    if pr = [] then s.upPorts (s.fld (R.plRt d) F.plRt_alt) else pr

/-- The port by which a unit of partition `p` sends to device `d` (R422). -/
def sendPort (s : State) (d p : Nat) : Option Nat :=
  let all := s.routePorts d
  let own := all.filter fun k => (s.members p).contains (s.fld (R.plPctl k) F.plPctl_part)
  if own ≠ [] then own[(d + p) % own.length]?
  else if all ≠ [] then all[d % all.length]?
  else none

/-- The port by which a packet of device `src` for device `d` is forwarded (R422). -/
def forwardPort (s : State) (d src : Nat) : Option Nat :=
  let all := s.routePorts d
  if all = [] then none else all[src % all.length]?

def dropPacket (s : State) : State := { s with fab := { s.fab with drops := s.fab.drops + 1 } }

def link (s : State) (k : Nat) : Link := s.fab.links.getD k Link.reset

def setLink (s : State) (k : Nat) (l : Link) : State := { s with fab := { s.fab with links := s.fab.links.set k l } }

/-- Flits that a payload occupies with its packet header (R415). -/
def flitCount (n : Nat) : Nat := if n ≤ 220 then 1 else 1 + ceilDiv (n - 220) 244

/-- The retry buffer of a port has room for the flits of a packet (R416). -/
def retryRoom (l : Link) (pk : Packet) : Bool := decide (l.retry.length + flitCount pk.payload.length ≤ 1024)

/-- The flits of a packet are sent, and stay in the retry buffer until they are acknowledged (R415, R416). -/
def sendFlits (s : State) (k : Nat) (pk : Packet) : State :=
  let l := s.link k
  let n := flitCount pk.payload.length
  let sent := (List.range n).map fun i => (l.tx + i) % 4096
  (s.setLink k { l with tx := (l.tx + n) % 4096, retry := l.retry ++ sent }).emit (.packet k pk)

/-- A packet goes out on a port, behind those that wait for room in its retry buffer (R416). -/
def emitPacket (s : State) (k : Nat) (pk : Packet) : State :=
  let l := s.link k
  if l.queue.isEmpty && retryRoom l pk then s.sendFlits k pk else s.setLink k { l with queue := l.queue ++ [pk] }

/-- Packets that wait on a port go out while its retry buffer has room. `fuel` bounds their number. -/
def drainLink : Nat → State → Nat → State
  | 0, s, _ => s
  | n + 1, s, k =>
    let l := s.link k
    match l.queue with
    | [] => s
    | pk :: rest => if retryRoom l pk then drainLink n ((s.setLink k { l with queue := rest }).sendFlits k pk) k else s

/-- The device ID is set: without it only HELLO, PROBE and PROBE_RSP are carried (R420). -/
def hasId (s : State) : Bool := s.fld R.plId F.plId_valid == 1

/-- The device carries transactions: its ID is set, and no neighbour has announced the same one (R420, PL.CTL). -/
def fabricOn (s : State) : Bool := s.hasId && s.fld R.plCtl F.plCtl_enable == 1 && s.fab.dupId != some s.localDev

/-- A packet of channel 3 other than HELLO, PROBE and PROBE_RSP goes out on a port (R420). -/
def emitLink (s : State) (k : Nat) (pk : Packet) : State := if s.hasId then s.emitPacket k pk else s

/-- A packet of this device leaves by its route, or is dropped and counted. -/
def sendPacket (s : State) (p : Nat) (pk : Packet) : State :=
  if s.fabricOn = false then s.dropPacket
  else match s.sendPort pk.dst.toNat p with
    | some k => s.emitPacket k pk
    | none => s.dropPacket

/-- The context ID that the peer table of context `c` gives for device `d` (R455). -/
def peerOf (s : State) (c d : Nat) : Option Nat := peerCtx s c d

/-- Packets to a destination and channel that have no answer yet. [DEDUCED, log 60] -/
def unanswered (s : State) (d vc : Nat) : Nat :=
  (s.fab.out.filter fun f => f.pkt.dst.toNat == d && f.vc == vc && f.sent).length

/-- A packet sent once, that nothing answers. -/
def sendOnce (s : State) (p c d : Nat) (typ : BitVec 8) (addr : Nat) (operand : W64) (payload : List Byte) : State :=
  let vc := if typ.toNat < 0x10 then 0 else 2
  let key := d * 4 + vc
  let seq := s.fab.send.getD key 0
  let pk : Packet :=
    { dst := BitVec.ofNat 12 d, src := BitVec.ofNat 12 s.localDev, typ := typ,
      ctx := BitVec.ofNat 16 ((s.peerOf c d).getD 0), seq := BitVec.ofNat 16 seq, addr := BitVec.ofNat 44 addr,
      len := 0, op := 0, operand := operand, payload := payload }
  ({ s with fab := { s.fab with send := s.fab.send.set key ((seq + 1) % 65536) } }).sendPacket p pk

/-- A request of `n` bytes to device `d` with its transport sequence number (R418). It waits when 4,096 packets of its
destination and channel have no answer. -/
def sendRequest (s : State) (p c d : Nat) (typ : BitVec 8) (addr n : Nat) (op : BitVec 8) (operand : W64)
    (payload : List Byte) (who : Requester) : State :=
  let vc := if typ.toNat < 0x10 then 0 else 2
  let key := d * 4 + vc
  let seq := s.fab.send.getD key 0
  let pk : Packet :=
    { dst := BitVec.ofNat 12 d, src := BitVec.ofNat 12 s.localDev, typ := typ,
      ctx := BitVec.ofNat 16 ((s.peerOf c d).getD 0), seq := BitVec.ofNat 16 seq, addr := BitVec.ofNat 44 addr,
      len := BitVec.ofNat 12 (n - 1), op := op, operand := operand, payload := payload }
  let go := decide (s.unanswered d vc < 4096)
  let req : FabReq := ⟨pk, vc, who, 0, p, go⟩
  let fab := { s.fab with send := s.fab.send.set key ((seq + 1) % 65536), out := s.fab.out ++ [req] }
  if go then ({ s with fab := fab }).sendPacket p pk else { s with fab := fab }

/-- A request leaves the list of unanswered packets; the next one that waits for room goes out. -/
def dropReq (s : State) (f : FabReq) : State :=
  let rest := s.fab.out.filter (· != f)
  match rest.find? fun g => g.pkt.dst == f.pkt.dst && g.vc == f.vc && !g.sent with
  | none => { s with fab := { s.fab with out := rest } }
  | some g =>
    let out := rest.map fun x => if x = g then { x with sent := true } else x
    ({ s with fab := { s.fab with out := out } }).sendPacket g.part g.pkt

end State

/-! ### Windowed global addresses -/

/-- Where an access goes. -/
inductive Loc where
  | here (a : Nat)
  | peer (d a : Nat)
  | host (addr : Nat)
deriving DecidableEq, Repr

namespace State

/-- A host region grants `n` bytes at offset `x` (R551): the host address. -/
def hostAddr (s : State) (region x n : Nat) (write : Bool) : Option Nat :=
  let h := R.hifHreg region
  let ok := s.fld h F.hifHreg_valid == 1 && decide (x + n ≤ 2 ^ s.fld h F.hifHreg_size)
    && (if write then s.fld h F.hifHreg_w == 1 else s.fld h F.hifHreg_r == 1)
  if ok then some (s.fld h F.hifHreg_base * 2 ^ 21 + x) else none

/-- `n` bytes at the 56-bit address `g` of window `w` of context `c`, with the window check of R459. -/
def resolve (s : State) (c w g n : Nat) (p : Perm) : Option Loc :=
  match s.window c w with
  | none => none
  | some x =>
    let a := g % 2 ^ 44
    let d := g / 2 ^ 44
    if x.kind.toNat = 6 then
      if s.winOk c w (x.base + a) n p && d == 0 then (s.hostAddr x.dest a n p.w).map .host else none
    else if s.winOk c w a n p then
      if x.kind.toNat = 5 then (if d = x.dest then some (.peer d a) else none)
      else if d = s.localDev then some (.here a) else none
    else none

/-- Firmware's own accesses carry no window: they reach this device and its peers (R376). -/
def resolveFw (s : State) (g : Nat) : Option Loc :=
  let d := g / 2 ^ 44
  if d = s.localDev then some (.here (g % 2 ^ 44)) else if d < 4096 then some (.peer d (g % 2 ^ 44)) else none

/-- An address of window `w` of context `c` in the 56-bit form of a descriptor: with the device of a peer window, as an offset in a
window of the host pool, and with this device in any other (R274, R351). -/
def placeIn (s : State) (c : Option Nat) (w a : Nat) : Nat :=
  match c.bind fun c => s.window c w with
  | some x => if x.kind.toNat = 5 then x.dest * 2 ^ 44 + a else if x.kind.toNat = 6 then a else s.localDev * 2 ^ 44 + a
  | none => s.localDev * 2 ^ 44 + a

/-- Bytes put at a place: memory here, a WR packet to a peer, a posted write to the host. -/
def putAt (s : State) (p c : Nat) (l : Loc) (bs : List Byte) (who : Requester) : State :=
  match l with
  | .here a => s.writeBytes a bs
  | .peer d a => s.sendRequest p c d Pk.wr a bs.length 0 0 bs who
  | .host a => s.emit (.hostWrite a bs)

/-- An engine signals an object named by a handle: here as an update on its way to the object's base die, or as a SIG
packet to a peer (R217, R359, R426). [DESIGN CHOICE, log 59] -/
def engineSignal (s : State) (p c : Nat) (h : W64) (amount : W64) : State :=
  let x := Handle.ofBits h
  if x.remote then s.sendRequest p c x.device Pk.sig (x.part * 16384 + x.index) 1 0 amount [] .signal
  else
    let r : MemReq :=
      { tile := 2048, flight := 0, kind := .signal, dest := .local, addr := State.objKey x.part x.index, data := amount,
        cmp := 0, hint := 0, ctx := if c < 512 then s.ctxId c else c * 128, done := false, arbiter := false, val := 0, bad := false }
    { s with reqs := s.reqs.set s.nextReq r, nextReq := s.nextReq + 1 }

/-- A handle that context `c` may signal: an owned object, or an object of a device with a valid peer entry. -/
def handleOk (s : State) (c : Nat) (h : W64) : Bool :=
  let x := Handle.ofBits h
  x.clean && (if x.remote then (s.peerOf c x.device).isSome
    else (s.members (c / 64)).contains x.part && s.ownsObj (s.ctxId c) x.part x.index)

end State

end Sys2Proof.Machine
end

