-- ==== Sys2Proof/Machine/Cache.lean ====
section
/-! DEFINITION. The shared cache of the base dies: its ways, sets and lines, the hints, replacement, protection, remote lines,
releases and acquires (R203, R292 to R301, R315, R320). -/

namespace Sys2Proof.Machine
namespace State

/-! ### Quiesced units (R281, R290) -/

/-- A slice is quiesced. One in an orphan slot has no SLC registers; it follows the layer sensors of its region as the slices
of the tiles there do (R281, R319). [DEDUCED, log 96] -/
def sliceQuiesced (s : State) (p i : Nat) : Bool :=
  let q (j : Nat) : Bool := s.fld (R.slcStatus (p * 256 + j)) F.slcStatus_quiesced == 1
  if i < s.part.tilesPerPart then q i
  else (List.range s.part.tilesPerPart).any fun j =>
    q j && regionOfPos (s.posOfIndex p j) == regionOfPos (s.posOfIndex p i)

/-- The slice or stack of an address is quiesced (R281, R290). -/
def quiesced (s : State) (a : Nat) : Bool :=
  match s.region a with
  | .slice p i => s.sliceQuiesced p i
  | .capacity n => s.fld (R.capStatus (n / 4) (n % 4)) F.capStatus_quiesced == 1
  | _ => false

/-! ### Leases (R334, R337) -/

/-- Stack, pseudo-channel and channel-local granule of a capacity address (R287, R324). -/
def granuleOf (a : Nat) : Nat × Nat × Nat :=
  let o := (a - 0x20000000000) % 0x1000000000
  ((a - 0x20000000000) / 0x1000000000, bitsOf o 16 12, o / 0x20000)

/-- The line is leased by a running unit. -/
def leasedAt (s : State) (a : Nat) : Bool :=
  match s.region a with
  | .capacity _ =>
    let (n, c, g) := granuleOf a
    let u := s.units.getD (n * 32 + c) CruUnit.reset
    u.leases.vals.any fun l => decide (l.1 ≤ g) && decide (g < l.1 + l.2)
  | _ => false

/-- The near-memory unit of a capacity address, by stack × 32 + unit. -/
def unitAt (a : Nat) : Nat := (granuleOf a).1 * 32 + (granuleOf a).2.1

/-- A stack arbiter holds a host-side access to a line: the line is leased and no boundary of its unit is being performed, or accesses
held before still wait after the lease's end (R336, R337, R340). -/
def leaseHolds (s : State) (a : Nat) : Bool :=
  match s.region a with
  | .capacity _ =>
    let k := unitAt a
    let u := s.units.getD k CruUnit.reset
    !u.pass && (s.leasedAt a || (u.leases.rows.isEmpty && s.held.any fun h => h.1 == k))
  | _ => false

/-- An access to a range waits: a line is leased, or its slice or stack is quiesced (R281, R290, R337). -/
def waitsAt (s : State) (a n : Nat) : Bool :=
  (linesOf a n).any fun l => s.leaseHolds (64 * l) || s.quiesced (64 * l)

/-- An access to a range waits in the arbiter of the first line that a lease keeps from it; one that waits for a quiesced slice or stack
alone comes again (R281, R337). [DEDUCED, log 50] -/
def holdAt (s : State) (a n : Nat) (x : HeldAccess) : State :=
  match (linesOf a n).find? fun l => s.leaseHolds (64 * l) with
  | none => s
  | some l => if s.held.contains (unitAt (64 * l), x) then s else { s with held := s.held ++ [(unitAt (64 * l), x)] }

/-! ### Records of cache errors (R315) -/

/-- Syndrome of an SRAM_UE record: the structure, and a SEC-DED syndrome (R513). [DESIGN CHOICE, log 103] -/
def sramSyndrome (s : State) (structure_ : Nat) : Nat × State :=
  let (k, s1) := s.draw
  (structure_ + (Config.secDed k).toNat * 2 ^ 8, s1)

/-- SRAM_UE record of the shared cache of base die `p` or its generation table for a line (R315). -/
def sramLine (s : State) (p structure_ l : Nat) : State :=
  let (syn, s1) := s.sramSyndrome structure_
  s1.record p
    { cls := 4, sev := 1, device := false, part := p, ctx := none, kind := 6, index := l % 16,
      addr := s1.localDev * 2 ^ 44 + 64 * l, addrKind := 1, synd := syn, step := 0, addrErr := false }

/-! ### Ways and sets (R292 to R294) -/

/-- Set of a line, its bank with it: address bits [23:6] (R292). -/
def setOf (l : Nat) : Nat := l % 2 ^ 18

/-- Cache ways of a context on base die `p` (R294). -/
def waysOf (s : State) (p c : Nat) : List Nat :=
  (List.range 16).filter fun w => s.fld (R.scaWay p w) F.scaWay_kind == 1 && s.fld (R.scaWay p w) F.scaWay_ctx == c

/-- A change of one of the context's ways has begun its write-back (R297, R301). [DEDUCED, log 71] -/
def waysChanging (s : State) (p c : Nat) : Bool :=
  (s.waysOf p c).any fun w => s.board.wayWait.contains (p * 16 + w) || s.board.wayReady.contains (p * 16 + w)

/-- A hint as it acts on base die `p`: STREAM for a context with no way there, or whose way is changing (R294, R301). -/
def hintAt (s : State) (p c : Nat) (hint : BitVec 2) : BitVec 2 :=
  if s.waysOf p c = [] ∨ s.waysChanging p c = true then 1 else hint

/-- A hint allocates: NORMAL and KEEP (R203). -/
def allocates (hint : BitVec 2) : Bool := hint == 0 || hint == 2

/-- Home base die of a capacity address; nothing else is cached (R293). -/
def homeDie (s : State) (a : Nat) : Option Nat :=
  match s.region a with
  | .capacity n => some (n / 4)
  | _ => none

/-- A line of a stack homed on another base die than `p`. -/
def isRemote (s : State) (p a : Nat) : Bool :=
  match s.homeDie a with
  | some h => h != p
  | none => false

/-! ### Tree pseudo-LRU (R292) -/

/-- The tree of a set after a use of way `w`: each node on its path points to the other side. -/
def treeUse (t w : Nat) : Nat :=
  ([3, 2, 1, 0].foldl (fun (x : Nat × Nat) b =>
    let d := w / 2 ^ b % 2
    (2 * x.1 + d, setBitsOf x.2 x.1 x.1 (1 - d))) (1, t)).2

/-- The way among `ways` that the tree of a set points to. [DEDUCED, log 43] -/
def treeVictim (t : Nat) (ways : List Nat) : Option Nat :=
  ([3, 2, 1, 0].foldl (fun (x : Nat × List Nat) b =>
    let d := if t.testBit x.1 then 1 else 0
    let side := x.2.filter fun w => w / 2 ^ b % 2 == d
    if side = [] then (2 * x.1 + (1 - d), x.2) else (2 * x.1 + d, side)) (1, ways)).2.head?

/-! ### Lines -/

/-- The line as base die `p` holds it for context `c`: a home line, or the context's remote line (R298). -/
def held? (s : State) (p c l : Nat) : Option CacheLine :=
  s.cache.find? fun x => x.die == p && x.line == l && (x.home || x.ctx == c)

/-- The context's remote line on base die `p`. -/
def remote? (s : State) (p c l : Nat) : Option CacheLine :=
  s.cache.find? fun x => x.die == p && x.line == l && !x.home && x.ctx == c

/-- The line in a way of a set. -/
def inWay? (s : State) (p w set : Nat) : Option CacheLine :=
  s.cache.find? fun x => x.die == p && x.way == w && setOf x.line == set

/-- Two entries of the directory are the same line of the same way. -/
def CacheLine.same (x y : CacheLine) : Bool := x.die == y.die && x.way == y.way && x.line == y.line

def dropLine (s : State) (x : CacheLine) : State := { s with cache := s.cache.filter fun y => !CacheLine.same y x }

/-- A line used: it is the most recent of its set. -/
def useLine (s : State) (x : CacheLine) : State :=
  let k := x.die * 2 ^ 18 + setOf x.line
  { s with cache := (s.cache.filter fun y => !CacheLine.same y x) ++ [x],
           cacheTree := s.cacheTree.set k (treeUse (s.cacheTree.getD k 0) x.way) }

/-- An access of base die `p` for context `c` does not get to its home: its route is cut, or it is far traffic of a partition whose far
share is 0 (R288, R289, R395). -/
def shutOut (s : State) (p c a : Nat) : Bool :=
  s.routeCut p (s.homeOf a)
    || (s.isRemote p a && s.fld (R.capFarctl p) F.capFarctl_share == 0 && (s.remote? p c (a / 64)).isNone)

/-- A line changed in place. -/
def setLine (s : State) (x : CacheLine) : State :=
  { s with cache := s.cache.map fun y => if CacheLine.same y x then x else y }

/-- ACCESS record of check 1: an address that reaches a hole (R273). -/
def accessRecord (s : State) (p a status check : Nat) (c : Option Nat) : State :=
  s.record p
    { cls := 0x0B, sev := 1, device := false, part := p, ctx := c, kind := 11, index := 0, addr := s.localDev * 2 ^ 44 + a,
      addrKind := 1, synd := status + check * 2 ^ 8, step := 0, addrErr := false }

/-- Stores leave bytes of a line dirty in its home line (R300). -/
def markDirty (s : State) (l : Nat) (mask : BitVec 64) : State :=
  match s.homeLine? l with
  | none => s
  | some x => s.setLine { x with bytes := s.dramBytes l, dirty := x.dirty ||| mask }

/-- A remote line's dirty bytes written at its home (R298); the bytes of a home line lie in memory already, and DRAM takes the whole
line. Dirty bytes of a line whose home has been retired are lost, with the record of an access that reaches a hole (R273).
[DEDUCED, log 139] -/
def writeBack (s : State) (x : CacheLine) : State :=
  if x.dirty = 0 then s
  else if s.region (64 * x.line) = .hole then s.accessRecord x.die (64 * x.line) St.bound 1 (some (s.ctxId x.ctx))
  else if x.home then
    (if (s.lineMeta x.line).ue then { s with lines := s.lines.set x.line (LineMeta.good (s.genOfLine x.line)) } else s)
  else ((List.range 64).zip x.bytes).foldl (fun s ib =>
    if x.dirty.getLsbD ib.1 then s.writeBytes (64 * x.line + ib.1) [ib.2] else s) (s.markDirty x.line x.dirty)

/-- A line leaves the cache, written back first (R296, R298). -/
def evict (s : State) (x : CacheLine) : State := (s.writeBack x).dropLine x

/-- A line leaves the cache without write-back: of a home line, the bytes that DRAM stores are left. -/
def loseLine (s : State) (x : CacheLine) : State :=
  if x.home = true ∧ x.dirty ≠ 0 then (s.dropLine x).writeRaw (64 * x.line) (s.dramBytes x.line) else s.dropLine x

def evictAll (s : State) (l : List CacheLine) : State := l.foldl evict s

/-- A dirty line found uncorrectable at its write-back: its home stores it with poison, and it is recorded (R301, R315). -/
def writeBackBad (s : State) (x : CacheLine) : State :=
  let s1 := (s.bump (R.scaEcc x.die) F.scaEcc_data_uncorrected 1).sramLine x.die 2 x.line
  let s2 := s1.writeBack x
  { s2 with lines := s2.lines.set x.line { s2.lineMeta x.line with poison := true } }

/-- Dirty lines written back; those of `bad` are found uncorrectable. -/
def writeBackAll (s : State) (l : List CacheLine) (bad : List Nat) : State :=
  l.foldl (fun s x => if x.dirty ≠ 0 ∧ bad.contains x.line = true then s.writeBackBad x else s.writeBack x) s

/-- A line becomes protected and is used. Beyond half the context's ways, its least recently used protected line of the set loses
its protection; a line of another context's way is not protected (R296). [DEDUCED, log 43] -/
def protect (s : State) (c : Nat) (x : CacheLine) : State :=
  let half := (s.waysOf x.die x.ctx).length / 2
  if x.keep = true ∨ x.ctx ≠ c ∨ half = 0 then s.useLine x
  else
    let kept := s.cache.filter fun y => y.die == x.die && setOf y.line == setOf x.line && y.ctx == x.ctx && y.keep
    let s1 := match kept with
      | y :: _ => if half ≤ kept.length then s.setLine { y with keep := false } else s
      | [] => s
    s1.useLine { x with keep := true }

/-- A line used with a hint: KEEP protects it. -/
def useWith (s : State) (c : Nat) (x : CacheLine) (hint : BitVec 2) : State :=
  if hint = 2 then s.protect c x else s.useLine x

/-- The way of a set that a new line of the context takes: a free one, or the victim of the tree. A set with remote_max remote
lines gives a remote line only the way of another remote line of the context, and a protected line leaves only when every way the
context holds in the set is protected (R292, R296, R298). [DEDUCED, log 43] -/
def wayFor (s : State) (p c l : Nat) (home : Bool) : Option Nat :=
  let cap := s.fld (R.scaCtl p) F.scaCtl_remote_max
  let ways := (s.waysOf p c).filter fun w => !s.wayOff.contains (p * 16 + w, setOf l)
  let here := s.cache.filter fun x => x.die == p && setOf x.line == setOf l
  let full := !home && decide (cap ≤ (here.filter fun x => !x.home).length)
  let mine := here.filter fun x => ways.contains x.way
  let free := ways.filter fun w => !here.any fun x => x.way == w
  if home = false ∧ cap = 0 then none
  else if full = false ∧ free ≠ [] then free.head?
  else
    let cand := mine.filter fun x => !full || !x.home
    let plain := cand.filter fun x => !x.keep
    let pick := if plain = [] ∧ mine.length = ways.length ∧ mine.all (·.keep) = true then cand else plain
    treeVictim (s.cacheTree.getD (p * 2 ^ 18 + setOf l) 0) (pick.map (·.way))

/-- A line allocated in the context's ways on base die `p`, with dirty bytes, and with the bytes that its home has. -/
def allocLine (s : State) (p c l : Nat) (hint : BitVec 2) (dirty : BitVec 64) : State :=
  let home := decide (s.homeDie (64 * l) = some p)
  match s.wayFor p c l home with
  | none => s
  | some w =>
    let s1 := match s.inWay? p w (setOf l) with
      | some x => s.evict x
      | none => s
    s1.useWith c { die := p, way := w, line := l, ctx := c, home := home, bytes := s1.bytesAt (64 * l) 64,
                   dirty := dirty, keep := false } hint

/-! ### Accesses (R203, R296, R300, R320) -/

/-- A lookup counts as a hit or a miss of the base die. [DESIGN CHOICE, log 123] -/
def countLookup (s : State) (p : Nat) (hit : Bool) : State :=
  s.bump (R.scaStat p) (if hit then F.scaStat_hits else F.scaStat_misses) 1

/-- Mask of `n` bytes at an address in its line. -/
def byteMask (a n : Nat) : BitVec 64 := BitVec.ofNat 64 ((2 ^ n - 1) * 2 ^ (a % 64))

/-- An access that reaches the home of a capacity line, for context `c` with a hint: the line is used, allocated or left as it is,
and `dirty` are the bytes that a store leaves to a later write-back, or with STREAM writes through. The bytes lie in memory (R296,
R300). -/
def homeAccess (s : State) (c a : Nat) (hint : BitVec 2) (dirty : BitVec 64) : State :=
  match s.homeDie a with
  | none => s
  | some h =>
    if s.leasedAt a then s
    else
      let hint := s.hintAt h c hint
      match s.held? h c (a / 64) with
      | some x =>
        let s1 := s.countLookup h true
        if hint = 3 then s1.evict x
        else if hint = 1 then s1.useWith c { x with dirty := x.dirty &&& ~~~dirty } hint
        else s1.useWith c { x with bytes := s.dramBytes (a / 64), dirty := x.dirty ||| dirty } hint
      | none =>
        let s1 := s.countLookup h false
        if allocates hint = true ∧ s.lineSt (a / 64) = .ok then s1.allocLine h c (a / 64) hint dirty else s1

/-- The lines of a range accessed at their homes; a write leaves its bytes dirty. -/
def homeRange (s : State) (c a n : Nat) (hint : BitVec 2) (write : Bool) : State :=
  (linesOf a n).foldl (fun s l =>
    let lo := max a (64 * l)
    s.homeAccess c lo hint (if write then byteMask lo (min (a + n) (64 * l + 64) - lo) else 0)) s

/-- Hint of an access at a home that another base die sends there. [DESIGN CHOICE, log 123] -/
def homeHint (hint : BitVec 2) : BitVec 2 := if allocates hint then 0 else 1

/-- Bytes read through a remote line, and bytes merged into one. -/
def remoteRead (x : CacheLine) (a n : Nat) : List Byte := (x.bytes.drop (a % 64)).take n

def remoteWrite (x : CacheLine) (a : Nat) (bs : List Byte) : CacheLine :=
  { x with bytes := x.bytes.take (a % 64) ++ bs ++ x.bytes.drop (a % 64 + bs.length) }

/-- A load of `n` bytes by a unit of die `p` for context `c`, with a cache hint: the bytes and the state. -/
def cachedRead (s : State) (p c a n : Nat) (hint : BitVec 2) : List Byte × State :=
  if s.isRemote p a = true ∧ s.leasedAt a = false then
    let hp := s.hintAt p c hint
    match s.remote? p c (a / 64) with
    | some x =>
      let s1 := s.countLookup p true
      (remoteRead x a n, if hp = 3 then s1.evict x else s1.useWith c x hp)
    | none =>
      let bs := s.bytesAt a n
      let s1 := (s.countLookup p false).homeAccess c a (homeHint hint) 0
      (bs, if allocates hp = true ∧ s.lineSt (a / 64) = .ok then s1.allocLine p c (a / 64) hp 0 else s1)
  else (s.bytesAt a n, s.homeAccess c a hint 0)

/-- A store by a unit of die `p` for context `c`. A STREAM store updates a hit in place and is written at the home. -/
def cachedWrite (s : State) (p c a : Nat) (bs : List Byte) (hint : BitVec 2) : State :=
  let mask := byteMask a bs.length
  if s.isRemote p a = true ∧ s.leasedAt a = false then
    let hp := s.hintAt p c hint
    match s.remote? p c (a / 64) with
    | some x =>
      let s1 := s.countLookup p true
      let y := remoteWrite x a bs
      if hp = 1 then ((s1.homeAccess c a 1 0).writeBytes a bs).useLine y
      else s1.useWith c { y with dirty := x.dirty ||| mask } hp
    | none =>
      let s1 := (s.countLookup p false).homeAccess c a (homeHint hint) 0
      let s2 := if allocates hp = true ∧ s.lineSt (a / 64) = .ok then s1.allocLine p c (a / 64) hp 0 else s1
      match s2.remote? p c (a / 64) with
      | some x => s2.setLine { remoteWrite x a bs with dirty := x.dirty ||| mask }
      | none => s2.writeBytes a bs
  else (s.homeAccess c a hint mask).writeBytes a bs

/-- A line brought into the shared cache of base die `p` (R202). -/
def prefetchLine (s : State) (p c a : Nat) (hint : BitVec 2) : State :=
  if s.lineSt (a / 64) = .ok then (s.cachedRead p c a 1 hint).2 else s

/-! ### Releases, acquires and changes of ways (R297 to R299) -/

/-- Every dirty remote line of the context on a die written back; a line so written loses its protection (R296, R299). -/
def releaseLines (s : State) (p c : Nat) (bad : List Nat) : State :=
  let s1 := s.writeBackAll (s.cache.filter fun x => x.die == p && x.ctx == c && !x.home) bad
  { s1 with cache := s1.cache.map fun x =>
      if x.die = p ∧ x.ctx = c ∧ x.home = false then { x with dirty := 0, keep := x.keep && x.dirty == 0 } else x }

/-- An acquire of a context on base die `p`: its remote lines are invalidated, clean or dirty, and what it requested before is not
allocated when it arrives (R299, R301). -/
def acquireLines (s : State) (p c : Nat) : State :=
  { s with
    cache := s.cache.filter fun x => !(x.die == p && x.ctx == c && !x.home),
    reqs := s.reqs.mapKV fun _ r =>
      if r.tile / 256 = p ∧ r.ctx / 128 = c ∧ r.done = false ∧ r.dest = .local ∧ allocates r.hint = true
        then (match r.kind with
          | .load => { r with hint := 1 }
          | .store => { r with hint := 1 }
          | .prefetch => { r with hint := 1 }
          | .append => { r with hint := 1 }
          | _ => r)
        else r }

/-- Beyond half the ways that their context now holds, the least recently used protected lines of a set lose their protection (R296). -/
def trimKeep (s : State) (p : Nat) : State :=
  (s.cache.filter fun x => x.die == p && x.keep).foldl (fun s x =>
    let kept := (s.cache.filter fun y => y.die == p && setOf y.line == setOf x.line && y.ctx == x.ctx && y.keep).length
    if (s.waysOf p x.ctx).length / 2 < kept then s.setLine { x with keep := false } else s) s

/-- The dirty line that an access of base die `p` for context `c` puts out of the cache: found uncorrectable at its write-back, it is
stored at its home with poison (R301, R315). [DESIGN CHOICE, log 25] -/
def victimBad (s : State) (p c a : Nat) : State :=
  if (s.held? p c (a / 64)).isSome then s
  else match (s.wayFor p c (a / 64) (decide (s.homeDie a = some p))).bind fun w => s.inWay? p w (setOf (a / 64)) with
    | some x => if x.dirty = 0 then s else (s.writeBackBad x).dropLine x
    | none => s

/-- The lines of a way written back and invalidated (R297). -/
def flushWay (s : State) (p w : Nat) (bad : List Nat) : State :=
  let mine := s.cache.filter fun x => x.die == p && x.way == w
  mine.foldl dropLine (s.writeBackAll mine bad)

/-- Remote lines beyond the limit leave their sets, the least recently used first (R298). [DEDUCED, log 43] -/
def trimRemote (s : State) (p : Nat) : State :=
  let cap := s.fld (R.scaCtl p) F.scaCtl_remote_max
  let mine := s.cache.filter fun x => x.die == p && !x.home
  mine.foldl (fun s x =>
    let n := (s.cache.filter fun y => y.die == p && !y.home && setOf y.line == setOf x.line).length
    if cap < n then s.evict x else s) s

end State

end Sys2Proof.Machine
end

