-- ==== Sys2Proof/Machine/QueueOps.lean ====
section
/-! DEFINITION. Shared operations of the data movement queues: descriptors, their checks and byte streams, completion
records, abnormal ends and cancellation (R351 to R382). -/

namespace Sys2Proof.Machine

/-! ### Queue names -/

def queueKey : QId → Nat
  | .tile t q => t.val * 8 + q.val
  | .bulk p q => 16384 + p.val * 80 + q.val

def isBulk (k : Nat) : Bool := decide (16384 ≤ k)

/-- Tile of a tile queue, and queue number. -/
def qTile (k : Nat) : Nat := k / 8
def qNum (k : Nat) : Nat := if k < 16384 then k % 8 else (k - 16384) % 80

def qPart (k : Nat) : Nat := if k < 16384 then k / 8 / 256 else (k - 16384) / 80

/-- Offsets of the queue's registers. -/
def qCtl (k : Nat) : Nat := if k < 16384 then R.dmaQctl (qTile k) (qNum k) else R.bulkQctl (qPart k) (qNum k)
def qRing (k : Nat) : Nat := qCtl k + 0x10
def qProd (k : Nat) : Nat := qCtl k + 0x20

namespace State

def queue (s : State) (k : Nat) : Queue := s.queues.getD k Queue.reset

def setQueue (s : State) (k : Nat) (q : Queue) : State := { s with queues := s.queues.set k q }

/-- Firmware queues 64 to 79 of a partition belong to no context (R377). -/
def fwQueue (k : Nat) : Bool := isBulk k && decide (64 ≤ qNum k)

/-- An engine reset left the queue disabled (R526). -/
def queueOff (s : State) (k : Nat) : Bool :=
  s.offEngines.contains (if k < 16384 then (qPart k, 2, k) else (qPart k, 7, qNum k))

/-- Index of the context that owns a queue. -/
def qCtx (s : State) (k : Nat) : Option Nat :=
  if k < 16384 then (if (s.tile (qTile k)).ctxValid then some (s.tile (qTile k)).ctxIndex else none)
  else if fwQueue k then none
  else if s.fld (qCtl k) F.bulkQctl_valid = 1 then some (s.fld (qCtl k) F.bulkQctl_ctx / 128) else none

/-- Where the descriptor and data addresses of a queue lie. -/
def qResolve (s : State) (k w g n : Nat) (p : Perm) : Option Loc :=
  if fwQueue k then s.resolveFw g
  else match s.qCtx k with
    | some c => s.resolve c w g n p
    | none => none

/-- The context that an engine's accesses carry: 512, which no context has, for a queue without one. -/
def qTag (s : State) (k : Nat) : Nat := (s.qCtx k).getD 512

/-- Line requests of a queue that peers have not answered (R358, R374). -/
def qInFlight (s : State) (k : Nat) : Nat :=
  (s.fab.out.filter fun f => match f.who with
    | .dmaRead q _ => q == k
    | .dmaWrite q _ => q == k
    | .dropped q => q == k
    | _ => false).length

/-- Step number of the context of a queue: TILE.STEP, or the uncommitted step of a bulk queue's context. -/
def qStep (s : State) (k : Nat) : W64 :=
  if k < 16384 then (s.tile (qTile k)).step
  else match s.qCtx k with
    | some c => s.reg (R.ctxCommit c) + 1
    | none => 0

end State

/-! ### Descriptor fields (R351) -/

namespace Desc

def word (d : Desc) (i : Nat) : Nat := (d.words.getD i 0).toNat
def next (d : Desc) : Nat := bitsOf (d.word 0) 43 6 * 64
def swin (d : Desc) : Nat := bitsOf (d.word 1) 59 56
def src (d : Desc) : Nat := bitsOf (d.word 1) 55 0
def dwin (d : Desc) : Nat := bitsOf (d.word 2) 59 56
def dst (d : Desc) : Nat := bitsOf (d.word 2) 55 0
def s0 (d : Desc) : Int := (BitVec.ofNat 32 (bitsOf (d.word 3) 31 0)).toInt
def s1 (d : Desc) : Int := (BitVec.ofNat 32 (bitsOf (d.word 3) 63 32)).toInt
def d0 (d : Desc) : Int := (BitVec.ofNat 32 (bitsOf (d.word 4) 31 0)).toInt
def d1 (d : Desc) : Int := (BitVec.ofNat 32 (bitsOf (d.word 4) 63 32)).toInt
def wd (d : Desc) : Nat := bitsOf (d.word 5) 45 40 + 1
def ws (d : Desc) : Nat := bitsOf (d.word 5) 37 32 + 1
def n1 (d : Desc) : Nat := bitsOf (d.word 5) 31 16 + 1
def n0 (d : Desc) : Nat := bitsOf (d.word 5) 15 0 + 1
def amount (d : Desc) : Nat := bitsOf (d.word 6) 63 32
def sig (d : Desc) : Bool := bitsOf (d.word 6) 30 30 == 1
def handle (d : Desc) : W64 := BitVec.ofNat 64 (bitsOf (d.word 6) 29 0)
def zeroOp (d : Desc) : Bool := bitsOf (d.word 7) 7 6 == 1
def fence (d : Desc) : Bool := bitsOf (d.word 7) 5 5 == 1
def cf (d : Desc) : Bool := bitsOf (d.word 7) 4 4 == 1
def burst (d : Desc) : Nat := bitsOf (d.word 7) 3 0

/-- Stream bytes of one row, and of the whole descriptor (R352). -/
def rowLen (d : Desc) : Nat := d.n0 * d.ws
def total (d : Desc) : Nat := d.n1 * d.rowLen

/-- 56-bit address arithmetic keeps the device ID; a sum outside the device's 44-bit space gives 2^56, which lies in no window. -/
def addrPlus (base : Nat) (off : Int) : Nat :=
  let a := ((base % 2 ^ 44 : Nat) : Int) + off
  if a < 0 ∨ (2 : Int) ^ 44 ≤ a then 2 ^ 56 else base / 2 ^ 44 * 2 ^ 44 + a.toNat

/-- Source and destination address of stream byte `k` (R352). -/
def srcAt (d : Desc) (k : Nat) : Nat :=
  let r := k / d.rowLen
  let j := k % d.rowLen
  addrPlus d.src ((r : Int) * d.s1 + ((j / d.ws : Nat) : Int) * d.s0 + ((j % d.ws : Nat) : Int))

def dstAt (d : Desc) (k : Nat) : Nat :=
  let r := k / d.rowLen
  let j := k % d.rowLen
  addrPlus d.dst ((r : Int) * d.d1 + ((j / d.wd : Nat) : Int) * d.d0 + ((j % d.wd : Nat) : Int))

def srcAddrs (d : Desc) : List Nat := if d.zeroOp then [] else (List.range d.total).map d.srcAt
def dstAddrs (d : Desc) : List Nat := (List.range d.total).map d.dstAt

/-- Cache hint of the destination writes or the source reads (R351, R355). -/
def hint (d : Desc) (dst : Bool) : BitVec 2 :=
  BitVec.ofNat 2 (if dst then bitsOf (d.word 5) 51 50 else bitsOf (d.word 5) 49 48)

/-- Reserved values and non-zero zero fields. -/
def malformed (d : Desc) : Bool :=
  bitsOf (d.word 0) 63 44 != 0 || bitsOf (d.word 0) 5 0 != 0 || bitsOf (d.word 1) 63 60 != 0
    || bitsOf (d.word 2) 63 60 != 0 || bitsOf (d.word 5) 63 55 != 0 || bitsOf (d.word 5) 51 50 == 3
    || bitsOf (d.word 5) 47 46 != 0 || bitsOf (d.word 5) 39 38 != 0 || bitsOf (d.word 6) 31 31 != 0
    || (!d.sig && bitsOf (d.word 6) 29 0 != 0) || bitsOf (d.word 7) 63 16 != 0 || bitsOf (d.word 7) 15 8 != 1
    || decide (bitsOf (d.word 7) 7 6 ≥ 2) || (d.zeroOp && (d.swin != 0 || d.src != 0 || d.word 3 != 0))
    || d.rowLen % d.wd != 0

end Desc

/-- Stream bytes from `pos` that lie in one line of the source, at most 64. [DEDUCED, log 52] -/
def chunkLen (d : Desc) (pos : Nat) : Nat :=
  let addr (i : Nat) : Nat := if d.zeroOp then d.dstAt (pos + i) else d.srcAt (pos + i)
  let room := min 64 (d.total - pos)
  ((List.range room).takeWhile fun i => addr i == addr 0 + i && addr i / 64 == addr 0 / 64).length

/-- Local-store block (tile × 512 + block) of a device address, if it is one. -/
def lsBlock? (a : Nat) : Option Nat :=
  if 0xE8000000000 ≤ a ∧ a < 0xE8100000000 then some ((a - 0xE8000000000) / 0x1000) else none

/-- The 44-bit address of a global address that lies here and not in a host window. -/
def State.hereAddr (s : State) (k w g n : Nat) (p : Perm) : Option Nat :=
  match s.qResolve k w g n p with
  | some (.here a) => some a
  | _ => none

namespace State

/-- One byte of a source or destination passes the checks of R353. -/
def byteOk (s : State) (k w g : Nat) (p : Perm) : Bool :=
  match s.qResolve k w g 1 p with
  | none => false
  | some (.here a) =>
    match s.region a with
    | .hole => false
    | .registers => false
    | .localStore _ => !isBulk k
    | _ => true
  | some _ => true

/-- A byte of a source or destination as one number: its global address, or its place in host memory. -/
def placeOf (s : State) (k w g : Nat) (p : Perm) : Nat :=
  match s.qResolve k w g 1 p with
  | some (.host a) => 2 ^ 64 + a
  | _ => g

def minOf (l : List Nat) : Nat := l.foldl min (2 ^ 130)
def maxOf (l : List Nat) : Nat := l.foldl max 0

/-- The checks of R353 other than those of the burst. -/
def descOk (s : State) (k : Nat) (d : Desc) : Bool :=
  let sa := d.srcAddrs
  let da := d.dstAddrs
  !d.malformed
    && sa.all (fun g => s.byteOk k d.swin g .rd) && da.all (fun g => s.byteOk k d.dwin g .wr)
    && (!d.sig || match s.qCtx k with | some c => s.handleOk c d.handle | none => true)
    && (d.zeroOp || (let from' := sa.map fun g => s.placeOf k d.swin g .rd
        let to' := da.map fun g => s.placeOf k d.dwin g .wr
        decide (maxOf from' < minOf to') || decide (maxOf to' < minOf from')))
    && (!d.lo || da.all fun g => match lsBlock? (g % 2 ^ 44) with | some b => b / 512 == qTile k | none => false)

/-- A descriptor, chain head or ring may not lie in a local store (R354). -/
def tableOk (s : State) (k w g n : Nat) (p : Perm) : Bool :=
  match s.qResolve k w g n p with
  | some (.here a) =>
    (match s.region a with | .localStore _ => false | .hole => false | .registers => false | _ => true)
  | some _ => true
  | none => false

end State

/-! ### Records and abnormal ends -/

namespace State

/-- Bytes that a tile queue reads for itself, as a reader in its tile's program order: through the remote lines that its context has on
the base die (R354). -/
def queueView (s : State) (k a n : Nat) : List Byte :=
  if isBulk k then s.bytesAt a n
  else (linesOf a n).flatMap fun l =>
    let lo := max a (64 * l)
    let m := min (a + n) (64 * l + 64) - lo
    match s.cache.find? fun x => x.die == qPart k && x.line == l && !x.home && s.qCtx k == some x.ctx with
    | some x => (x.bytes.drop (lo % 64)).take m
    | none => s.bytesAt lo m

/-- The two windows of a ring: its records and its consumer word. -/
def ringInfo (s : State) (k : Nat) : Nat × Nat × Nat :=
  let w := s.fld (qRing k) F.dmaQring_win
  (w, s.placeIn (s.qCtx k) w (s.fld (qRing k) F.dmaQring_base * 32), s.fld (qRing k) F.dmaQring_size)

def ringOk (s : State) (k : Nat) : Bool :=
  let (w, b, n) := s.ringInfo k
  s.tableOk k w b (32 * 2 ^ n + 8) .wr

def ringFull (s : State) (k : Nat) : Bool :=
  let (w, b, n) := s.ringInfo k
  match s.qResolve k w b (32 * 2 ^ n + 8) .wr with
  | some l =>
    -- the consumer word of a ring outside the device is free [DESIGN CHOICE, log 52]
    let w := match l with
      | .here a => s.queueView k (a + 32 * 2 ^ n) 4
      | _ => (List.range 4).map (Config.remoteByte (s.draw).1)
    decide ((s.fld (qProd k) F.dmaQprod_prod + 2 ^ 32 - leVal w) % 2 ^ 32 ≥ 2 ^ n)
  | none => false

/-- The ring cannot take a record now: its slot or its consumer word lies in a quiesced slice or stack, on a leased line, or where no
access gets to (R281, R290, R337, R395). -/
def ringWaits (s : State) (k : Nat) : Bool :=
  let (w, b, n) := s.ringInfo k
  match s.qResolve k w b (32 * 2 ^ n + 8) .wr with
  | some (.here a) =>
    let slot := a + 32 * (s.fld (qProd k) F.dmaQprod_prod % 2 ^ n)
    s.waitsAt slot 32 || s.waitsAt (a + 32 * 2 ^ n) 8 || s.shutOut (qPart k) (s.qTag k) slot
  | _ => false

/-- A record waits in the arbiter of a leased line of its ring (R337). -/
def ringHold (s : State) (k : Nat) (x : HeldAccess) : State :=
  let (w, b, n) := s.ringInfo k
  match s.qResolve k w b (32 * 2 ^ n + 8) .wr with
  | some (.here a) =>
    let slot := a + 32 * (s.fld (qProd k) F.dmaQprod_prod % 2 ^ n)
    if s.waitsAt slot 32 then s.holdAt slot 32 x else s.holdAt (a + 32 * 2 ^ n) 8 x
  | _ => s

/-- The 32 bytes of a completion record (R364). -/
def recordBytes (s : State) (k status bytes desc : Nat) (cycle : W64) : List Byte :=
  let (_, _, n) := s.ringInfo k
  let prod := s.fld (qProd k) F.dmaQprod_prod
  let id := if k < 16384 then (s.tile (qTile k)).ctxIndex * 128 + (s.tile (qTile k)).ctxGen
    else match s.qCtx k with | some _ => s.fld (qCtl k) F.bulkQctl_ctx | none => 0
  leBytes 8 (status * 2 ^ 48 + (if k < 16384 then qNum k else 0x80 + qNum k) * 2 ^ 40 + bytes % 2 ^ 40)
    ++ leBytes 8 (id * 2 ^ 48 + desc % 2 ^ 44) ++ leBytes 8 (s.qStep k).toNat
    ++ leBytes 8 ((if prod.testBit n then 0 else 2 ^ 63) + cycle.toNat % 2 ^ 48)

/-- A completion record written at slot prod mod 2^k, and prod incremented (R365). -/
def writeRecord (s : State) (k status bytes desc : Nat) : State :=
  let (i, s) := s.draw
  let (w, b, n) := s.ringInfo k
  let prod := s.fld (qProd k) F.dmaQprod_prod
  let bs := s.recordBytes k status bytes desc (Config.cycles i)
  let s1 := match s.qResolve k w b (32 * 2 ^ n + 8) .wr with
    | some (.here a) => s.writeBytes (a + 32 * (prod % 2 ^ n)) bs
    | some l => s.putAt (qPart k) (s.qTag k) (match l with
        | .peer d a => .peer d (a + 32 * (prod % 2 ^ n))
        | .host a => .host (a + 32 * (prod % 2 ^ n))
        | x => x) bs .signal
    | none => s
  s1.setFld (qProd k) F.dmaQprod_prod ((prod + 1) % 2 ^ 32)

/-- The error record of a descriptor's abnormal end (class DMA_END). -/
def dmaEndRecord (s : State) (k status bytes desc : Nat) : State :=
  s.record (qPart k)
    { cls := 6, sev := if (s.qCtx k).isSome then 2 else 1, device := false, part := qPart k, ctx := (s.qCtx k).map s.ctxId,
      kind := if k < 16384 then 2 else 7, index := if k < 16384 then k else qNum k, addr := desc, addrKind := 1,
      synd := status * 2 ^ 48 + (if k < 16384 then qNum k else 0x80 + qNum k) * 2 ^ 40 + bytes % 2 ^ 40,
      step := (s.qStep k).toNat, addrErr := false }

/-- A descriptor ends with a status other than OK: error record, completion record unless the ring takes none, no signal,
queue halted (R370). A record without room in the ring waits (R365). `d` names it in the queue. -/
def abnormalEnd (s : State) (k : Nat) (a : Active) (status bytes : Nat) (noRecord : Bool) : State :=
  let s1 := s.dmaEndRecord k status bytes a.d.addr
  let none' := noRecord || !s1.ringOk k
  let wait := !none' && (s1.ringFull k || s1.ringWaits k)
  let s2 := if none' || wait then s1 else s1.writeRecord k status bytes a.d.addr
  let q := s2.queue k
  let a' := { a with status := status, owes := if wait then some bytes else none }
  let act := if q.active.any (fun x => x.d.addr == a.d.addr && x.status == 0) then
      q.active.map fun x => if x.d.addr = a.d.addr ∧ x.status = 0 then a' else x
    else q.active ++ [a']
  s2.setQueue k { q with st := if q.st = .run ∨ q.st = .stopped then .halted else q.st, active := act,
                         lastStatus := status }

/-- Blocks that queue `k` owns in FILL. -/
def ownedFill (T : Tile) (k : Nat) : List Nat :=
  (T.tags.rows.filter fun r => r.2.st == .fill && r.2.owner == k).map (·.1)

/-- Every block that a queue holds in FILL goes to FREE, and its reads in flight end (R42, R372). -/
def freeBlocks (s : State) (k : Nat) : State :=
  let q := s.queue k
  let ends := q.active.flatMap (·.rd)
  let s1 := ends.foldl (fun s b =>
      let T := s.tile (b / 512)
      let g := T.tag (b % 512)
      let g1 := { g with dmaReads := g.dmaReads - 1 }
      let g2 : BlkTag := if g1.st = .drain ∧ g1.reads = 0 ∧ g1.dmaReads = 0 then { g1 with st := .free } else g1
      s.setTile (b / 512) (T.setTag (b % 512) g2)) s
  { s1 with tiles := s1.tiles.mapKV fun _ T =>
      { T with tags := T.tags.mapKV fun _ g => if g.st = .fill ∧ g.owner = k then BlkTag.free else g } }

/-- Steps 1 and 2 of a cancellation (R372): nothing more is fetched or started, and what has not started is dropped. -/
def startCancel (s : State) (k : Nat) : State :=
  let q := s.queue k
  -- a descriptor that ended at its fetch has its record (R370)
  let ended := q.active.any fun a => a.status != 0 && a.phase == .fetch
  let first := match q.fetched with
    | d :: _ => d.addr
    | [] => match (if ended then none else q.chain) with
      | some h => h.addr
      | none => match q.heads with
        | h :: _ => h.addr
        | [] => 0
  s.setQueue k { q with st := .cancelling, heads := [], chain := none, fetched := [], firstDropped := first }

/-- Steps 3 to 7 of a cancellation: blocks in FILL go to FREE, records are written when `rec` asks for them, and the queue
becomes IDLE. -/
def endCancel (s : State) (k : Nat) (rec : Bool) : State :=
  let q := s.queue k
  let s1 := s.freeBlocks k
  let put (s : State) (x : Nat × Nat × Nat) : State :=
    if s.ringOk k && !s.ringFull k then s.writeRecord k x.1 x.2.1 x.2.2
    else
      let q := s.queue k
      s.setQueue k { q with dropped := satAdd 8 q.dropped 1 }
  let owed := q.active.filterMap fun a => a.owes.map fun n => (a.status, n, a.d.addr)
  let recs := owed ++ (q.active.filter fun a => a.d.cf && a.status == 0).map (fun a => (St.cancelled, a.pos, a.d.addr))
    ++ [(St.cancelled, 0, q.firstDropped)]
  let s2 := if rec then recs.foldl put s1 else s1
  let q2 := s2.queue k
  -- requests in flight stay counted, and end nothing any more (R374)
  let out := s2.fab.out.map fun f => match f.who with
    | .dmaRead j _ => if j = k then { f with who := .dropped k } else f
    | .dmaWrite j _ => if j = k then { f with who := .dropped k } else f
    | _ => f
  { s2 with fab := { s2.fab with out := out } }.setQueue k
    { Queue.reset with done := q2.done, lastStatus := q2.lastStatus, dropped := q2.dropped }

/-- A whole cancellation with no records (R374, R494 stage 2). -/
def dropQueue (s : State) (k : Nat) : State := (s.startCancel k).endCancel k false

/-- Queues of a context: the eight of each of its tiles, and its bulk queues. -/
def ctxQueues (s : State) (c : Nat) : List Nat :=
  (s.queues.keys.filter fun k => s.qCtx k == some c)

/-- A chain head added to a queue: an idle queue, and one whose chain has been fetched to its end, starts fetching it (R214, R215,
R356). -/
def addHead (s : State) (k : Nat) (h : ChainHead) : State :=
  let q := s.queue k
  if q.st = .idle then
    s.setQueue k { Queue.reset with st := .run, chain := some h, done := q.done, lastStatus := q.lastStatus }
  else if q.st = .run ∧ q.chain = none ∧ q.heads = [] then s.setQueue k { q with chain := some h }
  else s.setQueue k { q with heads := q.heads ++ [h] }

/-- A local-store block may not be written by the queue yet: it is neither FREE nor in FILL of the queue. -/
def dstBusy (s : State) (k b : Nat) : Bool :=
  let g := (s.tile (b / 512)).tag (b % 512)
  !(g.st == .free || (g.st == .fill && g.owner == k))

/-- A local-store block may not be read by a queue yet: it is not READY, or has 15 reads in flight. -/
def srcBusy (s : State) (b : Nat) : Bool :=
  let g := (s.tile (b / 512)).tag (b % 512)
  !(g.st == .ready && decide (g.reads + g.dmaReads < 15))

/-- The tags that the chunk at a stream position needs are not all as R43 and R360 ask: 1 destination, 2 source, 0 none. -/
def tagWait (s : State) (k : Nat) (d : Desc) (pos : Nat) (taken : List Nat) : Nat :=
  let at' := (List.range (chunkLen d pos)).map (pos + ·)
  let dst := at'.any fun i => (lsBlock? (d.dstAt i % 2 ^ 44)).any (s.dstBusy k)
  let src := !d.zeroOp && at'.any fun i => (lsBlock? (d.srcAt i % 2 ^ 44)).any fun b => !taken.contains b && s.srcBusy b
  if dst then 1 else if src then 2 else 0

/-- Lines that the started descriptors of a running queue have still to move, those that wait on a tag left out. -/
def linesLeft (s : State) (k : Nat) : Nat :=
  let q := s.queue k
  if q.st ≠ .run ∧ q.st ≠ .stopped then 0
  else q.active.foldl (fun n a =>
    n + (if a.status = 0 ∧ s.tagWait k a.d a.pos a.rd = 0 then ceilDiv (a.d.total - a.pos) 64 else 0)) 0

/-- What a queue waits for, coded as DMA.QSTATq.wait. -/
def qwait (s : State) (k : Nat) : Nat :=
  let q := s.queue k
  let full : Bool := (match q.active with
    | a :: _ => a.status == 0 && a.pos == a.d.total && a.d.cf && s.ringFull k
    | [] => false) || q.active.any fun a => a.owes.isSome
  let tagged := q.active.findSome? fun a =>
    if a.status = 0 ∧ a.pos < a.d.total ∧ s.tagWait k a.d a.pos a.rd ≠ 0 then some (s.tagWait k a.d a.pos a.rd) else none
  let start := match q.fetched with
    | d :: _ => if d.fence ∧ q.active ≠ [] then 5 else s.tagWait k d 0 []
    | [] => 0
  let w := tagged.getD start
  if full = true then 3
  else if w = 0 ∧ bitsOf (s.reg (qCtl k)).toNat 8 0 < s.qInFlight k + s.linesLeft k then 4
  else w

/-- DMA.QSTATq as it stands (R381): the line requests in flight are those that peers have not answered, and as many more as the
outstanding limit and the bytes left of the started descriptors allow. A queue with a record to write still runs (R365).
[DEDUCED, log 52] -/
def qstat (s : State) (k : Nat) : W64 :=
  let q := s.queue k
  let held := s.qInFlight k
  let infl := min 256 (held + min (s.linesLeft k) (bitsOf (s.reg (qCtl k)).toNat 8 0 - held))
  let st : QSt := if q.st = .halted ∧ (q.active.any fun a => a.owes.isSome) = true then .run else q.st
  BitVec.ofNat 64 (min q.done 0xFFFF * 2 ^ 48 + q.dropped * 2 ^ 40 + infl * 2 ^ 31 + q.fetched.length * 2 ^ 26
    + q.heads.length * 2 ^ 23 + q.lastStatus * 2 ^ 20 + s.qwait k * 2 ^ 8 + st.code)

/-- DMA.QNEXTq: the first descriptor not started. -/
def qnext (s : State) (k : Nat) : W64 :=
  let q := s.queue k
  match q.fetched, q.chain, q.heads with
  | d :: _, _, _ => BitVec.ofNat 64 (d.addr % 2 ^ 44 + 1)
  | [], some h, _ => BitVec.ofNat 64 (h.addr % 2 ^ 44 + 1)
  | [], none, h :: _ => BitVec.ofNat 64 (h.addr % 2 ^ 44 + 1)
  | [], none, [] => 0

/-- A descriptor writes somewhere other than its tile's own local store (R362). -/
def writesOutside (k : Nat) (d : Desc) : Bool :=
  d.dstAddrs.any fun g => match lsBlock? (g % 2 ^ 44) with | some b => b / 512 != qTile k | none => true

/-- The chains that a wait looks at: those of one step (R363), or those posted before an operation (R206). -/
inductive ChainSel where
  | inStep (n : W64)
  | before (id : Nat)
deriving DecidableEq, Repr

def ChainSel.has (x : ChainSel) (step : W64) (mark : Nat) : Bool :=
  match x with
  | .inStep n => step == n
  | .before id => decide (mark < id)

/-- A queue holds step.wait, or a fence, for the chains selected (R362). -/
def queueHolds (s : State) (k : Nat) (x : ChainSel) : Bool :=
  let q := s.queue k
  let head (h : ChainHead) : Bool := !h.lo && x.has h.step h.mark
  let desc (d : Desc) : Bool := !d.lo && x.has d.step d.mark && writesOutside k d
  q.heads.any head || q.chain.any head || q.fetched.any desc || q.active.any fun a => desc a.d

def tileQueues (t : Nat) : List Nat := (List.range 8).map (t * 8 + ·)

end State

end Sys2Proof.Machine
end

