-- ==== Sys2Proof/Machine/MemOps.lean ====
section
/-! DEFINITION. What a memory request does where it is performed: line outcomes and their records, remote lines of the
shared cache, atomics, hole and scratch checks, leased lines (R202 to R212, R273, R293 to R302, R307, R308, R337). -/

namespace Sys2Proof.Machine

open Sys2Proof.Fp

/-! ### Pending repairs (R283, R316, R540) -/

/-- A repair that waits for the next partition reset. -/
def deferRepair (s : State) (r : MapRec) : State :=
  if s.board.repairs.contains r then s else { s with board := { s.board with repairs := s.board.repairs ++ [r] } }

/-- A record added to the package map: firmware writes the whole map to the other copy (R406). -/
def addMapRec (s : State) (r : MapRec) : State :=
  { s with board := { s.board with flash := s.board.flash.writeMap (s.board.flash.mapRecs ++ [r]) } }

/-- REPAIR record of a map record type, with severity INFO or REMOVED. -/
def repairRecord (s : State) (p kind index typ : Nat) (removed : Bool) : State :=
  s.record p (ErrRec.mk0 0x11 (if removed then 4 else 0) p kind index typ)

/-- Windows of kinds that name memory of this device. -/
def Window.here (x : Window) : Bool := x.valid && x.kind != 5 && x.kind != 6

def overlaps (a b n m : Nat) : Bool := decide (a ≤ m) && decide (n ≤ b)

/-- No context has a window over bytes `lo` to `hi`, now or at the next tick. -/
def unwindowed (s : State) (lo hi : Nat) : Bool :=
  s.ctxs.vals.all fun x => (x.windows.vals ++ x.nextWindows.elim [] (·.vals)).all fun w =>
    !w.here || !(overlaps w.base w.limit lo hi)

/-- A capacity stack is retired (R291, R316). -/
def retireStack (s : State) (n : Nat) : State :=
  let s1 := s.setFld R.devStacks F.devStacks_retired (setBitsOf (s.fld R.devStacks F.devStacks_retired) n n 1)
  let s2 := addMapRec (s1.setFld (R.capStatus (n / 4) (n % 4)) F.capStatus_retired 1) (MapRec.field 8 n 0)
  repairRecord s2 (n / 4) 4 n 8 true

/-- A stack that fails is retired once its contents have moved: no window of a context covers it any more (R316, R317).
[DEDUCED, log 32] -/
def failStack (s : State) (n : Nat) : State :=
  if unwindowed s (capBase n) (capBase n + 0xFFFFFFFFF) then retireStack s n else deferRepair s (MapRec.field 8 n 0)

/-- The partition at whose home a region lay before it was retired. -/
def homeOfRetired (s : State) (a : Nat) : Nat := { s with holes := [] }.homeOf a

/-- The record of a retired region is written once no window covers live data of it (R317, R409). -/
def recordRegion (s : State) (r unit index : Nat) : State :=
  let a := r * 0x200000
  if unwindowed s a (a + 0x1FFFFF) then
    repairRecord (addMapRec s (MapRec.field 9 a 0)) (homeOfRetired s a) unit index 9 true
  else deferRepair s (MapRec.field 9 a (unit * 2 ^ 24 + index))

/-- Stacks that waited for their contents to move, and the records of regions that did. -/
def retireMoved (s : State) : State :=
  let l := s.board.repairs.filter fun r => r.typ == 8 || r.typ == 9
  l.foldl (fun s r => if r.typ = 8 then failStack s r.a else recordRegion s (r.a / 0x200000) (r.b / 2 ^ 24) (r.b % 2 ^ 24))
    { s with board := { s.board with repairs := s.board.repairs.filter fun r => r.typ != 8 && r.typ != 9 } }

/-- A tile is marked for in-field retirement (R540). -/
def markTile (s : State) (t : Nat) : State :=
  { s with board := { s.board with retireTiles := (s.board.retireTiles.filter (· != t)) ++ [t] } }

/-- The slice at index `i` of a partition fails: its tile is retired in the field, or the orphan slot becomes a hole, at the next
partition reset (R283, R284). `pos` is its physical position. [DEDUCED, log 32] -/
def failSlice (s : State) (p i pos : Nat) : State :=
  if i < s.part.tilesPerPart then markTile s (p * 256 + i) else deferRepair s (MapRec.field 5 (p + pos * 2 ^ 16) 1)

/-- Spare rows of a bank in use: the bank is named as word A of a slice row's record (R408). -/
def rowsSpared (s : State) (a : Nat) : Nat := (s.board.flash.mapRecs.filter fun x => x.typ == 6 && x.a == a).length

/-- A spare row for a row of the slice at index `i` of a partition; the slice fails where the bank has none left (R283). -/
def spareSliceRow (s : State) (p i : Nat) (r : MapRec) : State :=
  if 16 ≤ rowsSpared s r.a then failSlice s p i (bitsOf r.a 24 16) else deferRepair s r

/-- SLC.REPAIR of a logical tile shows the records of the slice that its ID names (R319). -/
def showSlice (s : State) (t : Nat) (pos : Nat) : State :=
  let mine := s.board.flash.mapRecs.filter fun x => x.typ == 6 && x.a % 8 == t / 256 && bitsOf x.a 24 16 == pos
  let full := (List.range 32).foldl (fun m b =>
    if (mine.filter fun x => bitsOf x.a 33 32 * 8 + bitsOf x.a 42 40 == b).length = 16 then m + 2 ^ b else m) 0
  (s.setFld (R.slcRepair t) F.slcRepair_spared mine.length).setFld (R.slcRepair t) F.slcRepair_exhausted full

/-- The spare bank of a pseudo-channel takes a bank's place; none when it is in use, or promised to another bank (R316). A bank that
waits for its remap already asks for nothing more. -/
def remapCapBank (s : State) (a : Nat) : Option State :=
  let n := a % 32
  if s.board.repairs.contains (MapRec.field 7 a 0) then some s
  else if (s.fld (R.capRepair (n / 4) (n % 4)) F.capRepair_spare_bank).testBit (bitsOf a 12 8)
      || s.board.repairs.any (fun x => x.typ == 7 && x.a % 2 ^ 13 == a % 2 ^ 13) then none
  else some (deferRepair s (MapRec.field 7 a 0))

/-- Post-package repair of a row, 16 in each pseudo-channel, and the spare bank after them (R316). [DEDUCED, log 100] -/
def repairCapRow (s : State) (r : MapRec) : Option State :=
  let waits := (s.board.repairs.filter fun x => x.typ == 0 && x.a % 2 ^ 13 == r.a % 2 ^ 13).length
  if s.board.flash.rowRepairs.getD (r.a % 32 * 32 + bitsOf r.a 12 8) 0 + waits < 16 then some (deferRepair s r)
  else remapCapBank s r.a

namespace State

/-! ### Records of memory errors -/

/-- Unit kind and index of the controller of an address. -/
def memUnit (s : State) (a : Nat) : Nat × Nat :=
  match s.region a with
  | .slice p i => (3, p * 512 + s.posOfIndex p i)
  | .capacity n => (4, n)
  | .scratch _ => (6, bitsOf a 9 6)
  | .localStore t => (1, t)
  | _ => (12, 0)

/-- Offset of the error counter register of the controller of an address: the slice's or the stack's. -/
def eccReg (s : State) (a : Nat) : Option Nat :=
  match s.region a with
  | .slice p i => if i < s.part.tilesPerPart then some (R.slcEcc (p * 256 + i)) else none
  | .capacity n => some (R.capEcc (n / 4) (n % 4))
  | _ => none

/-- An error record that names a memory address, in the ring of partition `ring`. -/
def memRecordIn (s : State) (ring cls sev a synd : Nat) (c : Option Nat) (addrErr : Bool) : State :=
  let u := s.memUnit a
  s.record ring
    { cls := cls, sev := sev, device := false, part := s.homeOf a, ctx := c, kind := u.1, index := u.2,
      addr := s.localDev * 2 ^ 44 + a, addrKind := 1, synd := synd, step := 0, addrErr := addrErr }

/-- An error record that names a memory address, in the ring of its home partition. -/
def memRecord (s : State) (cls sev a synd : Nat) (c : Option Nat) (addrErr : Bool) : State :=
  s.memRecordIn (s.homeOf a) cls sev a synd c addrErr

/-- An uncorrectable word of a local store: counted at its tile, and its SRAM_UE record (R227, R315). -/
def lsError (s : State) (a sev : Nat) (c : Option Nat) : State :=
  let b := (lsBlock? a).getD 0
  let s1 := (s.bump (R.lsEcc (b / 512)) F.lsEcc_uncorrected 1).setFld (R.lsEcc (b / 512)) F.lsEcc_last_block (b % 512)
  let (syn, s2) := s1.sramSyndrome 1
  s2.memRecord 4 sev a syn c false

/-! ### Thresholds (R518) -/

/-- The slice row or capacity row of an address: whether it is a slice's, the partition or stack and the slice's index, the
row's first address, an address that names the bank, and the repair of the row as a record of the package map, with type 0 for a
post-package repair (R276, R287, R408). -/
structure DramRow where
  slice : Bool
  home : Nat
  index : Nat
  row : Nat
  bank : Nat
  fix : MapRec

def dramRow (s : State) (a : Nat) : Option DramRow :=
  match s.region a with
  | .slice p i =>
    let b := p * 0x2000000000 + i * 0x18000000
    let o := a - b
    some ⟨true, p, i, b + o / 2048 * 2048, b + o % 65536 / 2048 * 2048,
      MapRec.field 6 (p + s.posOfIndex p i * 2 ^ 16 + bitsOf o 15 14 * 2 ^ 32 + bitsOf o 13 11 * 2 ^ 40) (bitsOf o 28 16)⟩
  | .capacity n =>
    let o := a - capBase n
    some ⟨false, n, 0, capBase n + o / 1024 * 1024, 0,
      MapRec.field 0 (n + bitsOf o 16 12 * 2 ^ 8 + bitsOf o 11 10 * 2 ^ 16 + bitsOf o 18 17 * 2 ^ 24) (bitsOf o 35 19)⟩
  | _ => none

/-- One more error of a unit; how many of the earlier ones lie in the window is free. [DESIGN CHOICE, log 31] -/
def countError (s : State) (key : Nat) : Nat × State :=
  let d := s.draw
  let n := min (s.board.counts.getD key 0) (Config.stillCounted d.1) + 1
  (n, { d.2 with board := { d.2.board with counts := d.2.board.counts.set key n } })

def forget (s : State) (keys : List Nat) : State :=
  { s with board := { s.board with counts := keys.foldl SMap.erase s.board.counts } }

/-- A threshold is crossed: the THRESH record, and the counts start again. -/
def crossed (s : State) (a cls n : Nat) (keys : List Nat) : State := (s.memRecord 1 0 a (n + cls * 2 ^ 32) none false).forget keys

/-- The action for a row: a spare row or post-package repair, or what follows it: the slice, or the stack that would need a second
remap, fails (R316). [DEDUCED, log 32] -/
def rowFails (s : State) (x : DramRow) : State :=
  if x.slice then spareSliceRow s x.home x.index x.fix else (repairCapRow s x.fix).getD (failStack s x.home)

/-- Corrected reads of a row: keys of counts end in 0 for a row's corrected and 1 for its uncorrectable reads, 2 for a bank's
uncorrectable rows, 3 for a region's lines, and 4 for a line seen. [DEDUCED, log 32] -/
def countCorrected (s : State) (a : Nat) : State :=
  match s.dramRow a with
  | none => s
  | some x =>
    let (n, s1) := s.countError (x.row * 8)
    if s.fld (R.errThresh (s.homeOf a)) F.errThresh_row_ce ≤ n then
      rowFails (s1.crossed a Config.correctedClass.toNat n [x.row * 8, x.row * 8 + 1]) x
    else s1

/-- Uncorrectable reads of a row, rows of a slice bank, and lines of a region that no row or bank covers. A tile is retired at the
next partition reset; a region at the write of CAP.RETIRE. [DEDUCED, log 32] -/
def countUncorrected (s : State) (a : Nat) : State :=
  match s.dramRow a with
  | none => s
  | some x =>
    let limit (f : Fld) : Nat := s.fld (R.errThresh (s.homeOf a)) f
    let (n, s1) := s.countError (x.row * 8 + 1)
    let (b, s2) := if x.slice = true ∧ n = 1 then s1.countError (x.bank * 8 + 2) else (0, s1)
    if limit F.errThresh_bank_ue ≤ b then
      let s3 := s2.crossed a 2 b [x.bank * 8 + 2]
      failSlice s3 x.home x.index (bitsOf x.fix.a 24 16)
    else if limit F.errThresh_row_ue ≤ n then rowFails (s2.crossed a 2 n [x.row * 8, x.row * 8 + 1]) x
    else
      let line := a / 64 * 64 * 8 + 4
      let area := a / 0x200000 * 0x200000 * 8 + 3
      if s2.board.counts.has line then s2
      else
        let (m, s3) := s2.countError area
        let s4 := { s3 with board := { s3.board with counts := s3.board.counts.set line 1 } }
        if limit F.errThresh_region_ue ≤ m then s4.crossed a 2 m [area] else s4

/-- A corrected or uncorrectable read counts at its controller and for the thresholds. -/
def bumpEcc (s : State) (a : Nat) (uncorr : Bool) : State :=
  match s.eccReg a with
  | none => if uncorr then s.countUncorrected a else s.countCorrected a
  | some r => if uncorr then (s.bump r F.slcEcc_uncorrected 1).countUncorrected a else (s.bump r F.slcEcc_corrected 1).countCorrected a

/-- What a read of `n` bytes at `a` records in the ring of a partition: an uncorrectable line always, a poisoned line on its first
read in a step (R307). [DEDUCED, log 33] -/
def readRecords (s : State) (ring a n : Nat) (c : Option Nat) (sev : Nat) : State :=
  (linesOf a n).foldl (fun s l =>
    match s.lineSt l with
    | .ok => s
    | .ue =>
      let m := s.lineMeta l
      (s.memRecordIn ring 2 sev (64 * l) m.synd.toNat c m.addrErr).bumpEcc (64 * l) true
    | .poison =>
      if s.poisonSeen.contains l then s
      else { (s.memRecordIn ring 3 sev (64 * l) 0 c false) with poisonSeen := l :: s.poisonSeen }) s

/-! ### Access checks at the place -/

/-- A scratch offset belongs to a scratch way of the context (R295). -/
def scratchOk (s : State) (c a : Nat) : Bool :=
  match s.region a with
  | .scratch p =>
    let w := R.scaWay p ((a - scratchBase p) / 0x1000000)
    s.fld w F.scaWay_kind == 2 && s.fld w F.scaWay_ctx == c
  | _ => true

/-- Every line of a range answers: no hole, no retired region, a scratch way of the context (R273, R295). -/
def answers (s : State) (c a n : Nat) : Bool :=
  (linesOf a n).all fun l => (match s.region (64 * l) with | .hole => false | _ => true) && s.scratchOk c (64 * l)

/-! ### Atomics (R208) -/

/-- New value of an atomic on `w` bits. -/
def atomicNew (op : BitVec 4) (w : Nat) (old sb sc : Nat) : Nat :=
  let o := BitVec.ofNat w old
  let b := BitVec.ofNat w sb
  match op.toNat with
  | 0 => (o + b).toNat
  | 1 => (o &&& b).toNat
  | 2 => (o ||| b).toNat
  | 3 => (o ^^^ b).toNat
  | 4 => if o.slt b then o.toNat else b.toNat
  | 5 => if o.slt b then b.toNat else o.toNat
  | 6 => min o.toNat b.toNat
  | 7 => max o.toNat b.toNat
  | 8 => b.toNat
  | 9 => if o = BitVec.ofNat w sc then b.toNat else o.toNat
  | 10 => (Fp.fadd (BitVec.ofNat 32 old) (BitVec.ofNat 32 sb)).toNat
  | _ => o.toNat

/-! ### Performing a request of a tile -/

def partOf (t : Nat) : Nat := t / 256

/-- Result of a request written in it. -/
def answer (s : State) (i : Nat) (r : MemReq) (val : W64) (bad : Bool) : State :=
  { s with reqs := s.reqs.set i { r with done := true, arbiter := false, val := val, bad := bad } }

/-- A chain head that has not been fetched keeps what a later mem.st of its tile replaces in the first 1,024 bytes (R357, R375). -/
def keptBy (h : ChainHead) (flight a : Nat) (old : List Byte) : ChainHead :=
  match h.kept with
  | none => h
  | some l =>
    if h.mark ≤ flight ∧ h.addr < a + old.length ∧ a < h.addr + 1024 then
      { h with kept := some (l ++ ((old.zipIdx.map fun x => (a + x.2, x.1)).filter fun y => !(l.any fun z => z.1 == y.1))) }
    else h

/-- The queues of a tile keep what its mem.st of 8 bytes replaces in descriptors posted before it (R354, R375). [DEDUCED, log 52] -/
def keepOld (s : State) (r : MemReq) : State :=
  (tileQueues r.tile).foldl (fun s k =>
    let q := s.queue k
    let keep (h : ChainHead) : ChainHead := keptBy h r.flight r.addr (s.queueView k r.addr 8)
    let q' := { q with heads := q.heads.map keep, chain := q.chain.map keep }
    if q' = q then s else s.setQueue k q') s

/-- A request performed where it is homed on this device (R204, R207 to R209, R212). -/
def performReq (s : State) (i : Nat) : State :=
  match s.reqs.get? i with
  | none => s
  | some r =>
    let p := partOf r.tile
    let c := r.ctx / 128
    let a := r.addr
    match r.kind with
    | .load =>
      if s.answers c a 8 = false then (s.accessRecord p a St.bound 1 (some r.ctx)).answer i r 0 true
      else if s.statusAt a 8 ≠ .ok then (s.readRecords p a 8 (some r.ctx) 1).answer i r 0 true
      else
        let (bs, s1) := s.cachedRead p c a 8 r.hint
        s1.answer i r (BitVec.ofNat 64 (leVal bs)) false
    | .store =>
      if s.answers c a 8 = false then (s.accessRecord p a St.bound 1 (some r.ctx)).answer i r 0 false
      else ((s.keepOld r).cachedWrite p c a (leBytes 8 r.data.toNat) r.hint).answer i r 0 false
    | .atomic op w =>
      let n := if w then 4 else 8
      if s.answers c a n = false then (s.accessRecord p a St.bound 1 (some r.ctx)).answer i r 0 true
      else if s.statusAt a n ≠ .ok then (s.readRecords p a n (some r.ctx) 1).answer i r 0 true
      else
        let old := s.load a n
        ((s.homeAccess c a 0 (byteMask a n)).store a n (atomicNew op (8 * n) old r.data.toNat r.cmp.toNat)).answer i r
          (BitVec.ofNat 64 old) false
    | .append =>
      let copy := a + 0x20 + 8 * (r.cmp.toNat % 2)
      if s.answers c copy 8 = false then (s.accessRecord p copy St.bound 1 (some r.ctx)).answer i r 0 false
      else (s.cachedWrite p c copy (leBytes 8 (bitsOf r.data.toNat 22 0)) r.hint).answer i r 0 false
    | .prefetch =>
      (if s.answers c a 1 then s.prefetchLine p c a r.hint else s.accessRecord p a St.bound 1 (some r.ctx)).answer i r 0 false
    | .drop =>
      match s.remote? p c (a / 64) with
      | some x => (s.evict x).answer i r 0 false
      | none => s.answer i r 0 false
    | .readObj => s.answer i r (s.obj a) false
    | .signal => (s.setObj a (s.obj a + r.data)).answer i r 0 false
    | .arm => (s.setObj a r.data).answer i r 0 false
    | .regLoad => s.answer i r 0 false
    | .regStore => s.answer i r 0 false

end State

end Sys2Proof.Machine
end

