-- ==== Sys2Proof/Machine/Lifecycle.lean ====
section
/-! DEFINITION. Shared operations of recovery and isolation: unit aborts, the start of revivals, teardowns and resets,
holds, alarms and fences (R346, R442, R464, R473, R493, R496, R520, R522, R529, R532, R535). -/

namespace Sys2Proof.Machine

/-- Context states of CTX.STATE (R462). -/
def CtxSt.free : Nat := 0
def CtxSt.loading : Nat := 1
def CtxSt.ready : Nat := 2
def CtxSt.running : Nat := 3
def CtxSt.held : Nat := 4
def CtxSt.saved : Nat := 5
def CtxSt.teardown : Nat := 6

namespace State

/-! ### Contexts -/

def ctx? (s : State) (c : Nat) : Option Ctx := s.ctxs.get? c

def setCtx (s : State) (c : Nat) (x : Ctx) : State := { s with ctxs := s.ctxs.set c x }

def updCtx (s : State) (c : Nat) (f : Ctx → Ctx) : State :=
  match s.ctxs.get? c with
  | some x => s.setCtx c (f x)
  | none => s

def ctxSt (s : State) (c : Nat) : Nat := s.fld (R.ctxState c) F.ctxState_state

def setCtxSt (s : State) (c v : Nat) : State := s.setFld (R.ctxState c) F.ctxState_state v

def ctxTiles (s : State) (c : Nat) : List Nat := (s.ctxs.get? c).elim [] (·.tiles)

def isSecure (s : State) (c : Nat) : Bool := (s.ctxs.get? c).elim false (·.secure)

/-- The uncommitted step of a context: the step after CTX.COMMIT (R490). -/
def stepOf (s : State) (c : Nat) : W64 := s.reg (R.ctxCommit c) + 1

/-- Physical partitions of a context's logical partition. -/
def ctxParts (s : State) (c : Nat) : List Nat :=
  match s.ctxs.get? c with
  | some x => (List.range 8).filter fun p => x.mask.testBit p
  | none => [c / 64]

/-- The lead partition: the lowest-numbered member (R450). -/
def leadOf (s : State) (c : Nat) : Nat := (s.ctxParts c).headD (c / 64)

/-- PART.KVSTAT of a partition: the last plans of the contexts whose planner runs there, summed (R271). -/
def showKv (s : State) (p : Nat) : State :=
  let mine := s.ctxs.rows.filter fun x => s.leadOf x.1 == p
  let sum (f : Planner → Nat) : Nat := min 0xFFFF ((mine.map fun x => f x.2.planner).sum)
  let r := R.partKvstat p
  (((s.setFld r F.partKvstat_stalled (sum (·.nStalled))).setFld r F.partKvstat_copies (sum (·.nCopies))).setFld r
    F.partKvstat_freed (sum (·.nFreed))).setFld r F.partKvstat_allocated (sum (·.nAlloc))

/-- Contexts whose logical partition includes `p`. -/
def ctxsOn (s : State) (p : Nat) : List Nat := s.ctxs.keys.filter fun c => (s.ctxParts c).contains p

/-- Revival stages 1 to 4 are in progress. -/
def reviving (s : State) (c : Nat) : Bool := s.fld (R.ctxRevive c) F.ctxRevive_state == 1

/-- The tiles of a context issue nothing: a revival, a teardown, a preemption of the whole context, or a reset of a member
partition or of the chip (R494 stage 1, R529, R532 phase 1). -/
def issueStopped (s : State) (c : Nat) : Bool :=
  s.reviving c || s.ctxSt c == CtxSt.teardown || (s.ctxParts c).any s.inReset

/-- A hold for a reason starts; it takes effect at the context's next step boundary (R464). -/
def hold (s : State) (c : Nat) (why : HoldWhy) : State :=
  let s1 := s.updCtx c fun x => if x.holds.contains why then x else { x with holds := x.holds ++ [why] }
  if s.ctxSt c = CtxSt.running then s1.setFld (R.ctxState c) F.ctxState_hold_pending 1 else s1

/-- A hold for a reason ends; the release takes effect at the next tick. A hold that has not taken effect ends with its last reason. -/
def unhold (s : State) (c : Nat) (why : HoldWhy) : State :=
  match s.ctxs.get? c with
  | none => s
  | some x =>
    let left := x.holds.filter (· != why)
    let s1 := s.setCtx c { x with holds := left }
    if left = [] ∧ s.ctxSt c = CtxSt.running then s1.setFld (R.ctxState c) F.ctxState_hold_pending 0 else s1

/-- A pending hold takes effect: every tile of the running context is in STEPWAIT (R462). -/
def settleHold (s : State) (c : Nat) : State :=
  if s.ctxSt c = CtxSt.running ∧ s.fld (R.ctxState c) F.ctxState_hold_pending = 1
      ∧ (s.ctxTiles c).all (fun t => (s.tile t).st == .stepwait) = true then
    (s.setCtxSt c CtxSt.held).setFld (R.ctxState c) F.ctxState_hold_pending 0
  else s

/-! ### Records about a context -/

/-- A record made to name context `c`, when there is one. -/
def nameCtx (s : State) (r : ErrRec) (c : Option Nat) : ErrRec :=
  match c with
  | some x => { r with ctx := some (s.ctxId x), step := (s.stepOf x).toNat }
  | none => r

/-- A record of the lead partition that names a context. -/
def ctxRecord (s : State) (c cls sev kind index synd : Nat) : State :=
  s.record (s.leadOf c) (s.nameCtx (ErrRec.mk0 cls sev (s.leadOf c) kind index synd) (some c))

/-- Host or handle accesses that fail a check (class ACCESS). -/
def accessCheck (s : State) (p check addr : Nat) (c : Option Nat) : State :=
  let r := s.nameCtx (ErrRec.mk0 0x0B 1 p 0x0B 0 (St.bound + check * 2 ^ 8)) c
  s.record p { r with addr := addr, addrKind := if addr = 0 then 0 else 1 }

/-! ### Near-memory units -/

def unitKey (n c : Nat) : Nat := n * 32 + c

def unit (s : State) (k : Nat) : CruUnit := s.units.getD k CruUnit.reset

def setUnit (s : State) (k : Nat) (u : CruUnit) : State := { s with units := s.units.set k u }

/-- Bits c of CRU.STAT follow the units of a stack (R349). -/
def showUnit (s : State) (k : Nat) : State :=
  let u := s.unit k
  let r := R.cruStat (k / 32 / 4) (k / 32 % 4)
  let put (x c : Nat) (b : Bool) : Nat := setBitsOf x c c (if b then 1 else 0)
  let busy := match u.st with | .run => true | .boundary => true | _ => false
  let s1 := s.setFld r F.cruStat_busy (put (s.fld r F.cruStat_busy) (k % 32) busy)
  s1.setFld r F.cruStat_leased (put (s1.fld r F.cruStat_leased) (k % 32) (u.leases.rows != []))

/-- A unit's program aborts (R346): the unit stops, its leases end, and CRU.FAULT and a record tell of it. The arbiter performs the
host-side accesses that waited next (R340). [DEDUCED, log 48 and 50] -/
def abortUnit (s : State) (k status : Nat) (faulty : Bool) : State :=
  let u := s.unit k
  let n := k / 32
  let r := R.cruFault (n / 4) (n % 4)
  let u1 := { u with st := .aborted status faulty, leases := SMap.empty, reads := [], leaseExpired := false }
  let s1 := (s.setUnit k u1).showUnit k
  let s2 := ((s1.bump r F.cruFault_aborts 1).setFld r F.cruFault_last_status status).setFld r F.cruFault_last_unit (k % 32)
  let l := s.launches.get? u.launch
  let fails : Nat := l.elim 0 (·.failures)
  let sev := if faulty = true ∧ fails < 2 then 1
    else if status = St.cancelled ∧ (l.elim false fun x => s.reviving x.ctx) = false then 1 else 2
  s2.record (n / 4) (s2.nameCtx (ErrRec.mk0 8 sev (n / 4) 5 k (status + k % 32 * 2 ^ 8 + fails * 2 ^ 16))
    (l.map (·.ctx)))

/-- Units that a launch runs on. -/
def launchUnits (s : State) (i : Nat) : List Nat :=
  (s.units.rows.filter fun ku => ku.2.launch == i && ku.2.st != .idle).map (·.1)

/-- A launch is dropped without a status: its units go idle with their leases ended (R346, R494 stage 2). -/
def dropLaunch (s : State) (i : Nat) : State :=
  let us := s.launchUnits i
  let s1 := us.foldl (fun s k =>
    let u := { s.unit k with st := .idle, leases := SMap.empty, reads := [], bus := [], leaseExpired := false }
    (s.setUnit k u).showUnit k) s
  { s1 with launches := s1.launches.erase i }

/-- A launch cancelled by a revival or a teardown: its units that still run abort with CANCELLED first (R346). -/
def cancelLaunch (s : State) (i : Nat) : State :=
  ((s.launchUnits i).foldl (fun s k => match (s.unit k).st with
    | .run => s.abortUnit k St.cancelled false
    | .boundary => s.abortUnit k St.cancelled false
    | _ => s) s).dropLaunch i

/-- A launch of a context that is torn down: a started one ends with CANCELLED, and a queued record is dropped unwritten (R333, R346,
R529). -/
def endLaunch (s : State) (i : Nat) : State :=
  match s.launches.get? i with
  | none => s
  | some x =>
    let failed := ((s.launchUnits i).filter fun k => (s.unit k).st != .ended).foldl (fun m k => m + 2 ^ (k % 32)) 0
    let s1 := s.cancelLaunch i
    if x.started then
      (s1.store (x.record + 0x30) 8 (St.cancelled + x.failures * 2 ^ 8 + failed * 2 ^ 16)).engineSignal x.part x.ctx x.handle
        (BitVec.ofNat 64 x.amount)
    else s1

/-- Near-memory launches of a context, started or waiting. -/
def ctxLaunches (s : State) (c : Nat) : List Nat :=
  (s.launches.rows.filter fun il => il.2.ctx == c).map (·.1)

/-! ### Collective rings -/

def collKey (c p : Nat) : Nat := c * 8 + p

def collRing (s : State) (k : Nat) : CollRing := s.coll.getD k CollRing.reset

def setColl (s : State) (k : Nat) (r : CollRing) : State := { s with coll := s.coll.set k r }

/-- Collective rings of a context. -/
def ctxColls (s : State) (c : Nat) : List Nat := s.coll.keys.filter fun k => k / 8 == c

/-! ### Resets -/

/-- A partition reset starts (R522, R523, R532): recorded; not started inside a partition or chip reset. Engine resets
of the partition are absorbed, and its near-memory units stop with their leases ended (R340). The record's unit index names the PLL when one lost lock (R589). [DEDUCED, log 81] -/
def startResetAt (s : State) (p cause index : Nat) : State :=
  let s1 := s.resetRecord p 0x0B index 2 cause false
  if s.inReset p then s1
  else
    let r := R.partRststat p
    let s2 := ((s1.setFld r F.partRststat_phase 1).bump r F.partRststat_count 1).setFld r F.partRststat_last_cause cause
    let s3 := { s2 with engResets := s2.engResets.filter fun e => e.part != p }
    (s3.launches.rows.filter fun l => l.2.part == p).foldl (fun s l => s.dropLaunch l.1) s3

/-- Partitions that a change of grouping resets together with `p` (R449). -/
def regrouping (s : State) (p : Nat) : List Nat :=
  let g := s.board.groupNext
  let rank (q : Nat) : Nat := max (g.getD q 0) (s.fld (R.partGroup q) F.partGroup_size)
  if g.has p then g.keys.filter fun q => q != p && (let n := 2 ^ max (rank p) (rank q); p / n == q / n) else []

/-- A partition reset with those that a change of grouping ties to it. -/
def startPartitionResetOf (s : State) (p cause index : Nat) : State :=
  (s.regrouping p).foldl (fun s q => s.startResetAt q cause index) (s.startResetAt p cause index)

def startPartitionReset (s : State) (p cause : Nat) : State := s.startPartitionResetOf p cause 0

/-- The start sequence has begun and has neither ended nor failed. -/
def starting (s : State) : Bool :=
  s.fld R.bootStatus F.bootStatus_step != 0 && s.fld R.bootStatus F.bootStatus_ready == 0
    && s.fld R.bootStatus F.bootStatus_failed == 0

/-- A chip reset starts (R522, R523, R535): the fabric ports go down, and resets of lower levels are absorbed. -/
def startChipResetOf (s : State) (cause index : Nat) : State :=
  let s1 := s.recordAll (ErrRec.mk0 0x0D 3 0 0x0C index (3 + cause * 2 ^ 8))
  -- requested during a start it is recorded, and the start runs on (R606)
  if s.fld R.devRststat F.devRststat_phase ≠ 0 ∨ s.starting = true then s1
  else
    let r := R.devRststat
    let s2 := ((s1.setFld r F.devRststat_phase 1).bump r F.devRststat_count 1).setFld r F.devRststat_last_cause cause
    let s3 := (List.range 24).foldl (fun s k => s.setFld (R.plPstat k) F.plPstat_state 0) s2
    let s4 := (List.range 8).foldl (fun s p => s.setFld (R.partRststat p) F.partRststat_phase 0) s3
    { s4 with engResets := [] }

def startChipReset (s : State) (cause : Nat) : State := s.startChipResetOf cause 0

/-- POWER_CYCLE_REQ# is asserted and PowerCycleRequest sent (R524). -/
def requestPowerCycle (s : State) (cause : Nat) : State :=
  let s1 := (s.recordAll (ErrRec.mk0 0x0D 5 0 0x10 0 (4 + cause * 2 ^ 8))).setFld R.mgtPins F.mgtPins_power_cycle_req 1
  ({ s1 with board := { s1.board with powerCycleRequest := true } }).emit (.powerCycleRequest cause)

/-! ### Revival -/

/-- A revival of the uncommitted step starts (R493 to R497): issue stops, CTX.REVIVE counts it and records the first
cause; the third one of a step escalates to a partition reset of the lead partition, after which recovery starts it. While a revival is deferred under
R520, or in a teardown or a reset, none starts; one that falls into a hold, or follows a host access cut off by the loss of
the link, waits for the release (R572, R580). [DEDUCED, log 44] -/
def startRevival (s : State) (c cause : Nat) : State :=
  match s.ctxs.get? c with
  | none => s
  | some x =>
    if (s.ctxSt c ≠ CtxSt.running ∧ s.ctxSt c ≠ CtxSt.held) ∨ s.reviving c = true ∨ x.deferred.isSome = true
        ∨ x.waiting.isSome = true ∨ (x.mask ≠ 0 ∧ (s.ctxParts c).any s.inReset = true) then s
    else if s.ctxSt c = CtxSt.held ∨ (x.holds.contains .hostLink = true ∧ cause = 8) then s.setCtx c { x with waiting := some cause }
    else
      let r := R.ctxRevive c
      let n := s.fld r F.ctxRevive_this_step
      if n ≥ 2 ∧ cause ≠ 0xD then (s.setFld r F.ctxRevive_cause cause).startPartitionReset (s.leadOf c) 5
      else (((s.setFld r F.ctxRevive_state 1).setFld r F.ctxRevive_cause cause).setFld r F.ctxRevive_this_step
        (min 3 (n + 1))).bump r F.ctxRevive_total 1

/-- The revival of a context that a partition or chip reset has stopped (R534): one that runs already goes on with cause 0xD, and one
that is deferred or waits takes that cause (R544). -/
def resetRevival (s : State) (c : Nat) : State :=
  if s.reviving c then s.setFld (R.ctxRevive c) F.ctxRevive_cause 0xD
  else if (s.ctxs.get? c).any fun x => x.deferred.isSome || x.waiting.isSome then s.updCtx c fun x => { x with waiting := some 0xD }
  else s.startRevival c 0xD

/-- The page tables of a context rebuilt from the planner's journaled allocation (R68). [DEDUCED, log 124] -/
def rebuildTables (s : State) (c : Nat) : State :=
  let tables := ((s.ctxs.get? c).elim [] fun x => x.planner.seqs.flatMap fun y => y.tables.vals)
  tables.foldl (fun s a =>
    let n := s.board.tablePages.getD (a + 0x10) 0
    let s1 := s.store (a + 0x10) 8 (setBitsOf (s.load (a + 0x10) 8) 10 0 n)
    (List.range n).foldl (fun s e => match s.board.tablePages.get? (a + 0x40 + 16 * e) with
      | some d => s.store (a + 0x40 + 16 * e) 16 d
      | none => s) s1) s

/-- A code line written again with the bytes the context's image has there: those it held before its code word was damaged, since
nothing can have stored to a code window since the load (R68, R457). [DEDUCED, log 124] -/
def refetchLine (s : State) (a : Nat) : State :=
  let l := a / 64
  let kept := if (s.lineMeta l).ue then s.imageLines.get? l else none
  let bs := kept.getD (s.bytesAt (64 * l) 64)
  { (s.writeBytes (64 * l) bs) with imageLines := s.imageLines.erase l }

/-- A revival that waited for a release or for a quiesced unit starts. -/
def resumeWaiting (s : State) (c : Nat) : State :=
  match s.ctxs.get? c with
  | none => s
  | some x => match x.waiting, x.deferred with
    | some cause, none => (s.setCtx c { x with waiting := none }).startRevival c cause
    | _, _ => s

/-- A descriptor addresses a quiesced unit of this device. -/
def descQuiesced (s : State) (d : Desc) : Bool :=
  (d.srcAddrs ++ d.dstAddrs).any fun g => g / 2 ^ 44 == s.localDev && s.quiesced (g % 2 ^ 44)

/-- A SYNCTO or TIMEOUT whose wait lies on a quiesced unit starts no revival until the unit resumes (R622). -/
def waitUnit (s : State) (c cause : Nat) : State :=
  if s.ctxSt c = CtxSt.running ∧ s.reviving c = false then
    s.updCtx c fun x => if x.deferred.isSome || x.waiting.isSome then x else { x with waiting := some cause }
  else s

/-- A revival with a cause is deferred until the peer answers (R520). [DEDUCED, log 44] -/
def deferRevival (s : State) (c peer cause : Nat) : State :=
  if s.ctxSt c = CtxSt.running ∧ s.reviving c = false then
    s.updCtx c fun x => if x.deferred.isSome then x else { x with deferred := some peer, waiting := some cause }
  else s

/-- A deferral ends (R520): one revival of the step starts. -/
def endDeferral (s : State) (c : Nat) : State :=
  match s.ctxs.get? c with
  | none => s
  | some x =>
    if x.deferred.isNone then s
    else (s.setCtx c { x with deferred := none, waiting := none }).startRevival c (x.waiting.getD 6)

/-- A tile or bulk queue of a context halted: firmware revives the step (R371, cause 0x8). -/
def endDescriptor (s : State) (k : Nat) (a : Active) (status bytes : Nat) (noRecord : Bool) : State :=
  let s1 := s.abnormalEnd k a status bytes noRecord
  match s.qCtx k with
  | some c => if status = St.timeout ∧ s.descQuiesced a.d = true then s1.waitUnit c 8 else s1.startRevival c 8
  | none => s1

/-- A collective ring halts (R442): status word, record, revival of the step with cause 0x9. -/
def haltColl (s : State) (c p status : Nat) : State :=
  let k := collKey c p
  let g := s.collRing k
  let ring := ((s.ctxs.get? c).bind fun x => x.rings.get? p).bind (·.coll)
  let at' := match ring with | some d => g.pos % 2 ^ d.k | none => 0
  let s1 := s.setColl k { g with halted := true, cur := none }
  let s2 := match ring with
    | some d => s1.writeBytes (d.base + 32 * 2 ^ d.k) (leBytes 8 (status + at' * 2 ^ 16))
    | none => s1
  let r := ErrRec.mk0 7 2 p 8 (c % 2) (status + at' * 2 ^ 16)
  let s3 := (s2.bump (R.collStat p) F.collStat_halts 1).record p (s2.nameCtx r (some c))
  s3.startRevival c 9

/-! ### Teardown -/

/-- A completion entry of the context's host ring (R555). -/
def completionBytes (status kind tag seq : Nat) (step : W64) (token pos : Nat) : List Byte :=
  leBytes 8 (status + kind * 2 ^ 4 + tag * 2 ^ 16 + seq * 2 ^ 32) ++ leBytes 8 step.toNat
    ++ leBytes 8 (token + pos * 2 ^ 32) ++ leBytes 8 0

/-- One completion entry put at the producer position of the completion ring, with its phase bit. -/
def putCompletion (s : State) (c : Nat) (bs : List Byte) : State :=
  let q := R.hifQbase c
  let k := s.fld q F.hifQbase_k
  if s.fld q F.hifQbase_valid = 0 then s
  else
    let prod := s.fld (R.hifCq c) F.hifCq_prod
    let w0 := leVal (bs.take 8) % 2 ^ 63 + (if prod.testBit k then 0 else 2 ^ 63)
    let base := s.fld q F.hifQbase_base * 64 + 64 * 2 ^ k
    (s.writeBytes (base + 32 * (prod % 2 ^ k)) (leBytes 8 w0 ++ bs.drop 8)).setFld (R.hifCq c) F.hifCq_prod
      ((prod + 1) % 2 ^ 32)

/-- Completion entries made visible, with one MSI-X vector (R555). -/
def showCompletions (s : State) (c : Nat) (l : List (List Byte)) : State :=
  if l = [] ∨ s.fld (R.hifQbase c) F.hifQbase_valid = 0 then s
  else (l.foldl (fun s b => s.putCompletion c b) s).emit (.msix c)

/-- Ways of a context leave it without write-back (R529 step 4). -/
def freeWays (s : State) (c : Nat) : State :=
  let ways := (List.range 8).flatMap fun p => (List.range 16).map fun w => (p, w)
  let s1 := ways.foldl (fun s pw =>
    let r := R.scaWay pw.1 pw.2
    if s.fld r F.scaWay_kind ≠ 0 ∧ s.fld r F.scaWay_ctx = c then
      ((if s.fld r F.scaWay_kind = 2 then s.clearRange (scratchBase pw.1 + pw.2 * 0x1000000) 0x1000000 else s).setFld r
        F.scaWay_kind 0).setFld r F.scaWay_ctx 0
    else s) s
  (s1.cache.filter fun l => l.ctx == c).foldl loseLine s1

/-- The firmware queue that carries the planner's copies of a context, and the 1 MiB of its firmware region where their descriptors lie;
`none` while the partition has no such region (R275, R378). [DESIGN CHOICE, log 144] -/
def copyQueue (s : State) (c : Nat) : Nat := 16384 + s.leadOf c * 80 + 64 + c % 16

def copyArea (s : State) (c : Nat) : Option Nat :=
  (s.fwRegion (s.leadOf c)).map fun b => b + 0x8000000 + c % 64 * 0x100000

/-- A descriptor address is one of the copies of a context. -/
def isCopy (s : State) (c a : Nat) : Bool :=
  match s.copyArea c with
  | some b => decide (b ≤ a) && decide (a < b + 0x100000)
  | none => false

/-- Copies of a context that have not completed. -/
def copiesLeft (s : State) (c : Nat) : Bool :=
  let q := s.queue (s.copyQueue c)
  (q.chain.any fun h => s.isCopy c h.addr) || (q.heads.any fun h => s.isCopy c h.addr)
    || (q.fetched.any fun d => s.isCopy c d.addr) || q.active.any fun a => s.isCopy c a.d.addr

/-- The copies of a context are given up; those of other contexts on the queue go on. -/
def dropCopies (s : State) (c : Nat) : State :=
  if s.copiesLeft c = false then s
  else
    let k := s.copyQueue c
    let q := s.queue k
    let heads := ((q.chain.toList ++ q.heads).filter fun h => !(s.isCopy c h.addr))
    let active := q.active.filter fun a => !(s.isCopy c a.d.addr)
    let fetched := q.fetched.filter fun d => !(s.isCopy c d.addr)
    let st : QSt := if heads = [] ∧ fetched = [] ∧ active = [] then .idle
      else if q.st = .halted ∧ (active.any fun a => a.status != 0) = false then .run else q.st
    s.setQueue k { q with st := st, chain := heads.head?, heads := heads.drop 1, fetched := fetched, active := active }

/-- A teardown starts (R529 steps 1 to 5): the state goes to TEARDOWN, commits are suppressed, queues, collective work and
launches are ended without records, ways are freed, and outstanding host requests end with the status of the cause.
[DEDUCED, log 47] -/
def startTeardown (s : State) (c status : Nat) : State :=
  match s.ctxs.get? c with
  | none => s
  | some x =>
    if s.ctxSt c = CtxSt.teardown then s
    else
      let s1 := s.ctxRecord c 0x0D 3 0x0B 0 (0x01 * 2 ^ 8)
      let s2 := s1.setReg (R.ctxRevive c) 0
      let s3 := (s2.setCtxSt c CtxSt.teardown).setFld (R.ctxState c) F.ctxState_hold_pending 0
      let s4 := x.tiles.foldl (fun s t =>
        let T := s.tile t
        s.setTile t { T with suppress := true, asm := [], held := false, stall := 0, drain := none, preempt := none }) s3
      let s5 := ((s.ctxQueues c).foldl dropQueue s4).dropCopies c
      let s6 := (s.ctxLaunches c).foldl endLaunch s5
      let s7 := { s6 with coll := s6.coll.keep fun k _ => k / 8 != c }
      let ends := x.planner.seqs.map fun q => completionBytes status 2 q.tag q.id (s.stepOf c) 0 0
      (((s7.freeWays c).showCompletions c ends).updCtx c fun y =>
        { y with deferred := none, waiting := none, regen := none, recPoint := none,
                 planner := { y.planner with seqs := [], plans := SMap.empty, waiting := none } })

/-! ### Alarms (R472 to R475) -/

/-- Partitions of the scope of an alarm: all of them for a device-scoped source. -/
def alarmScope (s : State) (source p : Nat) : List Nat := if source ≤ 1 then s.members p else List.range 8

/-- Memory and model keys of a partition erased (R473 level 2). -/
def eraseKeys (s : State) (p : Nat) : State :=
  let r := R.secKeystat
  let clr (s : State) (f : Fld) : State := s.setFld r f (setBitsOf (s.fld r f) p p 0)
  let b := { s.board with memKeys := s.board.memKeys.erase p,
                          modelKeys := s.board.modelKeys.keep fun k _ => k / 16 != p }
  ((clr (clr { s with board := b } F.secKeystat_mem_valid) F.secKeystat_model_any)).setFld (R.partFence p)
    F.partFence_keys_erased 1

/-- A fresh wrap key pair (R562). -/
def newWrapKey (s : State) : State :=
  let (n, s1) := s.draw
  { s1 with board := { s1.board with wrapKey := some n, wrapCount := s1.board.wrapCount + 1, wrapUses := 0 } }

/-- An alarm of a source acts at its level; `p` is the partition of a partition-scoped source. A load into a fenced scope fails
when it completes (R476). -/
def raiseAlarm (s : State) (source p : Nat) (c : Option Nat) : State :=
  let lvl := s.fld R.secAlarmpol F.secAlarmpol_levels / 4 ^ source % 4
  let scope := s.alarmScope source p
  let sev := if lvl = 0 then 1 else if lvl = 3 then 5 else 3
  let rec0 := s.nameCtx (ErrRec.mk0 0x10 sev p 0x0C 0 (source + lvl * 2 ^ 4)) c
  let st := R.secAlarmstat
  let s1 := ((((s.setFld st F.secAlarmstat_pending (setBitsOf (s.fld st F.secAlarmstat_pending) source source 1)).setFld st
    F.secAlarmstat_last_source source).setFld st F.secAlarmstat_last_level lvl).bump st F.secAlarmstat_count 1)
  let s2 := if source ≤ 1 then s1.setFld st F.secAlarmstat_last_part p else s1
  -- the highest level comes first: keys are erased before the fence
  let s3 := if 2 ≤ lvl then (if lvl = 3 then List.range 8 else scope).foldl eraseKeys s2 else s2
  let s4 :=
    if lvl = 3 then
      let t := (s3.setFld R.secKeystat F.secKeystat_id_valid 0).setFld R.secKeystat F.secKeystat_id_erased 1
      { t with board := { t.board with idKey := false, restricted := true } }.newWrapKey
    else if lvl = 2 then s3.newWrapKey
    else s3
  let s5 :=
    if 1 ≤ lvl then
      let f := scope.foldl (fun s q =>
        (s.setFld (R.partFence q) F.partFence_fenced 1).setFld (R.partFence q) F.partFence_source source) s4
      (f.ctxs.keys.filter fun k => f.ctxSt k != CtxSt.loading && (f.ctxParts k).any scope.contains).foldl (fun s k => s.startTeardown k St.bound) f
    else s4
  if source ≤ 1 then s5.record p rec0 else s5.recordAll rec0

/-- A window violation by context `c`: alarm source 1 when the context is secure (R459, R471). [DEDUCED, log 38] -/
def windowViolation (s : State) (c : Nat) : State :=
  if s.isSecure c then s.raiseAlarm 1 (s.leadOf c) (some c) else s

/-- Partition `p` is fenced (R473). -/
def fenced (s : State) (p : Nat) : Bool := s.fld (R.partFence p) F.partFence_fenced == 1

end State

end Sys2Proof.Machine
end

