-- ==== Sys2Proof/Machine/ScalarUnit.lean ====
section
/-! DEFINITION. Results of the S-slot operations (R162, R166, R169). -/

namespace Sys2Proof.Machine

/-- Three-register scalar operations, modulo 2^64, shift amounts from bits [5:0] (R162). -/
def aluResult (op : AluOp) (a b : W64) : W64 :=
  let n := (b.extractLsb' 0 6).toNat
  match op with
  | .add => a + b
  | .sub => a - b
  | .and => a &&& b
  | .or => a ||| b
  | .xor => a ^^^ b
  | .sll => a <<< n
  | .srl => a >>> n
  | .sra => a.sshiftRight n
  | .slt => if a.slt b then 1 else 0
  | .sltu => if a.ult b then 1 else 0
  | .min => if a.slt b then a else b
  | .max => if a.slt b then b else a
  | .minu => if a.ult b then a else b
  | .maxu => if a.ult b then b else a
  | .mul => a * b
  | .mulh => BitVec.ofInt 64 (a.toInt * b.toInt / 2 ^ 64)
  | .mulhu => BitVec.ofNat 64 (a.toNat * b.toNat / 2 ^ 64)

def AluOp.latency : AluOp → Nat
  | .mul | .mulh | .mulhu => 3
  | _ => 1

/-- Immediate scalar operations; the immediate is sign-extended (R162). -/
def aluiResult (op : AluiOp) (a : W64) (imm : BitVec 15) : W64 :=
  let x := imm.signExtend 64
  let n := (imm.extractLsb' 0 6).toNat
  match op with
  | .addi => a + x
  | .andi => a &&& x
  | .ori => a ||| x
  | .xori => a ^^^ x
  | .slli => a <<< n
  | .srli => a >>> n
  | .srai => a.sshiftRight n
  | .slti => if a.slt x then 1 else 0
  | .sltiu => if a.ult x then 1 else 0

/-- Bits [16h+15:16h] replaced by the immediate (R162). -/
def inshResult (a : W64) (h : BitVec 2) (imm : BitVec 16) : W64 :=
  BitVec.ofNat 64 (setBitsOf a.toNat (16 * h.toNat + 15) (16 * h.toNat) imm.toNat)

/-- An address register with its address part moved modulo 2^44, its window kept (R162). -/
def addrMove (a : BitVec 48) (d : BitVec 44) : BitVec 48 := a.extractLsb' 44 4 ++ (a.extractLsb' 0 44 + d)

/-- TILE.TRAP as software reads it (R78). -/
def trapReg (T : Tile) : W64 :=
  BitVec.ofNat 64 (T.trapCount.toNat * 2 ^ 32 + T.trapPending.toNat * 2 ^ 16 + (if T.trapDouble then 2 ^ 15 else 0)
    + T.trapSlot.toNat * 2 ^ 10 + (if T.trapValid then 2 ^ 7 else 0) + T.trapCause.toNat)

/-- The special value `sr` (R169). -/
def specialValue (s : State) (t : Nat) (T : Tile) (sr : BitVec 6) : W64 :=
  if sr = 0 then T.step
  else if sr = 1 then Config.cycles s.freeCtr
  else if sr = 2 then BitVec.ofNat 64 t
  else if sr = 3 then BitVec.ofNat 64 (T.ctxIndex * 128 + T.ctxGen)
  else if sr = 4 then ((s.ctxs.get? T.ctxIndex).map (·.seed)).getD 0
  else if sr = 5 then BitVec.ofNat 64 (s.fld R.devTickper F.devTickper_active)
  else if sr = 0x10 then trapReg T
  else if sr = 0x11 then T.trapPc.setWidth 64
  else if sr = 0x12 then T.resumePc.setWidth 64
  else if sr = 0x13 then ((T.trapOp.map TileOp.word).getD 0).setWidth 64
  else T.trapAddr.setWidth 64

/-- Register write of a scalar destination in the bank in force (R40). -/
def sW (T : Tile) (sd : BitVec 5) (x : W64) : RegWrite := .s (T.useBank sd) sd x

/-- Register writes of an S-slot operation. -/
def scalarWrites (s : State) (t : Nat) (T : Tile) : TileOp → List RegWrite
  | .alu op sd sa sb => [sW T sd (aluResult op (T.rs sa) (T.rs sb))]
  | .alui op sd sa imm => [sW T sd (aluiResult op (T.rs sa) imm)]
  | .li sd imm => [sW T sd (imm.signExtend 64)]
  | .insh sd h imm => [sW T sd (inshResult (T.rs sd) h imm)]
  | .aSet ad sa => [.a ad ((T.rs sa).extractLsb' 0 48)]
  | .aGet sd aa => [sW T sd ((T.ra aa).setWidth 64)]
  | .aAddi ad aa imm => [.a ad (addrMove (T.ra aa) (imm.signExtend 44))]
  | .aAdd ad aa sb => [.a ad (addrMove (T.ra aa) ((T.rs sb).extractLsb' 0 44))]
  | .jal sd _ => [sW T sd ((T.pc + 16).setWidth 64)]
  | .loopSet lc sa => [.lc lc ((T.rs sa).extractLsb' 0 32)]
  | .loopSeti lc imm => [.lc lc (imm.setWidth 32)]
  | .loopBr lc _ => if T.rlc lc = 0 then [] else [.lc lc (T.rlc lc - 1)]
  | .loopGet sd lc => [sW T sd ((T.rlc lc).setWidth 64)]
  | .rdsr sd sr => [sW T sd (specialValue s t T sr)]
  | _ => []

/-- Latency of an S-slot operation, none for one that has no result to retire (R162). -/
def scalarLat : TileOp → Option Nat
  | .alu op _ _ _ => some (AluOp.latency op)
  | .alui .. | .li .. | .insh .. | .aSet .. | .aGet .. | .aAddi .. | .aAdd .. | .jal .. | .loopSet .. | .loopSeti ..
  | .loopBr .. | .loopGet .. | .rdsr .. => some 1
  | _ => none

end Sys2Proof.Machine
end

