-- ==== Sys2Proof/Machine/TileCore.lean ====
section
/-! DEFINITION. The issue of a bundle, its traps, and the retirement of operations in flight (R42 to R50, R61 to R68,
R159 to R168, R199 to R206, R216 to R227). -/

namespace Sys2Proof.Machine

/-! ### Traps -/

/-- The error record of a trap, with the severity of the handler's action (R68, R513, R663). -/
def trapRecord (s : State) (t : Nat) (T : Tile) (tr : TrapRec) (sev : Nat) : State :=
  let syn (T : Tile) : Nat := ((tr.op.map TileOp.word).getD 0).toNat * 2 ^ 32 + tr.cause * 2 ^ 29
    + tr.slot.code.toNat * 2 ^ 27 + T.trapPending.toNat * 2 ^ 16
  let handle := match tr.op with
    | some (.sySignal ..) | some (.syWait ..) | some (.syArm ..) | some (.syRead ..) => tr.cause == 5 || tr.cause == 6
    | _ => false
  let ak := if tr.cause = 1 then 3 else if tr.addr = 0 then 3 else if handle then 2 else 1
  let ad := if tr.addr = 0 then s.globalHere tr.pc.toNat else tr.addr.toNat
  s.record (t / 256)
    { cls := 5, sev := sev, device := false, part := t / 256,
      ctx := if T.ctxValid then some (T.ctxIndex * 128 + T.ctxGen) else none,
      kind := 1, index := t, addr := ad, addrKind := ak, synd := syn T, step := T.step.toNat, addrErr := false }

/-- The action the shipped handler takes: fret.replay for a first or second RESIDUE with no other deferred cause
pending, revival otherwise (R68). -/
def handlerReplays (T : Tile) (cause : Nat) : Bool :=
  cause == Cause.residue && decide (T.residues < 2) && (T.trapPending &&& 0x46 == 0)

/-- Entry to the fault handler (R61, R62, R63, R66): the trap registers record the trap, the PC goes to TILE.FH_BASE and
the state to HANDLER with s24 to s31 of its bank zero; BOUND of a secure context raises alarm source 1 (R68). In handler mode it
is a double fault: HALTED, TILE.TRAP.double, an engine reset, and a revival of the step whose cause is that of the trap the handler
served (R519). [DESIGN CHOICE, log 106] [DEDUCED, log 126] -/
def enterHandler (s : State) (t : Nat) (tr : TrapRec) (resume : BitVec 44) (deferred : Bool) : State :=
  let T := s.tile t
  if T.st = .handler then
    let T1 := { T with st := .halted, trapDouble := true, asm := [], held := false, stall := 0, drain := none,
                       drainMore := [] }
    let s1 := (trapRecord (s.setTile t T1) t T1 tr 3).startEngineReset (t / 256) 1 t 3
    if T.ctxValid then s1.startRevival T.ctxIndex T.trapCause.toNat else s1
  else
    let T1 := { T with
      st := .handler, asm := [], held := false, stall := 0, drain := none, drainMore := [],
      trapCount := if T.trapCount = 0xFFFF then 0xFFFF else T.trapCount + 1,
      trapValid := true, trapSlot := tr.slot.code, trapCause := BitVec.ofNat 3 tr.cause, trapPc := tr.pc,
      resumePc := resume, trapOp := if deferred then tr.op else none, trapAddr := tr.addr,
      residues := if tr.cause = Cause.residue then T.residues + 1 else T.residues,
      bistDue := T.bistDue || (tr.cause == Cause.residue && decide (2 ≤ T.residues)),
      hs := SMap.empty, bad := T.bad.filter (·.1 == false),
      pc := BitVec.ofNat 44 (s.fld (R.tileFhBase t) F.tileFhBase_base * 0x1000) }
    let s1 := trapRecord (s.setTile t T1) t T1 { tr with op := if deferred then tr.op else none }
      (if handlerReplays T tr.cause then 1 else 2)
    if tr.cause = Cause.bound ∧ T.ctxValid = true then s1.windowViolation T.ctxIndex else s1

/-- Order of R65 among causes raised in one cycle: IFERR, LSERR, RESIDUE, PAGEF, BOUND, ILLOP, SYNCTO. -/
def causeRank (c : Nat) : Nat :=
  if c = 1 then 0 else if c = 2 then 1 else if c = 3 then 2 else if c = 7 then 3 else if c = 5 then 4
  else if c = 4 then 5 else 6

/-- [DEDUCED, log 35] -/
def pickHit : List Hit → Option Hit
  | [] => none
  | h :: t => match pickHit t with
    | none => some h
    | some g => if causeRank g.cause < causeRank h.cause then some g else some h

/-- Bit code - 1 of TILE.TRAP.pending for every cause of the list other than `c` (R65). -/
def pendingBits (c : Nat) (hs : List Hit) : BitVec 7 :=
  hs.foldl (fun acc h => if h.cause = c then acc else acc ||| (1 <<< (h.cause - 1))) 0

def opInSlot (ops : List TileOp) (sl : Slot) : Option TileOp := ops.find? fun o => o.slot == sl

/-- A precise trap on the bundle at issue: it leaves the bundle without effect (R62). -/
def preciseTrap (s : State) (t : Nat) (ops : List TileOp) (hs : List Hit) : State :=
  match pickHit hs with
  | none => s
  | some h =>
    let T := s.tile t
    let s1 := s.setTile t { T with trapPending := T.trapPending ||| pendingBits h.cause hs }
    enterHandler s1 t ⟨h.cause, BitVec.ofNat 56 h.addr, h.slot, opInSlot ops h.slot, T.pc⟩ T.pc false

/-- A deferred cause on an operation: the first starts the drain, a later one sets its pending bit; in handler mode it is a
double fault (R63, R66). The operation has been abandoned. Which of them the tile takes is decided when the trap is taken (R65).
[DESIGN CHOICE, log 119] -/
def deferTrap (s : State) (t : Nat) (tr : TrapRec) : State :=
  let T := s.tile t
  if T.st = .handler then enterHandler s t tr T.pc true
  else match T.drain with
    | none => s.setTile t { T with drain := some tr, drainMore := [], asm := [], held := false, stall := 0 }
    | some _ =>
      s.setTile t { T with drainMore := T.drainMore ++ [tr], trapPending := T.trapPending ||| (1 <<< (tr.cause - 1)) }

/-- The deferred cause that the tile takes: of the first and the later ones of its cycle the highest, the earliest of equals
(R65). -/
def pickRec (first : TrapRec) (l : List TrapRec) : TrapRec :=
  l.foldl (fun a b => if causeRank b.cause < causeRank a.cause then b else a) first

/-- Bit code - 1 of TILE.TRAP.pending for the cause of each record. -/
def causeBits (l : List TrapRec) : BitVec 7 := l.foldl (fun a r => a ||| (1 <<< (r.cause - 1))) 0

/-- TILE.TRAP.pending when `taken` is recorded and the others are not (R63, R65). -/
def pendingBeside (T : Tile) (taken : TrapRec) (l : List TrapRec) : BitVec 7 :=
  (T.trapPending &&& ~~~(causeBits [taken])) ||| causeBits (l.erase taken)

/-! ### Tags (R42) -/

/-- A bundle that reads the block issues: one more read in flight. -/
def tagRead (T : Tile) (b : Nat) : Tile := T.setTag b { T.tag b with reads := (T.tag b).reads + 1 }

/-- A bundle that writes the block issues: FREE goes to HELD. -/
def tagWrite (T : Tile) (b : Nat) : Tile :=
  if (T.tag b).st = .free then T.setTag b { T.tag b with st := .held } else T

/-- The last in-flight read of a block in DRAIN retires: FREE. -/
def drainDone (g : BlkTag) : BlkTag :=
  if g.st = .drain ∧ g.reads = 0 ∧ g.dmaReads = 0 then { g with st := .free } else g

def tagReadEnd (T : Tile) (b : Nat) : Tile :=
  T.setTag b (drainDone { T.tag b with reads := (T.tag b).reads - 1 })

/-- A consuming read retires: DRAIN while other reads are in flight, otherwise FREE. -/
def tagConsume (T : Tile) (b : Nat) : Tile :=
  let g := T.tag b
  if g.st = .ready ∨ g.st = .held then T.setTag b (drainDone { g with st := .drain }) else T

def tagPublish (T : Tile) (b : Nat) : Tile :=
  let g := T.tag b
  if g.st = .held then T.setTag b { g with st := .ready } else T

/-! ### Holds (R43, R46, R49, R159, R181, R199, R200, R204, R206, R215, R218) -/

def overlap {α : Type} [BEq α] (a b : List α) : Bool := a.any fun x => b.contains x

/-- A register with the bank it lies in (R40). -/
def inBank (h : Bool) : RegId → Bool × RegId
  | .s n => (h && decide (24 ≤ n.toNat), .s n)
  | r => (false, r)

/-- A register needed by the operation is owned, or one it writes is held, by an operation in flight (R159). -/
def regsBusy (T : Tile) (op : TileOp) : Bool :=
  let srcs := op.srcs.map T.bankOf
  let dsts := op.dsts.map T.bankOf
  T.flights.any fun f =>
    overlap (srcs ++ dsts) (f.dsts.map (inBank f.handler)) || overlap dsts (f.srcs.map (inBank f.handler))

def isArray : TileOp → Bool
  | .mxaWload .. | .mxaPass .. => true
  | _ => false

/-- A pass or mxa.wload is in flight. -/
def arrayBusy (T : Tile) : Bool := T.flights.any fun f => isArray f.op

/-- Accumulator operations, which the one transfer unit executes (R96). -/
def isTransfer : TileOp → Bool
  | .accMv .. | .accSt .. | .accZero .. => true
  | _ => false

/-- D-slot memory and synchronisation operations, which a fence in flight holds (R206). -/
def isMemSync : TileOp → Bool
  | .memLd .. | .memSt .. | .memPf .. | .memDrop .. | .memFence .. | .atom .. | .kvWalk .. | .kvAppend .. | .sySignal ..
  | .syWait .. | .syArm .. | .syRead .. => true
  | _ => false

/-- Operations that count against the 32 in flight (R204). -/
def countsMem : TileOp → Bool
  | .memLd .. | .memSt .. | .atom .. | .kvWalk .. | .kvAppend .. | .syRead .. | .sySignal .. => true
  | _ => false

def reqCounts : ReqKind → Bool
  | .prefetch | .drop | .arm => false
  | _ => true

/-- D-slot memory operations of the tile in flight: requests not yet performed and acknowledged, walks, and signals not yet
sent (R204). -/
def memInFlight (s : State) (t : Nat) (T : Tile) : Nat :=
  (s.reqs.vals.filter fun r => r.tile == t && reqCounts r.kind).length
    + (T.flights.filter fun f => f.kind == .release || (match f.op with | .kvWalk .. => true | _ => false)).length

def dmaQueueOf : TileOp → Option Nat
  | .dmaPost q _ _ | .dmaCancel q => some q.toNat
  | .dmaStat _ q => some q.toNat
  | _ => none

def isStepWait : TileOp → Bool
  | .stepWait _ => true
  | _ => false

/-- Conditions on tags: every block read READY or HELD, every block written FREE or HELD (R43). -/
def tagsBad (T : Tile) (u : BlockUse) : Option Nat :=
  (u.rd.find? fun b => (T.tag b).st != .ready && (T.tag b).st != .held).orElse fun _ =>
    u.wr.find? fun b => (T.tag b).st != .free && (T.tag b).st != .held

/-- A block order condition of R181, R199 or R200. -/
def blocksBusy (T : Tile) (op : TileOp) (u : BlockUse) : Bool :=
  T.flights.any fun f =>
    overlap u.wr f.use.rd || overlap u.rd f.use.wr || overlap u.consume f.use.rd || overlap u.publish f.use.wr
      || ((isTree op || isTree f.op) && overlap u.wr f.use.wr)

/-- An operation in flight still owns what the issue checks of this one read: its accumulator halves (R94), the array while
mxa.wload runs (R92), its merge-stack block (R181). Such a check waits, so that it sees what every earlier bundle leaves (R50).
[DEDUCED, log 117] -/
def stateBusy (t : Nat) (T : Tile) (op : TileOp) : Bool :=
  T.flights.any (fun f => overlap (halvesUsed T op) f.halves)
    || (isArray op && T.flights.any fun f => match f.op with | .mxaWload .. => true | _ => false)
    || (isTree op && T.flights.any fun f => overlap (blockUse t T op).wr (f.use.rd ++ f.use.wr))

/-- A read that would be a block's sixteenth in flight, DMA reads and the bundle's own counted (R46, R360). -/
def readsFull (t : Nat) (T : Tile) (ops : List TileOp) : Bool :=
  let us := ops.map (blockUse t T)
  us.any fun u => u.rd.any fun b =>
    decide ((T.tag b).reads + (T.tag b).dmaReads + (us.filter fun v => v.rd.contains b).length > 15)

/-- The condition of a sy.wait holds: object ≥ sb (R217, R218). -/
def waitMet (s : State) (T : Tile) : TileOp → Bool
  | .syWait sa sb _ =>
    let h := Handle.ofBits (T.rs sa)
    decide ((T.rs sb).toNat ≤ (s.obj (State.objKey h.part h.index)).toNat)
  | _ => true

/-- Why an operation is held: the TILE.STATUS.stall codes and what each waits on. Holds that the register's table does not name
show code 2. [DESIGN CHOICE, log 111] -/
def opHold (s : State) (t : Nat) (T : Tile) (op : TileOp) : List (BitVec 2 × Nat) :=
  let u := blockUse t T op
  let other : Bool :=
    blocksBusy T op u
      || (isTransfer op && T.flights.any fun f => isTransfer f.op)
      || (isMemSync op && T.flights.any fun f => match f.kind with | .fence _ _ => true | _ => false)
      || (countsMem op && decide (memInFlight s t T ≥ 32))
      || (dmaQueueOf op).any (fun q => T.flights.any fun f => f.kind == .cancel q)
      || (match op with
        | .dmaPost q _ _ => decide (4 ≤ (s.queue (t * 8 + q.toNat)).heads.length)
        | _ => false)
      || (isStepWait op && !T.flights.isEmpty)
  let wait : List (BitVec 2 × Nat) := match op with
    | .syWait sa _ _ => if waitMet s T op then [] else [(3, bitsOf (T.rs sa).toNat 29 0)]
    | _ => []
  let tags : List (BitVec 2 × Nat) := match tagsBad T u with
    | some b => [(1, s.globalHere (lsBase t + b * 0x1000))]
    | none => []
  wait ++ tags ++ if other then [(2, 0)] else []

/-! ### Bundle checks -/

/-- Pairs of different slots of a bundle. -/
def slotPairs : List TileOp → List (TileOp × TileOp)
  | [] => []
  | o :: t => (t.map fun p => (o, p)) ++ slotPairs t

/-- Two slots write one register, or one writes a register the other reads (R223). -/
def regConflict (a b : TileOp) : Bool :=
  overlap a.dsts b.dsts || overlap a.dsts b.srcs || overlap b.dsts a.srcs

/-- One slot writes a block the other reads or writes, or consumes a block the other reads (R224). -/
def blockConflict (a b : BlockUse) : Bool :=
  overlap a.wr (b.rd ++ b.wr) || overlap b.wr a.rd || overlap a.consume b.rd || overlap b.consume a.rd

/-- Conditions the encodings alone decide. [DEDUCED, log 35] -/
def staticHits (T : Tile) (ops : List TileOp) : List Hit :=
  ops.flatMap (fun o => illopIf (encodingBad o || modeBad T o || (mustBeAlone o && decide (ops.length > 1))) o.slot)
    ++ (slotPairs ops).flatMap fun (a, b) => illopIf (regConflict a b) a.slot

/-- Conditions the registers decide. [DEDUCED, log 35] -/
def dynamicHits (s : State) (t : Nat) (T : Tile) (ops : List TileOp) : List Hit :=
  ops.flatMap (opHits s t T)
    ++ (slotPairs ops).flatMap fun (a, b) => illopIf (blockConflict (blockUse t T a) (blockUse t T b)) a.slot

/-- The buffer holds the line of the bundle (R165). -/
def lineHeld (T : Tile) : Bool := T.ibuf.get? (T.pc.toNat / 64) == some true

/-- A step.wait of an earlier bundle has not retired: the next bundle issues at the tick (R55, R167). -/
def stepWaiting (T : Tile) : Bool := T.flights.any fun f => f.kind == .stepWait

/-- A register or a state that a slot needs is not free (R50, R159). -/
def bundleBusy (t : Nat) (T : Tile) (ops : List TileOp) : Bool := ops.any fun o => regsBusy T o || stateBusy t T o

/-- Holds of one slot; an operand not yet known, or one that will trap, waits on nothing else. -/
def slotHolds (s : State) (t : Nat) (T : Tile) (o : TileOp) : List (TileOp × BitVec 2 × Nat) :=
  if regsBusy T o || stateBusy t T o then [(o, 2, 0)]
  else if opHits s t T o ≠ [] then []
  else (opHold s t T o).map fun h => (o, h)

/-- Everything that holds a bundle at issue (R43, R46, R49, R165, R218). A bundle whose line is not in the buffer waits for
nothing else yet, and shows stall code 0. [DESIGN CHOICE, log 111] -/
def bundleHolds (s : State) (t : Nat) (T : Tile) (ops : List TileOp) : List (TileOp × BitVec 2 × Nat) :=
  if stepWaiting T then [(ops.headD .nop, 2, 0)]
  else if lineHeld T = false then [(ops.headD .nop, 0, 0)]
  else ops.flatMap (slotHolds s t T) ++ (if readsFull t T ops then [(ops.headD .nop, 2, 0)] else [])

/-- The hold that TILE.STATUS.stall shows: a synchronisation object first, then tags (R218). -/
def firstHold (s : State) (t : Nat) (T : Tile) (ops : List TileOp) : Option (TileOp × BitVec 2 × Nat) :=
  let l := bundleHolds s t T ops
  (l.find? (·.2.1 == 3)).orElse fun _ => (l.find? (·.2.1 == 1)).orElse fun _ => l.head?

/-! ### Issue -/

/-- Register values that an operation uses after its issue. -/
def opArgs (T : Tile) : TileOp → List W64
  | .kvWalk _ _ sb _ => [T.rs sb]
  | .sySignal sa sb _ => [T.rs sa, T.rs sb]
  | .accSt _ _ sr _ => [T.rs sr]
  | _ => []

/-- A new operation in flight; an abandoned one runs out its cycles (R100). -/
def addFlightAs (dead : Bool) (s : State) (t : Nat) (op : TileOp) (kind : FlightKind) (lat : Nat) (eff : Effect) : State :=
  let T := s.tile t
  let u := blockUse t T op
  let f : Flight :=
    { id := T.nextId, op := op, pc := T.pc, kind := kind, lat := lat, srcs := op.srcs, dsts := op.dsts, use := u,
      halves := halvesUsed T op, eff := eff, handler := T.st == .handler, args := opArgs T op, dead := dead }
  let T1 := u.wr.foldl tagWrite (u.rd.foldl tagRead T)
  s.setTile t { T1 with flights := T1.flights ++ [f], nextId := T1.nextId + 1 }

/-- A new operation in flight. -/
def addFlight (s : State) (t : Nat) (op : TileOp) (kind : FlightKind) (lat : Nat) (eff : Effect) : State :=
  addFlightAs false s t op kind lat eff

/-- Where a window sends an access. -/
def destOf (s : State) (c w : Nat) : Dest :=
  match s.window c w with
  | some x => if x.kind.toNat = 5 then .peer x.dest else if x.kind.toNat = 6 then .host x.dest else .local
  | none => .local

/-- Key of the walker's cache: the entry's address, and the device or host region that holds it (R211). -/
def walkKey (d : Dest) (ea : Nat) : Nat :=
  match d with
  | .local => ea
  | .peer n => ea + (1 + 2 * n) * 2 ^ 44
  | .host n => ea + (2 + 2 * n) * 2 ^ 44

/-- The address a request carries: the offset in a host window, the device address otherwise (R551). -/
def destAddr (s : State) (c w a : Nat) : Nat :=
  match s.window c w with
  | some x => if x.kind.toNat = 6 then a - x.base else a
  | none => a

/-- A request leaves the tile. -/
def newReq (s : State) (t : Nat) (T : Tile) (k : ReqKind) (d : Dest) (a : Nat) (data cmp : W64) (hint : BitVec 2) : State :=
  let r : MemReq :=
    { tile := t, flight := T.nextId, kind := k, dest := d, addr := a, data := data, cmp := cmp, hint := hint,
      ctx := T.ctxIndex * 128 + T.ctxGen, done := false, arbiter := false, val := 0, bad := false }
  { s with reqs := s.reqs.set s.nextReq r, nextReq := s.nextReq + 1 }

/-- A request to an object named by a handle. -/
def objReq (s : State) (t : Nat) (T : Tile) (k : ReqKind) (h amount : W64) : State :=
  let x := Handle.ofBits h
  newReq s t T k (if x.remote then .peer x.device else .local) (State.objKey x.part x.index) amount 0 0

def bumpIssued (s : State) (t : Nat) (op : TileOp) : State :=
  if isMemSync op then s.bump (R.lsMemops t) F.lsMemops_issued 1 else s

/-- The registers hold the uncorrectable code of R207 in a source of the operation. -/
def badSource (T : Tile) (op : TileOp) : Bool := overlap (op.srcs.map T.bankOf) T.bad

/-- An abandoned mxa.wload leaves the array without weights (R85). -/
def Tile.lostWeights (T : Tile) (op : TileOp) : Tile :=
  match op with
  | .mxaWload .. => { T with wvalid := false, wfmt := 0, wimg := [] }
  | _ => T

/-- A memory operation with a D-slot window operand. -/
def memReq (s : State) (t : Nat) (T : Tile) (k : ReqKind) (aa : BitVec 48) (a : Nat) (data cmp : W64) (hint : BitVec 2) :
    State :=
  let w := winSel aa
  if T.st = .handler ∧ regBase ≤ a ∧ a < regBase + 0x10000000 then
    newReq s t T (match k with | .store => .regStore | _ => .regLoad) .local (a - regBase) data cmp hint
  else newReq s t T k (destOf s T.ctxIndex w) (destAddr s T.ctxIndex w a) data cmp hint

/-- The chain head that dma.post appends. -/
def postHead (T : Tile) (aa : BitVec 48) (lo : Bool) : ChainHead :=
  ⟨addrOf aa (0 : BitVec 1) 1, winSel aa, lo, T.step, T.nextId, some []⟩

/-- The bytes of `bs` from position `i` replaced. -/
def putAt (bs : List Byte) (i : Nat) (x : List Byte) : List Byte := bs.take i ++ x ++ bs.drop (i + x.length)

/-- The header of a page table as the tile's program order gives it (R205, R212): the line its die holds, or memory, with the
tile's own stores and atomics to the line that have not been performed yet. [DEDUCED, log 42] -/
def headerSeen (s : State) (t : Nat) (T : Tile) (hdr : Nat) : List Byte :=
  let base := match s.remote? (t / 256) T.ctxIndex (hdr / 64) with
    | some x => x.bytes
    | none => s.bytesAt hdr 64
  let mine := s.reqs.vals.filter fun r => r.tile == t && !r.done && r.dest == .local && r.addr / 64 == hdr / 64
  mine.foldl (fun bs r =>
    let i := r.addr % 64
    match r.kind with
    | .store => putAt bs i (leBytes 8 r.data.toNat)
    | .atomic o w =>
      let n := if w then 4 else 8
      putAt bs i (leBytes n (State.atomicNew o (8 * n) (leVal ((bs.drop i).take n)) r.data.toNat r.cmp.toNat))
    | _ => bs) base

/-- A kv.append's length lies within the bounds of R212. A header at a peer or in host memory is not known here.
[DESIGN CHOICE, log 122] -/
def appendFits (s : State) (t : Nat) (T : Tile) (aa : BitVec 48) (len : Nat) : Bool × State :=
  if destOf s T.ctxIndex (winSel aa) = .local then
    (appendOk (headerSeen s t T (addrOf aa (0 : BitVec 1) 1)) len, s)
  else (Config.lengthFits (s.draw).1, (s.draw).2)

/-- Cycles that the limiter's gap held the pass (R92, R116): at most the gap. [DESIGN CHOICE, log 23] -/
def countGap (s : State) (t : Nat) : State :=
  let g := s.fld (R.mxaThrottle t) F.mxaThrottle_gap
  if g = 0 then s
  else (s.draw).2.bump (R.mxaThrottle t) F.mxaThrottle_gap_cycles (min g (Config.idleCycles (s.draw).1))

/-- TRAP_ADDR of a PAGEF: the page-table entry of a position (R210, R212). -/
def entryAddr (s : State) (T : Tile) (aa : BitVec 48) (p : Nat) : Nat :=
  s.globalOf T.ctxIndex (winSel aa) (addrOf aa (0 : BitVec 1) 1 + 64 + 16 * kvEntry p)

/-- The array or accumulator operation with its latency; a pass and a weight load count the cycles in which they enter the array
(R116), and with each pass the limiter moves the gap once (R105). `dead` says that it is abandoned already and only runs out its cycles (R100). -/
def issueArray (dead : Bool) (s : State) (t : Nat) (op : TileOp) : State :=
  match matrixEff s (s.tile t) op with
  | none => s
  | some (lat, e) =>
    let e := if dead then Effect.none else e
    match op with
    | .mxaPass .. =>
      State.stepGap (countGap ((addFlightAs dead s t op .pass lat e).bump (R.mxaBusycnt t) F.mxaBusycnt_active (lat - 97)) t) t
    | .mxaWload .. => (addFlightAs dead s t op .fixed lat e).bump (R.mxaBusycnt t) F.mxaBusycnt_active 32
    | _ => addFlightAs dead s t op .fixed lat e

/-- The issue of an operation that reads an uncorrectable source: it is abandoned with RESIDUE in its issue cycle (R161, R227). Its
bundle has issued all the same, so that a FREE block it writes is HELD (R42); an array or accumulator operation runs out its
cycles with what it owns (R100), and a pass counts as abandoned (R116). [DEDUCED, log 121] -/
def issueBad (s : State) (t : Nat) (op : TileOp) : State :=
  let T := s.tile t
  let s1 := match op with
    | .mxaPass .. => (issueArray true s t op).bump (R.mxaPasscnt t) F.mxaPasscnt_abandoned 1
    | .mxaWload .. | .accMv .. | .accSt .. | .accZero .. => issueArray true s t op
    | _ => s.setTile t ((blockUse t T op).wr.foldl tagWrite T)
  deferTrap (s1.setTile t ((s1.tile t).lostWeights op)) t ⟨Cause.residue, 0, op.slot, some op, T.pc⟩

/-- Address of the merge-stack block of a tree operation. -/
def treeAddr (T : Tile) : TileOp → Nat
  | .vTreeInit aa | .vTreePush _ aa _ _ | .vTreeFin _ aa _ => addrOf (T.ra aa) (0 : BitVec 1) 1
  | _ => 0

/-- The issue of a tree operation whose count word reads uncorrectable: it is abandoned with LSERR and leaves the block as it is
(R181, R187). -/
def issueUncounted (s : State) (t : Nat) (op : TileOp) : State :=
  let T := s.tile t
  let s1 := s.lsError (treeAddr T op) 2 (if T.ctxValid then some (T.ctxIndex * 128 + T.ctxGen) else none)
  deferTrap (s1.setTile t ((blockUse t T op).wr.foldl tagWrite T)) t
    ⟨Cause.lserr, BitVec.ofNat 56 (s.globalHere (treeAddr T op)), .v, some op, T.pc⟩

/-- Issue of one operation of a bundle whose checks have passed. -/
def issueOp (s : State) (t : Nat) (op : TileOp) : State :=
  let T := s.tile t
  let s := bumpIssued s t op
  if badSource T op then issueBad s t op
  else if isTree op = true ∧ T.countUe = true then issueUncounted s t op
  else
    let fixed (lat : Nat) (e : Effect) : State := addFlight s t op .fixed lat e
    let T := s.tile t
    match op with
    | .memLd _ aa off hint =>
      addFlight (memReq s t T .load (T.ra aa) (addrOf (T.ra aa) off 8) 0 0 hint) t op (.data s.nextReq) 0 Effect.none
    | .memSt sa aa off hint =>
      addFlight (memReq s t T .store (T.ra aa) (addrOf (T.ra aa) off 8) (T.rs sa) 0 hint) t op .fixed 2 Effect.none
    | .memPf aa off hint =>
      addFlight (memReq s t T .prefetch (T.ra aa) (addrOf (T.ra aa) off 8) 0 0 hint) t op .fixed 2 Effect.none
    | .memDrop aa off hint =>
      addFlight (memReq s t T .drop (T.ra aa) (addrOf (T.ra aa) off 8) 0 0 hint) t op .fixed 2 Effect.none
    | .memFence rel d => addFlight s t op (.fence rel d) 0 Effect.none
    -- the cycle count is a free value, a new one for each read
    | .rdsr _ 1 => addFlight (s.draw).2 t op .fixed 1 (Effect.regs (scalarWrites s t T op))
    | .atom _ sb sc aa w o =>
      addFlight (memReq s t T (.atomic o w) (T.ra aa) (addrOf (T.ra aa) (0 : BitVec 1) 1) (T.rs sb) (T.rs sc) 0) t op
        (.data s.nextReq) 0 Effect.none
    | .kvWalk ad aa sb sd =>
      let hdr := addrOf (T.ra aa) (0 : BitVec 1) 1
      let p := (T.rs sb).toNat
      let ea := hdr + 64 + 16 * kvEntry p
      match T.walker.get? (walkKey (destOf s T.ctxIndex (winSel (T.ra aa))) ea) with
      | some bytes =>
        match walkResult (bytes.take 64) (bytes.drop 64) p with
        | some (x, y) => fixed 8 (Effect.regs [.a ad x, .s (T.useBank sd) sd y])
        | none =>
          deferTrap (s.bump (R.tileKvwStat t) F.tileKvwStat_pagef 1) t
            ⟨Cause.pagef, BitVec.ofNat 56 (entryAddr s T (T.ra aa) p), .d, some op, T.pc⟩
      | none => addFlight (s.bump (R.tileKvwStat t) F.tileKvwStat_misses 1) t op .walkMiss 8 Effect.none
    | .kvAppend aa sb =>
      let hdr := addrOf (T.ra aa) (0 : BitVec 1) 1
      let (fits, s1) := appendFits s t T (T.ra aa) (T.rs sb).toNat
      if fits then addFlight (memReq s1 t T .append (T.ra aa) hdr (T.rs sb) T.step 0) t op .fixed 2 Effect.none
      else
        deferTrap (s1.bump (R.tileKvwStat t) F.tileKvwStat_pagef 1) t
          ⟨Cause.pagef, BitVec.ofNat 56 (entryAddr s T (T.ra aa) (T.rs sb).toNat), .d, some op, T.pc⟩
    | .dmaPost q aa lo =>
      addFlight (s.addHead (t * 8 + q.toNat) (postHead T (T.ra aa) lo)) t op .fixed 2 Effect.none
    | .dmaStat sd q => fixed 2 (Effect.regs [.s (T.useBank sd) sd (s.qstat (t * 8 + q.toNat))])
    | .dmaCancel q => addFlight (s.startCancel (t * 8 + q.toNat)) t op (.cancel q.toNat) 0 Effect.none
    | .sySignal sa sb rel =>
      if rel then addFlight s t op .release 2 Effect.none
      else addFlight (objReq s t T .signal (T.rs sa) (T.rs sb)) t op .fixed 2 Effect.none
    | .syWait _ _ acq =>
      addFlight (if acq then s.acquireLines (t / 256) T.ctxIndex else s) t op .fixed 1 Effect.none
    | .syArm sa sb => addFlight (objReq s t T .arm (T.rs sa) (T.rs sb)) t op .fixed 2 Effect.none
    | .syRead _ sa => addFlight (objReq s t T .readObj (T.rs sa) 0) t op (.data s.nextReq) 0 Effect.none
    | .stepWait _ => addFlight s t op .stepWait 0 Effect.none
    -- a branch resolves in its issue cycle; its lockstep copies may still disagree (log 121)
    | .br .. | .brP .. | .jmp _ | .jr _ => fixed 0 Effect.none
    | .mxaPass .. | .mxaWload .. => issueArray false s t op
    | op =>
      match (scalarLat op).map (fun l => (l, Effect.regs (scalarWrites s t T op))) with
      | some (l, e) => fixed l e
      | none =>
        match vectorEff s T op with
        | some (l, e) => fixed l e
        | none =>
          match matrixEff s T op with
          | some (l, e) => fixed l e
          | none =>
            match localEff s T op with
            | some (l, e) => fixed l e
            | none => s

/-- Requests of the buffer that have not been answered. -/
def linesAsked (T : Tile) : Nat := (T.ibuf.vals.filter (· == false)).length

/-- A line asked for, unless it is held or asked for; beyond four requests in flight it waits (R165). [DEDUCED, log 11] -/
def askLine (T : Tile) (l : Nat) : Tile :=
  if T.ibuf.has l ∨ T.lineQ.contains l = true then T
  else if linesAsked T < 4 then { T with ibuf := T.ibuf.set l false } else { T with lineQ := T.lineQ ++ [l] }

/-- Lines the tile may fetch, asked for in order (R156). -/
def askLines (s : State) (t : Nat) (T : Tile) (l : List Nat) : Tile :=
  (l.filter fun n => fetchOk s t T (64 * n)).foldl askLine T

/-- A request of the buffer ends: the oldest waiting line is asked for. -/
def nextLine (T : Tile) : Tile :=
  match T.lineQ with
  | l :: rest => if linesAsked T < 4 then { T with lineQ := rest, ibuf := T.ibuf.set l false } else T
  | [] => T

/-- Lines the instruction buffer asks for when a bundle issues: two ahead, and a taken branch's target line (R165).
[DEDUCED, log 11] -/
def fetchAhead (s : State) (t : Nat) (T : Tile) (next : BitVec 44) (taken : Bool) : Tile :=
  let line (a : Nat) : Nat := a / 64
  askLines s t T ([line T.pc.toNat + 1, line T.pc.toNat + 2] ++ (if taken then [line next.toNat] else []))

/-- The array waits for a ramp: quiet or ramping down with smoothing enabled and a non-zero ramp (R103, R104). -/
def rampNeeded (s : State) (t : Nat) (T : Tile) : Bool :=
  s.fld (R.mxaSmooth t) F.mxaSmooth_enable == 1 && s.fld (R.mxaSmooth t) F.mxaSmooth_ramp_up != 0 && T.smooth != 1

end Sys2Proof.Machine
end

