-- ==== Sys2Proof/Machine/TileIssue.lean ====
section
/-! DEFINITION. A slot of a bundle reaching issue, the retirement of operations in flight and the events of a tile
that are not memory answers (R45 to R75, R91 to R117, R155 to R168, R222). -/

namespace Sys2Proof.Machine

/-! ### Issue -/

/-- The tile takes no bundle: the device is lost, or the tile is not running, drains a deferred trap or an urgent preemption, or its context is
stopped (R63, R70, R494 stage 1, R529, R532). -/
def issueBlocked (s : State) (t : Nat) (T : Tile) : Bool :=
  !(T.st == .run || T.st == .handler) || T.drain.isSome || T.suppress || (T.preempt == some .urgent && T.st == .run)
    || (T.ctxValid && s.issueStopped T.ctxIndex) || s.inReset (t / 256) || s.board.lost

/-- A slot received for the bundle at issue; a slot sent again replaces the earlier one. -/
def Tile.addSlot (T : Tile) (op : TileOp) : Tile :=
  { T with asm := (T.asm.filter fun o => o.slot != op.slot) ++ [op] }

/-- PC after a bundle whose operations are `ops`. -/
def nextPc (T : Tile) (ops : List TileOp) : BitVec 44 × Bool :=
  match ops.findSome? (branchTo T) with
  | some a => (a, true)
  | none => (T.pc + 16, false)

/-- The bundle is held, and its line asked for when the buffer does not hold it (R165); issue is tried again when its last slot
is sent again. [DEDUCED, log 12; DESIGN CHOICE, log 111] -/
def holdBundle (s : State) (t : Nat) (code : BitVec 2) : State :=
  let T := s.tile t
  s.setTile t (askLines s t
    { T with held := true, stall := code, stalledTags := T.stalledTags || code == 1, stalledSync := T.stalledSync || code == 3 }
    [T.pc.toNat / 64])

/-- mxa.wload enters a weight row in every cycle until it retires. -/
def loadingWeights (T : Tile) : Bool := T.flights.any fun f => match f.op with | .mxaWload .. => true | _ => false

/-- The most dummies that the idle run so far can have had: those of a whole fill, or of a whole ramp after one (R102, R103); none
when no idle cycle has passed. [DEDUCED, log 120] -/
def idleMost (s : State) (t : Nat) : Nat :=
  let r := R.mxaSmooth t
  let T := s.tile t
  if T.noIdle = true ∨ loadingWeights T = true then 0
  else match T.smooth.toNat with
    | 0 => 0
    | 1 => s.fld r F.mxaSmooth_fill_max
    | 2 => s.fld r F.mxaSmooth_ramp_down / 2
    | _ => s.fld r F.mxaSmooth_ramp_down / 2 + s.fld r F.mxaSmooth_ramp_up

/-- Dummies of an idle run that ends before its whole length is known, at most `most` of them. [DESIGN CHOICE, log 23] -/
def endIdle (s : State) (t most : Nat) : State :=
  if most = 0 then s
  else (s.draw).2.bump (R.mxaBusycnt t) F.mxaBusycnt_dummy (min most (Config.idleCycles (s.draw).1))

/-- An array operation issues: with smoothing the idle run ends, and MXA.STATUS shows a fill from now on, which begins with the
first idle cycle. [DESIGN CHOICE, log 112] -/
def enterArray (s : State) (t : Nat) (ops : List TileOp) : State :=
  if ops.any isArray then
    if s.fld (R.mxaSmooth t) F.mxaSmooth_enable = 1 then
      let s1 := endIdle s t (idleMost s t)
      s1.setTile t { s1.tile t with smooth := 1, noIdle := false }
    else s.setTile t { s.tile t with smooth := 0, noIdle := false }
  else s

/-- A committed change of MXA.SMOOTH.enable applies from the next idle cycle (R99): of an array whose operation still enters, the
idle run that follows begins as a fill; a fill or ramp in progress ends when smoothing is disabled. [DESIGN CHOICE, log 112] -/
def switchSmoothing (old : State) (s : State) (t : Nat) : State :=
  let r := R.mxaSmooth t
  if old.fld r F.mxaSmooth_enable = s.fld r F.mxaSmooth_enable then s
  else if s.fld r F.mxaSmooth_enable = 1 then
    if arrayBusy (s.tile t) then s.setTile t { s.tile t with smooth := 1 } else s
  else
    let s1 := endIdle s t (idleMost old t)
    s1.setTile t { s1.tile t with smooth := 0 }

/-- The smoothing of every tile after a commit. -/
def switchAllSmoothing (old s : State) : State := s.tiles.keys.foldl (switchSmoothing old) s

/-- The order of R65 among the deferred causes that one bundle raises at its issue: LSERR of an uncorrectable count word, then
RESIDUE of the slots whose sources read uncorrectable. -/
def issueOrder (T : Tile) (ops : List TileOp) : List TileOp :=
  let first (o : TileOp) : Bool := isTree o && T.countUe && !badSource T o
  ops.filter first ++ ops.filter (badSource T) ++ ops.filter fun o => !badSource T o && !first o

/-- All slots of a bundle issue in one cycle (R49); the PC moves and the buffer fetches ahead. -/
def issueAll (s : State) (t : Nat) (ops : List TileOp) (next : BitVec 44) (taken : Bool) : State :=
  let st := (s.tile t).st
  let s1 := (issueOrder (s.tile t) ops).foldl (fun s o => if (s.tile t).st = st then issueOp s t o else s) (enterArray s t ops)
  let T := s1.tile t
  if T.st ≠ st then s1
  else s1.setTile t { fetchAhead s1 t { T with asm := [], held := false, stall := 0, countUe := false } next taken with pc := next }

/-- Leaving the handler (R67, R168): the context's bank returns and issue goes on at `pc`. [DEDUCED, log 36] -/
def leaveHandler (s : State) (t : Nat) (pc : BitVec 44) : State :=
  s.setTile t { s.tile t with st := .run, asm := [], held := false, stall := 0, pc := pc }

/-- The array waits for a ramp-up: MXA.STATUS shows it, and whether it starts from quiet (R104). -/
def startRamp (T : Tile) : Tile := if T.smooth = 3 then T else { T with smooth := 3, rampQuiet := T.smooth == 0 }

/-- What a bundle meets at issue: a trap, a hold, or nothing. -/
inductive Meets where
  | hits (l : List Hit)
  | hold (code : BitVec 2)
  | ramp
  | issue
deriving DecidableEq, Repr

/-- The order of the issue checks: the bundle after a step.wait waits for the tick, an address outside the code window traps, a
line not in the buffer is waited for; then what the checks read must be free, then come the other precise traps, then the conditions
that hold the bundle, the array's ramp last (R43, R49, R50, R55, R62, R104, R159, R165). [DEDUCED, log 35 and 117] -/
def meets (s : State) (t : Nat) (T : Tile) (ops : List TileOp) : Meets :=
  let code := ((firstHold s t T ops).map (·.2.1)).getD 2
  if stepWaiting T then .hold code
  else if fetchHits s t T ≠ [] then .hits (fetchHits s t T)
  else if lineHeld T = false then .hold code
  else if bundleBusy t T ops then .hold code
  else if staticHits T ops ++ dynamicHits s t T ops ≠ [] then .hits (staticHits T ops ++ dynamicHits s t T ops)
  else if (firstHold s t T ops).isSome then .hold code
  else if ops.any isArray && rampNeeded s t T then .ramp
  else .issue

/-- The bundle of `ops` at issue. -/
def tryBundle (s : State) (t : Nat) (ops : List TileOp) (next : BitVec 44) (taken : Bool) : State :=
  match meets s t (s.tile t) ops with
  | .hits l => preciseTrap s t ops l
  | .hold code => holdBundle s t code
  | .ramp => holdBundle (s.setTile t (startRamp (s.tile t))) t 2
  | .issue => issueAll s t ops next taken

/-- The tile as a replayed bundle of the context finds it (R168). -/
def replayTile (T : Tile) (op : TileOp) : Tile := { T with st := .run, asm := [op], pc := T.trapPc }

/-- fret.replay (R168): the trapped operation issues alone in its slot as a bundle of the context, and issue resumes at
TILE.RESUME_PC. While a condition holds it, the tile stays in handler mode; a trap it meets is one of the context's.
[DEDUCED, log 36] -/
def replay (s : State) (t : Nat) : State :=
  let T := s.tile t
  match T.trapOp with
  | none => leaveHandler s t T.resumePc
  | some op =>
    let s1 := s.setTile t (replayTile T op)
    match meets s1 t (s1.tile t) [op] with
    | .hits l => preciseTrap s1 t [op] l
    | .hold code =>
      s.setTile t { askLines s1 t (s1.tile t) [T.trapPc.toNat / 64] with
        st := .handler, asm := T.asm, pc := T.pc, held := true, stall := code }
    | .ramp => holdBundle (s.setTile t (startRamp T)) t 2
    | .issue => issueAll s1 t [op] T.resumePc false

/-- The bundle that the tile has received in full. [DESIGN CHOICE, log 5] -/
def tryIssue (s : State) (t : Nat) : State :=
  let T := s.tile t
  let n := nextPc T T.asm
  if (T.asm = [.fret] ∨ T.asm = [.fretReplay]) ∧ meets s t T T.asm = .issue then
    if T.asm = [.fret] then leaveHandler s t T.resumePc else replay s t
  else tryBundle s t T.asm n.1 n.2

/-- One slot of a bundle reaches the tile; `more` says that further slots of the bundle follow.
[DESIGN CHOICE, log 5; DEDUCED, log 12] -/
def slotStep (t : Nat) (more : Bool) (op : TileOp) (s : State) : State :=
  let T := s.tile t
  if issueBlocked s t T then s
  else
    let s1 := s.setTile t (T.addSlot op)
    if more then s1 else tryIssue s1 t

/-- A tree operation reaches the tile; `r.countUe` says that the count word it reads at its issue is uncorrectable (R181). -/
def treeSlot (t : TileId) (r : TreeRead) (op : TileOp) (s : State) : Host.Outcome State Fault Refusal :=
  let T := s.tile t.val
  .next (if issueBlocked s t.val T then s
    else slotStep t.val r.more op (s.setTile t.val { T with countUe := r.countUe }))

def tileSlot (t : TileId) (more : Bool) (op : TileOp) (s : State) : Host.Outcome State Fault Refusal :=
  .next (slotStep t.val more op s)

/-! ### Retirement -/

/-- Counters of an operation that retires (R116, R153). -/
def countSpecial (s : State) (t : Nat) (x : Special) : State :=
  let r := R.vxuSpecial t
  (((s.bump r F.vxuSpecial_nan_out x.nan).bump r F.vxuSpecial_inf_out x.inf).bump r F.vxuSpecial_ftz_out x.ftz).bump r
    F.vxuSpecial_daz_in x.daz

/-- A walk that retires counts (R270). -/
def countWalk (s : State) (t : Nat) : TileOp → State
  | .kvWalk .. => s.bump (R.tileKvwStat t) F.tileKvwStat_walks 1
  | _ => s

/-- Register writes, accumulator rows and weights of an effect. MXA.STATUS shows the earlier weights until a load retires.
[DESIGN CHOICE, log 134] -/
def Tile.applyEffect (T : Tile) (e : Effect) : Tile :=
  let T1 := T.writeRegs e.res
  let T2 := { T1 with acc := e.rows.foldl (fun m r => m.set r.1 r.2) T1.acc }
  match e.image with
  | some (f, bs) => { T2 with wvalid := true, wfmt := f, wimg := bs }
  | none => T2

/-- Tags of an operation that retires: reads end before writes and tag operations (R42, R47). -/
def Tile.endUse (T : Tile) (u : BlockUse) : Tile :=
  u.publish.foldl tagPublish (u.consume.foldl tagConsume (u.rd.foldl tagReadEnd T))

/-- The parts of a local-store write that another write of the same bytes leaves. -/
def cutWrite (x w : Nat × List Byte) : List (Nat × List Byte) :=
  let lo := w.1 - x.1
  let hi := w.1 + w.2.length - x.1
  if w.1 + w.2.length ≤ x.1 ∨ x.1 + x.2.length ≤ w.1 then [x]
  else [(x.1, x.2.take lo), (x.1 + hi, x.2.drop hi)].filter fun y => y.2 != []

/-- An operation that retires out of order leaves its bytes as those of the later bundle: an earlier operation in flight no longer
writes them (R50). -/
def Tile.laterBytes (T : Tile) (f : Flight) : Tile :=
  let ws := f.eff.ls.flatten
  if ws = [] then T
  else
    { T with flights := T.flights.map fun g =>
        if g.id < f.id then { g with eff := { g.eff with ls := g.eff.ls.map fun l => ws.foldl (fun l w => l.flatMap (cutWrite · w)) l } }
        else g }

/-- Bytes of local-store writes, in order. -/
def putLocal (s : State) (l : List (Nat × List Byte)) : State := l.foldl (fun s w => s.writeRaw w.1 w.2) s

/-- An operation retires with its results (R50, R160); under a teardown nothing is committed (R99). -/
def retire (s : State) (t : Nat) (f : Flight) : State :=
  let T := s.tile t
  if T.suppress then s.setTile t (T.dropFlight f.id)
  else
    let s1 := putLocal s f.eff.ls.flatten
    let T1 := (((T.applyEffect f.eff).endUse f.use).dropFlight f.id).laterBytes f
    countWalk (countSpecial (s1.setTile t T1) t f.eff.special) t f.op

/-- An operation is abandoned: no result, nothing consumed, its reads end (R45, R63); an abandoned mxa.wload leaves no weights. -/
def abandon (s : State) (t : Nat) (f : Flight) : State :=
  let T := s.tile t
  s.setTile t (((f.use.rd.foldl tagReadEnd T).dropFlight f.id).lostWeights f.op)

/-- An operation is abandoned at a read and runs out its remaining cycles, owning what it owns (R85, R100). -/
def abandonEarly (s : State) (t : Nat) (f : Flight) : State :=
  s.setTile t (((s.tile t).mapFlight f.id fun g => { g with dead := true, eff := Effect.none }).lostWeights f.op)

/-- Accumulator rows that an accumulator operation in flight reads: the first and their number (R96). -/
def transferRows (f : Flight) : Nat × Nat := (rowFirst (f.args.headD 0), f.eff.ls.length)

/-- What an operation sent or queued at issue is taken back: the uncorrectable source was read before anything left the tile
(R227). None once it has been performed. [DEDUCED, log 121] -/
def takeBack (s : State) (t : Nat) (f : Flight) : Option State :=
  let mine := s.reqs.rows.filter fun ir => ir.2.tile == t && ir.2.flight == f.id
  if mine.any (·.2.done) then none
  else match f.op with
    | .dmaPost q _ _ =>
      let k := t * 8 + q.toNat
      let x := s.queue k
      if x.heads.any (fun h => h.mark == f.id) then
        some (s.setQueue k { x with heads := x.heads.filter fun h => h.mark != f.id })
      else none
    | .dmaCancel _ | .dmaStat .. | .memFence .. => none
    | _ => some { s with reqs := s.reqs.keep fun _ r => !(r.tile == t && r.flight == f.id) }

/-- The local store may be read by the operation. -/
def readsLs : TileOp → Bool
  | .lsLd .. | .lsVld .. | .mxaWload .. | .vTreeInit .. | .vTreePush .. | .vTreeFin .. => true
  | _ => false

/-- The fault can be met by the operation (R98, R161, R181, R226, R227). -/
def faultFits (f : Flight) : OpFault → Bool
  | .ok => true
  | .corrected acc _ => match f.op with
    | .accSt .. | .accMv .. => acc
    | op => !acc && readsLs op
  | .lsUe _ _ => readsLs f.op
  | .accUe row _ _ => match f.op with
    | .accMv .. => true
    | .accSt .. => decide ((transferRows f).1 ≤ row.toNat) && decide (row.toNat < (transferRows f).1 + (transferRows f).2)
    | _ => false
  | .residue _ _ => true
  | .regUe => true

/-- The context that a tile's records name. -/
def tileCtx (T : Tile) : Option Nat := if T.ctxValid then some (T.ctxIndex * 128 + T.ctxGen) else none

/-- SRAM_UE record of a structure inside a tile; of the accumulator it names row and column (R98). [DEDUCED, log 26] -/
def sramRecord (s : State) (t structure_ row col : Nat) : State :=
  let (syn, s1) := s.sramSyndrome structure_
  s1.record (t / 256)
    { cls := 4, sev := 2, device := false, part := t / 256, ctx := tileCtx (s.tile t), kind := 1, index := t,
      addr := row * 64 + col, addrKind := 0, synd := syn, step := (s.tile t).step.toNat, addrErr := false }

/-- Corrected errors counted: of the accumulator in MXA.ACCERR (R98), of the local store in LS.ECC (R230). -/
def countCorrected (s : State) (t : Nat) (acc : Bool) (n : Nat) : State :=
  if acc then s.bump (R.mxaAccerr t) F.mxaAccerr_corrected n else s.bump (R.lsEcc t) F.lsEcc_corrected n

/-- Counters and the SRAM_UE record of a fault. VXU.RESIDUE counts an abandoned vector operation once, however many lanes
mismatch; a lockstep disagreement has no kind there and does not count (R153). [DESIGN CHOICE, log 115] -/
def countFault (s : State) (t : Nat) (op : TileOp) : OpFault → State
  | .ok => s
  | .corrected acc n => countCorrected s t acc (n.toNat + 1)
  | .lsUe a n => (countCorrected s t false n.toNat).lsError a.toNat 2 (tileCtx (s.tile t))
  | .accUe row col n => sramRecord (countCorrected s t true n.toNat) t 5 row.toNat col.toNat
  | .regUe => sramRecord s t 6 0 0
  | .residue k l =>
    if op.slot = .v ∧ k ≠ 0 then
      let r := R.vxuResidue t
      (((s.bump r F.vxuResidue_step_fails 1).bump r F.vxuResidue_fails 1).setFld r F.vxuResidue_last_kind k.toNat).setFld r
        F.vxuResidue_last_lane l.toNat
    else s

def OpFault.trap (s : State) (f : Flight) : OpFault → TrapRec
  | .lsUe a _ => ⟨Cause.lserr, BitVec.ofNat 56 (s.globalHere a.toNat), f.op.slot, some f.op, f.pc⟩
  | .accUe _ _ _ => ⟨Cause.lserr, 0, f.op.slot, some f.op, f.pc⟩
  | _ => ⟨Cause.residue, 0, f.op.slot, some f.op, f.pc⟩

/-- An array or accumulator operation, whose abandoned form runs out its cycles (R100). -/
def isMatrix (op : TileOp) : Bool := isArray op || isTransfer op

/-- A deferred fault on an operation in flight. One found at a read abandons the operation there, and its remaining cycles run
out; an accumulator store has written the rows before the faulty one (R96). One found at the end ends it (R63, R100).
[DESIGN CHOICE, log 118] -/
def faultOp (s : State) (t : Nat) (f : Flight) (x : OpFault) : State :=
  if (s.tile t).suppress then s.setTile t ((s.tile t).dropFlight f.id)
  else
    let s1 := countFault s t f.op x
    match x with
    | .lsUe _ _ => deferTrap (abandonEarly s1 t f) t (OpFault.trap s f x)
    | .regUe => deferTrap (if isMatrix f.op then abandonEarly s1 t f else abandon s1 t f) t (OpFault.trap s f x)
    | .accUe row _ _ =>
      let s2 := putLocal s1 (f.eff.ls.take (row.toNat - (transferRows f).1)).flatten
      deferTrap (abandonEarly s2 t f) t (OpFault.trap s f x)
    | _ => deferTrap (abandon s1 t f) t (OpFault.trap s f x)

/-- OP_RETIRE: an operation of fixed latency retires, or an operation meets its deferred fault. The last cycle of an abandoned
operation only releases what it owns. [DESIGN CHOICE, log 118] -/
def execOpRetire (t : TileId) (id : BitVec 32) (x : OpFault) (s : State) : Host.Outcome State Fault Refusal :=
  .next (match (s.tile t.val).flight? id.toNat with
    | none => s
    | some f =>
      if f.dead then (if f.kind = .fixed then abandon s t.val f else s)
      else if faultFits f x = false then s
      else match x with
        | .ok => if f.kind = .fixed then retire s t.val f else s
        | .corrected acc n =>
          if f.kind = .fixed then countFault (retire s t.val f) t.val f.op (.corrected acc n) else s
        | .residue k l => (match f.kind, takeBack s t.val f with
          | .pass, _ => s
          | _, some s1 => faultOp s1 t.val f (.residue k l)
          | _, none => s)
        | .regUe => (match takeBack s t.val f with
          | some s1 =>
            faultOp (if f.kind = .pass then s1.bump (R.mxaPasscnt t.val) F.mxaPasscnt_abandoned 1 else s1) t.val f .regUe
          | none => s)
        | y => if f.kind = .fixed then faultOp s t.val f y else s)

/-- PASS_VERDICT (R95, R98, R99, R113): a good pass commits its rows; any other is abandoned. A corrected or uncorrectable read is
reported when it is met, and the pass runs on to its verdict; a mismatch of a pass that is abandoned already counts in MXA.RESIDUE
and raises no second cause. [DESIGN CHOICE, log 118 and 128] -/
def passEnd (s : State) (t : Nat) (f : Flight) (v : Verdict) : State :=
  let lost (s : State) : State := s.bump (R.mxaPasscnt t) F.mxaPasscnt_abandoned 1
  match v with
  | .good =>
    if f.dead then abandon s t f
    else (retire s t f).bump (R.mxaPasscnt t) F.mxaPasscnt_committed (if (s.tile t).suppress then 0 else 1)
  | .mismatch vec col =>
    let r := R.mxaResidue t
    let s1 := (((s.bump r F.mxaResidue_step_fails 1).bump r F.mxaResidue_fails 1).setFld r F.mxaResidue_last_vec
      vec.toNat).setFld r F.mxaResidue_last_col col.toNat
    if f.dead then abandon s1 t f else faultOp (lost s1) t f (.residue 0 0)
  | .corrected acc => countFault s t f.op (.corrected acc 0)
  | .lsUe a => if f.dead then countFault s t f.op (.lsUe a 0) else faultOp (lost s) t f (.lsUe a 0)
  | .accUe row col => if f.dead then s else faultOp (lost s) t f (.accUe row col 0)

def execPassVerdict (t : TileId) (id : BitVec 32) (v : Verdict) (s : State) : Host.Outcome State Fault Refusal :=
  .next (match (s.tile t.val).flight? id.toNat with
    | some f => if f.kind = .pass then passEnd s t.val f v else s
    | none => s)

/-! ### Smoothing (R103, R104) -/

/-- The fill ends: its cycles carried dummies, and the density starts down. The passes in flight are past their entry interval.
With smoothing disabled the array is quiet. [DEDUCED, log 120] -/
def execSmoothFillEnd (t : TileId) (s : State) : Host.Outcome State Fault Refusal :=
  let T := s.tile t.val
  .next (if T.smooth = 1 ∧ loadingWeights T = false then
    if s.fld (R.mxaSmooth t.val) F.mxaSmooth_enable = 1 then
      (s.setTile t.val { T with smooth := 2 }).bump (R.mxaBusycnt t.val) F.mxaBusycnt_dummy
        (s.fld (R.mxaSmooth t.val) F.mxaSmooth_fill_max)
    else s.setTile t.val { T with smooth := 0 }
  else s)

/-- The ramp-down reaches zero: the integral of a linear ramp is half its length. -/
def execSmoothRampDownEnd (t : TileId) (s : State) : Host.Outcome State Fault Refusal :=
  let T := s.tile t.val
  .next (if T.smooth = 2 then
    (s.setTile t.val { T with smooth := 0 }).bump (R.mxaBusycnt t.val) F.mxaBusycnt_dummy
      (s.fld (R.mxaSmooth t.val) F.mxaSmooth_ramp_down / 2)
  else s)

/-- Dummies of `x` cycles of a ramp-down of length `r`, whose density falls from full by 1/r each cycle (R103). -/
def downDummies (r x : Nat) : Nat := x * (2 * r - x) / (2 * r)

/-- Dummies of the ramp-up from the density reached after `x` cycles of a ramp-down of length `r`: the integral over the wait of
ceil(x × up / r) cycles, full density in the rest of the last one (R104). [DEDUCED, log 120] -/
def upDummies (up r x : Nat) : Nat :=
  ((x * up + r - 1) / r * (2 * r * r) + up * x * (2 * r - x) - 2 * r * x * up) / (2 * r * r)

/-- The ramp-up reaches full density, and the waiting bundle is tried again. From quiet it started at density 0; otherwise the
operation reached issue `x` cycles into the ramp-down. [DEDUCED, log 40 and 120] -/
def execSmoothRampUpEnd (t : TileId) (x : BitVec 13) (s : State) : Host.Outcome State Fault Refusal :=
  let T := s.tile t.val
  let up := s.fld (R.mxaSmooth t.val) F.mxaSmooth_ramp_up
  let r := s.fld (R.mxaSmooth t.val) F.mxaSmooth_ramp_down
  let n := if T.rampQuiet then upDummies up r r else downDummies r (min x.toNat r) + upDummies up r (min x.toNat r)
  .next (if T.smooth = 3 then
    let s1 := (s.setTile t.val { T with smooth := 1, noIdle := true }).bump (R.mxaBusycnt t.val) F.mxaBusycnt_dummy n
    let s2 := if T.held = true ∧ issueBlocked s1 t.val (s1.tile t.val) = false then tryIssue s1 t.val else s1
    s2.setTile t.val { s2.tile t.val with noIdle := false }
  else s)

/-! ### step.wait (R53, R67, R68, R167) -/

/-- The peer that a deferral probes when a SYNCTO names an object of a fabric block: the first valid peer (R520).
[DEDUCED, log 37] -/
def firstPeer (s : State) (c : Nat) : Option Nat := (List.range 4096).find? fun d => (peerCtx s c d).isSome

/-- The object of the recorded SYNCTO lies in a fabric block. [DEDUCED, log 37] -/
def synctoOnFabric (s : State) (T : Tile) : Bool :=
  let h := Handle.ofBits (BitVec.ofNat 64 T.trapAddr.toNat)
  T.trapCause == 6 && decide (T.trapAddr.toNat < 2 ^ 30)
    && s.fld (R.synOwn h.part (h.index / 64)) F.synOwn_fabric == 1

/-- The recorded SYNCTO is a tag wait whose block is filled from a quiesced unit (R622). -/
def synctoOnQuiesced (s : State) (t : Nat) (T : Tile) : Bool :=
  let b := (T.trapAddr.toNat % 2 ^ 44 - lsBase t) / 0x1000
  let g := T.tag b
  T.trapCause == 6 && decide (2 ^ 30 ≤ T.trapAddr.toNat) && g.st == .fill
    && (s.queue g.owner).active.any fun a => s.descQuiesced a.d

/-- What the partition controller does with the handler's report (R68): a repeat of BOUND, ILLOP or SYNCTO in the replayed
step tears the context down; a SYNCTO on a fabric object or on a quiesced unit defers the revival; otherwise the step is
revived, after the code line of an IFERR is fetched again or, at PAGEF, the page tables are rebuilt. [DEDUCED, log 37 and 124] -/
def reportTrap (s : State) (t : Nat) : State :=
  let T := s.tile t
  let c := T.ctxIndex
  let code := T.trapCause.toNat
  let last := s.fld (R.ctxRevive c) F.ctxRevive_cause
  let replaying := s.fld (R.ctxRevive c) F.ctxRevive_state == 2
  if replaying = true ∧ (code = 4 ∨ code = 5) ∧ (last = 4 ∨ last = 5) then s.startTeardown c St.bound
  else if synctoOnFabric s T = true ∧ (firstPeer s c).isSome = true then s.deferRevival c ((firstPeer s c).getD 0) Cause.syncto
  else if synctoOnQuiesced s t T then s.waitUnit c Cause.syncto
  else if replaying = true ∧ code = 6 ∧ last = 6 then s.startTeardown c St.timeout
  else
    let s1 := if code = Cause.iferr then s.refetchLine (T.trapAddr.toNat % 2 ^ 44)
      else if code = Cause.pagef then s.rebuildTables c else s
    s1.startRevival c code

/-- Requests that count as stores for R53 (R205), the handler's stores to its register block among them. -/
def ReqKind.isStore : ReqKind → Bool
  | .store => true | .regStore => true | .drop => true | .atomic _ _ => true | .append => true | .signal => true | _ => false

/-- Stores of the tile and DMA writes of the step have reached their destinations (R53). -/
def stepDone (s : State) (t : Nat) (T : Tile) : Bool :=
  !(s.reqs.vals.any fun r => r.tile == t && r.kind.isStore) && !(State.tileQueues t).any fun k => s.queueHolds k (.inStep T.step)

/-- The state from which step.wait enters STEPWAIT: RUN, or with rev HANDLER. R60 lets a step.wait without rev enter it from
HANDLER in no case, so that one does not retire. [DESIGN CHOICE, log 129] -/
def stepWaitMay (T : Tile) (f : Flight) : Bool :=
  T.st == .run || (T.st == .handler && f.op == .stepWait true)

def execStepWaitRetire (t : TileId) (s : State) : Host.Outcome State Fault Refusal :=
  let T := s.tile t.val
  .next (match T.flights with
    | [f] =>
      if f.kind = .stepWait ∧ f.dead = false ∧ stepWaitMay T f = true ∧ stepDone s t.val T = true ∧ T.suppress = false then
        let rev := f.op == .stepWait true
        let s1 := s.setTile t.val
          { T.dropFlight f.id with st := .stepwait, revive := rev, asm := [], held := false, stall := 0 }
        (if rev then reportTrap s1 t.val else s1).settleHold T.ctxIndex
      else s
    | _ => s)

/-! ### Traps after issue -/

/-- Codes of the precise causes, bit code - 1: IFERR, ILLOP, BOUND and SYNCTO (R61). -/
def preciseCauses : BitVec 7 := 0x39

/-- DEFERRED_TRAP_TAKEN (R63): every other operation has retired, and the trap is recorded. Of the causes of one cycle it is the
highest, and TILE.TRAP.pending shows the others (R65): IFERR of the bundle at issue stands above the deferred causes, which stand
above the other precise ones. [DESIGN CHOICE, log 119] -/
def execDeferredTrapTaken (x : TrapTaken) (s : State) : Host.Outcome State Fault Refusal :=
  let t := x.tile.val
  let T := s.tile t
  let precise := x.precise &&& preciseCauses
  .next (match T.drain with
    | some tr =>
      if T.flights = [] then
        let all := tr :: T.drainMore
        if precise.getLsbD 0 then
          enterHandler (s.setTile t { T with trapPending := T.trapPending ||| (precise &&& 0x38) ||| causeBits all }) t
            ⟨Cause.iferr, BitVec.ofNat 56 (s.globalHere (T.pc.toNat / 64 * 64)), .s, none, T.pc⟩ T.pc false
        else
          let taken := pickRec tr (T.drainMore.take x.same.toNat)
          enterHandler (s.setTile t { T with trapPending := pendingBeside T taken all ||| precise }) t taken T.pc true
      else s
    | none => s)

/-- A held bundle waited on tags (`code` 1) or an object (`code` 3) beyond stall_to: SYNCTO (R48, R218); so does one that
fret.replay issues, as a bundle of the context (R168). -/
def stallTrap (s : State) (t : Nat) (code : BitVec 2) : State :=
  let T := s.tile t
  let U := match T.asm, T.trapOp with
    | [.fretReplay], some op => if T.st = .handler then replayTile T op else T
    | _, _ => T
  if T.held = true ∧ issueBlocked s t T = false then
    match (bundleHolds s t U U.asm).find? (·.2.1 == code) with
    | some (o, _, on) => enterHandler (s.setTile t U) t ⟨Cause.syncto, BitVec.ofNat 56 on, o.slot, some o, U.pc⟩ U.pc false
    | none => s
  else s

def execTagStallTimeout (t : TileId) (s : State) : Host.Outcome State Fault Refusal := .next (stallTrap s t.val 1)

def execSyncWaitTimeout (t : TileId) (s : State) : Host.Outcome State Fault Refusal := .next (stallTrap s t.val 3)

/-- IBUF_LINE_ARRIVE (R51, R61, R165): a line with a parity error is asked for again, as one of the four requests; a refetch that is
uncorrectable or poisoned traps with IFERR when the tile is about to issue from the line. IFERR has no faulting operation, and
TILE.TRAP.slot shows the S slot. [DEDUCED, log 11 and 27; DESIGN CHOICE, log 130] -/
def execIbufLineArrive (t : TileId) (line : BitVec 38) (x : FetchFault) (s : State) : Host.Outcome State Fault Refusal :=
  let T := s.tile t.val
  let l := line.toNat
  .next (match x with
    | .ok => s.setTile t.val (nextLine { T with ibuf := T.ibuf.set l true })
    | .parity => (s.setTile t.val (askLine { T with ibuf := T.ibuf.erase l } l)).bump (R.tileIbuf t.val) F.tileIbuf_refetch 1
    | .bad =>
      let s1 := s.setTile t.val (nextLine { T with ibuf := T.ibuf.erase l })
      if T.pc.toNat / 64 = l ∧ issueBlocked s t.val T = false then
        enterHandler s1 t.val ⟨Cause.iferr, BitVec.ofNat 56 (s.globalHere (64 * l)), .s, none, T.pc⟩ T.pc false
      else s1)

/-- TILE_HANG (R58): the tile is declared hung and reset; its context's step is revived. -/
def execTileHang (t : TileId) (s : State) : Host.Outcome State Fault Refusal :=
  let T := s.tile t.val
  let busy := match T.st with
    | .run => true | .handler => true | .save => true | .restore => true | .reset => true | _ => false
  .next (if busy = true ∧ 0 < T.notReady then
    let r := ErrRec.mk0 0x0C 3 (t.val / 256) 1 t.val (1 + 1 * 2 ^ 8)
    let s1 := s.record (t.val / 256) (s.nameCtx r (if T.ctxValid then some T.ctxIndex else none))
    let s2 := if T.ctxValid then s1.startRevival T.ctxIndex 0xB else s1
    s2.startEngineReset (t.val / 256) 1 t.val 4
  else s)

/-! ### Preemption (R69 to R75) -/

/-- A save request on TILE.PREEMPT; while one is in progress it is ignored. -/
def requestSave (s : State) (t : Nat) (k : PreemptKind) : State :=
  let T := s.tile t
  if T.preempt.isSome = true ∨ (T.st ≠ .run ∧ T.st ≠ .stepwait ∧ T.st ≠ .handler) then s
  else
    -- the queues stop fetching (R70 step 3, R373)
    let s1 := if k = .urgent ∨ T.st = .stepwait then
        (State.tileQueues t).foldl (fun s q => if (s.queue q).st = .run then s.setQueue q { s.queue q with st := .stopped }
          else s) s
      else s
    s1.setTile t { T with preempt := some k, preemptResult := 0 }

def execStepSaveRequest (t : TileId) (s : State) : Host.Outcome State Fault Refusal := .next (requestSave s t.val .step)

def execUrgentSaveRequest (t : TileId) (s : State) : Host.Outcome State Fault Refusal := .next (requestSave s t.val .urgent)

/-- PREEMPT_DRAIN_DONE: operations in flight have retired and started descriptors have completed, so the save begins;
never from HANDLER (R70, R71), and during a revival only after its stage 5 (R497). -/
def execPreemptDrainDone (t : TileId) (s : State) : Host.Outcome State Fault Refusal :=
  let T := s.tile t.val
  let quiet := T.flights.isEmpty && T.drain.isNone && !(s.reqs.vals.any fun r => r.tile == t.val)
    && (State.tileQueues t.val).all (fun k => (s.queue k).active.all fun a => a.status != 0)
    && !(T.ctxValid && s.reviving T.ctxIndex)
  let place := match T.preempt with
    | some .step => T.st == .stepwait
    | some .urgent => T.st == .run || T.st == .stepwait
    | _ => false
  .next (if quiet = true ∧ place = true then
    let s1 := (State.tileQueues t.val).foldl (fun s q => if (s.queue q).st = .run then
      s.setQueue q { s.queue q with st := .stopped } else s) s
    s1.setTile t.val { T with st := .save, saving := true, savedRun := T.st == .run, savedUrgent := T.preempt == some .urgent, asm := [], held := false, stall := 0 }
  else s)

/-- PREEMPT_DEFER: an urgent save that has not begun becomes a step-boundary one with result 0b10. -/
def execPreemptDefer (t : TileId) (s : State) : Host.Outcome State Fault Refusal :=
  let T := s.tile t.val
  .next (if T.preempt = some .urgent ∧ T.saving = false then
    let s1 := (State.tileQueues t.val).foldl (fun s q => if (s.queue q).st = .stopped then
      s.setQueue q { s.queue q with st := .run } else s) s
    s1.setTile t.val { T with preempt := some .step, preemptResult := 2 }
  else s)

/-- One 64-byte queue entry of the save area (R373). A halted descriptor, which would run again from its first byte, counts as not
started. [DESIGN CHOICE, log 39] -/
def queueEntry (s : State) (k : Nat) : List Byte :=
  let q := s.queue k
  let ptr (h : ChainHead) : Nat := h.addr / 64 * 64 + (if h.lo then 2 else 0) + 1
  let halted := (q.active.filter fun a => a.status != 0).map (·.d)
  let first : Nat := match halted ++ q.fetched, q.chain with
    | d :: _, _ => d.addr / 64 * 64 + (if d.lo then 2 else 0) + 1
    | [], some h => ptr h
    | [], none => 0
  leBytes 8 first ++ leBytes 8 (bitsOf (s.reg (qCtl k)).toNat 61 0) ++ leBytes 8 (s.reg (qRing k)).toNat
    ++ leBytes 8 (s.reg (qProd k)).toNat
    ++ (List.range 4).flatMap fun i => leBytes 8 (match q.heads[i]? with | some h => ptr h | none => 0)

def zeros (n : Nat) : List Byte := List.replicate n 0

/-- Two tag nibbles in a byte. -/
def tagByte (T : Tile) (j : Nat) : Byte :=
  BitVec.ofNat 8 ((T.tag (2 * j)).st.code.toNat + (T.tag (2 * j + 1)).st.code.toNat * 16)

/-- Bytes 0x0000 to 0x13FFF of the save area (R72, R101). Bytes 0x000 to 0x87F of the array's image are zero while no weights are
loaded. [DESIGN CHOICE, log 131] -/
def saveHead (s : State) (t : Nat) (T : Tile) : List Byte :=
  let kind := if T.savedUrgent then 2 else 1
  leBytes 8 (1 + kind * 2 ^ 16) ++ leBytes 8 (T.ctxIndex * 128 + T.ctxGen) ++ leBytes 8 T.step.toNat ++ leBytes 8 T.pc.toNat
    ++ leBytes 8 ((s.reg (R.tileStepctl t)).toNat % 2 ^ 32
        + (if T.savedRun then TileSt.run else TileSt.stepwait).code.toNat * 2 ^ 32)
    ++ zeros 24 ++ (List.range 4).flatMap (fun i => leBytes 8 (T.rlc (BitVec.ofNat 2 i)).toNat) ++ zeros 32
    ++ (List.range 32).flatMap (fun i => leBytes 8 (T.rs (BitVec.ofNat 5 i)).toNat)
    ++ (List.range 16).flatMap (fun i => leBytes 8 (T.ra (BitVec.ofNat 4 i)).toNat)
    ++ (List.range 8).flatMap (fun i => leBytes 8 (T.rp (BitVec.ofNat 3 i)).toNat) ++ zeros 448
    ++ (List.range 256).map (tagByte T)
    ++ (State.tileQueues t).flatMap (queueEntry s)
    ++ (List.range 512).map (fun b => if (T.tag b).st = .fill then BitVec.ofNat 8 (0x80 + (T.tag b).owner % 8) else 0)
    ++ zeros 1792
    ++ (List.range 32).flatMap (fun i => leBytes 256 (T.rv (BitVec.ofNat 5 i)).toNat)
    ++ (T.wimg ++ zeros (0x880 - T.wimg.length)).take 0x880
    ++ [BitVec.ofNat 8 ((if T.wvalid then 128 else 0) + T.wfmt.toNat)] ++ zeros 127
    ++ (List.range 256).flatMap (fun r => leBytes 2 ((T.accRow r).count + if (T.accRow r).int then 2 ^ 15 else 0))
    ++ zeros 0x500
    ++ (List.range 256).flatMap (fun r => leBytes 256 (T.accRow r).cols.toNat)

/-- Every tile of a context has been saved: the context is SAVED (R462). [DESIGN CHOICE, log 39] -/
def settleSave (s : State) (c : Nat) : State :=
  match s.ctxs.get? c with
  | some x =>
    if x.preempting ≠ 0 ∧ x.tiles.all (fun t => (s.tile t).st == .idle) = true
        ∧ (s.ctxSt c = CtxSt.running ∨ s.ctxSt c = CtxSt.held) then
      (s.setCtxSt c CtxSt.saved).updCtx c fun y => { y with preempting := 0 }
    else s
  | none => s

/-- What a save counts and records of the words it reads, and the lines of the save area at `base` that it writes with poison:
those of the words that read uncorrectable (R230, R315). [DESIGN CHOICE, log 127] -/
def saveFaults (s : State) (x : SaveEnd) (base : Nat) : State :=
  let t := x.tile.val
  let mine := x.bad.filter fun a => decide (lsBase t ≤ a.toNat) && decide (a.toNat < lsBase t + 0x200000)
    && ((s.tile t).tag (blockOf t a.toNat)).st != .free
  let s1 := s.bump (R.lsEcc t) F.lsEcc_corrected x.corrected.toNat
  let s2 := mine.foldl (fun s a => s.lsError a.toNat 2 (tileCtx (s.tile t))) s1
  mine.foldl (fun s a =>
    let l := (base + 0x14000 + (a.toNat - lsBase t)) / 64
    { s with lines := s.lines.set l { s.lineMeta l with poison := true } }) s2

/-- An engine reset of the tile waits for the end of its save (R60). [DEDUCED, log 132] -/
def resetWaits (s : State) (t : Nat) : Bool := s.engResets.any fun e => e.kind == 1 && e.index == t

/-- SAVE_COMPLETE: the save area is written, FREE blocks excepted; the tile is IDLE (R72), its registers and local store clear,
its tags as they were (R42). Firmware keeps the RESIDUE count of the context's run of the step (R68). [DESIGN CHOICE, log 107] -/
def execSaveComplete (x : SaveEnd) (s : State) : Host.Outcome State Fault Refusal :=
  let t := x.tile
  let T := s.tile t.val
  .next (if T.st = .save then
    let base := s.fld (R.tileSaveBase t.val) F.tileSaveBase_base * 0x10000
    let s1 := s.writeBytes base (saveHead s t.val T)
    let s2 := (List.range 512).foldl (fun s b =>
      if (T.tag b).st = .free then s
      else s.writeBytes (base + 0x14000 + b * 0x1000) (s.readRaw (lsBase t.val + b * 0x1000) 0x1000)) s1
    let s2 := saveFaults s2 x base
    let s3 := (State.tileQueues t.val).foldl (fun s q => s.setQueue q Queue.reset) s2
    let T1 := { Tile.reset with st := .idle, step := T.step, preemptResult := 1, trapCount := T.trapCount,
                                trapPending := T.trapPending, trapDouble := T.trapDouble, trapValid := T.trapValid,
                                trapSlot := T.trapSlot, trapCause := T.trapCause, trapPc := T.trapPc, trapOp := T.trapOp,
                                trapAddr := T.trapAddr, resumePc := T.resumePc, bistDue := T.bistDue, ctxValid := T.ctxValid,
                                ctxIndex := T.ctxIndex, ctxGen := T.ctxGen, pc := T.pc, tags := T.tags }
    let s4 := s3.updCtx T.ctxIndex fun x => { x with residues := x.residues.set t.val T.residues }
    let s5 := settleSave ((s4.clearRange (lsBase t.val) 0x200000).setTile t.val T1) T.ctxIndex
    if resetWaits s5 t.val then s5.clearTile t.val .reset else s5
  else s)

/-- RESTORE_REQUEST: an idle tile starts to read its save area (R74). -/
def execRestoreRequest (t : TileId) (s : State) : Host.Outcome State Fault Refusal :=
  let T := s.tile t.val
  .next (if T.st = .idle ∧ T.preempt = none then
    s.setTile t.val { T with st := .restore, preempt := some .restore, preemptResult := 0 }
  else s)

def tagOfCode (c : Nat) : TagSt :=
  if c = 1 then .fill else if c = 2 then .ready else if c = 3 then .held else if c = 4 then .drain else .free

/-- Window with R that contains an address: the save entry of a queue carries no window. [DESIGN CHOICE, log 39] -/
def windowFor (s : State) (c a : Nat) : Nat := ((List.range 16).find? fun w => s.winOk c w a 64 .rd).getD 0

/-- A queue loaded from its save entry; it fetches again from the saved address (R373). -/
def loadQueue (s : State) (c : Nat) (step : W64) (k a : Nat) : State :=
  let w (i : Nat) : Nat := s.load (a + 8 * i) 8
  let head (x : Nat) : Option ChainHead :=
    if x % 2 = 1 then
      some ⟨bitsOf x 43 6 * 64, windowFor s c (bitsOf x 43 6 * 64), x / 2 % 2 == 1, step, 0, none⟩
    else none
  let heads := ((List.range 4).map fun i => head (w (4 + i))).filterMap id
  let all := (head (w 0)).toList ++ heads
  let q : Queue := { Queue.reset with chain := all.head?, heads := all.drop 1, st := if all = [] then .idle else .run }
  (((s.setReg (qCtl k) (BitVec.ofNat 64 (w 1))).setReg (qRing k) (BitVec.ofNat 64 (w 2))).setReg (qProd k)
    (BitVec.ofNat 64 (w 3))).setQueue k q

/-- Registers, tags, weights and accumulator of the save area at `base`, which has no place for the marks of R207.
[DESIGN CHOICE, log 39 and 108] -/
def loadTile (s : State) (t base : Nat) : Tile :=
  let T := s.tile t
  let ld (o n : Nat) : Nat := s.load (base + o) n
  let word := ld 0x20 8
  let id := ld 0x8 8
  let tagAt (b : Nat) : TagSt := tagOfCode (ld (0x400 + b / 2) 1 / 16 ^ (b % 2) % 8)
  let mode := ld 0x3880 1
  { T with
    st := if word / 2 ^ 32 % 16 = 2 then .run else .stepwait, stall := 0,
    ctxValid := true, ctxIndex := id / 128 % 512, ctxGen := id % 128, step := BitVec.ofNat 64 (ld 0x10 8),
    pc := BitVec.ofNat 44 (ld 0x18 8), lc := ⟨(List.range 4).map fun i => (i, BitVec.ofNat 32 (ld (0x40 + 8 * i) 8))⟩,
    s := ⟨(List.range 32).map fun i => (i, BitVec.ofNat 64 (ld (0x80 + 8 * i) 8))⟩,
    a := ⟨(List.range 16).map fun i => (i, BitVec.ofNat 48 (ld (0x180 + 8 * i) 8))⟩,
    p := ⟨(List.range 8).map fun i => (i, BitVec.ofNat 64 (ld (0x200 + 8 * i) 8))⟩,
    v := ⟨(List.range 32).map fun i => (i, BitVec.ofNat 2048 (ld (0x1000 + 256 * i) 256))⟩,
    tags := ⟨(List.range 512).map fun b =>
      (b, { st := tagAt b, owner := t * 8 + ld (0x700 + b) 1 % 8, reads := 0, dmaReads := 0 })⟩,
    wvalid := mode / 128 == 1, wfmt := BitVec.ofNat 3 mode, wimg := s.bytesAt (base + 0x3000) 0x880,
    acc := ⟨(List.range 256).map fun r =>
      (r, { cols := BitVec.ofNat 2048 (ld (0x4000 + 256 * r) 256), count := ld (0x3900 + 2 * r) 2 % 1024,
            int := ld (0x3900 + 2 * r) 2 / 2 ^ 15 == 1 })⟩,
    bad := [], flights := [], asm := [], held := false, preempt := none, saving := false, preemptResult := 1,
    revive := false, residues := ((s.ctxs.get? (id / 128 % 512)).map fun x => x.residues.getD t 0).getD 0 }

/-- Every tile of a context has been restored: the context runs (R462), or is held again (R476). -/
def settleRestore (s : State) (c : Nat) : State :=
  match s.ctxs.get? c with
  | some x =>
    if s.ctxSt c = CtxSt.saved ∧ x.tiles.all (fun t => (s.tile t).st == .run || (s.tile t).st == .stepwait) = true then
      (s.setCtxSt c CtxSt.running).setFld (R.ctxState c) F.ctxState_hold_pending (if x.holds = [] then 0 else 1)
    else s
  | none => s

/-- RESTORE_COMPLETE: every saved field is loaded and the tile enters its saved state (R74); the internal weight load enters 32
weight rows (R116). -/
def execRestoreComplete (t : TileId) (s : State) : Host.Outcome State Fault Refusal :=
  .next (if (s.tile t.val).st = .restore then
    let base := s.fld (R.tileSaveBase t.val) F.tileSaveBase_base * 0x10000
    let T1 := loadTile s t.val base
    let s1 := s.setTile t.val T1
    let s2 := (List.range 512).foldl (fun s b =>
      if (T1.tag b).st = .free then s
      else s.writeRaw (lsBase t.val + b * 0x1000) (s.bytesAt (base + 0x14000 + b * 0x1000) 0x1000)) s1
    let s3 := (List.range 8).foldl (fun s q => loadQueue s T1.ctxIndex T1.step (t.val * 8 + q) (base + 0x500 + 64 * q)) s2
    let s4 := s3.bump (R.mxaBusycnt t.val) F.mxaBusycnt_active 32
    settleRestore (s4.setReg (R.tileStepctl t.val) (BitVec.ofNat 64 (s.load (base + 0x20) 8 % 2 ^ 32))) T1.ctxIndex
  else s)

/-! ### Array test (R116, R117) -/

/-- MXA_BIST_START: a test starts in RESET or IDLE; elsewhere the write is rejected with BOUND and recorded (R549).
While a test runs it starts again. [DEDUCED, log 20; DESIGN CHOICE, log 114] -/
def startBist (s : State) (t : Nat) (pattern : BitVec 4) : State :=
  let r := R.mxaBist t
  let T := s.tile t
  ((s.setFld r F.mxaBist_pattern pattern.toNat).setFld r F.mxaBist_busy 1).setTile t { T with bist := true }

/-- The array's spare row is neither in use nor defective (R109, R110). -/
def spareUsable (s : State) (t : Nat) : Bool :=
  s.fld (R.mxaRepair t) F.mxaRepair_spare_en == 0 && s.fld (R.mxaRepair t) F.mxaRepair_spare_bad == 0

/-- The spare row switched in for a defective row, and logged (R110). -/
def spareIn (s : State) (t row : Nat) : State :=
  let r := R.mxaRepair t
  let s1 := (((s.setFld r F.mxaRepair_spare_en 1).setFld r F.mxaRepair_field 1).setFld r F.mxaRepair_bad_row row).setFld
    R.devVariant F.devVariant_field_degraded 1
  s1.record (t / 256) (ErrRec.mk0 0x11 0 (t / 256) 1 t 0)

/-- The test fails: its first defect is shown, and the tile is marked for retirement (R109). -/
def testFails (s : State) (t n row col : Nat) : State :=
  let r := R.mxaBist t
  let s2 := (((s.setFld r F.mxaBist_result 3).setFld r F.mxaBist_fail_count n).setFld r F.mxaBist_fail_row row).setFld r
    F.mxaBist_fail_col col
  markTile (s2.record (t / 256) (ErrRec.mk0 0x11 4 (t / 256) 1 t 0)) t

/-- BIST_COMPLETE: the result is recorded; the array has no weights and every row is closed. A test started through MXA.BIST in IDLE
switches in the spare row as one at a start does. [DESIGN CHOICE, log 133] -/
def execBistComplete (t : TileId) (x : TestResult) (s : State) : Host.Outcome State Fault Refusal :=
  let T := s.tile t.val
  let r := R.mxaBist t.val
  .next (if T.bist then
    let T1 := { T with bist := false, wvalid := false, wimg := [], wfmt := 0, acc := SMap.empty, bistDue := false }
    let s1 := (s.setTile t.val T1).setFld r F.mxaBist_busy 0
    match x with
    | .pass => s1.setFld r F.mxaBist_result 1
    | .passSpareBad => (s1.setFld r F.mxaBist_result 1).setFld (R.mxaRepair t.val) F.mxaRepair_spare_bad 1
    | .passRepaired row =>
      if spareUsable s1 t.val then spareIn (s1.setFld r F.mxaBist_result 2) t.val row.toNat else testFails s1 t.val 1 row.toNat 0
    | .fail n row col => testFails s1 t.val n.toNat row.toNat col.toNat
  else s)

end Sys2Proof.Machine
end

