-- ==== Sys2Proof/Machine/Registers.lean ====
section
/-! DEFINITION. Register accesses: the value a read shows, the clearing of RC fields, the effect of a write by access code,
rejection with BOUND and its records (R7, R8, R10, R37, R65, R77, R513, R548, R549). -/

namespace Sys2Proof.Machine

/-! ### Which unit a register belongs to -/

/-- Index of an array register, by position. -/
def idxAt (idx : List Nat) (i : Nat) : Nat := idx.getD i 0

/-- Registers that exist once per stack. -/
def stackReg (b : Nat) : Bool :=
  [R.capStatus 0 0, R.capEcc 0 0, R.capRepair 0 0, R.cruCtl 0 0, R.cruStat 0 0, R.cruFault 0 0].contains b

/-- The unit of a register does not exist on the part (R548). -/
def absentUnit (s : State) (b : Nat) (idx : List Nat) : Bool :=
  if 0x08000000 ≤ b ∧ b < 0x09000000 then
    decide (s.part.tilesPerPart ≤ idxAt idx 0 % 256) || !(s.mapped (idxAt idx 0 / 256) (idxAt idx 0 % 256))
  else if stackReg b then !(decide (idxAt idx 1 < s.part.stacksPerPart))
  else if b = R.plPctl 0 ∨ b = R.plPstat 0 ∨ b = R.plPerr 0 then decide (s.ports ≤ idxAt idx 0)
  else if b = R.nocEdge 0 ∨ b = R.nocEdgeerr 0 then decide (s.ports ≤ 12 ∧ idxAt idx 0 = 11)
  else if b = R.nocDieid 0 0 then !(s.part.dieSite (idxAt idx 0) (idxAt idx 1))
  else if b = R.nocTmap 0 0 then decide (s.part.tilesPerPart ≤ idxAt idx 1)
  else if b = R.nocOmap 0 0 then decide (s.part.orphanSlots ≤ idxAt idx 1)
  else false

/-- Partition of a register as DEV.COMMIT classes it (R37); none for a device-wide one. -/
def regPart (b : Nat) (idx : List Nat) : Option Nat :=
  if 0x08000000 ≤ b ∧ b < 0x09000000 then some (idxAt idx 0 / 256)
  else if 0x02000000 ≤ b ∧ b < 0x03000000 then some (idxAt idx 0 / 64)
  else if b = R.nocEdge 0 ∨ b = R.nocEdgeerr 0 then none
  else if (0x01000000 ≤ b ∧ b < 0x08000000) ∨ b = R.collStat 0 ∨ (0x0C000000 ≤ b ∧ b < 0x0D000000) then some (idxAt idx 0)
  else none

/-! ### Values shown -/

/-- Launches posted in the rings of a dispatcher's partition and not started (CRU.DISP.waiting). -/
def launchesWaiting (s : State) (p : Nat) : Nat :=
  let posted := s.ctxs.rows.map fun cx => ((cx.2.rings.get? p).bind fun r => r.launch.map fun d =>
    (s.obj (State.objKey p d.doorbell)).toNat - r.launched).getD 0
  min 0xFFFF (posted.sum + (s.launches.vals.filter fun x => x.part == p && !x.started).length)

/-- Context whose work a request belongs to. -/
def reqCtx (s : State) (f : FabReq) : Option Nat :=
  match f.who with
  | .mem i => (s.reqs.get? i).map (·.ctx / 128)
  | .dmaRead k _ => s.qCtx k
  | .dmaWrite k _ => s.qCtx k
  | .dropped k => s.qCtx k
  | .coll c _ _ => some c
  | .signal => none
  | .probe c => some c

/-- Requests, queues, units and fabric requests that still carry the context's tag (CTX.DRAIN.inflight). -/
def ctxInflight (s : State) (c : Nat) : Nat :=
  min (2 ^ 32 - 1) <| (s.reqs.vals.filter fun r => r.ctx / 128 == c).length
    + (s.fab.out.filter fun f => reqCtx s f == some c && match f.who with
        | .dmaRead .. => true | .dmaWrite .. => true | .dropped _ => true | .coll .. => true | _ => false).length
    + ((s.launches.rows.filter fun l => l.2.ctx == c).map fun l =>
        ((s.launchUnits l.1).map fun k => (s.unit k).reads.length).sum).sum

/-- A tile counts as ready (R54): TILE.STATUS.ready of an OFF tile reads 1 at reset. [DESIGN CHOICE, log 109] -/
def tileReady (s : State) (T : Tile) : Bool :=
  !(T.ctxValid && s.reviving T.ctxIndex) && (match T.st with | .stepwait => true | .idle => true | .off => true | _ => false)

/-- Stores or DMA writes of the step are in flight. -/
def writePending (s : State) (t : Nat) (T : Tile) : Bool :=
  (s.reqs.vals.any fun r => r.tile == t && r.kind.isStore)
    || (State.tileQueues t).any fun k => s.queueHolds k (.inStep T.step)

def bit (b : Bool) (i : Nat) : Nat := if b then 2 ^ i else 0

/-- Registers of a tile that mirror its state. -/
def tileView (s : State) (t b : Nat) (j : Nat) (raw : W64) : W64 :=
  let T := s.tile t
  let n (x : Nat) : W64 := BitVec.ofNat 64 x
  if b = R.tileId 0 then
    n (setBitsOf raw.toNat 47 31 (bit T.ctxValid 16 + (if T.ctxValid then T.ctxIndex * 128 + T.ctxGen else 0)))
  else if b = R.tileStatus 0 then
    n (bit (writePending s t T) 11 + bit (tileReady s T) 10 + T.stall.toNat * 2 ^ 8 + T.st.code.toNat)
  else if b = R.tilePc 0 then n (T.pc.toNat / 16 * 16)
  else if b = R.tileStep 0 then T.step
  else if b = R.tileTrap 0 then trapReg T
  else if b = R.tileTrapPc 0 then n T.trapPc.toNat
  else if b = R.tileResumePc 0 then n (T.resumePc.toNat / 16 * 16)
  else if b = R.tileTrapOp 0 then n ((T.trapOp.map TileOp.word).getD 0).toNat
  else if b = R.tileTrapAddr 0 then n T.trapAddr.toNat
  else if b = R.tilePreempt 0 then n (T.preemptResult.toNat * 2 ^ 6 + bit T.preempt.isSome 3)
  else if b = R.tileCycle 0 then (match T.st with
    | .off => 0 | .reset => 0 | _ => Config.cycles s.freeCtr)
  else if b = R.tileStallcnt 0 then
    Config.cycles s.freeCtr &&& n ((if T.stalledSync then 0xFFFFFFFF00000000 else 0) + (if T.stalledTags then 0xFFFFFFFF else 0))
  else if b = R.tileLstag 0 0 then
    n ((List.range 16).foldl (fun a k => a + (T.tag (16 * j + k)).st.code.toNat * 2 ^ (4 * k)) 0)
  else if b = R.mxaStatus 0 then
    let owned (h : Nat) : Bool := T.flights.any fun f => f.halves.contains h
    let gap := s.fld (R.mxaThrottle t) F.mxaThrottle_gap
    n (gap * 2 ^ 16 + bit (gap != 0) 14 + (if s.fld (R.mxaSmooth t) F.mxaSmooth_enable = 1 then T.smooth.toNat else 0) * 2 ^ 12
      + bit (T.flights.any fun f => match f.op with | .accMv .. => true | .accSt .. => true | .accZero .. => true | _ => false) 11
      + bit (owned 1) 10 + bit (owned 0) 9 + bit (arrayBusy T) 8 + T.wfmt.toNat * 2 + bit T.wvalid 0)
  else if b = R.lsMemops 0 then n (setBitsOf raw.toNat 37 32 (memInFlight s t T))
  else if b = R.dmaQstat 0 0 then s.qstat (t * 8 + j)
  else if b = R.dmaQnext 0 0 then s.qnext (t * 8 + j)
  else raw

/-- The value of a register as a read shows it. [DESIGN CHOICE, log 23] -/
def regView (s : State) (off b : Nat) (idx : List Nat) : W64 :=
  let raw := s.reg off
  if 0x08000000 ≤ b ∧ b < 0x09000000 then tileView s (idxAt idx 0) b (idxAt idx 1) raw
  else if b = R.synObj 0 0 then s.obj (State.objKey (idxAt idx 0) (idxAt idx 1))
  else if b = R.bulkQstat 0 0 then s.qstat (16384 + idxAt idx 0 * 80 + idxAt idx 1)
  else if b = R.bulkQnext 0 0 then s.qnext (16384 + idxAt idx 0 * 80 + idxAt idx 1)
  else if b = R.cruDisp 0 then
    BitVec.ofNat 64 (setBitsOf raw.toNat F.cruDisp_waiting.hi F.cruDisp_waiting.lo (launchesWaiting s (idxAt idx 0)))
  else if b = R.ctxDrain 0 then BitVec.ofNat 64 (ctxInflight s (idxAt idx 0))
  else if b = R.partStatus 0 then
    let p := idxAt idx 0
    let used := ((List.range 64).filter fun i => s.ctxSt (64 * p + i) != CtxSt.free).length
    let free := ((List.range 256).filter fun i => s.fld (R.synOwn p i) F.synOwn_valid == 0).length
    BitVec.ofNat 64 (free * 2 ^ 32 + used)
  else raw

/-- Fields of a register with an access code, as a mask. -/
def accMask (fs : List FieldDef) (p : Acc → Bool) : W64 :=
  BitVec.ofNat 64 (fs.foldl (fun a f => if p f.acc then a + (2 ^ (f.hi + 1) - 2 ^ f.lo) else a) 0)

/-- Bits of an access of `size` bytes at a register offset. [DEDUCED, log 14] -/
def accessMask (off size : Nat) : W64 :=
  if size = 8 then BitVec.allOnes 64 else if off % 8 = 0 then 0xFFFFFFFF else 0xFFFFFFFF00000000

/-- An access that BAR0 accepts: 4 or 8 bytes, aligned (R548). -/
def accessOk (off size : Nat) : Bool := (size == 4 || size == 8) && off % size == 0

/-! ### Rejections -/

def RegPath.code : RegPath → Nat
  | .bar0 => 0 | .item => 1 | .handler _ => 2 | .controller => 3

/-- DEV.REGERR and the ACCESS record of a register access that ends with BOUND (R548, R549). -/
def rejectReg (s : State) (path : RegPath) (off : Nat) (write : Bool) (p : Option Nat) : State :=
  let r := R.devRegerr
  let cnt := if s.fld r F.devRegerr_valid = 0 then 1 else satAdd 16 (s.fld r F.devRegerr_count) 1
  let s1 := s.setReg r (BitVec.ofNat 64 (2 ^ 63 + bit write 62 + RegPath.code path * 2 ^ 60 + cnt * 2 ^ 44 + off % 2 ^ 28))
  let host := match path with | .bar0 => true | _ => false
  s1.record (p.getD 0) { ErrRec.mk0 0x0B 1 (p.getD 0) 0x0B 0
    (St.bound + 1 * 2 ^ 8 + bit host 12 + (if host then off * 2 ^ 24 else 0)) with device := p.isNone }

/-! ### Reads -/

/-- A register read (R548): the value shown, with RC fields cleared by it; all ones at an unused offset or an absent unit. -/
def readReg (s : State) (path : RegPath) (off size : Nat) : W64 × State :=
  let m := accessMask off size
  let base := off / 8 * 8
  if accessOk off size = false then (BitVec.allOnes 64, s)
  else match RegTab.find base with
    | none => (BitVec.allOnes 64, s)
    | some (d, idx) =>
      if absentUnit s d.base idx then (BitVec.allOnes 64, rejectReg s path off false (regPart d.base idx))
      else
        let v := regView s base d.base idx &&& ~~~(accMask d.fields (· == .wo))
        let rc := accMask d.fields (· == .rc) &&& m
        let s1 := if rc = 0 then s else s.setReg base (s.reg base &&& ~~~rc)
        let out := v &&& m
        ((if size = 4 ∧ off % 8 = 4 then out >>> 32 else out), (s1.draw).2)

/-! ### Writes -/

/-- A register as it will stand once its shadow copy is applied. -/
def regNext (s : State) (base : Nat) : W64 :=
  match s.shadow.get? base with
  | none => s.reg base
  | some (k, y) => (s.reg base &&& ~~~k) ||| (y &&& k)

/-- The whole register that a write of bits `x` under mask `m` leads to: a 4-byte access keeps the other half of a field that
crosses it. [DEDUCED, log 14] -/
def written (s : State) (base : Nat) (x m : W64) : W64 := (regNext s base &&& ~~~m) ||| (x &&& m)

/-- A field that a write under mask `m` touches, with a value outside its published range in the register `x` it leads to. -/
def fieldBad (x m : W64) (f : FieldDef) : Bool :=
  let v := bitsOf x.toNat f.hi f.lo
  (bitsOf m.toNat f.hi f.lo != 0)
    && (match f.acc with | .ro => false | .rc => false | .w1c => false | _ => true)
    && (match f.lim with | some (lo, hi) => decide (v < lo) || decide (hi < v) | none => false)

/-- Every context of partition `p` is FREE. -/
def partFree (s : State) (p : Nat) : Bool := (s.ctxsOn p).all fun c => s.ctxSt c == CtxSt.free

/-- A range lies in the near capacity range of partition `p`. -/
def nearRange (s : State) (p a n : Nat) : Bool :=
  match s.region a, s.region (a + n - 1) with
  | .capacity i, .capacity j => i == j && i / 4 == p
  | _, _ => false

/-- A range lies outside every window of every context of the partition. -/
def outsideWindows (s : State) (a n : Nat) : Bool :=
  s.ctxs.vals.all fun x => x.windows.vals.all fun w => !w.valid || decide (a + n ≤ w.base) || decide (w.limit < a)

/-- Largest sum of the shares of the other contexts of a physical partition of context `c` (R461). -/
def shareSum (s : State) (c : Nat) : Nat :=
  ((s.ctxParts c).map fun p => (((s.ctxsOn p).filter (· != c)).map fun d => s.fld (R.ctxShare d) F.ctxShare_share).sum).foldl
    max 0

/-- A value that a register's own description rejects. `x` is the value as a whole. TILE.RESUME_PC is writable in handler mode
only (R78): every write from another path is rejected. [DESIGN CHOICE, log 110] -/
def valueBad (s : State) (path : RegPath) (b : Nat) (idx : List Nat) (old x : W64) : Bool :=
  let i := idxAt idx 0
  let j := idxAt idx 1
  let f (g : Fld) : Nat := bitsOf x.toNat g.hi g.lo
  let g (g : Fld) : Nat := bitsOf old.toNat g.hi g.lo
  if b = R.tileFhBase 0 then !(s.inFwRegion (i / 256) (f F.tileFhBase_base * 0x1000))
  else if b = R.tileSaveBase 0 then
    let a := f F.tileSaveBase_base * 0x10000
    !(decide (sliceBase i ≤ a) && decide (a + 0x220000 ≤ sliceBase i + 0x18000000))
  else if b = R.tileResumePc 0 then
    !((match path with | .handler t => t.val == i | _ => false) && (s.tile i).st == .handler)
  else if b = R.dmaQring 0 0 ∨ b = R.bulkQring 0 0 then
    let n := 32 * 2 ^ f F.dmaQring_size
    let a := f F.dmaQring_base * 32
    let k := if b = R.dmaQring 0 0 then i * 8 + j else 16384 + i * 80 + j
    a % n != 0 || (match s.region a with | .localStore _ => true | _ => false)
      || (s.qResolve k (f F.dmaQring_win) (s.localDev * 2 ^ 44 + a) (n + 8) .wr).isNone
  else if b = R.dmaQprod 0 0 then (s.queue (i * 8 + j)).st != .idle
  else if b = R.bulkQprod 0 0 then (s.queue (16384 + i * 80 + j)).st != .idle
  else if b = R.plId then s.fld R.plCtl F.plCtl_enable == 1
  else if b = R.plTickctl then
    let noPort (p : Nat) : Bool := decide (24 ≤ p) && p != 0x1F
    noPort (f F.plTickctl_parent) || noPort (f F.plTickctl_alt_parent)
  else if b = R.ctxRecord 0 then s.ctxSt i != CtxSt.free
  else if b = R.ctxShare 0 then
    f F.ctxShare_share == 0 || decide (64 < f F.ctxShare_share) || decide (64 < shareSum s i + f F.ctxShare_share)
  else if b = R.partJbase 0 then
    let n := 2 ^ f F.partJbase_size
    let a := f F.partJbase_base * 0x100000
    !(partFree s i) || a % n != 0 || !(nearRange s i a n) || !(outsideWindows s a n) || !(s.offFirmware a n)
  else if b = R.errBase 0 then
    let n := 2 ^ f F.errBase_size
    let a := f F.errBase_base * 0x10000
    a % n != 0 || !(nearRange s i a n) || !(outsideWindows s a n) || !(s.offFirmware a n)
  else if b = R.errTail 0 then decide ((s.reg (R.errHead i)).toNat < x.toNat) || decide (x.toNat < old.toNat)
  else if b = R.hifSeg 0 then
    (i == 0 && (match path with | .controller => false | _ => true))
      || (f F.hifSeg_base * 2 ^ 26) % (s.board.bar2Size / 16) != 0
  else if b = R.hifHreg 0 then
    f F.hifHreg_valid != g F.hifHreg_valid
      && s.ctxs.vals.any fun c => c.windows.vals.any fun w => w.valid && w.kind == 6 && w.dest == i
  else false

/-- Fields of a register written by access code (R8). -/
def applyFields (s : State) (base : Nat) (d : RegDef) (x m : W64) : State :=
  let rw := accMask d.fields (· == .rw) &&& m
  let w1 := accMask d.fields (· == .w1c) &&& m
  let rws := accMask d.fields (· == .rws) &&& m
  let s1 := s.setReg base (((s.reg base &&& ~~~rw) ||| (x &&& rw)) &&& ~~~(x &&& w1))
  if rws = 0 then s1 else s1.writeShadow base rws x

/-- Effects of a write on state outside the register. -/
def afterWrite (s : State) (b : Nat) (idx : List Nat) (x m : W64) : State :=
  let i := idxAt idx 0
  if b = R.tileResumePc 0 then
    -- a 4-byte access changes the half it names
    let pc := ((s.tile i).resumePc.setWidth 64 &&& ~~~m) ||| x
    s.setTile i { s.tile i with resumePc := BitVec.ofNat 44 (pc.toNat / 16 * 16) }
  else if b = R.tileTrap 0 then
    let T := s.tile i
    s.setTile i { T with trapPending := T.trapPending &&& ~~~(x.extractLsb' 16 7),
                         trapDouble := T.trapDouble && !x.getLsbD 15, trapValid := T.trapValid && !x.getLsbD 7 }
  else if b = R.errStat 0 then s.updateAlert
  else if b = R.devRegerr then
    if x.getLsbD 63 then s.setFld R.devRegerr F.devRegerr_count 0 else s
  else if b = R.errBase 0 then s.flushRing i
  else if b = R.scaWay 0 0 then
    -- the base die starts to write back the way (R297)
    let w := i * 16 + idxAt idx 1
    { s with board := { s.board with wayWait := (s.board.wayWait.filter (· != w)) ++ [w],
                                     wayReady := s.board.wayReady.filter (· != w) } }
  else s

/-- A write of value bits `x` under mask `m` that is rejected: a reserved value, or one the register's own description rejects. -/
def writeBad (s : State) (path : RegPath) (base : Nat) (d : RegDef) (idx : List Nat) (x m : W64) : Bool :=
  absentUnit s d.base idx || d.fields.any (fieldBad (written s base x m) m)
    || valueBad s path d.base idx (s.reg base) ((s.reg base &&& ~~~m) ||| x)

/-- A register write (R8, R10, R548): applied by access code, or rejected whole with BOUND. -/
def writeReg (s : State) (path : RegPath) (off size : Nat) (v : W64) : State :=
  let base := off / 8 * 8
  if accessOk off size = false then s
  else match RegTab.find base with
    | none => s
    | some (d, idx) =>
      let m := accessMask off size
      let x := (if size = 4 ∧ off % 8 = 4 then v <<< 32 else v) &&& m
      if writeBad s path base d idx x m then
        rejectReg s path off true (regPart d.base idx)
      else afterWrite (applyFields s base d x m) d.base idx x m

/-- The level at which a path sets a register: an item of a command is basic, every other access expert (R17). -/
def pathLevel : RegPath → Nat
  | .item => 1
  | _ => 2

end Sys2Proof.Machine
end

