-- ==== Sys2Proof/Machine/TileMem.lean ====
section
/-! DEFINITION. Memory and object requests of the tiles where they are performed, and their answers (R202 to R222, R273,
R307, R337, R426, R472, R537, R551). -/

namespace Sys2Proof.Machine

open Sys2Proof.Fp

/-! ### Where a request is performed -/

/-- Bytes a request touches. -/
def ReqKind.bytes : ReqKind → Nat
  | .atomic _ w => if w then 4 else 8
  | _ => 8

/-- Kinds that reach a memory line. -/
def ReqKind.onLine : ReqKind → Bool
  | .load => true | .store => true | .drop => true | .atomic _ _ => true | .append => true | _ => false

/-- Signals and arms travel in the class SYN, every other request in the class REQ (R388). -/
def ReqKind.inSyn : ReqKind → Bool
  | .signal => true | .arm => true | _ => false

/-- The endpoint of this device that a request goes to: a slice, a local store, the bank of a shared cache that serves the line, or
the objects of a base die (R292, R384). [DEDUCED, log 138] -/
def endpointOf (s : State) (r : MemReq) : Nat × Nat :=
  match r.kind with
  | .signal => (0, r.addr / 16384)
  | .arm => (0, r.addr / 16384)
  | .readObj => (0, r.addr / 16384)
  | .regLoad => (1, r.tile)
  | .regStore => (1, r.tile)
  | _ => match s.region r.addr with
    | .slice p i => (2, p * 512 + i)
    | .localStore t => (3, t)
    | _ => (4, s.homeOf r.addr * 16 + r.addr / 64 % 16)

/-- A request has arrived where it is performed, or has left the device. -/
def hasArrived (s : State) (i : Nat) (r : MemReq) : Bool := r.done || r.arbiter || s.fab.out.any fun f => f.who == .mem i

/-- An earlier request of the tile must arrive, or be performed, first: one of the same class to the same endpoint, or one to the same
line (R205, R389). [DEDUCED, log 138] -/
def blockedByLine (s : State) (i : Nat) (r : MemReq) : Bool :=
  s.reqs.rows.any fun jr =>
    decide (jr.1 < i) && jr.2.tile == r.tile && decide (r.tile < 2048) && jr.2.dest == r.dest
      && ((r.kind.onLine && jr.2.kind.onLine && !jr.2.done && jr.2.addr / 64 == r.addr / 64)
        || (jr.2.kind.inSyn == r.kind.inSyn && !hasArrived s jr.1 jr.2
          && (r.dest != .local || endpointOf s jr.2 == endpointOf s r)))

/-- An uncorrectable word of the shared cache of base die `p`: a clean line is invalidated, to be brought again, a dirty line is
written to DRAM with poison and leaves, and a scratch line holds poison (R315). [DESIGN CHOICE, log 25] -/
def cacheWordBad (s : State) (p c a : Nat) : State :=
  let l := a / 64
  match s.region a with
  | .scratch q =>
    let s1 := (s.bump (R.scaEcc q) F.scaEcc_data_uncorrected 1).sramLine q 2 l
    { s1 with lines := s1.lines.set l { s1.lineMeta l with poison := true } }
  | _ => match s.held? p c l with
    | some x =>
      if x.dirty = 0 then ((s.bump (R.scaEcc p) F.scaEcc_data_uncorrected 1).sramLine p 2 l).dropLine x
      else (s.writeBackBad x).dropLine x
    | none => s

/-- An uncorrectable tag of a way of the shared cache of base die `p`: the way is disabled in the set, and the line it held is lost
with its dirty bytes; those of a home line fall back to what DRAM holds (R315). [DESIGN CHOICE, log 25] -/
def cacheTagBad (s : State) (p set way : Nat) : State :=
  let s1 := (s.bump (R.scaEcc p) F.scaEcc_tag_uncorrected 1).setFld (R.scaWay p way) F.scaWay_disabled 1
  let s2 := { s1 with wayOff := (s1.wayOff.filter (· != (p * 16 + way, set))) ++ [(p * 16 + way, set)] }
  match s2.inWay? p way set with
  | none => s2.sramLine p 3 set
  | some x =>
    (s2.sramLine p 3 x.line).loseLine x

/-- A line read from DRAM as a code word. A line that its home's shared cache holds is not read there (R300, R307). -/
def dramRead (s : State) (c a : Nat) (cw : List Nat) : State :=
  if ((s.homeDie a).bind fun h => s.held? h c (a / 64)).isSome then s
  else s.readWord (a / 64) cw fun s1 => s1.bumpEcc a false

/-- An address whose accesses reach a shared cache: capacity lines and scratch ways (R293, R295). -/
def inCache (s : State) (a : Nat) : Bool :=
  match s.region a with | .capacity _ => true | .scratch _ => true | _ => false

/-- The base die whose shared cache serves an access of base die `p` for context `c`: its own where it holds the remote line, otherwise
the home (R298, R300). -/
def servedAt (s : State) (p c a : Nat) : Nat := if (s.remote? p c (a / 64)).isSome then p else s.homeOf a

/-- What the codes of R304 and R315 find at the line that is read on base die `p` for context `c` is recorded (R307, R315). [DESIGN CHOICE, log 24 and 25; DEDUCED, log 28] -/
def lineFault (s : State) (p c a : Nat) : LineFault → State
  | .none => s
  | .symbols errs => dramRead s c a (s.changedWord (a / 64) errs)
  | .stored errs => dramRead s c a (s.changedStored (a / 64) errs)
  | .lsCorrected n =>
    match lsBlock? a with
    | some b => s.bump (R.lsEcc (b / 512)) F.lsEcc_corrected (n.val + 1)
    | none => s
  | .lsUe n =>
    match lsBlock? a with
    | some b => s.bump (R.lsEcc (b / 512)) F.lsEcc_corrected n.val
    | none => s
  | .cacheCorrected => if inCache s a then s.bump (R.scaEcc p) F.scaEcc_corrected 1 else s
  | .cacheUe => cacheWordBad s p c a
  | .victimUe => s.victimBad p c a
  | .cacheTag way => if inCache s a then cacheTagBad s p (State.setOf (a / 64)) way.val else s
  | .genTable =>
    let r := a / 0x200000
    if s.isDram a = false ∨ s.genBad.contains r = true then s
    else { s.sramLine (s.homeOf a) 4 (a / 64) with genBad := s.genBad ++ [r] }
  | .refetch => s
  | .foreignTag => s

/-- What the codes find at a line that is read at its home. -/
def homeFault (s : State) (a : Nat) (x : LineFault) : State := lineFault s (s.homeOf a) 0 a x

/-- A request leaves the device for a peer: the packet of R417. -/
def sendMem (s : State) (i : Nat) (r : MemReq) (d : Nat) : State :=
  let p := r.tile / 256
  let c := r.ctx / 128
  match r.kind with
  | .load => s.sendRequest p c d Pk.rd r.addr 8 (r.hint.setWidth 8) 0 [] (.mem i)
  | .store => s.sendRequest p c d Pk.wr r.addr 8 (r.hint.setWidth 8) 0 (leBytes 8 r.data.toNat) (.mem i)
  | .atomic op w =>
    s.sendRequest p c d Pk.atom r.addr 8 (op.setWidth 8 + (if w then 16 else 0)) r.data
      (if op = 9 then leBytes 8 r.cmp.toNat else []) (.mem i)
  | .append => s.sendRequest p c d Pk.wr (r.addr + 0x20 + 8 * (r.cmp.toNat % 2)) 8 0 0 (leBytes 8 (bitsOf r.data.toNat 22 0))
      (.mem i)
  | .signal => s.sendRequest p c d Pk.sig r.addr 1 0 r.data [] (.mem i)
  | _ => s.answer i r 0 false

/-- A request reaches a host region: a store is posted, a load asks the host (R551). -/
def hostMem (s : State) (i : Nat) (r : MemReq) (region : Nat) : State :=
  let w := match r.kind with | .store => true | .append => true | _ => false
  let at' := match r.kind with | .append => r.addr + 0x20 + 8 * (r.cmp.toNat % 2) | _ => r.addr
  match s.hostAddr region at' 8 w with
  | none => (s.accessCheck (r.tile / 256) 2 r.addr (some (r.ctx / 128))).answer i r 0 true
  | some a =>
    match r.kind with
    | .load => (s.emit (.hostRead a 8)).answer i r 0 false
    | .store => (s.emit (.hostWrite a (leBytes 8 r.data.toNat))).answer i r 0 false
    | .append => (s.emit (.hostWrite a (leBytes 8 (bitsOf r.data.toNat 22 0)))).answer i r 0 false
    | _ => s.answer i r 0 false

/-- Order of object updates that arrive in one base-die cycle (R219): arms of the register path, arms of tiles by ascending
logical ID, then signals. -/
def updateRank (r : MemReq) : Nat :=
  match r.kind with
  | .arm => if r.tile = 2049 then 0 else 1 + r.tile
  | _ => 4096

/-- Requests of one cycle in the order of R219, ties in the order given. -/
def insertByRank (s : State) (i : Nat) : List Nat → List Nat
  | [] => [i]
  | j :: t =>
    let rank (k : Nat) : Nat := (s.reqs.get? k).elim 5000 updateRank
    if rank i < rank j then i :: j :: t else j :: insertByRank s i t

def orderUpdates (s : State) : List Nat → List Nat
  | [] => []
  | i :: t => insertByRank s i (orderUpdates s t)

/-- An object update that has arrived; one of the register path or of an engine needs no acknowledgement. -/
def applyUpdate (s : State) (i : Nat) : State :=
  match s.reqs.get? i with
  | some r =>
    if r.done = false ∧ r.dest = .local ∧ (r.kind = .signal ∨ r.kind = .arm) then
      let s1 := s.performReq i
      if 2048 ≤ r.tile then { s1 with reqs := s1.reqs.erase i } else s1
    else s
  | none => s

/-- An update can arrive in a cycle with the updates `l`: its route is whole, and every earlier update of its tile to the same base die
has arrived or arrives with it (R389, R395). -/
def updateArrives (s : State) (l : List Nat) (i : Nat) : Bool :=
  match s.reqs.get? i with
  | none => false
  | some r => decide (2048 ≤ r.tile) || (!s.routeCut (r.tile / 256) (r.addr / 16384) && s.reqs.rows.all fun jr =>
      !(decide (jr.1 < i) && jr.2.tile == r.tile && jr.2.kind.inSyn && jr.2.dest == r.dest && !jr.2.done
        && jr.2.addr / 16384 == r.addr / 16384) || l.contains jr.1)

/-- OBJECT_UPDATE_ARRIVE: the updates that reach a base die in one cycle (R219). -/
def execObjectUpdateArrive (l : List (BitVec 32)) (s : State) : Host.Outcome State Fault Refusal :=
  let all := (l.map BitVec.toNat).dedup
  .next ((orderUpdates s (all.filter (updateArrives s all))).foldl applyUpdate s)

/-! ### Answers -/

/-- The register write of an operation in flight to `sd`, in the bank of its issue (R40). -/
def Flight.toS (f : Flight) (n : BitVec 5) (x : W64) : RegWrite := .s (f.handler && decide (24 ≤ n.toNat)) n x

/-- Registers an answered operation writes: the value, or the code of R207. -/
def answerReg (s : State) (t : Nat) (f : Flight) (val : W64) (bad : Bool) : State :=
  let T := s.tile t
  match f.dsts with
  | .s n :: _ => s.setTile t (if bad then T.writeBad (f.toS n 0) else T.writeReg (f.toS n val))
  | _ => s

/-- Committed data that reads unreadable in the replay of a step is rebuilt by firmware (R537). -/
def rebuild (s : State) (c a : Nat) : State :=
  if s.fld (R.ctxRevive c) F.ctxRevive_state = 2 ∧ s.isDram a = true ∧ s.statusAt a 1 ≠ .ok then
    (s.emit (.rebuild c a)).memRecord (if s.statusAt a 1 = .ue then 2 else 3) 4 a (s.lineMeta (a / 64)).synd.toNat
      (some (s.ctxId c)) (s.lineMeta (a / 64)).addrErr
  else s

/-- MEM_DATA_ARRIVE: the data reaches the tile and the operation retires (R204, R207); `ext` is what host memory returned. -/
def execMemDataArrive (r : BitVec 32) (ext : W64) (s : State) : Host.Outcome State Fault Refusal :=
  let i := r.toNat
  .next (match s.reqs.get? i with
    | none => s
    | some q =>
      match (s.tile q.tile).flights.find? fun f => f.kind == .data i with
      | none => s
      | some f =>
        if q.done = false then s
        else
          let val := match q.dest, q.kind with
            | .host _, .load => if q.bad then 0 else ext
            | _, _ => q.val
          let s0 := { s with reqs := s.reqs.erase i }
          let s1 := if (s0.tile q.tile).suppress then s0 else answerReg s0 q.tile f val q.bad
          let s2 := retire s1 q.tile f
          if q.bad = true ∧ q.dest = .local then rebuild s2 (q.ctx / 128) q.addr else s2)

/-- MEM_ACK_RETURN: the acknowledgement returns, and the operation counts as performed (R204). -/
def execMemAckReturn (r : BitVec 32) (s : State) : Host.Outcome State Fault Refusal :=
  .next (match s.reqs.get? r.toNat with
    | some q =>
      if q.done = true ∧ ((s.tile q.tile).flights.any fun f => f.kind == .data r.toNat) = false then
        { s with reqs := s.reqs.erase r.toNat }
      else s
    | none => s)

/-- KV_WALK_ENTRY_RETURN (R210, R211): header and entry of a missed walk arrive, from memory here or, for a peer or host
window, as the 80 bytes `ext`; the walk retires or raises PAGEF. A parity error of the cached entry is counted, and the walk
waits for the entry to be read again (R211, R270). [DEDUCED, log 27] -/
def execKvWalkEntryReturn (t : TileId) (id : BitVec 32) (x : LineFault) (ext : List Byte) (s : State) :
    Host.Outcome State Fault Refusal :=
  let T := s.tile t.val
  .next (match T.flight? id.toNat with
    | none => s
    | some f =>
      if x = .refetch then
        match f.kind, f.op with
        | .walkMiss, .kvWalk .. => s.bump (R.tileKvwPar t.val) F.tileKvwPar_refetch 1
        | .fixed, .kvWalk .. =>
          let fs := T.flights.map fun g => if g.id == f.id then { g with kind := .walkMiss } else g
          (s.setTile t.val { T with flights := fs }).bump (R.tileKvwPar t.val) F.tileKvwPar_refetch 1
        | _, _ => s
      else match f.kind, f.op with
      | .walkMiss, .kvWalk ad aa _ sd =>
        let hdr := addrOf (T.ra aa) (0 : BitVec 1) 1
        let p := (f.args.headD 0).toNat
        let ea := hdr + 64 + 16 * kvEntry p
        let here := destOf s T.ctxIndex (winSel (T.ra aa)) == .local
        let die := t.val / 256
        if here = true ∧ s.waitsAt hdr 64 = true then s.holdAt hdr 64 (.walk t id x ext)
        else if here = true ∧ (s.waitsAt ea 16 || s.shutOut die T.ctxIndex ea) = true then
          s.holdAt ea 16 (.walk t id x ext)
        else
          let s0 := if here then lineFault s (servedAt s die T.ctxIndex ea) T.ctxIndex ea x else s
          let ctx := some (T.ctxIndex * 128 + T.ctxGen)
          let gone := here && !(s0.answers T.ctxIndex hdr 64 && s0.answers T.ctxIndex ea 16)
          let bad := here && (s0.statusAt hdr 64 != .ok || s0.statusAt ea 16 != .ok)
          if gone || bad then
            -- the line is unreadable, or was retired: both destinations take the code of R207
            let s1 := if gone then s0.accessRecord die ea St.bound 1 ctx else (s0.readRecords die hdr 64 ctx 1).readRecords die ea 16 ctx 1
            retire (s1.setTile t.val ((T.writeBad (.a ad 0)).writeBad (f.toS sd 0))) t.val f
          else
            let (h, sh) := if here then s0.cachedRead die T.ctxIndex hdr 64 1 else (ext.take 64, s0)
            let (e, se) := if here then sh.cachedRead die T.ctxIndex ea 16 1 else (ext.drop 64, sh)
            let bytes := h ++ e
            let s1 := se.setTile t.val { T with walker := T.walker.set (walkKey (destOf s T.ctxIndex (winSel (T.ra aa))) ea) bytes }
            match walkResult (bytes.take 64) (bytes.drop 64) p with
            | some (a, n) => retire s1 t.val { f with eff := Effect.regs [.a ad a, f.toS sd n] }
            | none =>
              deferTrap (abandon (s1.bump (R.tileKvwStat t.val) F.tileKvwStat_pagef 1) t.val f) t.val
                ⟨Cause.pagef, BitVec.ofNat 56 (entryAddr s T (T.ra aa) p), .d, some f.op, f.pc⟩
      | _, _ => s)

/-! ### Releases (R206, R221) -/

/-- Every earlier store of the tile has been performed; a fence waits for signals too, also for one not sent yet. -/
def storesDone (s : State) (t id : Nat) (signals : Bool) : Bool :=
  !(s.reqs.vals.any fun r => r.tile == t && decide (r.flight < id) && r.kind.isStore && (signals || r.kind != .signal))
    && !(signals && (s.tile t).flights.any fun f => f.kind == .release && decide (f.id < id))

/-- RELEASE_WRITEBACK_DONE: prior stores are performed and the context's dirty remote lines written back; the release
signal is sent, or the fence retires (R301). -/
def execReleaseWritebackDone (t : TileId) (d : Drained) (s : State) : Host.Outcome State Fault Refusal :=
  let T := s.tile t.val
  .next (match T.flight? d.flight.toNat with
    | none => s
    | some f =>
      if storesDone s t.val f.id (match f.kind with | .release => false | _ => true) = false then s
      else match f.kind, f.op with
        | .fence rel dma, _ =>
          if dma = true ∧ ((State.tileQueues t.val).any fun k => s.queueHolds k (.before f.id)) = true then s
          else retire (if rel then s.releaseLines (t.val / 256) T.ctxIndex (d.bad.map BitVec.toNat) else s) t.val f
        | .release, .sySignal .. =>
          let s1 := s.releaseLines (t.val / 256) T.ctxIndex (d.bad.map BitVec.toNat)
          retire (objReq s1 t.val { T with nextId := f.id } .signal (f.args.headD 0) (f.args.getD 1 0)) t.val f
        | _, _ => s)

end Sys2Proof.Machine
end

