-- ==== Sys2Proof/Machine/Coll.lean ====
section
/-! DEFINITION. The collective engines: the commands of a context's collective ring, merge stacks, landing buffers,
clear-to-send and messages (R135, R136, R437 to R442, R448). -/

namespace Sys2Proof.Machine

open Sys2Proof.Fp

/-! ### CRC-64 of ECMA-182 (R441) -/

def crc64Bits : Nat → W64 → W64
  | 0, c => c
  | n + 1, c => crc64Bits n (if c.getLsbD 63 then (c <<< 1) ^^^ 0x42F0E1EBA9EA3693 else c <<< 1)

def crc64 (bs : List Byte) : W64 :=
  bs.foldl (fun c b => crc64Bits 8 (c ^^^ (b.setWidth 64).shiftLeft 56)) 0

/-! ### Merging (R132, R136, R250) -/

/-- 32-bit words of a byte list, little-endian, and the reverse. -/
def words32 (bs : List Byte) : List W32 :=
  (List.range (bs.length / 4)).map fun i => BitVec.ofNat 32 (leVal ((bs.drop (4 * i)).take 4))

def bytes32 (l : List W32) : List Byte := l.flatMap fun x => leBytes 4 x.toNat

/-- M of R136 on two group state records of `64 + 4 × 64 × dim` bytes (R249). -/
def mergeRecord (a b : List Byte) : List Byte :=
  let st (x : List Byte) : Soft :=
    ⟨BitVec.ofNat 32 (leVal (x.take 4)), BitVec.ofNat 32 (leVal ((x.drop 4).take 4)), words32 (x.drop 64)⟩
  let r := softMerge (st a) (st b)
  leBytes 4 r.m.toNat ++ leBytes 4 r.l.toNat ++ List.replicate 56 0 ++ bytes32 r.o

/-- Two nodes merged, the left one covering lower indices: FP32, INT32, or records. -/
def mergeNodes (kind dim : Nat) (a b : List Byte) : List Byte :=
  if kind = 0 then bytes32 (List.zipWith fadd (words32 a) (words32 b))
  else if kind = 1 then bytes32 (List.zipWith (· + ·) (words32 a) (words32 b))
  else
    let n := 64 + 256 * dim
    (List.range (a.length / n)).flatMap fun i => mergeRecord ((a.drop (n * i)).take n) ((b.drop (n * i)).take n)

/-! ### Commands (R438) -/

/-- Fields of the table "Collective command". -/
structure CollOp where
  code : Nat
  stack : Nat
  q : Nat
  kind : Nat
  m : Nat
  addr : Nat
  win : Nat
  len : Nat
  tag : Nat
  dim : Nat
  handle : W64
  amount : Nat
  clean : Bool
deriving DecidableEq, Repr

def CollOp.ofWords (w : List W64) : CollOp :=
  let x (i hi lo : Nat) : Nat := bitsOf (w.getD i 0).toNat hi lo
  let kind := x 0 17 16
  let dim := x 2 51 48
  let len := x 2 31 0
  let data := decide (1 ≤ x 0 7 0) && decide (x 0 7 0 ≤ 6)
  { code := x 0 7 0, stack := x 0 11 8, q := x 0 15 12, kind := kind, m := x 0 63 32, addr := x 1 55 0, win := x 1 59 56,
    len := len, tag := x 2 47 32, dim := dim, handle := BitVec.ofNat 64 (x 3 29 0), amount := x 3 63 32,
    clean := decide (1 ≤ x 0 7 0) && decide (x 0 7 0 ≤ 8) && x 0 15 12 != 15 && kind != 3 && x 0 31 18 == 0
      && x 1 63 60 == 0 && x 2 63 52 == 0 && x 3 31 30 == 0
      && (if kind = 2 then decide (1 ≤ dim) && decide (dim ≤ 8) && (!data || len % (64 + 256 * dim) == 0)
          else dim == 0 && (!data || len % 4 == 0))
      -- the index field of a peer is zero
      && (x 0 7 0 != 3 && x 0 7 0 != 4 && x 0 7 0 != 6 || x 3 13 0 == 0) }

namespace State

/-- Rings of a context in a partition. -/
def collDef (s : State) (c p : Nat) : Option RingDef := ((s.ctxs.get? c).bind fun x => x.rings.get? p).bind (·.coll)

/-- The command at a ring position. -/
def collWords (s : State) (d : RingDef) (pos : Nat) : List W64 :=
  (List.range 4).map fun i => BitVec.ofNat 64 (s.load (d.base + 32 * (pos % 2 ^ d.k) + 8 * i) 8)

/-- Commands posted to a ring: the value of its doorbell. -/
def collPosted (s : State) (p : Nat) (d : RingDef) : Nat := (s.obj (objKey p d.doorbell)).toNat

/-- An engine of partition `p` can serve rings: not both are disabled or in reset. [DEDUCED, log 58] -/
def collEngine (s : State) (p : Nat) : Bool :=
  !([0, 1].all fun e => s.offEngines.contains (p, 8, e)
    || s.engResets.any fun r => r.part == p && r.kind == 8 && r.index == e)

/-- The next command of a ring that can be taken: words, and its fields. -/
def nextColl (s : State) (c p : Nat) : Option (List W64 × CollOp) :=
  match s.collDef c p with
  | none => none
  | some d =>
    let g := s.collRing (collKey c p)
    if g.halted = true ∨ g.cur.isSome = true ∨ s.issueStopped c = true ∨ s.collPosted p d ≤ g.pos
        ∨ s.collEngine p = false then none
    else
      let w := s.collWords d g.pos
      some (w, CollOp.ofWords w)

/-- The ring moves past its command. -/
def collAdvance (s : State) (c p : Nat) : State :=
  let k := collKey c p
  let g := s.collRing k
  (s.setColl k { g with pos := g.pos + 1, cur := none }).bump (R.collStat p) F.collStat_commands 1

/-- A command starts: its words are kept until it completes. -/
def collStart (s : State) (c p : Nat) (w : List W64) (parts : SMap (List Byte)) (sent : Bool) : State :=
  let k := collKey c p
  s.setColl k { s.collRing k with cur := some ⟨w, parts, sent, 0⟩ }

/-- Bytes of merge store that the stacks of a ring reserve. [DEDUCED, log 55] -/
def mergeUse (g : CollRing) : Nat := (g.merge.vals.map fun m => 15 * m.len).sum

/-! ### Peers, clear-to-send and landing buffers (R441) -/

/-- Name of a peer engine: a partition here, or a partition of another device. -/
def peerKey (x : Handle) : Nat := if x.remote then (x.device + 1) * 8 + x.part else x.part

/-- Fields that name a message in the address of CTS and CDATA: tag, destination partition, source partition.
[DESIGN CHOICE, log 56] -/
def msgAddr (tag dst src : Nat) : Nat := tag + dst * 2 ^ 16 + src * 2 ^ 19

/-- A clear-to-send reaches the ring of partition `p`. -/
def ctsTo (s : State) (c p peer tag : Nat) : State :=
  let k := collKey c p
  let g := s.collRing k
  s.setColl k { g with cts := g.cts ++ [(peer, tag)] }

def sendCts (s : State) (c p : Nat) (x : CollOp) : State :=
  let h := Handle.ofBits x.handle
  if h.remote then s.sendOnce p c h.device Pk.cts (msgAddr x.tag h.part p) 0 [] else s.ctsTo c h.part p x.tag

/-- Room reserved in the 2 MiB landing buffer for the RECV and RECVW commands among the next 16, in ring order. [DEDUCED, log 58] -/
def lookAhead : Nat → Nat → State → Nat → Nat → State
  | 0, _, s, _, _ => s
  | n + 1, pos, s, c, p =>
    match s.collDef c p with
    | none => s
    | some d =>
      if s.collPosted p d ≤ pos then s
      else
        let x := CollOp.ofWords (s.collWords d pos)
        let g := s.collRing (collKey c p)
        let peer := peerKey (Handle.ofBits x.handle)
        if (x.code = 3 ∨ x.code = 6) ∧ x.clean = true
            ∧ (g.landing.any fun l => l.peer == peer && l.tag == x.tag) = false then
          if (g.landing.map (·.len)).sum + x.len ≤ 0x200000 then
            let g' := { g with landing := g.landing ++ [⟨peer, x.tag, x.len, [], x.len == 0, 0⟩] }
            lookAhead n (pos + 1) ((s.setColl (collKey c p) g').sendCts c p x) c p
          else s
        else lookAhead n (pos + 1) s c p

def collLook (s : State) (c p : Nat) : State := lookAhead 16 (s.collRing (collKey c p)).pos s c p

/-! ### Reading and writing memory (R440, R442, R459) -/

/-- Cuts of `n` bytes at an address into packets that cross no 4 KiB boundary: offset and length. -/
def packetCuts : Nat → Nat → Nat → Nat → List (Nat × Nat)
  | 0, _, _, _ => []
  | f + 1, a, off, n =>
    if n = 0 then []
    else
      let k := min n (4096 - (a + off) % 4096)
      (off, k) :: packetCuts f a (off + k) (n - k)

def cutsOf (a n : Nat) : List (Nat × Nat) := packetCuts (n / 4096 + 2) a 0 n

/-- The bytes a command reads: from memory here, from the host as `ext`, or by RD packets to a peer, which fill the
parts as they are answered. A line fault `x` is met at the first line. -/
def collRead (s : State) (c p : Nat) (w : List W64) (x : CollOp) (f : LineFault) (ext : List Byte) (held : HeldAccess) : State :=
  match s.resolve c x.win x.addr x.len .rd with
  | none => (s.haltColl c p St.bound).windowViolation c
  | some (.here a) =>
    if s.answers c a x.len = false then (s.accessRecord p a St.bound 1 (some (s.ctxId c))).haltColl c p St.bound
    else if s.waitsAt a x.len then s.holdAt a x.len held
    else if f = .foreignTag then (s.haltColl c p St.bound).raiseAlarm 0 (s.homeOf a) (some c)
    else
      let s1 := homeFault s a f
      if s1.statusAt a x.len ≠ .ok then (s1.readRecords (s1.homeOf a) a x.len (some (s.ctxId c)) 2).haltColl c p St.poison
      else (s1.homeRange c a x.len 1 false).collStart c p w (SMap.empty.set 0 (s1.bytesAt a x.len)) false
  | some (.host a) => (s.emit (.hostRead a x.len)).collStart c p w (SMap.empty.set 0 ext) false
  | some (.peer d a) =>
    (cutsOf a x.len).foldl (fun s c0 =>
      s.sendRequest p c d Pk.rd (a + c0.1) c0.2 0 0 [] (.coll c p c0.1)) (s.collStart c p w SMap.empty false)

/-- Requests of a ring's command that have no answer yet. -/
def collWaits (s : State) (c p : Nat) : Bool :=
  s.fab.out.any fun f => match f.who with | .coll c' p' _ => c' == c && p' == p | _ => false

/-- The bytes of the running command, in order. -/
def collBytes (k : CollCmd) : List Byte := k.parts.vals.flatten

/-- Bytes written at the address of a command: at their home here, by WR packets to a peer, or posted to the host. -/
def collWrite (s : State) (c p : Nat) (l : Loc) (bs : List Byte) : State :=
  match l with
  | .here a => (s.homeRange c a bs.length 1 true).writeBytes a bs
  | .host a => s.emit (.hostWrite a bs)
  | .peer d a =>
    (cutsOf a bs.length).foldl (fun s k =>
      s.sendRequest p c d Pk.wr (a + k.1) k.2 0 0 ((bs.drop k.1).take k.2) (.coll c p k.1)) s

/-- The stack of a push has the node's kind and length, and takes a node of level q and index m (R132, R439). [DEDUCED, log 55] -/
def pushOk (g : CollRing) (x : CollOp) : Bool :=
  match g.merge.get? x.stack with
  | none => false
  | some st => st.kind == x.kind && st.len == x.len && st.dim == x.dim && x.m * 2 ^ x.q == st.count
      && st.count % 2 ^ x.q == 0 && decide (st.count + 2 ^ x.q < 2 ^ 15)

/-- A node pushed on its stack (R132). -/
def pushStack (st : MergeStack) (q : Nat) (bs : List Byte) : MergeStack :=
  let r := pushNode (mergeNodes st.kind st.dim) (st.slots, st.count) q bs
  { st with slots := r.1, count := r.2 }

def setStack (s : State) (c p i : Nat) (st : MergeStack) : State :=
  let k := collKey c p
  let g := s.collRing k
  s.setColl k { g with merge := g.merge.set i st }

/-- Folded value of a stack; an empty one gives +0 everywhere. -/
def foldStack (st : MergeStack) : List Byte :=
  foldAll (mergeNodes st.kind st.dim) (List.replicate st.len 0) (st.slots, st.count)

/-- A message leaves for its peer: packets of at most 4,096 bytes, the last with the CRC-64 of the whole. -/
def streamOut (s : State) (c p : Nat) (h : Handle) (tag : Nat) (bs : List Byte) : State :=
  let cuts := (List.range (ceilDiv bs.length 4096)).map (4096 * ·)
  cuts.foldl (fun s o =>
    let part := (bs.drop o).take 4096
    s.sendRequest p c h.device Pk.cdata (msgAddr tag h.part p) part.length 0
      (if bs.length ≤ o + 4096 then crc64 bs else 0) part (.coll c p o)) s

/-- A message of this device lands in the ring of a partition of it. -/
def landLocal (s : State) (c p peer tag : Nat) (bs : List Byte) : State :=
  let k := collKey c p
  let g := s.collRing k
  s.setColl k { g with landing := g.landing.map fun l =>
    if l.peer = peer ∧ l.tag = tag ∧ l.complete = false then { l with bytes := bs, complete := true } else l }

/-- The landing of a message that has arrived whole. -/
def landed (g : CollRing) (x : CollOp) : Option Landing :=
  g.landing.find? fun l => l.peer == peerKey (Handle.ofBits x.handle) && l.tag == x.tag && l.complete

def dropLanding (s : State) (c p : Nat) (l : Landing) : State :=
  let k := collKey c p
  let g := s.collRing k
  s.setColl k { g with landing := g.landing.filter (· != l) }

end State

/-- The command at the ring position, when it has opcode `code`; a reserved value halts the ring (R442). -/
def withColl (code c p : Nat) (s : State) (f : State → List W64 → CollOp → State) : State :=
  let s0 := s.collLook c p
  match s0.nextColl c p with
  | none => s0
  | some (w, x) =>
    if x.clean = false then s0.haltColl c p St.bound
    else if x.code ≠ code then s0
    else f s0 w x

/-! ### The operations -/

/-- COLL_INIT: the stack is emptied and its merge store reserved. -/
def execCollInit (c : CtxId) (p : PartId) (s : State) : Host.Outcome State Fault Refusal :=
  .next (withColl 1 c.val p.val s fun s _ x =>
    let g := s.collRing (State.collKey c.val p.val)
    if 0x800000 < State.mergeUse { g with merge := g.merge.erase x.stack } + 15 * x.len then s.haltColl c.val p.val St.bound
    else (s.setStack c.val p.val x.stack ⟨x.kind, x.len, x.dim, 0, SMap.empty⟩).collAdvance c.val p.val)

/-- COLL_PUSH: the node at the address is read; it is pushed when the command completes. `x` is what the code finds at its
first line, `ext` what host memory returned. -/
def execCollPush (c : CtxId) (p : PartId) (x : LineFault) (ext : List Byte) (s : State) : Host.Outcome State Fault Refusal :=
  .next (withColl 2 c.val p.val s fun s w o =>
    if State.pushOk (s.collRing (State.collKey c.val p.val)) o = false then s.haltColl c.val p.val St.bound
    else s.collRead c.val p.val w o x ext (.collPush c p x ext))

/-- A receive takes the landed message; the ring waits until it has arrived whole. -/
def takeMessage (c p : Nat) (s : State) (w : List W64) (o : CollOp) : State :=
  if 0x200000 < o.len then s.haltColl c p St.bound
  else match State.landed (s.collRing (State.collKey c p)) o with
    | none => s
    | some l => (s.dropLanding c p l).collStart c p w (SMap.empty.set 0 l.bytes) false

/-- COLL_RECV: the message with this tag is taken, to be pushed as PUSH does. -/
def execCollRecv (c : CtxId) (p : PartId) (s : State) : Host.Outcome State Fault Refusal :=
  .next (withColl 3 c.val p.val s fun s w o =>
    if State.pushOk (s.collRing (State.collKey c.val p.val)) o = false then s.haltColl c.val p.val St.bound
    else takeMessage c.val p.val s w o)

/-- COLL_RECVW: the message with this tag is taken, to be written to the address. -/
def execCollRecvw (c : CtxId) (p : PartId) (s : State) : Host.Outcome State Fault Refusal :=
  .next (withColl 6 c.val p.val s fun s w o =>
    if (s.resolve c.val o.win o.addr o.len .wr).isNone then (s.haltColl c.val p.val St.bound).windowViolation c.val
    else takeMessage c.val p.val s w o)

/-- COLL_SEND: the bytes are read, and streamed once the peer's clear-to-send has come. -/
def execCollSend (c : CtxId) (p : PartId) (x : LineFault) (ext : List Byte) (s : State) : Host.Outcome State Fault Refusal :=
  let k := State.collKey c.val p.val
  let s1 := withColl 4 c.val p.val s fun s w o => s.collRead c.val p.val w o x ext (.collSend c p x ext)
  .next (match (s1.collRing k).cur with
    | none => s1
    | some m =>
      let o := CollOp.ofWords m.words
      let h := Handle.ofBits o.handle
      let key := (State.peerKey h, o.tag)
      let g := s1.collRing k
      if o.code ≠ 4 ∨ m.sent = true ∨ s1.collWaits c.val p.val = true ∨ g.cts.contains key = false then s1
      else
        let s2 := s1.setColl k { g with cur := some { m with sent := true }, cts := g.cts.erase key }
        let bs := State.collBytes m
        if h.remote then s2.streamOut c.val p.val h o.tag bs else s2.landLocal c.val h.part p.val o.tag bs)

/-- COLL_FIN: the stack is folded; the result is written when the command completes. [DEDUCED, log 55] -/
def execCollFin (c : CtxId) (p : PartId) (s : State) : Host.Outcome State Fault Refusal :=
  .next (withColl 5 c.val p.val s fun s w o =>
    match (s.collRing (State.collKey c.val p.val)).merge.get? o.stack with
    | none => s.haltColl c.val p.val St.bound
    | some st =>
      if st.kind ≠ o.kind ∨ st.len ≠ o.len ∨ st.dim ≠ o.dim then s.haltColl c.val p.val St.bound
      else if (s.resolve c.val o.win o.addr o.len .wr).isNone then (s.haltColl c.val p.val St.bound).windowViolation c.val
      else s.collStart c.val p.val w (SMap.empty.set 0 (State.foldStack st)) false)

/-- COLL_SIGNAL: the object is signalled after everything the context wrote before it (a release, R221). -/
def execCollSignal (c : CtxId) (p : PartId) (s : State) : Host.Outcome State Fault Refusal :=
  .next (withColl 7 c.val p.val s fun s _ o =>
    if s.handleOk c.val o.handle = false then s.haltColl c.val p.val St.bound
    else ((s.releaseLines p.val c.val []).engineSignal p.val c.val o.handle (BitVec.ofNat 64 o.amount)).collAdvance c.val p.val)

/-- COLL_WAIT: the ring holds until the object is at least the amount. [DEDUCED, log 57] -/
def execCollWait (c : CtxId) (p : PartId) (s : State) : Host.Outcome State Fault Refusal :=
  .next (withColl 8 c.val p.val s fun s _ o =>
    let h := Handle.ofBits o.handle
    if h.remote = true ∨ s.handleOk c.val o.handle = false then s.haltColl c.val p.val St.bound
    else if o.amount ≤ (s.obj (State.objKey h.part h.index)).toNat then s.collAdvance c.val p.val
    else s)

/-- COLLECTIVE_COMMAND_COMPLETE: a command whose reads or writes are done writes its stack slots or its result, and the ring
moves on. A SEND to a peer ends with its CACK. -/
def execCollectiveCommandComplete (c : CtxId) (p : PartId) (s : State) : Host.Outcome State Fault Refusal :=
  let held : HeldAccess := .collEnd c p
  let c := c.val
  let p := p.val
  let k := State.collKey c p
  let g := s.collRing k
  .next (match g.cur with
    | none => s
    | some m =>
      let o := CollOp.ofWords m.words
      let bs := State.collBytes m
      if s.collWaits c p = true then s
      else if o.code = 2 ∨ o.code = 3 then
        match g.merge.get? o.stack with
        | none => s.haltColl c p St.bound
        | some st => (s.setStack c p o.stack (State.pushStack st o.q bs)).collAdvance c p
      else if o.code = 5 ∨ o.code = 6 then
        if m.sent then s.collAdvance c p
        else match s.resolve c o.win o.addr o.len .wr with
          | none => (s.haltColl c p St.bound).windowViolation c
          | some (.here a) =>
            if s.answers c a o.len = false then (s.accessRecord p a St.bound 1 (some (s.ctxId c))).haltColl c p St.bound
            else if s.waitsAt a o.len then s.holdAt a o.len held
            else (s.collWrite c p (.here a) bs).collAdvance c p
          | some (.host a) => (s.collWrite c p (.host a) bs).collAdvance c p
          | some (.peer d a) =>
            (s.setColl k { g with cur := some { m with sent := true } }).collWrite c p (.peer d a) bs
      else if o.code = 4 ∧ m.sent = true ∧ ((Handle.ofBits o.handle).remote = false ∨ o.len = 0) then s.collAdvance c p
      else s)

/-! ### Messages from peers -/

/-- A CDATA packet lands (R441): the state, and the status of the CACK when the message is whole. [DEDUCED, log 57] -/
def landPacket (s : State) (c : Nat) (k : Packet) : State × Option Nat :=
  let tag := bitsOf k.addr.toNat 15 0
  let p := bitsOf k.addr.toNat 18 16
  let peer := (k.src.toNat + 1) * 8 + bitsOf k.addr.toNat 21 19
  let rk := State.collKey c p
  let g := s.collRing rk
  match g.landing.find? fun l => l.peer == peer && l.tag == tag && !l.complete with
  | none => (s, some St.bound)
  | some l =>
    let bs := l.bytes ++ k.payload
    let put (y : Landing) : State := s.setColl rk { g with landing := g.landing.map fun x => if x = l then y else x }
    if bs.length < l.len then (put { l with bytes := bs }, none)
    else if crc64 bs = k.operand ∧ bs.length = l.len then (put { l with bytes := bs, complete := true }, some St.ok)
    else
      let s1 := (put { l with bytes := [], asked := l.asked + 1 }).bump (R.collStat p) F.collStat_crc_fail 1
      if l.asked < 3 then (s1, some St.poison) else (s1.haltColl c p St.poison, some St.cancelled)

/-- A CACK reaches the sender: the SEND completes, the message goes out again, or the ring halts. [DEDUCED, log 57] -/
def ackMessage (s : State) (c p status : Nat) : State :=
  let k := State.collKey c p
  let g := s.collRing k
  let mine (f : FabReq) : Bool := match f.who with | .coll c' p' _ => c' == c && p' == p | _ => false
  let s1 := (s.fab.out.filter mine).foldl State.dropReq s
  match g.cur with
  | none => s1
  | some m =>
    let o := CollOp.ofWords m.words
    if o.code ≠ 4 then s1
    else if status = St.ok then s1.collAdvance c p
    else if status = St.poison then
      (s1.setColl k { g with cur := some { m with again := m.again + 1 } }).streamOut c p (Handle.ofBits o.handle) o.tag
        (State.collBytes m)
    else s1.haltColl c p status

end Sys2Proof.Machine
end

