-- ==== Sys2Proof/Machine/DmaEvents.lean ====
section
/-! DEFINITION. The events of the data movement queues (R353 to R382). -/

namespace Sys2Proof.Machine

/-! ### Fetching (R353, R354, R357) -/

def parseDesc (h : ChainHead) (a : Nat) (bs : List Byte) : Desc :=
  { addr := a, win := h.win, lo := h.lo, step := h.step, mark := h.mark,
    words := (List.range 8).map fun i => BitVec.ofNat 64 (leVal ((bs.drop (8 * i)).take 8)) }

def newActive (d : Desc) (phase : DescPhase) : Active := ⟨d, 0, [], [], 0, 0, phase, none, false⟩

/-- Where the next fetch of a queue reads after a chain's end: the oldest held head (R356). -/
def nextChain (q : Queue) : Queue :=
  match q.heads with
  | h :: t => { q with chain := some h, heads := t }
  | [] => { q with chain := none }

/-- Every byte of a descriptor passes the window checks of R459. -/
def inWindows (s : State) (k : Nat) (d : Desc) : Bool :=
  d.srcAddrs.all (fun g => (s.qResolve k d.swin g 1 .rd).isSome)
    && d.dstAddrs.all fun g => (s.qResolve k d.dwin g 1 .wr).isSome

/-- A window check of a queue that failed: alarm source 1 when its context is secure (R459, R471). -/
def queueViolation (s : State) (c : Option Nat) (pass : Bool) : State :=
  match c, pass with
  | some c, false => s.windowViolation c
  | _, _ => s

/-- Descriptors of a burst taken in order: the first that lies outside the window or in a local store, or is bad in itself, ends the
queue's work with BOUND, and the first that lies in an unreadable line ends it with POISON (R354, R357, R370). `n` descriptors remain; all
but the last must be followed by their neighbour. -/
def takeBurst (bad : Nat → Bool) : Nat → State → Nat → ChainHead → Nat → List Byte → State
  | 0, s, _, _, _, _ => s
  | n + 1, s, k, h, a, bs =>
    let d := parseDesc h a (bs.take 64)
    let q := s.queue k
    let stop (s : State) (status : Nat) : State :=
      (s.setQueue k { q with chain := some { h with addr := a, kept := none } }).endDescriptor k (newActive d .fetch) status 0 false
    let g := s.placeIn (s.qCtx k) h.win a
    if s.tableOk k h.win g 64 .rd = false then
      queueViolation (stop s St.bound) (s.qCtx k) (s.qResolve k h.win g 64 .rd).isSome
    else if bad a then stop (s.readRecords (s.homeOf a) a 64 ((s.qCtx k).map s.ctxId) 2) St.poison
    else if s.descOk k d = false ∨ (n ≠ 0 ∧ d.next ≠ a + 64) then
      queueViolation (stop s St.bound) (s.qCtx k) (inWindows s k d)
    else
      let q1 := { q with fetched := q.fetched ++ [d] }
      let q2 := if n ≠ 0 then q1
        else if d.next = 0 then nextChain q1 else { q1 with chain := some { h with addr := d.next, kept := none } }
      takeBurst bad n (s.setQueue k q2) k h (a + 64) (bs.drop 64)

/-- Stores that the tile issued before the dma.post of a chain have been performed (R354). -/
def fetchOrdered (s : State) (k : Nat) (h : ChainHead) : Bool :=
  isBulk k || !(s.reqs.vals.any fun r => r.tile == qTile k && decide (r.flight < h.mark) && r.kind == .store && !r.done)

/-- Bytes that a fetch sees: those of the queue's view, with what later stores of the tile have replaced (R354, R375). -/
def fetchView (s : State) (k : Nat) (h : ChainHead) (a n : Nat) : List Byte :=
  let kept := h.kept.getD []
  (s.queueView k a n).zipIdx.map fun x => ((kept.find? fun y => y.1 == a + x.2).map (·.2)).getD x.1

/-- What a fetch at a head reads: its bytes, and which lines of this device are unreadable. -/
def fetchBytes (s : State) (k : Nat) (h : ChainHead) (x : LineFault) (ext : List Byte) : State × List Byte × (Nat → Bool) :=
  match s.qResolve k h.win (s.placeIn (s.qCtx k) h.win h.addr) 64 .rd with
  | some (.here a) =>
    let s1 := homeFault s a x
    let n := 64 * (leVal (fetchView s1 k h (a + 56) 1) % 16 + 1)
    let mine (l : Nat) : Bool :=
      !isBulk k && s1.cache.any fun x => x.die == qPart k && x.line == l && !x.home && s1.qCtx k == some x.ctx
    (s1, fetchView s1 k h a n, fun b => !mine (b / 64) && s1.lineSt (b / 64) != .ok)
  | _ => (s, ext, fun _ => false)

/-- A fetch at a head on this device waits: a line is leased or quiesced, or no access gets there. `x` waits on a leased line. -/
def fetchWaits (s : State) (k : Nat) (h : ChainHead) (x : HeldAccess) : Option State :=
  match s.qResolve k h.win (s.placeIn (s.qCtx k) h.win h.addr) 64 .rd with
  | some (.here a) => if s.waitsAt a 64 || s.shutOut (qPart k) (s.qTag k) a then some (s.holdAt a 64 x) else none
  | _ => none

/-- DESCRIPTOR_FETCH_RETURN: the burst at the queue's fetch address arrives and is checked; `ext` holds its bytes when they
lie in host memory or at a peer. -/
def execDescriptorFetchReturn (q : QId) (x : LineFault) (ext : List Byte) (s : State) :
    Host.Outcome State Fault Refusal :=
  let k := queueKey q
  let Q := s.queue k
  .next (match Q.st, Q.chain with
    | .run, some h =>
      let g := s.placeIn (s.qCtx k) h.win h.addr
      if s.queueOff k = true ∨ fetchOrdered s k h = false then s
      else if let some w := fetchWaits s k h (.fetch q x ext) then w
      else if s.tableOk k h.win g 64 .rd = false ∨ h.addr % 64 ≠ 0 then
        queueViolation (s.endDescriptor k (newActive (parseDesc h h.addr []) .fetch) St.bound 0 false) (s.qCtx k)
          (s.qResolve k h.win g 64 .rd).isSome
      else
        let (s1, bs, bad) := fetchBytes s k h x ext
        let n := leVal ((bs.drop 56).take 8) % 16 + 1
        if bad h.addr then takeBurst bad 1 s1 k h h.addr bs
        else if 16 < Q.fetched.length + n then s
        else takeBurst bad n s1 k h h.addr bs
    | _, _ => s)

/-! ### Starting (R358, R360) -/

/-- A block that a started descriptor writes: FREE goes to FILL (R42). -/
def takeBlock (s : State) (k b : Nat) : State :=
  let T := s.tile (b / 512)
  let g := T.tag (b % 512)
  if g.st = .free then s.setTile (b / 512) (T.setTag (b % 512) { g with st := .fill, owner := k }) else s

/-- A DMA read of a block begins, or ends. -/
def readBlock (s : State) (b : Nat) : State :=
  let T := s.tile (b / 512)
  let g := T.tag (b % 512)
  s.setTile (b / 512) (T.setTag (b % 512) { g with dmaReads := g.dmaReads + 1 })

def endReadBlock (s : State) (b : Nat) : State :=
  let T := s.tile (b / 512)
  let g := T.tag (b % 512)
  s.setTile (b / 512) (T.setTag (b % 512) (drainDone { g with dmaReads := g.dmaReads - 1 }))

/-- Tags of one stream position taken: the destination block in FILL, the source block with one more read. -/
def takeTag (s : State) (k : Nat) (a : Active) (pos : Nat) : State × Active :=
  let (s1, a1) := match lsBlock? (a.d.dstAt pos % 2 ^ 44) with
    | some b => (takeBlock s k b, { a with wr := if a.wr.contains b then a.wr else a.wr ++ [b] })
    | none => (s, a)
  if a.d.zeroOp then (s1, a1)
  else match lsBlock? (a.d.srcAt pos % 2 ^ 44) with
    | some b => if a1.rd.contains b then (s1, a1) else (readBlock s1 b, { a1 with rd := a1.rd ++ [b] })
    | none => (s1, a1)

/-- Tags of the chunk at stream position `pos` taken (R43, R360). -/
def takeTags (s : State) (k : Nat) (a : Active) (pos : Nat) : State × Active :=
  (List.range (chunkLen a.d pos)).foldl (fun sa j => takeTag sa.1 k sa.2 (pos + j)) (s, a)

/-- A bulk queue gets an engine: one of the four of its base die is free, and no firmware queue waits for it (R376, R378). -/
def engineFree (s : State) (k : Nat) : Bool :=
  let base := 16384 + qPart k * 80
  let runs (j : Nat) : Bool := (s.queue j).active.any fun a => a.status == 0
  let waits (j : Nat) : Bool := (s.queue j).st == .run && (s.queue j).active.isEmpty && (match (s.queue j).fetched with
    | d :: _ => s.descOk j d
    | [] => false)
  let all := (List.range 80).map (base + ·)
  decide ((all.filter runs).length < 4) && (State.fwQueue k || !(all.any fun j => State.fwQueue j && waits j))

/-- Another queue with the lower tile ID, or the lower number in the tile, reaches a FREE block that the chunk at `pos` would take, and
takes it first (R360). -/
def yields (s : State) (k : Nat) (d : Desc) (pos : Nat) : Bool :=
  let blocks (d : Desc) (pos : Nat) : List Nat :=
    ((List.range (chunkLen d pos)).filterMap fun i => lsBlock? (d.dstAt (pos + i) % 2 ^ 44)).dedup
  let free := (blocks d pos).filter fun b => ((s.tile (b / 512)).tag (b % 512)).st == .free
  free.any fun b => s.queues.keys.any fun j =>
    decide (j < k) && (s.queue j).st == .run
      && (((s.queue j).active.any fun a => a.status == 0 && decide (a.pos < a.d.total) && (blocks a.d a.pos).contains b
            && s.tagWait j a.d a.pos a.rd == 0)
        || (match (s.queue j).fetched with
          | e :: _ => (blocks e 0).contains b && s.tagWait j e 0 [] == 0 && (!e.fence || (s.queue j).active.isEmpty) && s.descOk j e
          | [] => false))

/-- DESCRIPTOR_START: fences, tags and limits allow it, and the checks of R353 are made again. -/
def execDescriptorStart (q : QId) (s : State) : Host.Outcome State Fault Refusal :=
  let k := queueKey q
  let Q := s.queue k
  .next (match Q.st, Q.fetched with
    | .run, d :: rest =>
      if (d.fence = true ∨ isBulk k = true) ∧ Q.active ≠ [] then s
      else if s.descOk k d = false then
        queueViolation ((s.setQueue k { Q with fetched := rest }).endDescriptor k (newActive d .start) St.bound 0 false) (s.qCtx k)
          (inWindows s k d)
      else if s.tagWait k d 0 [] ≠ 0 ∨ yields s k d 0 = true ∨ (isBulk k = true ∧ engineFree s k = false) then s
      else
        let (s1, a) := takeTags s k (newActive d .moving) 0
        s1.setQueue k { Q with fetched := rest, active := Q.active ++ [a] }
    | _, _ => s)

/-! ### Moving data (R352, R358, R370) -/

/-- Consecutive destination bytes of one line grouped into writes. -/
def groupRuns : List (Nat × Byte) → List (Nat × List Byte)
  | [] => []
  | (g, b) :: t =>
    match groupRuns t with
    | (g', bs) :: r => if g' = g + 1 ∧ g' / 64 = g / 64 then (g, b :: bs) :: r else (g, [b]) :: (g', bs) :: r
    | [] => [(g, [b])]

/-- One write of a descriptor to its place; writes to a peer wait for their acknowledgement, and carry no hint (R355, R428).
[DEDUCED, log 52] -/
def dmaWrite (s : State) (k : Nat) (a : Active) (w : Nat × List Byte) : State × Active :=
  match s.qResolve k a.d.dwin w.1 w.2.length .wr with
  | some (.here x) =>
    ((match lsBlock? x with
      | some b => (takeBlock s k b).writeRaw x w.2
      | none => (s.homeAccess (s.qTag k) x (a.d.hint true) (State.byteMask x w.2.length)).writeBytes x w.2),
     { a with wr := match lsBlock? x with | some b => (if a.wr.contains b then a.wr else a.wr ++ [b]) | none => a.wr })
  | some (.peer d x) =>
    (s.sendRequest (qPart k) (s.qTag k) d Pk.wr x w.2.length 0 0 w.2 (.dmaWrite k a.d.addr),
     { a with acks := a.acks + 1 })
  | some (.host x) => (s.emit (.hostWrite x w.2), a)
  | none => (s, a)

def dmaWrites (s : State) (k : Nat) (a : Active) (ws : List (Nat × List Byte)) : State × Active :=
  ws.foldl (fun sa w => dmaWrite sa.1 k sa.2 w) (s, a)

/-- The started descriptor at place `i` of the queue. -/
def activeAt (s : State) (k i : Nat) : Option Active := (s.queue k).active[i]?

def setActive (s : State) (k i : Nat) (a : Active) : State :=
  s.setQueue k { s.queue k with active := (s.queue k).active.set i a }

/-- Source blocks that no later stream byte needs are read to their end. -/
def endReads (s : State) (a : Active) : State × Active :=
  let left (b : Nat) : Bool := (List.range (a.d.total - a.pos)).any fun j => lsBlock? (a.d.srcAt (a.pos + j) % 2 ^ 44) == some b
  let gone := a.rd.filter fun b => !left b
  (gone.foldl endReadBlock s, { a with rd := a.rd.filter left })

/-- Local-store blocks that a queue fills become READY (R42). -/
def readyBlocks (s : State) (k : Nat) (bs : List Nat) : State :=
  bs.foldl (fun s b =>
    let T := s.tile (b / 512)
    let g := T.tag (b % 512)
    if g.st = .fill ∧ g.owner = k then s.setTile (b / 512) (T.setTag (b % 512) { g with st := .ready }) else s) s

/-- Stream bytes land at their destination. With the completion flag, a block whose last byte has landed becomes READY (R42). -/
def landBytes (s : State) (k i : Nat) (bs : List Byte) : State :=
  match activeAt s k i with
  | none => s
  | some a =>
    let ws := groupRuns (bs.zipIdx.map fun b => (a.d.dstAt (a.pos + b.2), b.1))
    let (s1, a1) := dmaWrites s k a ws
    let (s2, a2) := endReads s1 { a1 with pos := a1.pos + bs.length, readTurn := false }
    let left (b : Nat) : Bool := (List.range (a2.d.total - a2.pos)).any fun j =>
      lsBlock? (a2.d.dstAt (a2.pos + j) % 2 ^ 44) == some b
    setActive (if a.d.cf then readyBlocks s2 k (a2.wr.filter fun b => !left b) else s2) k i a2

/-- Destination DRAM lines that would have received poisoned bytes take poison (R308, R370). -/
def poisonDest (s : State) (k : Nat) (a : Active) (n : Nat) : State :=
  (List.range n).foldl (fun s j =>
    match s.qResolve k a.d.dwin (a.d.dstAt (a.pos + j)) 1 .wr with
    | some (.here x) =>
      if s.isDram x then { s with lines := s.lines.set (x / 64) { s.lineMeta (x / 64) with poison := true,
                                                                                             gen := s.genOfLine (x / 64) } }
      else s
    | _ => s) s

/-- A started descriptor ends abnormally at its place (R370); its reads in flight end. -/
def failActive (s : State) (k i status : Nat) (noRecord : Bool) : State :=
  match activeAt s k i with
  | none => s
  | some a =>
    let s1 := a.rd.foldl endReadBlock s
    let a1 := { a with rd := [] }
    (setActive s1 k i a1).endDescriptor k a1 status a1.pos noRecord

/-- Port of a tile that a line request at a global address uses: 0 the bonds, 1 the router port, 2 the local-store port (R350). -/
def portOf (s : State) (k g : Nat) : Nat :=
  let y := g % 2 ^ 44
  if g / 2 ^ 44 ≠ s.localDev then 1
  else if sliceBase (qTile k) ≤ y ∧ y < sliceBase (qTile k) + 0x18000000 then 0
  else if (lsBlock? y).any (fun b => b / 512 == qTile k) then 2
  else 1

/-- Bytes that a port moves in one direction in 1 µs (R350). -/
def portBytes (port : Nat) : Nat := if port = 0 then 128000 else if port = 1 then 64000 else 192000

/-- Cap of a queue on one kind of traffic (0 read, 1 write, 2 remote) at a port, as bytes in a 1 µs window, and the counter it draws
on: the tile group's in FIXED mode (R367), a bulk queue's in FIXED mode (R378); none without a cap. -/
def capOf (s : State) (k kind port : Nat) : Option (Nat × Nat) :=
  if k < 16384 then
    let g := qNum k / 4
    let r := R.dmaGctl (qTile k) g
    let pct := if kind = 0 then s.fld r F.dmaGctl_rd else if kind = 1 then s.fld r F.dmaGctl_wr else s.fld r F.dmaGctl_rm
    if s.fld r F.dmaGctl_mode = 0 ∧ pct < 100 then some (((qTile k * 4 + port) * 2 + g) * 4 + kind, portBytes port * pct / 100)
    else none
  else
    let r := qCtl k
    let pct := if kind = 0 then s.fld r F.bulkQctl_rd else if kind = 1 then s.fld r F.bulkQctl_wr
      else s.fld r F.bulkQctl_rm
    if s.fld (R.bulkCtl (qPart k)) F.bulkCtl_mode = 0 ∧ pct < 100 ∧ State.fwQueue k = false then
      some (k * 4 + kind, 4096000 * pct / 100)
    else none

/-- Share of a context that is also a maximum, at the bulk movers of a partition: s/64 of their bandwidth in a 1 µs window, over all
its queues (R378, R461). -/
def shareCap (s : State) (k : Nat) : Option (Nat × Nat) :=
  if isBulk k = false then none
  else match s.qCtx k with
    | none => none
    | some c =>
      if s.fld (R.ctxShare c) F.ctxShare_cap = 1 then
        some (2 ^ 20 + qPart k * 512 + c, 4096000 * s.fld (R.ctxShare c) F.ctxShare_share / 64)
      else none

/-- Traffic of the next chunk against the caps: `none` when it must wait for the next window, otherwise the counters.
[DESIGN CHOICE, log 53] -/
def useCaps (s : State) (k : Nat) (d : Desc) (pos n : Nat) : Option (SMap Nat) :=
  let remote (w g : Nat) (p : Perm) : Bool :=
    match s.qResolve k w g 1 p with | some (.peer _ _) => true | some (.host _) => true | _ => false
  let src := d.srcAt pos
  let dst := d.dstAt pos
  let kinds := (if d.zeroOp then [] else [(0, portOf s k src)]) ++ [(1, portOf s k dst)]
    ++ (if (!d.zeroOp && remote d.swin src .rd) || remote d.dwin dst .wr then [(2, 1)] else [])
  ((kinds.filterMap fun x => capOf s k x.1 x.2) ++ (shareCap s k).toList).foldl (fun m x => match m with
    | none => none
    | some u => if x.2 < u.getD x.1 0 + n then none else some (u.set x.1 (u.getD x.1 0 + n))) (some s.capUsed)

/-- A source chunk that can be read now. -/
def chunkBytes (s : State) (a n : Nat) : List Byte :=
  match lsBlock? a with
  | some _ => s.readRaw a n
  | none => s.bytesAt a n

/-- A request to a partition in reset ends its descriptor with TIMEOUT and without a record (R532). [DEDUCED, log 54] -/
def haltQuiet (s : State) (k i : Nat) : State :=
  match activeAt s k i with
  | none => s
  | some a =>
    let s1 := setActive (a.rd.foldl endReadBlock s) k i { a with rd := [], status := St.timeout }
    s1.setQueue k { s1.queue k with st := .halted, lastStatus := St.timeout }

/-- The chunk at the head of a descriptor's remaining stream is moved. [DEDUCED, log 52] -/
def moveChunk (s : State) (k i : Nat) (a : Active) (ext : List Byte) (x : LineFault) : State :=
  let n := chunkLen a.d a.pos
  let g := a.d.srcAt a.pos
  if a.d.zeroOp then landBytes s k i (List.replicate n 0)
  else match s.qResolve k a.d.swin g n .rd with
    | none => queueViolation (failActive s k i St.bound false) (s.qCtx k) false
    | some (.here y) =>
      if s.resetHome (qPart k) y then haltQuiet s k i
      else if s.answers (s.qTag k) y n = false then
        failActive s k i St.bound false
      else if x = .foreignTag then
        (failActive s k i St.bound false).raiseAlarm 0 (s.homeOf y) (s.qCtx k)
      else
        let s1 := homeFault s y x
        let lsBad := (lsBlock? y).isSome && (match x with | .lsUe _ => true | _ => false)
        let sev := if (s.qCtx k).isSome then 2 else 1
        if s1.statusAt y n ≠ .ok ∨ lsBad = true then
          let s2 := if lsBad then s1.lsError y sev ((s.qCtx k).map s.ctxId)
            else s1.readRecords (s1.homeOf y) y n ((s.qCtx k).map s.ctxId) sev
          let s3 := match s.qCtx k with | some c => rebuild s2 c y | none => s2
          failActive (poisonDest s3 k a n) k i St.poison false
        else landBytes (s1.homeAccess (s.qTag k) y (a.d.hint false) 0) k i (chunkBytes s1 y n)
    | some (.host _) => landBytes s k i ext
    | some (.peer d y) =>
      s.sendRequest (qPart k) (s.qTag k) d Pk.rd y n 0 0 [] (.dmaRead k a.d.addr)

/-- A byte of a chunk in a line that a lease keeps from it until the next boundary (R337). -/
def chunkLeased (s : State) (k : Nat) (d : Desc) (pos n : Nat) : Option Nat :=
  let at' (l : Option Loc) : Option Nat := match l with | some (.here y) => if s.leaseHolds y then some y else none | _ => none
  (List.range n).findSome? fun j =>
    (if d.zeroOp then none else at' (s.qResolve k d.swin (d.srcAt (pos + j)) 1 .rd)).or
      (at' (s.qResolve k d.dwin (d.dstAt (pos + j)) 1 .wr))

/-- A chunk touches a quiesced slice or stack, and waits at its ports (R281, R290). -/
def chunkQuiesced (s : State) (d : Desc) (pos n : Nat) : Bool :=
  (List.range n).any fun j =>
    (!d.zeroOp && d.srcAt (pos + j) / 2 ^ 44 == s.localDev && s.quiesced (d.srcAt (pos + j) % 2 ^ 44))
      || (d.dstAt (pos + j) / 2 ^ 44 == s.localDev && s.quiesced (d.dstAt (pos + j) % 2 ^ 44))

/-- Where a chunk is to land answers no more: it was retired after the descriptor was checked (R273). -/
def dstGone (s : State) (k : Nat) (d : Desc) (pos n : Nat) : Bool :=
  (List.range n).any fun j =>
    match s.qResolve k d.dwin (d.dstAt (pos + j)) 1 .wr with
    | some (.here y) => !s.answers (s.qTag k) y 1
    | some _ => false
    | none => true

/-- A chunk is to land in memory of a partition in reset (R532). -/
def dstReset (s : State) (k : Nat) (d : Desc) (pos n : Nat) : Bool :=
  (List.range n).any fun j =>
    match s.qResolve k d.dwin (d.dstAt (pos + j)) 1 .wr with
    | some (.here y) => s.resetHome (qPart k) y
    | _ => false

/-! ### Turns at the ports of a tile (R366, R367) -/

/-- A chunk's route crosses a cut edge, or its partition has no far share (R289, R395). -/
def chunkCut (s : State) (k : Nat) (d : Desc) (pos : Nat) : Bool :=
  let cut (g : Nat) : Bool := g / 2 ^ 44 == s.localDev && s.shutOut (qPart k) (s.qTag k) (g % 2 ^ 44)
  (!d.zeroOp && cut (d.srcAt pos)) || cut (d.dstAt pos)

/-- Tags, quiesced units, the routes and the outstanding limit let the next chunk of a started descriptor go, and no read of it is on
its way (R358, R375). -/
def chunkFree (s : State) (k : Nat) (a : Active) : Bool :=
  a.status == 0 && decide (a.pos < a.d.total) && decide (s.qInFlight k < bitsOf (s.reg (qCtl k)).toNat 8 0)
    && !(s.fab.out.any fun f => f.who == .dmaRead k a.d.addr) && s.tagWait k a.d a.pos a.rd == 0 && !chunkCut s k a.d a.pos
    && !chunkQuiesced s a.d a.pos (chunkLen a.d a.pos)

/-- The next chunk of a started descriptor can go: no lease holds it either. -/
def chunkReady (s : State) (k : Nat) (a : Active) : Bool :=
  chunkFree s k a && (chunkLeased s k a.d a.pos (chunkLen a.d a.pos)).isNone

/-- Port of a tile that a started descriptor's next line request uses: that of its read, and after it that of its write. -/
def chunkPort (s : State) (k : Nat) (a : Active) : Nat :=
  portOf s k (if a.d.zeroOp || a.readTurn then a.d.dstAt a.pos else a.d.srcAt a.pos)

/-- A queue has a line request to make at a port of its tile now. -/
def wantsPort (s : State) (port k : Nat) : Bool :=
  (s.queue k).st == .run && (s.queue k).active.any fun a =>
    chunkReady s k a && chunkPort s k a == port && (useCaps s k a.d a.pos (chunkLen a.d a.pos)).isSome

def groupQueues (k g : Nat) : List Nat := (List.range 4).map fun j => k / 8 * 8 + 4 * g + j

/-- The group of a tile queue has its turn at a port: the other group sends nothing there, or has used its weight. `none` when it has
not; otherwise the turns taken (R366). -/
def groupTurn (s : State) (port k : Nat) : Option (Nat × Nat) :=
  let g := qNum k / 4
  let (cur, used) := s.dmaTurn.getD (qTile k * 4 + port) (0, 0)
  let weight (g : Nat) : Nat := s.fld (R.dmaGctl (qTile k) g) F.dmaGctl_weight
  if (groupQueues k (1 - g)).any (wantsPort s port) = false then some (g, if cur = g then min (used + 1) (weight g) else 1)
  else if cur = g then (if used < weight g then some (g, used + 1) else none)
  else if used < weight cur then none else some (g, 1)

/-- In FIXED mode the queues of a group take turns, one line request at a time (R367). -/
def queueTurn (s : State) (port k : Nat) : Bool :=
  let last := s.dmaLast.getD ((qTile k * 4 + port) * 2 + qNum k / 4) 3
  let place (j : Nat) : Nat := (qNum j + 4 - (last + 1)) % 4
  s.fld (R.dmaGctl (qTile k) (qNum k / 4)) F.dmaGctl_mode == 1
    || !((groupQueues k (qNum k / 4)).any fun j => wantsPort s port j && decide (place j < place k))

/-- A line request takes its turn at a port; `none` when another has it. A bulk queue has no such port. -/
def takeTurn (s : State) (k port : Nat) : Option State :=
  if isBulk k then some s
  else if queueTurn s port k = false then none
  else (groupTurn s port k).map fun x =>
    { s with dmaTurn := s.dmaTurn.set (qTile k * 4 + port) x,
             dmaLast := s.dmaLast.set ((qTile k * 4 + port) * 2 + qNum k / 4) (qNum k % 4) }

/-- The turns of a chunk: at the port of its read, and then at the port of its write. `none` when it has no turn; otherwise whether the
write has had its turn too. The bytes of a read whose write waits stay in the holding register (R352, R366). [DESIGN CHOICE, log 53] -/
def takeTurns (s : State) (k i : Nat) (a : Active) : Option (State × Bool) :=
  match takeTurn s k (chunkPort s k a) with
  | none => none
  | some s1 =>
    if isBulk k || a.d.zeroOp || a.readTurn then some (s1, true)
    else
      let a1 := { a with readTurn := true }
      let s2 := setActive s1 k i a1
      match takeTurn s2 k (chunkPort s2 k a1) with
      | none => some (s2, false)
      | some s3 => some (s3, true)

/-- A request held back by a cap: its group counts the cycles (R381). [DESIGN CHOICE, log 53] -/
def heldByCap (s : State) (k : Nat) : State :=
  if isBulk k then s
  else
    let (i, s1) := s.draw
    s1.bump (R.dmaGstat (qTile k)) (if qNum k < 4 then F.dmaGstat_capped0 else F.dmaGstat_capped1) (Config.cappedCycles i).toNat

/-- DMA_LINE_RETURN: the next line request of the `i`-th started descriptor completes and its bytes land. `ext` holds what
host memory returned; a request to a peer leaves as a RD and its bytes come with RD_RSP. -/
def execDmaLineReturn (q : QId) (i : BitVec 5) (x : LineFault) (ext : List Byte) (s : State) :
    Host.Outcome State Fault Refusal :=
  let k := queueKey q
  let st := (s.queue k).st
  .next (match activeAt s k i.toNat with
    | none => s
    | some a =>
      let n := chunkLen a.d a.pos
      if (st ≠ .run ∧ st ≠ .stopped) ∨ chunkFree s k a = false ∨ yields s k a.d a.pos = true then s
      else if let some y := chunkLeased s k a.d a.pos n then s.holdAt y 1 (.line q i x ext)
      else match useCaps s k a.d a.pos n with
        | none => heldByCap s k
        | some u => match takeTurns s k i.toNat a with
          | none => s
          | some (s0, false) => s0
          | some (s0, true) =>
            let (s1, a1) := takeTags { s0 with capUsed := u } k a a.pos
            let s2 := setActive s1 k i.toNat a1
            if dstReset s2 k a.d a.pos n then haltQuiet s2 k i.toNat
            else if dstGone s2 k a.d a.pos n then
              queueViolation (failActive s2 k i.toNat St.bound false) (s.qCtx k) (inWindows s k a.d)
            else moveChunk s2 k i.toNat a1 ext x)

/-- CAP_WINDOW_END: requests held back by a cap may go again (R367). [DESIGN CHOICE, log 53] -/
def execCapWindowEnd (s : State) : Host.Outcome State Fault Refusal := .next { s with capUsed := SMap.empty }

/-! ### Completing (R359, R364, R365) -/

/-- A queue with nothing left is IDLE. -/
def settleQueue (s : State) (k : Nat) : State :=
  let q := s.queue k
  if q.st = .run ∧ q.active = [] ∧ q.fetched = [] ∧ q.chain = none ∧ q.heads = [] then
    s.setQueue k { q with st := .idle, dropped := 0 }
  else s

/-- A descriptor of a DEADLINE group that completes later than its bound is counted (R369, R381). -/
def countLate (s : State) (k : Nat) (late : Bool) : State :=
  if late = true ∧ isBulk k = false ∧ s.fld (R.dmaGctl (qTile k) (qNum k / 4)) F.dmaGctl_mode = 1 then
    s.bump (R.dmaGstat (qTile k)) (if qNum k < 4 then F.dmaGstat_late0 else F.dmaGstat_late1) 1
  else s

/-- A record that waits has room: it is written, and the queue has halted (R365, R370). -/
def payRecord (s : State) (k i n : Nat) (x : HeldAccess) : State :=
  match activeAt s k i with
  | none => s
  | some a =>
    let s1 := setActive s k i { a with owes := none }
    if s.ringOk k = false then s1
    else if s.ringFull k then s
    else if s.ringWaits k then s.ringHold k x
    else s1.writeRecord k a.status n a.d.addr

/-- A record that waits for room never comes: the status is TIMEOUT, and an error record says so (R365). -/
def missRecord (s : State) (k i n : Nat) : State :=
  match activeAt s k i with
  | none => s
  | some a =>
    let s1 := (setActive s k i { a with owes := none, status := St.timeout }).dmaEndRecord k St.timeout n a.d.addr
    s1.setQueue k { s1.queue k with lastStatus := St.timeout }

/-- The started or ended descriptor of a queue whose record waits: its place and the bytes to record. -/
def owing (s : State) (k : Nat) : Option (Nat × Nat) :=
  let l := (s.queue k).active
  (l.findIdx? fun a => a.owes.isSome).map fun i => (i, ((l[i]?).bind (·.owes)).getD 0)

/-- A descriptor has moved its bytes and its record is due. -/
def recordDue (s : State) (k : Nat) (a : Active) : Bool :=
  a.status == 0 && a.pos == a.d.total && a.acks == 0 && a.d.cf && s.ringOk k

/-- DESCRIPTOR_COMPLETE: blocks go READY, the record is written and the object signalled, in this order. A record that waits for room
goes first; a cancelled queue completes nothing (R372). -/
def execDescriptorComplete (d : DescEnd) (s : State) : Host.Outcome State Fault Refusal :=
  let k := queueKey d.queue
  .next (match (s.queue k).active, owing s k with
    | [], _ => s
    | _ :: _, some (i, n) => payRecord s k i n (.complete d)
    | a :: rest, none =>
      if a.status ≠ 0 ∨ a.pos < a.d.total ∨ a.acks ≠ 0 ∨ (s.queue k).st = .cancelling then s
      else if a.d.cf = true ∧ s.ringOk k = false then
        queueViolation (failActive s k 0 St.bound true) (s.qCtx k)
          (let r := s.ringInfo k; (s.qResolve k r.1 r.2.1 (32 * 2 ^ r.2.2 + 8) .wr).isSome)
      else if a.d.cf = true ∧ s.ringFull k = true then s
      else if a.d.cf = true ∧ s.ringWaits k = true then s.ringHold k (.complete d)
      else
        let s1 := if a.d.cf then readyBlocks s k a.wr else s
        let s2 := if a.d.cf then s1.writeRecord k St.ok a.d.total a.d.addr else s1
        let s3 := if a.d.sig then s2.engineSignal (qPart k) (s.qTag k) a.d.handle (BitVec.ofNat 64 a.d.amount) else s2
        let Q := s3.queue k
        settleQueue ((countLate s3 k d.late).setQueue k { Q with active := rest, done := satAdd 16 Q.done 1 }) k)

/-! ### Timeouts (R361, R365) -/

/-- DMA_TAG_WAIT_TIMEOUT: a descriptor of a tile queue waits on a tag beyond stall_to, a started one also in a queue that is stopped
for a save. One that its fence holds does not wait on a tag. -/
def execDmaTagWaitTimeout (q : QId) (s : State) : Host.Outcome State Fault Refusal :=
  let k := queueKey q
  let Q := s.queue k
  .next (if Q.st ≠ .run ∧ Q.st ≠ .stopped then s
    else match Q.active.findIdx? fun a => a.status == 0 && decide (a.pos < a.d.total) && s.tagWait k a.d a.pos a.rd != 0 with
      | some i => failActive s k i St.timeout false
      | none => match Q.st, Q.fetched with
        | .run, d :: rest =>
          if s.tagWait k d 0 [] ≠ 0 ∧ (d.fence = false ∨ Q.active = []) then
            (s.setQueue k { Q with fetched := rest }).endDescriptor k (newActive d .start) St.timeout 0 false
          else s
        | _, _ => s)

/-- RING_FULL_TIMEOUT: a record of a tile queue waits for room beyond stall_to; no record is written. -/
def execRingFullTimeout (q : QId) (s : State) : Host.Outcome State Fault Refusal :=
  let k := queueKey q
  .next (if isBulk k then s
    else match (s.queue k).active, owing s k with
    | _, some (i, n) => missRecord s k i n
    | a :: _, none => if recordDue s k a = true ∧ s.ringFull k = true then failActive s k 0 St.timeout true else s
    | [], none => s)

/-! ### Control of queues (R371, R372) -/

/-- A halted queue resumes: the halted descriptor runs again from its first byte; one rejected at its fetch is fetched
again, and one rejected at its start is started again. A queue with a record to write has not halted yet (R365, R371).
[DEDUCED, log 54] -/
def resumeQueue (s : State) (k : Nat) : State :=
  let q := s.queue k
  if q.st ≠ .halted ∨ (q.active.any fun a => a.owes.isSome) = true then s
  else
    let bad (a : Active) : Bool := a.status != 0
    let again := (q.active.filter fun a => bad a && a.phase == .start).map (·.d)
    let keepAct := (q.active.filter fun a => !bad a || a.phase == .moving).map fun a =>
      if bad a then { a with pos := 0, status := 0, readTurn := false } else a
    let q1 : Queue := { q with st := .run, active := keepAct, fetched := again ++ q.fetched }
    s.setQueue k (if q1.chain = none then nextChain q1 else q1)

/-- A write of QCTL.cmd for a queue that is assigned. -/
def cancelQueue (s : State) (k : Nat) : State :=
  if (s.queue k).st = .cancelling ∨ (s.queue k).st = .idle then s else s.startCancel k

def execDmaQueueResume (t : TileId) (q : Fin 8) (s : State) : Host.Outcome State Fault Refusal :=
  .next (resumeQueue s (queueKey (.tile t q)))

def execDmaQueueCancel (t : TileId) (q : Fin 8) (s : State) : Host.Outcome State Fault Refusal :=
  .next (cancelQueue s (queueKey (.tile t q)))

def execBulkQueueResume (p : PartId) (q : Fin 80) (s : State) : Host.Outcome State Fault Refusal :=
  .next (resumeQueue s (queueKey (.bulk p q)))

def execBulkQueueCancel (p : PartId) (q : Fin 80) (s : State) : Host.Outcome State Fault Refusal :=
  .next (cancelQueue s (queueKey (.bulk p q)))

/-- CANCEL_COMPLETE: the reads in flight have returned, blocks in FILL go FREE, records are written, and the queue is IDLE;
a dma.cancel that waits for it retires. -/
def execCancelComplete (q : QId) (s : State) : Host.Outcome State Fault Refusal :=
  let k := queueKey q
  .next (if (s.queue k).st ≠ .cancelling ∨ (s.fab.out.any fun f => match f.who with | .dmaRead j _ => j == k | _ => false) = true then s
    else
      let s1 := s.endCancel k true
      if isBulk k then s1
      else match (s1.tile (qTile k)).flights.find? fun f => f.kind == .cancel (qNum k) with
        | some f => retire s1 (qTile k) f
        | none => s1)

/-! ### Bulk posts (R377, R382) -/

/-- A chain head posted to a bulk queue. -/
def bulkHead (s : State) (k a : Nat) : ChainHead :=
  ⟨a, match s.qCtx k with | some c => windowFor s c a | none => 0, false, s.qStep k, 0, none⟩

/-- An entry of a post ring lies in an unreadable line: it names no chain, and the queue halts with POISON at address 0.
[DESIGN CHOICE, log 140] -/
def badEntry (s : State) (k e : Nat) : State :=
  let s1 := s.readRecords (s.homeOf e) e 8 ((s.qCtx k).map s.ctxId) 2
  let q := s1.queue k
  (s1.setQueue k { q with st := if q.st = .idle then .run else q.st }).endDescriptor k
    (newActive (parseDesc (bulkHead s k 0) 0 []) .start) St.poison 0 false

/-- BULK_QPOST: a chain head is posted; rejected with BOUND when four are held or the queue is not assigned. -/
def execBulkQpost (path : RegPath) (p : PartId) (q : Fin 80) (head : BitVec 64) (s : State) :
    Host.Outcome State Fault Refusal :=
  let k := queueKey (.bulk p q)
  let a := bitsOf head.toNat 43 6 * 64
  .next (if 4 ≤ (s.queue k).heads.length ∨ (State.fwQueue k = false ∧ (s.qCtx k).isNone = true) then
    rejectReg s path (R.bulkQpost p.val q.val) true (some p.val)
  else s.addHead k (bulkHead s k a))

/-- BULK_POST_FETCH: the doorbell of a context's post ring shows an entry that the queue has not taken. A halted queue fetches
nothing (R370). -/
def execBulkPostFetch (c : CtxId) (p : PartId) (s : State) : Host.Outcome State Fault Refusal :=
  .next (match (s.ctxs.get? c.val).bind fun x => (x.rings.get? p.val).bind fun r => r.post.map fun d => (r, d) with
    | none => s
    | some (r, d) =>
      let k := queueKey (.bulk p (Fin.ofNat 80 d.queue))
      let Q := s.queue k
      if (s.obj (State.objKey p.val d.doorbell)).toNat ≤ r.posted ∨ 4 ≤ Q.heads.length ∨ s.issueStopped c.val = true
          ∨ (Q.st ≠ .idle ∧ Q.st ≠ .run) then s
      else
        let e := d.base + 8 * (r.posted % 2 ^ d.k)
        let s1 := s.updCtx c.val fun x => { x with rings := x.rings.set p.val { r with posted := r.posted + 1 } }
        if s.statusAt e 8 ≠ .ok then badEntry s1 k e
        else s1.addHead k (bulkHead s k (bitsOf (s.load e 8) 43 6 * 64)))

end Sys2Proof.Machine
end

