-- ==== Sys2Proof/WellFormed.lean ====
section
/-! DEFINITION. Which packets have the form that the table "Packet types" gives their type (R417, R418). A fabric command
whose packet has another form, or whose flit has not 256 bytes (R415), stops with the fault `illFormed`; every other command is
well-formed whatever its operands. -/

namespace Sys2Proof

/-- Payload lengths that a packet of a type may have: a RD has none, an ATOM carries a compare value or none, a response
carries what was read, a tick packet its 16 bytes or its number, and no packet more than 4,096 bytes. [DESIGN CHOICE, log 4] -/
def Packet.fits (k : Packet) (typ : Nat) : Bool :=
  let n := k.payload.length
  if typ = 0x01 ∨ typ = 0x04 ∨ typ = 0x07 ∨ typ = 0x08 ∨ typ = 0x10 ∨ typ = 0x12 ∨ typ = 0x06 then n == 0
  else if typ = 0x03 ∨ typ = 0x11 then decide (1 ≤ n) && decide (n ≤ 4096)
  else if typ = 0x05 then n == 0 || n == 8
  else if typ = 0x20 then n == 16
  else if typ = 0x21 ∨ typ = 0x22 then n == 8
  else if typ = 0x23 ∨ typ = 0x24 ∨ typ = 0x25 ∨ typ = 0x26 then n == 0
  else decide (n ≤ 4096)

/-- A packet command's operand has the form of its type, and a flit its length; every other command is well-formed. -/
def Instr.wf : Instr → Bool
  | .rd _ k _ => k.fits 0x01 | .rdRsp _ k => k.fits 0x02 | .wr _ k => k.fits 0x03 | .wrAck _ k => k.fits 0x04
  | .atomPkt _ k _ => k.fits 0x05 | .atomRsp _ k => k.fits 0x06 | .sig _ k => k.fits 0x07 | .sigAck _ k => k.fits 0x08
  | .cts _ k => k.fits 0x10 | .cdata _ k => k.fits 0x11 | .cack _ k => k.fits 0x12 | .tick _ k => k.fits 0x20
  | .slip _ k => k.fits 0x21 | .notReady _ k => k.fits 0x22 | .probe _ k _ => k.fits 0x23 | .probeRsp _ k _ => k.fits 0x24
  | .hello _ k => k.fits 0x25 | .depart _ k => k.fits 0x26 | .flitReceive _ f => f.body.length == 244
  | _ => true

end Sys2Proof
end

