-- ==== Sys2Proof/Machine/Fabric.lean ====
section
/-! DEFINITION. The fabric: packets at the device they address or pass, sequence order and the response store, checks of
remote requests, answers and timeouts, flits, ports, neighbours and probes (R412 to R431, R443 to R445, R466, R520). -/

namespace Sys2Proof.Machine

/-! ### Answers sent (R417, R419) -/

/-- Most answers that the response store holds, and packets that the reorder store holds. [DEDUCED, log 60] -/
def answerCap : Nat := 32768
/-- [DEDUCED, log 60] -/
def reorderCap : Nat := 1024

/-- The answer type of a request type. -/
def answerTyp (typ : Nat) : BitVec 8 := if typ = 0x11 then Pk.cack else BitVec.ofNat 8 (typ + 1)

/-- Channel of a packet type. -/
def channelOf (typ : Nat) : Nat :=
  if typ = 0x12 ∨ (typ < 0x10 ∧ typ % 2 = 0) then 1 else if typ < 0x10 then 0 else if typ < 0x20 then 2 else 3

/-- An answer to request `k`, kept in the response store when `keep` says so. -/
def respond (s : State) (p : Nat) (k : Packet) (status : Nat) (operand : W64) (payload : List Byte) (keep : Bool) : State :=
  let d := k.src.toNat
  let key := d * 4 + 1
  let seq := s.fab.send.getD key 0
  let r : Packet :=
    { dst := k.src, src := BitVec.ofNat 12 s.localDev, typ := answerTyp k.typ.toNat,
      ctx := BitVec.ofNat 16 ((s.peerOf (k.ctx.toNat / 128) d).getD 0), seq := BitVec.ofNat 16 seq,
      addr := BitVec.ofNat 44 (k.seq.toNat + status * 2 ^ 16), len := BitVec.ofNat 12 (payload.length - 1), op := 0,
      operand := operand, payload := payload }
  let answers := if keep then ((d * 4 + channelOf k.typ.toNat, k.seq.toNat, some r) :: s.fab.answers).take answerCap
    else s.fab.answers
  ({ s with fab := { s.fab with send := s.fab.send.set key ((seq + 1) % 65536), answers := answers } }).sendPacket p r

/-! ### Checks at the destination (R427, R459, R466) -/

/-- A window of context `c` open to the fabric grants `n` bytes at `a`. -/
def fabricWindow (s : State) (c a n : Nat) (p : Perm) : Bool :=
  (List.range 16).any fun w => match s.window c w with
    | some x => x.f && x.kind != 5 && x.kind != 6 && s.winOk c w a n p
    | none => false

/-- Verdict on a request. -/
inductive Gate where
  | pass
  | stale
  /-- Rejected, with the check code of an ACCESS record. -/
  | bound (check : Nat)
deriving DecidableEq, Repr

/-- Checks of R427 and R466; `addr` is an object number for a signal. Requests to a context in teardown are dropped (R445), signals only
once its generation has changed (R476). -/
def gate (s : State) (k : Packet) (n : Nat) (p : Perm) (signal : Bool) : Gate :=
  let c := k.ctx.toNat / 128
  let a := k.addr.toNat
  if s.fenced (c / 64 % 8) then .bound 1
  else if s.ctxId c ≠ k.ctx.toNat ∨ (signal = false ∧ s.ctxSt c = CtxSt.teardown) then .stale
  else match s.ctxs.get? c with
    | none => .bound 4
    | some x =>
      if x.fabric = false ∨ (s.peerOf c k.src.toNat).isNone = true then .bound 4
      else if signal then
        let own := s.ownsObj k.ctx.toNat (a / 16384) (a % 16384)
          && s.fld (R.synOwn (a / 16384) (a % 16384 / 64)) F.synOwn_fabric == 1
        if own then .pass else .bound 3
      else
        let place := match s.region a with | .localStore _ => false | .registers => false | _ => true
        if place && fabricWindow s c a n p then .pass else .bound 2

/-- A stale request is dropped and counted, with a record (R427 step 1). [DEDUCED, log 60] -/
def dropStale (s : State) (k : Packet) : State :=
  let p := k.ctx.toNat / 128 / 64
  (s.dropPacket).record p (ErrRec.mk0 0x0A 1 p 0x0A 0 (4 + k.src.toNat * 2 ^ 8))

/-- A rejected request: BOUND, a record, and the alarm for a secure context (R427 steps 2 and 3). A CTS has no answer (R417). -/
def rejectRequest (s : State) (k : Packet) (check : Nat) : State :=
  let c := k.ctx.toNat / 128
  let p := s.leadOf c
  let s1 := s.accessCheck p check (if check = 3 then 0 else s.localDev * 2 ^ 44 + k.addr.toNat) (some c)
  let s2 := s1.windowViolation c
  if k.typ = Pk.cts then s2 else respond s2 p k St.bound 0 [] true

/-! ### Requests performed (R428) -/

def statusOfLine (x : LineSt) : Nat := match x with | .ok => St.ok | _ => St.poison

/-- A read: the bytes and status of the lines. -/
def performRd (s : State) (k : Packet) (x : LineFault) : State :=
  let a := k.addr.toNat
  let n := k.len.toNat + 1
  let c := k.ctx.toNat / 128
  let p := s.homeOf a
  if s.answers c a n = false then respond (s.accessRecord p a St.bound 1 (some k.ctx.toNat)) p k St.bound 0 [] true
  else
    let s1 := homeFault s a x
    let st := s1.statusAt a n
    if st ≠ .ok then respond (s1.readRecords (s1.homeOf a) a n (some k.ctx.toNat) 1) p k (statusOfLine st) 0 [] true
    else respond (s1.homeRange c a n (k.op.extractLsb' 0 2) false) p k St.ok 0 (s1.bytesAt a n) true

def performWr (s : State) (k : Packet) : State :=
  let a := k.addr.toNat
  let c := k.ctx.toNat / 128
  let p := s.homeOf a
  if s.answers c a k.payload.length = false then
    respond (s.accessRecord p a St.bound 1 (some k.ctx.toNat)) p k St.bound 0 [] true
  else respond ((s.homeRange c a k.payload.length (k.op.extractLsb' 0 2) true).writeBytes a k.payload) p k St.ok 0 [] true

/-- [DESIGN CHOICE, log 59] -/
def performAtom (s : State) (k : Packet) (x : LineFault) : State :=
  let a := k.addr.toNat
  let n := if k.op.getLsbD 4 then 4 else 8
  let c := k.ctx.toNat / 128
  let p := s.homeOf a
  if s.answers c a n = false then respond (s.accessRecord p a St.bound 1 (some k.ctx.toNat)) p k St.bound 0 [] true
  else
    let s1 := homeFault s a x
    let st := s1.statusAt a n
    if st ≠ .ok then respond (s1.readRecords (s1.homeOf a) a n (some k.ctx.toNat) 1) p k (statusOfLine st) 0 [] true
    else
      let old := s1.load a n
      let new := State.atomicNew (k.op.extractLsb' 0 4) (8 * n) old k.operand.toNat (leVal k.payload)
      respond ((s1.homeRange c a n 0 true).store a n new) p k St.ok (BitVec.ofNat 64 old) [] true

def performSig (s : State) (k : Packet) : State :=
  let a := k.addr.toNat
  respond (s.setObj a (s.obj a + k.operand)) (a / 16384) k St.ok 0 [] true

/-- A line leased to a near-memory unit, or a quiesced slice or stack, holds a remote access as it holds a local one (R281, R337).
[DEDUCED, log 63] -/
def pktLeased (s : State) (k : Packet) (n : Nat) : Bool := s.waitsAt k.addr.toNat n

/-- Permissions and length of a request. -/
def requestForm (k : Packet) : Nat × Perm :=
  if k.typ = Pk.rd then (k.len.toNat + 1, .rd)
  else if k.typ = Pk.atom then ((if k.op.getLsbD 4 then 4 else 8), .rw)
  else (k.payload.length, .wr)

/-- A request or message whose turn has come; `none` when it must wait for a lease to end. -/
def performPacket (s : State) (k : Packet) (x : LineFault) : Option State :=
  let (n, p) := requestForm k
  let c := k.ctx.toNat / 128
  if k.typ = Pk.cts ∨ k.typ = Pk.cdata then
    if s.fenced (c / 64 % 8) then some (rejectRequest s k 1)
    else if s.ctxId c ≠ k.ctx.toNat ∨ (s.ctxs.get? c).isNone = true ∨ s.ctxSt c = CtxSt.teardown then some (dropStale s k)
    else if (s.peerOf c k.src.toNat).isNone then some (rejectRequest s k 4)
    else if k.typ = Pk.cts then
      some (s.ctsTo c (bitsOf k.addr.toNat 18 16) ((k.src.toNat + 1) * 8 + bitsOf k.addr.toNat 21 19)
        (bitsOf k.addr.toNat 15 0))
    else
      let (s1, st) := landPacket s c k
      match st with
      | some v => some (respond s1 (bitsOf k.addr.toNat 18 16) k v 0 [] true)
      | none => some s1
  else match gate s k n p (k.typ == Pk.sig) with
    | .stale => some (dropStale s k)
    | .bound check => some (rejectRequest s k check)
    | .pass =>
      if k.typ = Pk.sig then some (performSig s k)
      else if pktLeased s k n then none
      else if k.typ = Pk.rd then some (performRd s k x)
      else if k.typ = Pk.wr then some (performWr s k)
      else some (performAtom s k x)

/-! ### Answers received (R202, R273, R370, R418, R428, R442) -/

/-- A load or atomic that ends with POISON or BOUND at a peer: the tile's partition records the address and the status (R207, R427).
[DEDUCED, log 33] -/
def peerEndRecord (s : State) (f : FabReq) (r : MemReq) (status : Nat) : State :=
  let reads := match r.kind with | .load => true | .atomic .. => true | _ => false
  if reads = false ∨ (status ≠ St.poison ∧ status ≠ St.bound) then s
  else
    let p := r.tile / 256
    s.record p
      { cls := if status = St.poison then 3 else 0x0B, sev := 1, device := false, part := p, ctx := some r.ctx, kind := 1,
        index := r.tile, addr := f.pkt.dst.toNat * 2 ^ 44 + r.addr, addrKind := 1,
        synd := if status = St.poison then 0 else status, step := 0, addrErr := false }

/-- A request ends at its requester with a status, and with what its answer carries. -/
def endRequest (s : State) (f : FabReq) (status : Nat) (operand : W64) (payload : List Byte) : State :=
  let s1 := s.dropReq f
  let good := status == St.ok
  match f.who with
  | .mem i =>
    match s1.reqs.get? i with
    | none => s1
    | some r =>
      let val := match r.kind with
        | .load => BitVec.ofNat 64 (leVal payload)
        | .atomic .. => operand
        | _ => 0
      (peerEndRecord s1 f r status).answer i r (if good then val else 0) (!good)
  | .dmaRead k addr =>
    match (s1.queue k).active.findIdx? fun a => a.d.addr == addr && a.status == 0 with
    | none => s1
    | some i =>
      -- a cancelled queue discards what its reads return, and still records an error (R372, R375)
      if (s1.queue k).st = .cancelling then (if good then s1 else s1.dmaEndRecord k status 0 addr)
      else if good then landBytes s1 k i payload
      else
        let s2 := match activeAt s1 k i with
          | some a => if status = St.poison then poisonDest s1 k a (f.pkt.len.toNat + 1) else s1
          | none => s1
        failActive s2 k i status false
  | .dmaWrite k addr =>
    match (s1.queue k).active.findIdx? fun a => a.d.addr == addr && a.acks != 0 with
    | none => s1
    | some i => match activeAt s1 k i with
      | none => s1
      | some a =>
        -- a descriptor that has ended, or runs again, still counts its acknowledgements (R371)
        let s2 := setActive s1 k i { a with acks := a.acks - 1 }
        if good = true ∨ a.status ≠ 0 then s2
        else if (s1.queue k).st = .cancelling then s2.dmaEndRecord k status 0 addr
        else failActive s2 k i status false
  | .dropped _ => s1
  | .signal => s1
  | .coll c p off =>
    let k := State.collKey c p
    if f.vc = 2 then ackMessage s1 c p status
    else if good then
      match (s1.collRing k).cur with
      | some m => if f.pkt.typ = Pk.rd then s1.setColl k { s1.collRing k with cur := some { m with parts := m.parts.set off payload } }
        else s1
      | none => s1
    else s1.haltColl c p status
  | .probe c => if status = St.timeout then s1 else s1.endDeferral c

/-- An answer of a peer: it names its request by source, channel and sequence number. -/
def takeAnswer (s : State) (k : Packet) : State :=
  let vc := if k.typ = Pk.cack then 2 else 0
  let seq := bitsOf k.addr.toNat 15 0
  match s.fab.out.find? fun f => f.pkt.dst == k.src && f.vc == vc && f.pkt.seq.toNat == seq && f.sent with
  | none => s
  | some f => endRequest s f (bitsOf k.addr.toNat 18 16) k.operand k.payload

/-! ### Sequence order (R418, R419) -/

/-- A request or message that has been performed without an answer: its duplicates get none either (R419, R427). -/
def noteSilent (s : State) (key : Nat) (k : Packet) : State :=
  match s.fab.answers with
  | r :: _ => if r.1 = key ∧ r.2.1 = k.seq.toNat then s
    else { s with fab := { s.fab with answers := ((key, k.seq.toNat, none) :: s.fab.answers).take answerCap } }
  | [] => { s with fab := { s.fab with answers := [(key, k.seq.toNat, none)] } }

/-- The packet is the next of its source and channel: it is performed, and the sequence moves on. No copy of it is left in the reorder
store. -/
def performNext (s : State) (key : Nat) (k : Packet) (x : LineFault) : Option State :=
  let go (s : State) : State :=
    { s with fab := { s.fab with recv := s.fab.recv.set key ((k.seq.toNat + 1) % 65536),
                                 reorder := s.fab.reorder.filter fun r => !(r.1 == key && r.2.seq == k.seq) } }
  if key % 4 = 1 then some (takeAnswer (go s) k)
  else (performPacket s k x).map fun s1 => go (if k.typ = Pk.cts then s1 else noteSilent s1 key k)

/-- A packet in its turn whose line is leased waits in the arbiter (R337). -/
def holdPacket (s : State) (k : Packet) (x : LineFault) : State := s.holdAt k.addr.toNat (requestForm k).1 (.packet k x)

/-- Packets of the reorder store whose turn has come. -/
def drainReorder : Nat → State → Nat → State
  | 0, s, _ => s
  | n + 1, s, key =>
    let exp := s.fab.recv.getD key 0
    match s.fab.reorder.find? fun r => r.1 == key && r.2.seq.toNat == exp with
    | none => s
    | some r =>
      let s0 := { s with fab := { s.fab with reorder := s.fab.reorder.filter (· != r) } }
      match performNext s0 key r.2 .none with
      | none => if pktLeased s r.2 (requestForm r.2).1 then holdPacket s0 r.2 .none else s
      | some s1 => drainReorder n s1 key

/-- A packet of channels 0 to 2 for this device. -/
def inOrder (s : State) (k : Packet) (x : LineFault) : State :=
  let key := k.src.toNat * 4 + channelOf k.typ.toNat
  let d := (k.seq.toNat + 65536 - s.fab.recv.getD key 0) % 65536
  if d = 0 then
    match performNext s key k x with
    | none => holdPacket s k x
    | some s1 => drainReorder reorderCap s1 key
  else if d < 32768 then
    if s.fab.reorder.any (fun r => r.1 == key && r.2.seq == k.seq) then s
    else if s.fab.reorder.length < reorderCap then
      { s with fab := { s.fab with reorder := s.fab.reorder ++ [(key, k)] } }
    else s.dropPacket
  else if key % 4 = 1 ∨ k.typ = Pk.cts then s
  else match s.fab.answers.find? fun r => r.1 == key && r.2.1 == k.seq.toNat with
    | some (_, _, some r) => s.sendPacket (s.homeOf k.addr.toNat) r
    | some (_, _, none) => s
    | none => respond s (s.homeOf k.addr.toNat) k St.timeout 0 [] false

/-! ### Resends (R419, R520, R542) -/

/-- A request ends with TIMEOUT: a FABRIC record of event 3 names the destination, and a tile's operation its address (R207), and the revival that follows is
deferred until the peer answers (R520). [DEDUCED, log 67] -/
def timeoutRequest (s : State) (f : FabReq) : State :=
  let d := f.pkt.dst.toNat
  let isProbe := match f.who with | .probe _ => true | _ => false
  if isProbe then endRequest s f St.timeout 0 []
  else
    let c := reqCtx s f
    let lost := s.fab.lost.contains d
    -- the TIMEOUT starts a revival when it halts a queue or a ring, and defers one unless the peer is lost (R663)
    let revives := c.isSome && (!lost || (match f.who with | .dmaRead .. => true | .dmaWrite .. => true | .coll .. => true | _ => false))
    let r := s.nameCtx (ErrRec.mk0 0x0A (if revives then 2 else 1) f.part 0x0A ((s.sendPort d f.part).getD 0)
      (3 + d * 2 ^ 8 + (s.sendPort d f.part).getD 0 * 2 ^ 20)) c
    let s1 := s.record f.part (match f.who with
      | .mem _ => if f.pkt.typ = Pk.sig then { r with addr := 2 ^ 29 + d * 2 ^ 17 + f.pkt.addr.toNat % 2 ^ 17, addrKind := 2 }
        else { r with addr := d * 2 ^ 44 + f.pkt.addr.toNat, addrKind := 1 }
      | _ => r)
    let cause := match f.who with | .dmaRead .. => 8 | .dmaWrite .. => 8 | .dropped _ => 8 | .coll .. => 9 | _ => 3
    let s2 := match c with
      | some x => if lost then s1 else s1.deferRevival x d cause
      | none => s1
    endRequest s2 f St.timeout 0 []

/-- TRANSPORT_RESEND_TIMEOUT: a packet has had no answer for rto; it is sent again, or its request ends. -/
def execTransportResendTimeout (dst : BitVec 12) (vc : BitVec 2) (seq : BitVec 16) (s : State) :
    Host.Outcome State Fault Refusal :=
  .next (match s.fab.out.find? fun f => f.pkt.dst == dst && f.vc == vc.toNat && f.pkt.seq == seq && f.sent with
    | none => s
    | some f =>
      if s.fab.lost.contains dst.toNat = true ∨ s.fld R.plCtl F.plCtl_retries ≤ f.tries then timeoutRequest s f
      else
        let out := s.fab.out.map fun g => if g = f then { g with tries := g.tries + 1 } else g
        ({ s with fab := { s.fab with out := out } }).sendPacket f.part f.pkt)

/-! ### Flits and the retry buffer (R412, R415, R416) -/

/-- Bits of the first 8 bytes of a flit (R415). -/
def flitBits (f : Flit) (hi lo : Nat) : Nat := bitsOf f.word.toNat hi lo

/-- The CRC-32 of a flit over its bytes 0x00 to 0xFB holds; an uncorrectable codeword makes it fail (R412, R415). -/
def flitGood (f : Flit) : Bool :=
  f.uncorrected == 0 && f.crc == BitVec.ofNat 32 (crc32 (leBytes 8 f.word.toNat ++ f.body))

/-- Types of the table "Packet types", answers among them (R417). -/
def knownTyp (t : Nat) : Bool :=
  (decide (1 ≤ t) && decide (t ≤ 8)) || (decide (0x10 ≤ t) && decide (t ≤ 0x12)) || (decide (0x20 ≤ t) && decide (t ≤ 0x26))

/-- The first flit of a packet of a reserved type: the packet is dropped (R417). -/
def reservedPacket (f : Flit) : Bool :=
  flitBits f 31 29 == 0 && f.word.getLsbD 27 && !(knownTyp (f.body.getD 3 0).toNat)

/-- What an acknowledgement and returned credits of a flit do to a link; a flit of a reserved kind carries none. -/
def takeAck (l : Link) (f : Flit) : Link :=
  if 4 ≤ flitBits f 31 29 then l
  else
    let retry := match f.word.getLsbD 24, l.retry.findIdx? (· == flitBits f 23 12) with
      | true, some i => l.retry.drop (i + 1)
      | _, _ => l.retry
    let vc := flitBits f 41 40
    { l with retry := retry, credits := l.credits.set vc (l.credits.getD vc 0 + flitBits f 39 32) }

/-- FLIT_RECEIVE: a flit that fails its CRC is discarded with all that follow until the resent one, which is asked for again when it
fails too. A packet is taken by the command of its type once its last flit has come. [DESIGN CHOICE, log 61] -/
def execFlitReceive (port : PortId) (f : Flit) (s : State) : Host.Outcome State Fault Refusal :=
  let k := port.val
  let l := s.link k
  if f.body.length ≠ 244 then .fault .illFormed
  else .next (if s.portUp k = false then s
  else
    let s0 := (s.bump (R.plPerr k) F.plPerr_fec_corr f.corrected.toNat).bump (R.plPerr k) F.plPerr_fec_uncorr f.uncorrected.toNat
    if flitGood f = false then
      if l.waiting = true ∧ flitBits f 11 0 ≠ l.rx then s0
      else (s0.setLink k { l with waiting := true }).emit (.retryRequest k l.rx)
    else if flitBits f 11 0 ≠ l.rx then s0
    else
      let s1 := s0.setLink k { takeAck l f with rx := (l.rx + 1) % 4096, waiting := false }
      let s2 := if reservedPacket f then s1.bump (R.plPerr k) F.plPerr_retries 1 else s1
      s2.drainLink l.queue.length k)

/-- RETRY_REQUEST: everything from the named flit is sent again. -/
def execRetryRequest (port : PortId) (seq : BitVec 12) (s : State) : Host.Outcome State Fault Refusal :=
  let k := port.val
  .next (match (s.link k).retry.findIdx? (· == seq.toNat) with
    | none => s
    | some i => (s.bump (R.plPerr k) F.plPerr_retries ((s.link k).retry.length - i)).emit (.resend k seq.toNat))

/-! ### Ports (R413, R414, R436, R443) -/

/-- Aligned groups of lanes by width code 3, 2, 1, 0. -/
def laneGroups (w : Nat) : List Nat :=
  if w = 3 then [0xFF] else if w = 2 then [0x0F, 0xF0] else if w = 1 then [0x03, 0x0C, 0x30, 0xC0]
  else (List.range 8).map (2 ^ ·)

/-- Widest width code not above the limit for which a group of good lanes trains. -/
def trainedWidth (good limit : Nat) : Option Nat :=
  [3, 2, 1, 0].find? fun w => decide (w ≤ limit) && (laneGroups w).any fun g => g &&& good == g

def setPortState (s : State) (k v : Nat) : State := s.setFld (R.plPstat k) F.plPstat_state v

/-- The port by which ticks come: the parent port while it is up, otherwise the alternate (R436). -/
def tickParent (s : State) : Option Nat :=
  [s.fld R.plTickctl F.plTickctl_parent, s.fld R.plTickctl F.plTickctl_alt_parent].find? fun k =>
    k != 0x1F && s.portUp k && !s.fab.departed.contains k

/-- PL.TICKSTAT.cut_off follows the two parent ports of a device that has a parent. -/
def showCutOff (s : State) : State :=
  let has := s.fld R.plTickctl F.plTickctl_parent != 0x1F || s.fld R.plTickctl F.plTickctl_alt_parent != 0x1F
  s.setFld R.plTickstat F.plTickstat_cut_off (bit (has && (tickParent s).isNone) 0)

/-- A port is down: its retry buffer is discarded and a record tells of it. -/
def portDown (s : State) (k : Nat) : State :=
  if s.ports ≤ k ∨ s.fld (R.plPstat k) F.plPstat_state ≤ 1 then s
  else
    let p := s.fld (R.plPctl k) F.plPctl_part
    let s1 := (setPortState (s.setLink k Link.reset) k 1).record p
      (ErrRec.mk0 0x0A 1 p 0x0A k (1 + s.fld (R.plPstat k) F.plPstat_nbr_dev * 2 ^ 8 + k * 2 ^ 20))
    let fab := { s1.fab with departed := s1.fab.departed.filter (· != k) }
    showCutOff { s1 with fab := fab, ticks := { s1.ticks with children := setBitsOf s1.ticks.children k k 0 } }

/-- HELLO names the device ID, whether it is set, and the port (R421). [DESIGN CHOICE, log 59] -/
def helloPacket (s : State) (k : Nat) : Packet :=
  { dst := 0, src := BitVec.ofNat 12 s.localDev, typ := Pk.hello, ctx := 0, seq := 0, addr := 0, len := 0, op := 0,
    operand := BitVec.ofNat 64 (s.fld R.plId F.plId_valid * 32 + k), payload := [] }

/-- Everything in the retry buffer of a port goes out again (R414, R416). -/
def resendAll (s : State) (k : Nat) : State :=
  match (s.link k).retry with
  | [] => s
  | x :: rest => (s.bump (R.plPerr k) F.plPerr_retries (rest.length + 1)).emit (.resend k x)

/-- PORT_TRAINING_DONE: the port comes up at the width of its good lanes and sends HELLO, or stays down. A port that
retrained first sends again the flits that were in flight. -/
def execPortTrainingDone (port : PortId) (lanes : BitVec 8) (s : State) : Host.Outcome State Fault Refusal :=
  let k := port.val
  let r := R.plPstat k
  let st := s.fld r F.plPstat_state
  .next (if s.ports ≤ k ∨ (st ≠ 2 ∧ st ≠ 4) then s
  else match trainedWidth lanes.toNat (s.fld (R.plPctl k) F.plPctl_width_max) with
    | none => setPortState ((portDown s k).setFld r F.plPstat_lanes_good 0) k 1
    | some w =>
      let p := s.fld (R.plPctl k) F.plPctl_part
      let s0 := s.setFld (R.plPctl k) F.plPctl_full_train 0
      let s1 := showCutOff (setPortState ((s0.setFld r F.plPstat_lanes_good lanes.toNat).setFld r F.plPstat_width w) k 3)
      let s2 := if st = 4 ∧ w ≠ s.fld r F.plPstat_width then
          s1.record p (ErrRec.mk0 0x0A 1 p 0x0A k (2 + s.fld r F.plPstat_nbr_dev * 2 ^ 8 + k * 2 ^ 20))
        else s1
      let s3 := if st = 4 then resendAll s2 k else s2
      s3.emitPacket k (helloPacket s3 k))

/-- Lanes of the group that carries a port's traffic (R413). -/
def activeLanes (good w : Nat) : Nat := ((laneGroups w).find? fun g => g &&& good == g).getD 0

/-- LANE_LOCK_LOSS: an active lane has lost lock for 10 µs; the port retrains and its flits are sent again. -/
def execLaneLockLoss (port : PortId) (lane : Fin 8) (s : State) : Host.Outcome State Fault Refusal :=
  let k := port.val
  let r := R.plPstat k
  .next (if s.fld r F.plPstat_state ≠ 3 ∨ s.ports ≤ k
      ∨ (activeLanes (s.fld r F.plPstat_lanes_good) (s.fld r F.plPstat_width)).testBit lane.val = false then s
  else
    let good := s.fld r F.plPstat_lanes_good
    setPortState (s.setFld r F.plPstat_lanes_good (setBitsOf good lane.val lane.val 0)) k 4)

def execPortDown (port : PortId) (s : State) : Host.Outcome State Fault Refusal := .next (portDown s port.val)

/-- PL.PCTLk cmd retrain: the port trains again from the start; an absent port ends with BOUND. -/
def execPortRetrain (path : RegPath) (port : PortId) (s : State) : Host.Outcome State Fault Refusal :=
  let k := port.val
  .next (if s.ports ≤ k then rejectReg s path (R.plPctl k) true none
  else setPortState (portDown s k) k 2)

/-- PL.PCTLk cmd take down. -/
def execPortTakeDown (path : RegPath) (port : PortId) (s : State) : Host.Outcome State Fault Refusal :=
  .next (if s.ports ≤ port.val then rejectReg s path (R.plPctl port.val) true none else portDown s port.val)

/-- A departing device takes its ports down once every answer it owes has been sent (R444). -/
def settleDepart (s : State) : State :=
  let waiting := s.held.any fun h => match h.2 with | .packet _ _ => true | _ => false
  if s.fab.departing = true ∧ s.fab.reorder.isEmpty = true ∧ waiting = false then ((List.range 24).filter s.portUp).foldl portDown s else s

/-! ### Packet commands -/

/-- A packet arrives on a port: it is forwarded, dropped, or taken in sequence order (R422). -/
def receive (s : State) (port : Nat) (k : Packet) (x : LineFault) : State :=
  if s.portUp port = false then s
  else if s.fabricOn = false then s.dropPacket
  else if k.dst.toNat ≠ s.localDev then
    match s.forwardPort k.dst.toNat k.src.toNat with
    | some q => s.emitPacket q k
    | none => s.dropPacket
  else settleDepart (inOrder s k x)

/-- A packet command: the packet has the type of its row. -/
def packetCmd (typ : Nat) (port : PortId) (k : Packet) (x : LineFault) (s : State) : Host.Outcome State Fault Refusal :=
  if k.fits typ then .next (receive s port.val { k with typ := BitVec.ofNat 8 typ } x) else .fault .illFormed

/-- RD: `x` is what the code of R304 finds at its first line. -/
def execRd (port : PortId) (k : Packet) (x : LineFault) (s : State) : Host.Outcome State Fault Refusal :=
  packetCmd 0x01 port k x s
def execRdRsp (port : PortId) (k : Packet) (s : State) : Host.Outcome State Fault Refusal := packetCmd 0x02 port k .none s
def execWr (port : PortId) (k : Packet) (s : State) : Host.Outcome State Fault Refusal := packetCmd 0x03 port k .none s
def execWrAck (port : PortId) (k : Packet) (s : State) : Host.Outcome State Fault Refusal := packetCmd 0x04 port k .none s
def execAtomPkt (port : PortId) (k : Packet) (x : LineFault) (s : State) : Host.Outcome State Fault Refusal :=
  packetCmd 0x05 port k x s
def execAtomRsp (port : PortId) (k : Packet) (s : State) : Host.Outcome State Fault Refusal := packetCmd 0x06 port k .none s
def execSig (port : PortId) (k : Packet) (s : State) : Host.Outcome State Fault Refusal := packetCmd 0x07 port k .none s
def execSigAck (port : PortId) (k : Packet) (s : State) : Host.Outcome State Fault Refusal := packetCmd 0x08 port k .none s
def execCts (port : PortId) (k : Packet) (s : State) : Host.Outcome State Fault Refusal := packetCmd 0x10 port k .none s
def execCdata (port : PortId) (k : Packet) (s : State) : Host.Outcome State Fault Refusal := packetCmd 0x11 port k .none s
def execCack (port : PortId) (k : Packet) (s : State) : Host.Outcome State Fault Refusal := packetCmd 0x12 port k .none s

/-! ### Neighbours and probes (R420, R421, R431, R444) -/

/-- HELLO: the neighbour's ID and port are recorded; two devices of one ID enable no transactions. -/
def execHello (port : PortId) (k : Packet) (s : State) : Host.Outcome State Fault Refusal :=
  let r := R.plPstat port.val
  if k.fits 0x25 = false then .fault .illFormed
  else .next (if s.portUp port.val = false then s
  else
    let s1 := (s.setFld r F.plPstat_nbr_dev k.src.toNat).setFld r F.plPstat_nbr_port (bitsOf k.operand.toNat 4 0)
    if s.fld R.plId F.plId_valid = 1 ∧ k.operand.getLsbD 5 = true ∧ k.src.toNat = s.localDev then
      let s2 := s1.setFld R.plCtl F.plCtl_enable 0
      { s2 with fab := { s2.fab with dupId := some s.localDev } }
    else s1)

/-- DEPART: the device reroutes around the neighbour; its port stays up until the neighbour takes it down. -/
def execDepart (port : PortId) (k : Packet) (s : State) : Host.Outcome State Fault Refusal :=
  if k.fits 0x26 = false then .fault .illFormed
  else .next (if s.portUp port.val = false ∨ s.hasId = false ∨ s.fab.departed.contains port.val = true then s
  else showCutOff { s with fab := { s.fab with departed := s.fab.departed ++ [port.val] } })

/-- A packet of channel 3 that carries only an operand. [DESIGN CHOICE, log 59] -/
def linkPacket (s : State) (typ : BitVec 8) (operand : W64) (payload : List Byte) : Packet :=
  { dst := 0, src := BitVec.ofNat 12 s.localDev, typ := typ, ctx := 0, seq := 0, addr := 0,
    len := BitVec.ofNat 12 (payload.length - 1), op := 0, operand := operand, payload := payload }

/-- PROBE_TIMER: every 10 ms a PROBE leaves on the parent port. -/
def execProbeTimer (s : State) : Host.Outcome State Fault Refusal :=
  .next (match tickParent s with
    | none => s
    | some k => ({ s with ticks := { s.ticks with probing := true } }).emitPacket k (linkPacket s Pk.probe 0 []))

/-- PROBE: answered with the turnaround time; the port leads to a child of the tick tree. -/
def execProbe (port : PortId) (k : Packet) (turnaround : BitVec 32) (s : State) : Host.Outcome State Fault Refusal :=
  let i := port.val
  if k.fits 0x23 = false then .fault .illFormed
  else .next (if s.portUp i = false then s
  else ({ s with ticks := { s.ticks with children := setBitsOf s.ticks.children i i 1 } }).emitPacket i
    (linkPacket s Pk.probeRsp (turnaround.setWidth 64) []))

/-- PROBE_RSP: the latency is half of the round trip less the turnaround. `rtt` is the measured round trip in ns. -/
def execProbeRsp (port : PortId) (k : Packet) (rtt : BitVec 32) (s : State) : Host.Outcome State Fault Refusal :=
  let i := port.val
  if k.fits 0x24 = false then .fault .illFormed
  else .next (if s.portUp i = false ∨ s.ticks.probing = false ∨ tickParent s ≠ some i then s
  else
    let lat := min 2047 ((rtt.toNat - k.operand.toNat) / 2)
    ({ s with ticks := { s.ticks with probing := false } }).setFld (R.plPstat i) F.plPstat_latency lat)

end Sys2Proof.Machine
end

