-- ==== Sys2Proof/Machine/Mgmt.lean ====
section
/-! DEFINITION. Management commands: paths, scopes, items and responses, and the commands that change settings or read
them out (R14 to R17, R76, R114, R152, R268, R318, R348, R379, R410, R446, R488, R511, R545, R559 to R565). -/

namespace Sys2Proof.Machine

/-! ### Responses (R559, R560) -/

/-- Bytes put in the mailbox buffer, by 8-byte words. -/
def mailboxBase : Nat := 0x0E001000

def putMailbox (s : State) (bs : List Byte) : State :=
  (List.range (ceilDiv bs.length 8)).foldl (fun s i =>
    s.setReg (mailboxBase + 8 * i) (BitVec.ofNat 64 (leVal ((bs.drop (8 * i)).take 8)))) s

/-- The response to a command: on the mailbox it goes into the buffer, done is set and vector 512 sent. [DEDUCED, log 17] -/
def reply (s : State) (code : Nat) (c : Cmd) (status : Nat) (payload : List Byte) : State :=
  let head := code + c.scope.kind.toNat * 2 ^ 16 + c.scope.index.toNat * 2 ^ 24 + c.tag.toNat * 2 ^ 48
  let s1 := s.emit (.response c.tag.toNat status payload)
  match c.path with
  | .tray => s1
  | .host =>
    let msg := leBytes 8 head ++ leBytes 8 (status + payload.length * 2 ^ 16) ++ payload
    (((putMailbox s1 msg).setFld R.mgtMbstat F.mgtMbstat_busy 0).setFld R.mgtMbstat F.mgtMbstat_done 1).emit (.msix 512)

/-- Paths on which the table "Command codes" allows a command. -/
inductive Paths where
  | both | hostOnly | trayOnly
deriving DecidableEq, Repr

def Paths.allow : Paths → Path → Bool
  | .both, _ => true
  | .hostOnly, .host => true
  | .trayOnly, .tray => true
  | _, _ => false

/-- A command: refused on a wrong path, after a level 3 alarm unless it only reports, and before the device is ready but for
GetInventory and GetFirmwareStatus (R473, R563, R595, R606). `f` gives the status, the payload of the response and the
state. [DESIGN CHOICE, log 64; DEDUCED, log 65] -/
def mgmt (code : Nat) (paths : Paths) (reports : Bool) (c : Cmd) (s : State) (f : State → Nat × List Byte × State) : State :=
  if paths.allow c.path = false ∨ (s.board.restricted = true ∧ reports = false)
      ∨ (s.fld R.bootStatus F.bootStatus_ready = 0 ∧ code ≠ 0x0001 ∧ code ≠ 0x0004) then reply s code c St.bound []
  else
    let (status, payload, s1) := f s
    reply s1 code c status payload

/-! ### Scopes -/

/-- Scope kinds of R560. -/
def scopePart (c : Cmd) : Option Nat :=
  if c.scope.kind = 1 ∧ c.scope.index.toNat < 8 then some c.scope.index.toNat else none

def scopeTile (c : Cmd) : Option Nat :=
  if c.scope.kind = 2 ∧ c.scope.index.toNat < 2048 then some c.scope.index.toNat else none

def scopeCtx (c : Cmd) : Option Nat :=
  if c.scope.kind = 3 ∧ c.scope.index.toNat < 512 then some c.scope.index.toNat else none

def scopePort (s : State) (c : Cmd) : Option Nat :=
  if c.scope.kind = 4 ∧ c.scope.index.toNat < s.ports then some c.scope.index.toNat else none

/-- The register belongs to the scoped unit, or to a unit within it. -/
def inScope (s : State) (c : Cmd) (b : Nat) (idx : List Nat) : Bool :=
  let i := idxAt idx 0
  let x := c.scope.index.toNat
  let port := b == R.plPctl 0
  match c.scope.kind.toNat with
  | 0 => true
  | 1 => regPart b idx == some x || (port && s.fld (R.plPctl i) F.plPctl_part == x)
  | 2 => decide (0x08000000 ≤ b) && decide (b < 0x09000000) && i == x
  | 3 => decide (0x02000000 ≤ b) && decide (b < 0x03000000) && i == x
  | 4 => port && i == x
  | 5 => stackReg b && i * 4 + idxAt idx 1 == x
  | _ => false

/-! ### Items (R561) -/

/-- A setting of a command: register, field and the values of its basic range. -/
structure Setting where
  base : Nat
  f : Fld
  lo : Nat
  hi : Nat
deriving DecidableEq, Repr

def Item.reg (i : Item) : Nat := i.offset.toNat
def Item.top (i : Item) : Nat := i.low.toNat + i.width.toNat
def Item.mask (i : Item) : W64 := BitVec.ofNat 64 ((2 ^ (Item.width i).toNat * 2 - 1) * 2 ^ (Item.low i).toNat)

/-- An item names a setting of the command in its scope, with a value of the basic range (R14). [DESIGN CHOICE, log 64] -/
def itemOk (s : State) (c : Cmd) (tab : List Setting) (i : Item) : Bool :=
  match RegTab.find (Item.reg i) with
  | none => false
  | some (d, idx) =>
    !(absentUnit s d.base idx) && inScope s c d.base idx
      && tab.any fun x => x.base == d.base && x.f.lo == i.low.toNat && x.f.hi == Item.top i
        && decide (x.lo ≤ i.value.toNat) && decide (i.value.toNat ≤ x.hi)

/-- Value and mask that the items of a command give each register. -/
def gatherItems (l : List Item) : SMap (W64 × W64) :=
  l.foldl (fun m i =>
    let (k, x) := m.getD (Item.reg i) (0, 0)
    m.set (Item.reg i) (k ||| Item.mask i, (x &&& ~~~Item.mask i) ||| ((i.value <<< i.low.toNat) &&& Item.mask i))) SMap.empty

/-- The registers as the items would leave them are acceptable. -/
def regOk (s : State) (off : Nat) (m x : W64) : Bool :=
  match RegTab.find off with
  | none => false
  | some (d, idx) =>
    let old := s.reg off
    !(d.fields.any (fieldBad (written s off x m) m)) && !(valueBad s .item d.base idx old ((old &&& ~~~m) ||| x))

def applyItem (s : State) (off : Nat) (m x : W64) : State :=
  match RegTab.find off with
  | none => s
  | some (d, idx) => afterWrite (applyFields s off d x m) d.base idx x m

/-- The fields that a write set, and the level that set them (R17); a field with a shadow copy once it applies (R16).
[DESIGN CHOICE, log 18] -/
def markLevel (s : State) (off level : Nat) (m : W64) : State :=
  match RegTab.find off with
  | none => s
  | some (d, _) =>
    let put (p : Acc → Bool) (b : SMap Nat) : SMap Nat := d.fields.foldl (fun b f =>
      if m.getLsbD f.lo = true ∧ p f.acc = true then b.set (off * 64 + f.lo) level else b) b
    { s with board := { s.board with setBy := put (· == .rw) s.board.setBy, setNext := put (· == .rws) s.board.setNext } }

/-- Every item of a command applied together, or none (R561). `extra` is a further condition on the whole. -/
def applyItems (s : State) (c : Cmd) (tab : List Setting) (l : List Item) (extra : SMap (W64 × W64) → Bool) :
    Nat × List Byte × State :=
  let g := gatherItems l
  match l.find? fun i => !(itemOk s c tab i) with
  | some i => (St.bound, [], rejectReg s .item (Item.reg i) true ((RegTab.find (Item.reg i)).bind fun d => regPart d.1.base d.2))
  | none =>
    match g.rows.find? fun r => !(regOk s r.1 r.2.1 r.2.2) with
    | some r => (St.bound, [], rejectReg s .item r.1 true ((RegTab.find r.1).bind fun d => regPart d.1.base d.2))
    | none =>
      if extra g = false then (St.bound, [], s)
      else (St.ok, [], g.rows.foldl (fun s r => markLevel (applyItem s r.1 r.2.1 r.2.2) r.1 1 r.2.1) s)

/-- A command that only carries settings. -/
def settings (code : Nat) (paths : Paths) (tab : List Setting) (c : Cmd) (l : List Item) (s : State) :
    Host.Outcome State Fault Refusal :=
  .next (mgmt code paths false c s fun s => applyItems s c tab l fun _ => true)

def execSetStepPolicy (c : Cmd) (items : List Item) (s : State) : Host.Outcome State Fault Refusal :=
  settings 0x0101 .both [⟨R.tileStepctl 0, F.tileStepctl_hang_periods, 1, 15⟩] c items s

def execSetArraySmoothing (c : Cmd) (items : List Item) (s : State) : Host.Outcome State Fault Refusal :=
  settings 0x0103 .both
    [⟨R.mxaSmooth 0, F.mxaSmooth_fill_max, 16, 256⟩, ⟨R.mxaSmooth 0, F.mxaSmooth_ramp_down, 64, 4096⟩,
     ⟨R.mxaSmooth 0, F.mxaSmooth_ramp_up, 16, 256⟩] c items s

def execSetKvPolicy (c : Cmd) (items : List Item) (s : State) : Host.Outcome State Fault Refusal :=
  settings 0x0201 .both [⟨R.partKvctl 0, F.partKvctl_cold_wm, 0, 50⟩] c items s

/-- The far shares of the partitions of one logical partition, as the items would leave them, sum to 16 or less (R289). -/
def farSumOk (s : State) (g : SMap (W64 × W64)) : Bool :=
  let share (p : Nat) : Nat := match g.get? (R.capFarctl p) with
    | some (_, x) => x.toNat
    | none => s.fld (R.capFarctl p) F.capFarctl_share
  (List.range 8).all fun p =>
    (g.get? (R.capFarctl p)).isNone || decide (((s.members p).map share).sum ≤ 16)

def execSetMemoryPolicy (c : Cmd) (items : List Item) (s : State) : Host.Outcome State Fault Refusal :=
  .next (mgmt 0x0202 .both false c s fun s => applyItems s c
    [⟨R.scaCtl 0, F.scaCtl_remote_max, 0, 4⟩, ⟨R.capFarctl 0, F.capFarctl_share, 1, 15⟩,
     ⟨R.capOrphan 0, F.capOrphan_reserve, 0, 8⟩] items (farSumOk s))

def execSetScrubPolicy (c : Cmd) (items : List Item) (s : State) : Host.Outcome State Fault Refusal :=
  settings 0x0203 .both [⟨R.capScrub 0, F.capScrub_period, 1, 168⟩] c items s

def execSetNearMemoryPolicy (c : Cmd) (items : List Item) (s : State) : Host.Outcome State Fault Refusal :=
  settings 0x0206 .both [⟨R.cruCtl 0 0, F.cruCtl_quantum, 50, 350⟩, ⟨R.cruCtl 0 0, F.cruCtl_lease_max, 100, 1000⟩] c items s

def execSetBulkPolicy (c : Cmd) (items : List Item) (s : State) : Host.Outcome State Fault Refusal :=
  settings 0x0207 .both
    [⟨R.bulkCtl 0, F.bulkCtl_mode, 0, 1⟩, ⟨R.bulkQctl 0 0, F.bulkQctl_rd, 1, 100⟩, ⟨R.bulkQctl 0 0, F.bulkQctl_wr, 1, 100⟩,
     ⟨R.bulkQctl 0 0, F.bulkQctl_rm, 1, 100⟩] c items s

def execSetPortPolicy (c : Cmd) (items : List Item) (s : State) : Host.Outcome State Fault Refusal :=
  settings 0x0305 .both
    [⟨R.plPctl 0, F.plPctl_width_max, 0, 3⟩, ⟨R.plPctl 0, F.plPctl_reach, 0, 1⟩, ⟨R.plPctl 0, F.plPctl_full_train, 0, 1⟩]
    c items s

/-- D, C and L of R434 for a tree whose largest one-way latency, in ns at 99% load with two retries, is `lat`. -/
def tickTimes (lat : Nat) : Nat × Nat × Nat :=
  let d := ceilDiv (lat + 1000) 1000
  let c := ceilDiv (d * 1000 + lat + 1000) 1000
  let l := ceilDiv (c * 1000 + lat + 1000) 1000
  (d, c, l)

def setTickTimes (s : State) (lat : Nat) : State :=
  let (d, c, l) := tickTimes lat
  let r := R.plTickctl
  ((s.setFld r F.plTickctl_decide d).setFld r F.plTickctl_check c).setFld r F.plTickctl_lead l

/-- SET_TICK_ROLES: role and parent ports; D, C and L are written again for the new tree, whose largest latency the sender
gives in ns (R434, R446). -/
def execSetTickRoles (c : Cmd) (items : List Item) (lat : BitVec 22) (s : State) : Host.Outcome State Fault Refusal :=
  .next (mgmt 0x0306 .both false c s fun s =>
    let port (f : Fld) (g : SMap (W64 × W64)) : Bool := match g.get? R.plTickctl with
      | some (m, x) => !(m.getLsbD f.lo) || decide (bitsOf x.toNat f.hi f.lo < 24) || bitsOf x.toNat f.hi f.lo == 31
      | none => true
    let (st, pl, s1) := applyItems s c
      [⟨R.plTickctl, F.plTickctl_role, 0, 2⟩, ⟨R.plTickctl, F.plTickctl_parent, 0, 31⟩,
       ⟨R.plTickctl, F.plTickctl_alt_parent, 0, 31⟩] items
      fun g => port F.plTickctl_parent g && port F.plTickctl_alt_parent g
    (st, pl, if st = St.ok then setTickTimes s1 lat.toNat else s1))

def execSetTickPolicy (c : Cmd) (items : List Item) (s : State) : Host.Outcome State Fault Refusal :=
  settings 0x0307 .both [⟨R.plTickctl, F.plTickctl_slip_q, 1, 1000⟩] c items s

def execSetFabricPolicy (c : Cmd) (items : List Item) (s : State) : Host.Outcome State Fault Refusal :=
  settings 0x0308 .both [⟨R.plCtl, F.plCtl_rto, 10, 10000⟩, ⟨R.plCtl, F.plCtl_retries, 1, 15⟩] c items s

def execSetContextShare (c : Cmd) (items : List Item) (s : State) : Host.Outcome State Fault Refusal :=
  settings 0x040B .hostOnly [⟨R.ctxShare 0, F.ctxShare_share, 1, 64⟩, ⟨R.ctxShare 0, F.ctxShare_cap, 0, 1⟩] c items s

/-- SET_TICK_PERIOD: a period of which C takes more than 0.15 is rejected (R434, R488). -/
def execSetTickPeriod (c : Cmd) (items : List Item) (s : State) : Host.Outcome State Fault Refusal :=
  .next (mgmt 0x0501 .both false c s fun s =>
    applyItems s c [⟨R.devTickper, F.devTickper_period, 2000, 400000000⟩] items fun g =>
      match g.get? R.devTickper with
      | some (_, x) => decide (s.fld R.plTickctl F.plTickctl_check * 2000 ≤ 3 * bitsOf x.toNat 28 0)
      | none => true)

def execSetJournal (c : Cmd) (items : List Item) (s : State) : Host.Outcome State Fault Refusal :=
  settings 0x0502 .both
    [⟨R.partJbase 0, F.partJbase_size, 20, 36⟩, ⟨R.partJbase 0, F.partJbase_base, 0, 0xFFFFFF⟩,
     ⟨R.partJstat 0, F.partJstat_policy, 0, 1⟩] c items s

def execSetErrorPolicy (c : Cmd) (items : List Item) (s : State) : Host.Outcome State Fault Refusal :=
  settings 0x0505 .both
    [⟨R.errBase 0, F.errBase_size, 16, 30⟩, ⟨R.errBase 0, F.errBase_base, 0, 0xFFFFFFF⟩, ⟨R.errCtl 0, F.errCtl_eng_to, 1, 255⟩,
     ⟨R.errCtl 0, F.errCtl_alert_min, 1, 5⟩, ⟨R.errThresh 0, F.errThresh_region_ue, 1, 255⟩,
     ⟨R.errThresh 0, F.errThresh_window, 1, 168⟩, ⟨R.errThresh 0, F.errThresh_bank_ue, 1, 255⟩,
     ⟨R.errThresh 0, F.errThresh_row_ue, 1, 255⟩, ⟨R.errThresh 0, F.errThresh_row_ce, 1, 255⟩] c items s

/-- SET_RECOVERY_POLICY: the interval and the loss limit are registers; the partner is kept with the scoped context. -/
def execSetRecoveryPolicy (c : Cmd) (items : List Item) (partner : Option (BitVec 12)) (s : State) :
    Host.Outcome State Fault Refusal :=
  .next (mgmt 0x0509 .both false c s fun s =>
    match partner, scopeCtx c with
    | none, _ =>
      applyItems s c [⟨R.partRecovctl 0, F.partRecovctl_rp_interval, 1, 65535⟩,
        ⟨R.partRecovctl 0, F.partRecovctl_loss_limit, 100, 6000⟩] items fun _ => true
    | some d, some k =>
      if (s.ctxs.get? k).isNone = true ∨ items ≠ [] then (St.bound, [], s)
      else (St.ok, [], s.updCtx k fun x => { x with partner := some d.toNat })
    | some _, none => (St.bound, [], s))

/-! ### Array tests and the interconnect test (R114, R117, R404, R410) -/

/-- RUN_ARRAY_TEST: scheduled for the next partition reset, on the tiles of the scope. -/
def execRunArrayTest (c : Cmd) (pattern : BitVec 4) (s : State) : Host.Outcome State Fault Refusal :=
  .next (mgmt 0x0102 .both false c s fun s =>
    let tiles := match c.scope.kind.toNat with
      | 0 => List.range 2048
      | 1 => (List.range 256).map (c.scope.index.toNat * 256 + ·)
      | 2 => [c.scope.index.toNat]
      | _ => []
    let there := tiles.filter fun t => decide (t < 2048) && decide (t % 256 < s.part.tilesPerPart)
    if pattern.toNat > 2 ∨ there = [] then (St.bound, [], s)
    else
      let old := s.board.arrayTests.filter fun x => !there.contains x.1
      (St.ok, [], { s with board := { s.board with arrayTests := old ++ there.map fun t => (t, pattern.toNat) } }))

/-- RUN_INTERCONNECT_TEST: the next chip reset trains in full and runs the test. -/
def execRunInterconnectTest (c : Cmd) (s : State) : Host.Outcome State Fault Refusal :=
  .next (mgmt 0x0302 .both false c s fun s => 
    (St.ok, [], markLevel (s.setFld R.bootCtl F.bootCtl_full_next 1) R.bootCtl 1 1))

/-! ### Reports (R17, R152, R408, R565, R573) -/

def asciiBytes (x : List Char) : List Byte := x.map fun ch => BitVec.ofNat 8 ch.toNat

/-- Ordering code of R2, padded with zeros to 24 bytes. -/
def orderingCode (p : Part) : List Byte :=
  let t := if p.grade = 0 then "2048" else if p.grade = 1 then "1920" else "1792"
  let a := if p.assembly = 0 then "32X2" else if p.assembly = 1 then "24X2" else "16X1"
  let l := asciiBytes ("MY9-T" ++ t ++ "-S" ++ a).toList
  l ++ List.replicate (24 - l.length) 0

/-- Versions of the firmware components: active and staged. -/
def firmwareEntry (s : State) (k : Nat) : List Byte :=
  let f := s.board.flash
  let b := f.bank.getD k 0
  leBytes 8 (f.version.getD (k * 2 + b) 0).toNat ++ leBytes 8 (f.staged.getD k 0).toNat

/-- Settings whose value differs from the basic-level default, as items with the level that set them (R17).
[DESIGN CHOICE, log 18] -/
def overrideEntries (s : State) : List (List Byte) :=
  s.board.setBy.rows.filterMap fun r =>
    let off := r.1 / 64
    match RegTab.find off with
    | none => none
    | some (d, _) => match d.fields.find? fun f => f.lo == r.1 % 64 with
      | none => none
      | some f =>
        let v := bitsOf (s.reg off).toNat f.hi f.lo
        if v = bitsOf (resetReg s.part off).toNat f.hi f.lo then none
        else some (leBytes 4 off ++ leBytes 1 f.lo ++ leBytes 1 (f.hi - f.lo) ++ leBytes 1 0 ++ leBytes 1 r.2 ++ leBytes 8 v)

def digest (bs : List Byte) : List Byte := sha384 bs

/-- Secure contexts in load order: ID, digest of the code window, digest of the record (R568). -/
def secureList (s : State) : List (List Byte) :=
  let l := s.ctxs.rows.filter fun x => x.2.secure && s.ctxSt x.1 != CtxSt.free && s.ctxSt x.1 != CtxSt.loading
  (l.mergeSort fun a b => decide (a.2.loadNo ≤ b.2.loadNo)).map fun x =>
    let code := match x.2.windows.get? 0 with
      | some w => s.bytesAt w.base (w.limit + 1 - w.base)
      | none => []
    leBytes 2 (s.ctxId x.1) ++ digest code ++ digest x.2.record

/-- What R317, R605 and R657 add to the entries of R565: the start kind with full training at this start, whether another module
reports the same slot, the retired regions, and the disabled units. [DESIGN CHOICE, log 66] -/
def noticeEntries (s : State) : List (List Byte) :=
  (leBytes 8 (s.reg R.bootStatus).toNat
      ++ leBytes 8 (bit s.board.trainedFull 0 + 2 * s.fld R.mgtPins F.mgtPins_slot_dup))
    :: ((s.holes.map fun r => leBytes 8 (r * 0x200000) ++ leBytes 8 9)
      ++ (s.offEngines.map fun e => leBytes 8 e.1 ++ leBytes 8 (e.2.1 + e.2.2 * 2 ^ 8)))

/-- GET_INVENTORY: the header of R565, then the entries: ports with their widths, firmware versions, package map status,
overrides, and the secure-context list. [DESIGN CHOICE, log 66] -/
def inventory (s : State) : List Byte :=
  let ports := (List.range s.ports).map fun k =>
    leBytes 8 k ++ leBytes 8 (s.fld (R.plPstat k) F.plPstat_width + 4 * s.fld (R.plPstat k) F.plPstat_state
      + 32 * bit (s.fab.dupId == some s.localDev) 0)
  let fw := [1, 2, 3, 4].map (firmwareEntry s)
  let mapSt := leBytes 8 (bit s.board.flash.mapValid 0) ++ leBytes 8 s.board.flash.mapSeq
  let entries := ports ++ fw ++ [mapSt] ++ overrideEntries s ++ noticeEntries s
  orderingCode s.part ++ leBytes 8 (s.reg R.devVariant).toNat ++ leBytes 8 (s.reg R.devStacks).toNat
    ++ leBytes 8 (s.reg R.plId).toNat ++ leBytes 8 Config.serialNumber.toNat ++ leBytes 8 entries.length
    ++ (entries ++ secureList s).flatten

def execGetInventory (c : Cmd) (s : State) : Host.Outcome State Fault Refusal :=
  .next (mgmt 0x0001 .both true c s fun s => (St.ok, (inventory s).take 4080, s))

/-- GET_ARITH_COUNTERS: VXU.RESIDUE and VXU.SPECIAL of the tiles of the scope, ascending. The command leaves VXU.RESIDUE as it is, its
RC field too. [DESIGN CHOICE, log 64 and 142] -/
def execGetArithCounters (c : Cmd) (s : State) : Host.Outcome State Fault Refusal :=
  .next (mgmt 0x0104 .both true c s fun s =>
    let tiles := match c.scope.kind.toNat with
      | 0 => List.range 2048
      | 1 => (List.range 256).map (c.scope.index.toNat * 256 + ·)
      | 2 => [c.scope.index.toNat]
      | _ => []
    let there := tiles.filter fun t => decide (t < 2048) && decide (t % 256 < s.part.tilesPerPart)
    if there = [] then (St.bound, [], s)
    else (St.ok, ((there.take 255).flatMap fun t =>
      leBytes 8 (s.reg (R.vxuResidue t)).toNat ++ leBytes 8 (s.reg (R.vxuSpecial t)).toNat), s))

/-- A package map record of 32 bytes (R408). -/
def mapRecord (r : MapRec) : List Byte :=
  let b := leBytes 8 (r.typ + r.src * 2 ^ 8) ++ leBytes 8 r.a ++ leBytes 8 r.b
  b ++ leBytes 8 (crc32 b)

/-- A copy of the package map: header and records (R408). -/
def mapBytes (s : State) (c : MapCopy) : List Byte :=
  let h := leBytes 8 (1 + c.seq * 2 ^ 32) ++ leBytes 8 c.recs.length ++ leBytes 8 Config.serialNumber.toNat
    ++ leBytes 8 ((s.reg R.devVariant).toNat % 256) ++ List.replicate 24 0
  h ++ leBytes 8 (crc32 h) ++ c.recs.flatMap mapRecord

/-- The check of a header or record over the bytes before it (R408). -/
def checkOk (bs : List Byte) : Bool := leVal ((bs.drop (bs.length - 8)).take 8) == crc32 (bs.take (bs.length - 8))

/-- The header check and every record check of a copy pass (R406). -/
def checksPass (bs : List Byte) : Bool :=
  checkOk (bs.take 64) && (List.range ((bs.length - 64) / 32)).all fun i => checkOk ((bs.drop (64 + 32 * i)).take 32)

/-- The package map in force. -/
def packageMap (s : State) : List Byte := mapBytes s { s.board.flash.governing with recs := s.board.flash.mapRecs }

def execGetPackageMap (c : Cmd) (s : State) : Host.Outcome State Fault Refusal :=
  .next (mgmt 0x0301 .both true c s fun s => (St.ok, (packageMap s).take 4080, s))

def execGetFirmwareStatus (c : Cmd) (s : State) : Host.Outcome State Fault Refusal :=
  .next (mgmt 0x0004 .both true c s fun s =>
    (St.ok, leBytes 8 (s.reg R.mgtFwstat).toNat ++ ([1, 2, 3, 4].map (firmwareEntry s)).flatten, s))

/-! ### Fabric commands (R420, R424, R444, R542) -/

/-- SET_FABRIC_IDENTITY: the device ID; refused while transactions are enabled. -/
def execSetFabricIdentity (c : Cmd) (device : BitVec 12) (s : State) : Host.Outcome State Fault Refusal :=
  .next (mgmt 0x0303 .both false c s fun s =>
    if s.fld R.plCtl F.plCtl_enable = 1 then (St.bound, [], rejectReg s .item R.plId true none)
    else (St.ok, [], markLevel ((s.setFld R.plId F.plId_device device.toNat).setFld R.plId F.plId_valid 1) R.plId 1
      (BitVec.allOnes 64)))

/-- SET_FABRIC_TOPOLOGY: the routing image at an address, 4,096 PL.RTd values and then PL.TICKCTL; `lat` is the largest
latency of the tree for R434. -/
def execSetFabricTopology (c : Cmd) (addr : BitVec 44) (lat : BitVec 22) (s : State) : Host.Outcome State Fault Refusal :=
  .next (mgmt 0x0304 .both false c s fun s =>
    let a := addr.toNat
    let img (i : Nat) : Nat := s.load (a + 8 * i) 8
    let clean := (List.range 4096).all fun d => bitsOf (img d) 62 56 == 0
    -- roles, parents and the slip quantum; D, C and L are derived for the new tree (R434)
    let m : W64 := BitVec.ofNat 64 (2 ^ 64 - 2 ^ 36)
    let ctl := BitVec.ofNat 64 (img 4096) &&& m
    if s.statusAt a (8 * 4097) ≠ .ok then (St.poison, [], s)
    else if clean = false ∨ regOk s R.plTickctl m ctl = false then (St.bound, [], rejectReg s .item R.plTickctl true none)
    else
      let all : W64 := BitVec.allOnes 64
      let put (off : Nat) (m x : W64) (s : State) : State := markLevel (applyItem s off m x) off 1 m
      let s1 := (List.range 4096).foldl (fun s d => put (R.plRt d) all (BitVec.ofNat 64 (img d)) s) s
      (St.ok, [], setTickTimes (put R.plTickctl m ctl s1) lat.toNat))

/-- DEPART_DEVICE: the contexts are held, and every neighbour receives DEPART; the ports go down once no answer is owed. -/
def execDepartDevice (c : Cmd) (s : State) : Host.Outcome State Fault Refusal :=
  .next (mgmt 0x0309 .both false c s fun s =>
    let s1 := s.ctxs.keys.foldl (fun s k => s.hold k .depart) s
    let up := (List.range 24).filter s1.portUp
    let s2 := up.foldl (fun s k => s.emitLink k (linkPacket s Pk.depart 0 [])) s1
    (St.ok, [], settleDepart { s2 with fab := { s2.fab with departing := true } }))

/-- DECLARE_DEVICE_LOST: requests to the device end with TIMEOUT, deferred revivals end, and every context that names the
device is held. [DEDUCED, log 67] -/
def execDeclareDeviceLost (c : Cmd) (device : BitVec 12) (s : State) : Host.Outcome State Fault Refusal :=
  .next (mgmt 0x030A .both false c s fun s =>
    let d := device.toNat
    let s1 := { s with fab := { s.fab with lost := (d :: s.fab.lost).dedup } }
    let s2 := (s1.fab.out.filter fun f => f.pkt.dst.toNat == d).foldl timeoutRequest s1
    let named := s2.ctxs.keys.filter fun k => (s2.peerOf k d).isSome
    let s3 := named.foldl (fun s k =>
      (s.updCtx k fun x =>
        -- a recovery point that the lost partner has not completed is given up (R544)
        let point := if x.partner = some d then { x with partner := none, recPoint := none } else x
        { point with deferred := if x.deferred = some d then none else x.deferred }).hold k .peerLost) s2
    (St.ok, [], s3.recordAll (ErrRec.mk0 0x14 5 0 0x0C 0 (d + 2 * 2 ^ 12))))

/-! ### Grouping and ports (R449, R451) -/

/-- A new logical partition size of partition `p`; it takes effect at the next reset of its members. `none` unless every member of
the old and the new grouping is free of contexts (R449). -/
def regroup (s : State) (p size : Nat) : Option State :=
  let aligned (q k : Nat) : List Nat := (List.range (2 ^ k)).map (q / 2 ^ k * 2 ^ k + ·)
  let fresh := aligned p size
  -- the groups as they will be after the changes that wait
  let planned (q : Nat) : List Nat := aligned q (s.board.groupNext.getD q (s.fld (R.partGroup q) F.partGroup_size))
  let touched := (fresh ++ fresh.flatMap s.members ++ fresh.flatMap planned).dedup
  if touched.any (fun q => !(partFree s q)) then none
  else
    -- members of a group that loses one fall back to single partitions
    let left := touched.filter fun q => !fresh.contains q && (planned q).any fresh.contains
    let g1 := fresh.foldl (fun m q => m.set q size) s.board.groupNext
    some { s with board := { s.board with groupNext := left.foldl (fun m q => m.set q 0) g1 } }

/-- SET_PARTITION_GROUPS: the logical partition size of the scoped partition. -/
def execSetPartitionGroups (c : Cmd) (size : BitVec 2) (s : State) : Host.Outcome State Fault Refusal :=
  .next (mgmt 0x0401 .hostOnly false c s fun s =>
    match (scopePart c).bind fun p => (regroup s p size.toNat).map fun t => (p, t) with
    | none => (St.bound, [], s)
    | some (p, t) => (St.ok, [], markLevel t (R.partGroup p) 1 3))

/-- SET_PORT_OWNER: the port is taken down, given to the partition, and trained again. -/
def execSetPortOwner (c : Cmd) (part : Fin 8) (s : State) : Host.Outcome State Fault Refusal :=
  .next (mgmt 0x0402 .hostOnly false c s fun s =>
    match scopePort s c with
    | none => (St.bound, [], s)
    | some k =>
      let old := s.fld (R.plPctl k) F.plPctl_part
      let others := (List.range s.ports).filter fun j =>
        j != k && (s.members old).contains (s.fld (R.plPctl j) F.plPctl_part)
      if s.ports = 12 ∧ others = [] ∧ old ≠ part.val then (St.bound, [], s)
      else
        let s1 := setPortState ((portDown s k).setFld (R.plPctl k) F.plPctl_part part.val) k 2
        (St.ok, [], { s1 with board := { s1.board with setBy := s1.board.setBy.set (R.plPctl k * 64 + F.plPctl_part.lo) 1 } }))

end Sys2Proof.Machine
end

