-- ==== Sys2Proof/Machine/Memory.lean ====
section
/-! DEFINITION. Upkeep of the memories: clears by generation, scrub passes, retirement and repair, and changes of cache
ways (R283 to R286, R295, R297, R309 to R317). -/

namespace Sys2Proof.Machine

/-! ### Clears (R310, R311) -/

/-- Region `r` lies in the private or near capacity range of partition `p`. -/
def regionOf (s : State) (p r : Nat) : Bool :=
  match s.region (r * 0x200000) with
  | .slice q _ => q == p
  | .capacity n => n / 4 == p
  | _ => false

/-- A scrub pass starts in a region: the generation at its start is kept (R312). -/
def startScrub (s : State) (r : Nat) : State :=
  if s.board.scrubs.has r then s
  else { s with board := { s.board with scrubs := s.board.scrubs.set r ((s.gen r).1, false) } }

/-- An urgent pass, counted at the region's partition. -/
def urgentScrub (s : State) (r : Nat) : State :=
  if s.board.scrubs.has r then s
  else (startScrub s r).bump (R.capScrub (s.homeOf (r * 0x200000))) F.capScrub_urgent 1

/-- Generation and floor of a region, in the base die and, for a capacity region, in its stack's mirror (R309, R327). -/
def setGen (s : State) (r g f : Nat) : State :=
  { s with gens := s.gens.set r (g, f),
           mirror := match s.region (r * 0x200000) with
             | .capacity _ => s.mirror.set r (g, f)
             | _ => s.mirror }

/-- A clear that the generations allow: the mirror and then the region's generation increase; at a gap of 12 the scrubber starts
on its own. -/
def acceptClear (s : State) (r : Nat) : State :=
  let (g, f) := s.gen r
  let g' := (g + 1) % 16
  let scrubs := match s.board.scrubs.get? r with
    | some (g0, _) => s.board.scrubs.set r (g0, true)
    | none => s.board.scrubs
  let board := { s.board with scrubs := scrubs, unclean := s.board.unclean.filter fun x => x.1 / 32 != r }
  let s1 := { setGen s r g' f with genBad := s.genBad.filter (· != r), board := board }
  if (g' + 16 - f) % 16 ≥ 12 then urgentScrub s1 r else s1

def canClear (s : State) (r : Nat) : Bool := ((s.gen r).1 + 1) % 16 != (s.gen r).2

/-- A running unit that leases a line of the region, beside those in `past` and the one whose boundary is being performed (R334). -/
def regionHolder (s : State) (r : Nat) (past : List Nat) : Option Nat :=
  match s.region (r * 0x200000) with
  | .capacity n =>
    let g := (r * 0x200000 - capBase n) / 0x20000
    ((List.range 32).map (n * 32 + ·)).find? fun k =>
      !past.contains k && !(s.unit k).pass && (s.unit k).leases.vals.any fun l => decide (l.1 < g + 16) && decide (g < l.1 + l.2)
  | _ => none

/-- A unit leases a line of the region. -/
def regionLeased (s : State) (r : Nat) : Bool := (regionHolder s r []).isSome

/-- A host-side access that no one line's arbiter holds waits in that of a unit. -/
def holdIn (s : State) (k : Nat) (x : HeldAccess) : State :=
  if s.held.contains (k, x) then s else { s with held := s.held ++ [(k, x)] }

/-- CAP.GENSTAT.scrub_wait: a clear of the partition waits for a scrub pass (R321). -/
def showWait (s : State) (p : Nat) : State :=
  s.setFld (R.capGenstat p) F.capGenstat_scrub_wait
    (bit (s.board.clearWait.any fun e => e.1 == p && !(canClear s e.2.1)) 0)

/-- One clear: accepted, or waiting for a scrub pass, or to a boundary of each unit that leases lines of the region, those in `past`
being behind it (R311, R340); the regions of a request are cleared in order. [DESIGN CHOICE, log 70; DEDUCED, log 50] -/
def tryClear (past : List Nat) (s : State) (e : Nat × Nat × Bool) : State :=
  let (p, r, request) := e
  let behind := request && s.board.clearWait.any fun x => x.1 == p && x.2.2
  let waits (s : State) : State := { s with board := { s.board with clearWait := s.board.clearWait ++ [e] } }
  if behind then waits s
  else if canClear s r = false then waits (urgentScrub s r)
  else if let some k := regionHolder s r past then holdIn (waits s) k (.clear p r request past)
  else if request then
    (acceptClear s r).setFld (R.capGenstat p) F.capGenstat_done (s.fld (R.capGenstat p) F.capGenstat_done + 1)
  else acceptClear s r

/-- Clears of a partition tried in order; a request whose last region is cleared ends. -/
def runClears (s : State) (p : Nat) (l : List (Nat × Nat × Bool)) : State :=
  let s1 := showWait (l.foldl (tryClear []) s) p
  let r := R.capGenstat p
  if s1.fld r F.capGenstat_busy = 1 ∧ (s1.board.clearWait.any fun e => e.1 == p && e.2.2) = false then
    (s1.setFld r F.capGenstat_busy 0).setFld r F.capGenstat_result 1
  else s1

/-- A request to clear `n` regions from `r` on: `none` when it is rejected. [DEDUCED, log 20] -/
def genClear (s : State) (p r n : Nat) : Option State :=
  if s.fld (R.capGenstat p) F.capGenstat_busy = 1 ∨ ((List.range n).all fun i => regionOf s p (r + i)) = false then none
  else
    let s1 := ((s.setFld (R.capGenstat p) F.capGenstat_done 0).setFld (R.capGenstat p) F.capGenstat_result 0).setFld
      (R.capGenstat p) F.capGenstat_busy 1
    some (runClears s1 p ((List.range n).map fun i => (p, r + i, true)))

def execClearMemory (c : Cmd) (region : BitVec 23) (count : BitVec 16) (s : State) : Host.Outcome State Fault Refusal :=
  .next (mgmt 0x0204 .both false c s fun s =>
    match scopePart c with
    | none => (St.bound, [], s)
    | some p => match genClear s p region.toNat (count.toNat + 1) with
      | none => (St.bound, [], s.setFld (R.capGenstat p) F.capGenstat_result 2)
      | some s1 => (St.ok, [], s1))

/-- The clears of a partition that wait are tried again. -/
def retryClears (s : State) (p : Nat) : State :=
  let mine := s.board.clearWait.filter (·.1 == p)
  if mine = [] then s
  else runClears { s with board := { s.board with clearWait := s.board.clearWait.filter (·.1 != p) } } p mine

/-- A clear that has waited to a boundary of a unit: it waits for the next unit that leases lines of its region, or is tried again. -/
def clearHeld (s : State) (p r : Nat) (request : Bool) (past : List Nat) : State :=
  if s.board.clearWait.contains (p, r, request) = false then s
  else if let some k := regionHolder s r past then holdIn s k (.clear p r request past)
  else
    let left := s.board.clearWait.erase (p, r, request)
    runClears (tryClear past { s with board := { s.board with clearWait := left.filter (·.1 != p) } } (p, r, request)) p
      (left.filter (·.1 == p))

/-- CLEAR_ACCEPT: the clears that wait in a partition are accepted once the floor has moved or the lease has ended. -/
def execClearAccept (p : PartId) (s : State) : Host.Outcome State Fault Refusal := .next (retryClears s p.val)

/-- A region cleared by firmware; one that must wait does so beside the requests of its partition. -/
def clearRegion (s : State) (r : Nat) : State :=
  let p := s.homeOf (r * 0x200000)
  runClears s p [(p, r, false)]

/-- A window may open to context `c`: no clear of a region that it covers waits, and no block of it holds what another context left in
a region not cleared since (R314). [DEDUCED, log 78] -/
def clearedFor (s : State) (c : Nat) (x : Window) : Bool :=
  !x.here || ((s.board.clearWait.all fun e => !(overlaps x.base x.limit (e.2.1 * 0x200000) (e.2.1 * 0x200000 + 0x1FFFFF)))
    && s.board.unclean.all fun b => b.2 == c || !(overlaps x.base x.limit (b.1 * 0x10000) (b.1 * 0x10000 + 0xFFFF)))

/-! ### Scrub (R312) -/

/-- The lines of a region as a pass leaves them: a stale line is rewritten as zeros with the generation in force, one that no entry
lists as well as a listed one. [DESIGN CHOICE, log 70] -/
def scrubLines (s : State) (r : Nat) : State :=
  let g := (s.gen r).1
  let inRegion (l : Nat) : Bool := l / 32768 == r
  let old (l : Nat) : Bool := inRegion l && !(s.lineMeta l).ue && s.stale l
  { s with mem := s.mem.filter fun c => !old (c.1 / 64),
           lines := s.lines.mapKV fun l m => if old l then LineMeta.good g else m,
           baseGens := s.baseGens.set r g }

/-- What the decoder meets at a line that a pass reads from DRAM. -/
def scrubRead (s : State) (a : Nat) : LineFault → State
  | .symbols errs => s.readWord (a / 64) (s.changedWord (a / 64) errs) fun s1 => s1.bumpEcc a false
  | .stored errs => s.readWord (a / 64) (s.changedStored (a / 64) errs) fun s1 => s1.bumpEcc a false
  | .genTable => homeFault s a .genTable
  | _ => s

/-- Lines of a region that have a state of their own: the others read as good. -/
def scrubbed (s : State) (r : Nat) : List Nat :=
  if s.genBad.contains r then (List.range 32768).map (r * 32768 + ·) else s.lines.keys.filter fun l => l / 32768 == r

/-- A patrol pass begins; it skips a region of which a unit leases lines (R340). -/
def execPatrolScrubStart (r : BitVec 23) (s : State) : Host.Outcome State Fault Refusal :=
  .next (if s.isDram (r.toNat * 0x200000) = true ∧ regionLeased s r.toNat = false then startScrub s r.toNat else s)

/-- An urgent pass of a region: a clear waits for it, or the gap of its generations asks for it (R311). -/
def urgentPass (s : State) (r : Nat) : Bool :=
  !canClear s r || decide (12 ≤ ((s.gen r).1 + 16 - (s.gen r).2) % 16)

/-- The end of a pass of a region: a patrol pass of a leased region comes back after the lease ends, and the accesses of an urgent one
wait to a boundary of each unit that leases lines there (R340). -/
def endPass (s : State) (x : PassEnd) (past : List Nat) : State :=
  let i := x.region.toNat
  match s.board.scrubs.get? i with
    | none => s
    | some (g0, cleared) =>
      if let some k := regionHolder s i past then (if urgentPass s i then holdIn s k (.scrub x past) else s)
      else
        let p := s.homeOf (i * 0x200000)
        let s0 := x.met.foldl (fun s y => scrubRead s (i * 0x200000 + 64 * y.1.toNat) y.2) s
        let s1 := (scrubbed s0 i).foldl (fun s l => s.readRecords p (64 * l) 64 none 1) s0
        let s2 := if s1.genBad.contains i then s1 else scrubLines s1 i
        let s3 := { s2 with board := { s2.board with scrubs := s2.board.scrubs.erase i } }
        let (g, f) := s3.gen i
        if cleared then (if (g + 16 - f) % 16 ≥ 12 ∨ canClear s3 i = false then urgentScrub s3 i else s3)
        else setGen s3 i g g0

/-- SCRUB_PASS_END: every line has been read, the stale ones are rewritten, and the floor moves to the generation of the start when
no clear was accepted meanwhile; otherwise an urgent pass may follow (R307, R312, R340). [DESIGN CHOICE, log 24 and 70] -/
def execScrubPassEnd (x : PassEnd) (s : State) : Host.Outcome State Fault Refusal := .next (endPass s x [])

/-! ### Retirement and repair (R283, R316, R317) -/

/-- A 2 MiB region becomes a hole; the package map records it once its contents have moved (R316, R409). -/
def retireRegion (s : State) (r : Nat) : State :=
  let u := s.memUnit (r * 0x200000)
  recordRegion { s with holes := (r :: s.holes).dedup } r u.1 u.2

/-- Repair or retirement of a unit of the table "DRAM repair units"; a stack is retired once its contents have moved (R316). -/
def retireUnit (s : State) : RetireUnit → Option State
  | .sliceRow p i layer bank row =>
    let pos := s.posOfIndex p.val i.val
    some (spareSliceRow s p.val i.val
      (MapRec.field 6 (p.val + pos * 2 ^ 16 + layer.toNat * 2 ^ 32 + bank.toNat * 2 ^ 40) row.toNat))
  | .sliceBank p i => some (failSlice s p.val i.val (s.posOfIndex p.val i.val))
  | .capRow n pc g b row =>
    if s.stackOn n.val = false then none
    else some ((repairCapRow s (MapRec.field 0 (n.val + pc.val * 2 ^ 8 + g.toNat * 2 ^ 16 + b.toNat * 2 ^ 24)
      row.toNat)).getD (failStack s n.val))
  | .capBank n pc g b =>
    if s.stackOn n.val = false then none
    else some ((remapCapBank s (n.val + pc.val * 2 ^ 8 + g.toNat * 2 ^ 16 + b.toNat * 2 ^ 24)).getD (failStack s n.val))
  | .capStack n => if s.stackOn n.val then some (failStack s n.val) else none
  | .region r => if s.isDram (r.toNat * 0x200000) then some (retireRegion s r.toNat) else none

/-- RETIRE_MEMORY: the driver applies the actions of the table early. -/
def execRetireMemory (c : Cmd) (u : RetireUnit) (s : State) : Host.Outcome State Fault Refusal :=
  .next (mgmt 0x0205 .both false c s fun s => match retireUnit s u with
    | none => (St.bound, [], s)
    | some s1 => (St.ok, [], s1))

/-- A write of CAP.RETIRE. -/
def capRetire (s : State) (path : RegPath) (p op r : Nat) : State :=
  if op ≠ 1 ∨ regionOf s p r = false then rejectReg s path (R.capRetire p) true (some p) else retireRegion s r

def execRegionRetire (path : RegPath) (p : PartId) (op : BitVec 2) (r : BitVec 23) (s : State) :
    Host.Outcome State Fault Refusal :=
  .next (capRetire s path p.val op.toNat r.toNat)

/-! ### Cache ways (R294 to R297) -/

/-- WAY_WRITEBACK_DONE: the lines of the way have been written back and invalidated; the change applies at the next tick (R297,
R301). -/
def execWayWritebackDone (p : PartId) (w : WayEnd) (s : State) : Host.Outcome State Fault Refusal :=
  let i := p.val * 16 + w.way.val
  .next (if s.board.wayWait.contains i then
    let s1 := s.flushWay p.val w.way.val (w.bad.map BitVec.toNat)
    { s1 with board := { s1.board with wayWait := s1.board.wayWait.filter (· != i), wayReady := s1.board.wayReady ++ [i] } }
  else s)

/-- A scratch way reads as zero (R295). -/
def zeroScratch (s : State) (p w : Nat) : State :=
  let a := scratchBase p + w * 0x1000000
  let s1 := s.clearRange a 0x1000000
  { s1 with lines := s1.lines.keep fun l _ => !(decide (a / 64 ≤ l) && decide (l < a / 64 + 0x40000)) }

/-- The register is an SCA.WAYw. -/
def isWay (off : Nat) : Bool := match RegTab.find off with | some (d, _) => d.base == R.scaWay 0 0 | none => false

/-- A way takes a kind and an owner; a new scratch way reads as zero (R295). -/
def setWay (s : State) (p w kind ctx : Nat) : State :=
  let r := R.scaWay p w
  let s1 := (s.setFld r F.scaWay_kind kind).setFld r F.scaWay_ctx ctx
  if kind = 2 then zeroScratch s1 p w else s1

/-- Way changes whose write-back is done take effect at a tick. -/
def applyWays (s : State) : State :=
  s.board.wayReady.foldl (fun s i =>
    let off := R.scaWay (i / 16) (i % 16)
    let old := s.fld off F.scaWay_kind
    let s1 := s.applyShadow off
    let s2 := { s1 with board := { s1.board with wayReady := s1.board.wayReady.filter (· != i) } }
    if s2.fld off F.scaWay_kind = 2 ∧ (old ≠ 2 ∨ s.fld off F.scaWay_ctx ≠ s2.fld off F.scaWay_ctx) then
      zeroScratch (s2.trimKeep (i / 16)) (i / 16) (i % 16)
    else s2.trimKeep (i / 16)) s

/-- Remote lines beyond a limit that has fallen leave their sets (R298). -/
def trimAll (s : State) : State := (List.range 8).foldl State.trimRemote s

/-- Shadowed settings take effect together, with what a change of them does at once (R37, R99, R297). -/
def applySettings (s : State) (p : Nat → Bool) : State := switchAllSmoothing s (trimAll (s.applyShadows p))

end Sys2Proof.Machine
end

