-- ==== Sys2Proof/Machine/MlKem.lean ====
section
/-! DEFINITION. ML-KEM-1024 key generation and decapsulation (FIPS 203), under which model keys travel (R13, R562). -/

namespace Sys2Proof.Machine

namespace MlKem

def q : Nat := 3329
/-- Rank of the module. -/
def k : Nat := 4

/-- Even and odd coefficients each have 128 values, at the odd powers of 17. -/
def halves (f : List Nat) : List Nat × List Nat :=
  ((List.range 128).map fun i => f.getD (2 * i) 0, (List.range 128).map fun i => f.getD (2 * i + 1) 0)

def interleave (x : List Nat × List Nat) : List Nat := (x.1.zip x.2).flatMap fun p => [p.1, p.2]

def ntt (f : List Nat) : List Nat :=
  let h := halves f
  interleave (Poly.ntt q 17 7 h.1, Poly.ntt q 17 7 h.2)

def unNtt (f : List Nat) : List Nat :=
  let h := halves f
  interleave (Poly.unNtt q 17 7 3303 h.1, Poly.unNtt q 17 7 3303 h.2)

/-- The product, pair by pair modulo X^2 minus the pair's root. -/
def mul (a b : List Nat) : List Nat :=
  let x := halves a
  let y := halves b
  let at' (l : List Nat) (i : Nat) : Nat := l.getD i 0
  (List.range 128).flatMap fun i =>
    let g := Poly.power q 17 (2 * Poly.bitRev 7 i + 1)
    [(at' x.1 i * at' y.1 i + at' x.2 i * at' y.2 i * g) % q, (at' x.1 i * at' y.2 i + at' x.2 i * at' y.1 i) % q]

def zero : List Nat := List.replicate 256 0

def dot (a b : List (List Nat)) : List Nat := (List.zipWith mul a b).foldl (Poly.add q) zero

/-- Coefficients below q from a stream of bytes, two candidates in three bytes. -/
def candidates : List Byte → List Nat
  | a :: b :: c :: rest => [a.toNat + 256 * (b.toNat % 16), b.toNat / 16 + 16 * c.toNat] ++ candidates rest
  | _ => []

/-- A polynomial drawn from a seed of 34 bytes. The stream is cut at 20 blocks, as FIPS 203 lets an implementation bound it. -/
def sampleNtt (seed : List Byte) : List Nat := (((candidates (shake128 seed 3360)).filter fun x => decide (x < q)) ++ zero).take 256

/-- Row i, column j of the matrix of a public seed. -/
def entry (rho : List Byte) (i j : Nat) : List Nat := sampleNtt (rho ++ [BitVec.ofNat 8 j, BitVec.ofNat 8 i])

/-- A polynomial with coefficients from minus 2 to 2, from 128 bytes. -/
def cbd (bs : List Byte) : List Nat :=
  (Poly.unpack 4 256 bs).map fun n => (n % 2 + n / 2 % 2 + q - n / 4 % 2 - n / 8 % 2) % q

def noise (seed : List Byte) (n : Nat) : List Nat := cbd (shake256 (seed ++ [BitVec.ofNat 8 n]) 128)

/-- x times 2^d / q, and y times q / 2^d, to the nearest. -/
def compress (d x : Nat) : Nat := (x * 2 ^ (d + 1) + q) / (2 * q) % 2 ^ d
def decompress (d y : Nat) : Nat := (y * q * 2 + 2 ^ d) / 2 ^ (d + 1)

def ranks : List Nat := List.range k

/-- `k` polynomials of 12-bit coefficients. -/
def decode12 (bs : List Byte) : List (List Nat) := ranks.map fun i => (Poly.unpack 12 256 (Poly.part 384 i bs)).map (· % q)

/-- Encryption key of 1,568 bytes and decryption key of 1,536 bytes from a seed. -/
def pkeKeys (d : List Byte) : List Byte × List Byte :=
  let g := sha3x512 (d ++ [BitVec.ofNat 8 k])
  let rho := g.take 32
  let s := ranks.map fun i => ntt (noise (g.drop 32) i)
  let e := ranks.map fun i => ntt (noise (g.drop 32) (k + i))
  let t := ranks.map fun i => Poly.add q (dot (ranks.map (entry rho i)) s) (e.getD i zero)
  (t.flatMap (Poly.pack 12) ++ rho, s.flatMap (Poly.pack 12))

/-- The ciphertext of 1,568 bytes of a message of 32 bytes. -/
def encrypt (ek m r : List Byte) : List Byte :=
  let t := decode12 ek
  let rho := ek.drop 1536
  let y := ranks.map fun i => ntt (noise r i)
  let u := ranks.map fun i => Poly.add q (unNtt (dot (ranks.map fun j => entry rho j i) y)) (noise r (k + i))
  let mu := (Poly.unpack 1 256 m).map (decompress 1)
  let v := Poly.add q (Poly.add q (unNtt (dot t y)) (noise r (2 * k))) mu
  (u.flatMap fun f => Poly.pack 11 (f.map (compress 11))) ++ Poly.pack 5 (v.map (compress 5))

/-- The message of a ciphertext. -/
def decrypt (dk c : List Byte) : List Byte :=
  let u := ranks.map fun i => (Poly.unpack 11 256 (Poly.part 352 i c)).map (decompress 11)
  let v := (Poly.unpack 5 256 (c.drop 1408)).map (decompress 5)
  let w := Poly.sub q v (unNtt (dot (decode12 dk) (u.map ntt)))
  Poly.pack 1 (w.map (compress 1))

/-- The encapsulation key of a pair drawn as the seed d. -/
def encapsulationKey (d : List Byte) : List Byte := (pkeKeys d).1

/-- The shared secret of 32 bytes that the pair of the seeds d and z decapsulates. A ciphertext that the message does not give
again yields a secret of z alone. -/
def decapsulate (d z c : List Byte) : List Byte :=
  let keys := pkeKeys d
  let m := decrypt keys.2 c
  let g := sha3x512 (m ++ sha3x256 keys.1)
  if encrypt keys.1 m (g.drop 32) = c then g.take 32 else shake256 (z ++ c) 32

end MlKem

end Sys2Proof.Machine
end

