-- ==== Sys2Proof/Machine/Journal.lean ====
section
/-! DEFINITION. The journal (R498 to R503, R512): records, their place in the ring of each member partition, and the commit
of the record of a step. -/

namespace Sys2Proof.Machine

/-! ### The ring (R498, R503) -/

def jSize (s : State) (p : Nat) : Nat := 2 ^ s.fld (R.partJbase p) F.partJbase_size
def jBase (s : State) (p : Nat) : Nat := s.fld (R.partJbase p) F.partJbase_base * 0x100000
def jHead (s : State) (p : Nat) : Nat := (s.reg (R.partJhead p)).toNat
def jTail (s : State) (p : Nat) : Nat := (s.reg (R.partJtail p)).toNat

/-- Bytes of a pad record needed before `n` bytes at position `h` of a ring of `size` bytes. -/
def padLen (size h n : Nat) : Nat := if h % size + n ≤ size then 0 else size - h % size

/-- Bytes of the ring not yet consumed that lie beyond its size. -/
def overrun (s : State) (p h : Nat) : Nat := h - (jTail s p + jSize s p)

/-- A record with its CRC-32 in bytes 0x0F8 to 0x0FB. -/
def sealRecord (head : List Byte) : List Byte := head ++ leBytes 8 (crc32 head)

/-- A pad record of `n` bytes; one shorter than a header is cut. -/
def padRecord (n : Nat) : List Byte :=
  let h := sealRecord (leBytes 8 (1 + 0xF * 2 ^ 16 + n * 2 ^ 32) ++ List.replicate 0xF0 0)
  (h ++ List.replicate (n - 256) 0).take n

/-- A record written from position `h` on, after a pad record where it does not fit before the end; the position behind it.
[DEDUCED, log 72] -/
def layRecord (s : State) (p h : Nat) (bs : List Byte) : State × Nat :=
  let size := jSize s p
  let pad := padLen size h bs.length
  let s1 := if pad = 0 then s else s.writeBytes (jBase s p + h % size) (padRecord pad)
  (s1.writeBytes (jBase s p + (h + pad) % size) bs, h + pad + bs.length)

/-- Records of partition `p` that have been appended and not committed, by context. -/
def pendingRecords (s : State) (p : Nat) : List (List Byte) :=
  s.ctxs.vals.filterMap fun x => x.appended.bind fun m => m.get? p

/-- The uncommitted records laid behind the head. [DEDUCED, log 72] -/
def layPending (s : State) (p : Nat) : State :=
  ((pendingRecords s p).foldl (fun sh bs => layRecord sh.1 p sh.2 bs) (s, jHead s p)).1

/-- JOURNAL record of a partition (R513). -/
def journalRecord (s : State) (p synd : Nat) : State := s.record p (ErrRec.mk0 0x13 1 p 0x0B 0 synd)

/-- A record becomes part of the journal of partition `p`: JHEAD advances over it, and under the wrap policy the bytes
overwritten are counted. [DEDUCED, log 72] -/
def commitAt (s : State) (p : Nat) (bs : List Byte) : State :=
  let h := jHead s p
  let (s1, h1) := layRecord s p h bs
  let s2 := s1.setReg (R.partJhead p) (BitVec.ofNat 64 h1)
  let n := overrun s p h1 - overrun s p h
  if n = 0 then s2 else journalRecord (s2.bump (R.partJstat p) F.partJstat_lost n) p 2

/-- Room for `n` further bytes behind the head and the records pending there; always under the wrap policy. -/
def journalRoom (s : State) (p n : Nat) : Bool :=
  s.fld (R.partJstat p) F.partJstat_policy == 1
    || (let behind := (pendingRecords s p).foldl (fun h bs => h + padLen (jSize s p) h bs.length + bs.length) (jHead s p)
        decide (behind + padLen (jSize s p) behind n + n ≤ jTail s p + jSize s p))

/-! ### Records (R499) -/

/-- Code image of a context: the bytes of window 0. -/
def codeImage (s : State) (x : Ctx) : List Byte :=
  match x.windows.get? 0 with
  | some w => s.bytesAt w.base (w.limit + 1 - w.base)
  | none => []

/-- Batch entries among admission entries (R500). -/
def batchOf (entries : List (List Byte)) : List (List Byte) :=
  entries.filter fun e => (e.getD 1 0).getLsbD 0

/-- A record of context `c` for the ring of partition `p`. -/
def stepRecord (s : State) (c p kind : Nat) (x : Ctx) (step : Nat) (entries : List (List Byte)) (advanced stalled : Nat)
    (tail : List Byte) : List Byte :=
  let (i, _) := s.draw
  let ver (k : Nat) : List Byte := leBytes 8 (s.board.flash.version.getD (k * 2 + s.board.flash.bank.getD k 0) 0).toNat
  let chain := match kind, x.lastRecord.get? p with
    | 2, _ => List.replicate 48 0
    | _, some r => digest r
    | _, none => List.replicate 48 0
  let revs := s.fld (R.ctxRevive c) F.ctxRevive_this_step
  let head := leBytes 8 (1 + kind * 2 ^ 16 + (256 + 64 * entries.length) * 2 ^ 32) ++ leBytes 8 step
    ++ leBytes 8 (s.ctxId c + x.mask * 2 ^ 16 + p * 2 ^ 24 + s.localDev * 2 ^ 32) ++ leBytes 8 x.seed.toNat
    ++ leBytes 8 (entries.length + advanced * 2 ^ 32 + stalled * 2 ^ 48) ++ leBytes 8 x.firstPeriod
    ++ digest (batchOf entries).flatten ++ chain ++ ver 1 ++ ver 2 ++ ver 3 ++ ver 4
    ++ leBytes 8 (1 + (Config.configSeq i).toNat * 2 ^ 32) ++ leBytes 8 (Config.compilerVersion (codeImage s x)).toNat
    ++ leBytes 8 (x.slips + revs * 2 ^ 32) ++ leBytes 8 x.firstTick ++ tail ++ List.replicate (40 - tail.length) 0
  sealRecord head ++ entries.flatten

/-- A record of every member partition of a context. -/
def memberRecords (s : State) (c kind : Nat) (x : Ctx) (step : Nat) (entries : List (List Byte)) (advanced stalled : Nat)
    (tail : List Byte) : SMap (List Byte) :=
  (s.ctxParts c).foldl (fun m p => m.set p (stepRecord s c p kind x step entries advanced stalled tail)) SMap.empty

/-- Records of a context committed in every member's ring, and kept for the chain hash; what other contexts have appended
moves behind them. -/
def commitRecords (s : State) (c : Nat) (rs : SMap (List Byte)) : State :=
  let s1 := rs.rows.foldl (fun s r => commitAt s r.1 r.2) s
  let s2 := s1.updCtx c fun x => { x with lastRecord := rs, appended := none }
  rs.keys.foldl layPending (s2.draw).2

/-- The context-start and context-end records (R499). [DEDUCED, log 72] -/
def startRecord (s : State) (c : Nat) : State :=
  match s.ctxs.get? c with
  | none => s
  | some x => commitRecords s c (memberRecords s c 2 x x.startStep.toNat [] 0 0 ((digest (codeImage s x)).take 40))

/-- [DEDUCED, log 72] -/
def endRecord (s : State) (c : Nat) : State :=
  match s.ctxs.get? c with
  | none => s
  | some x => commitRecords s c (memberRecords s c 3 x (s.stepOf c).toNat [] 0 0 [])

/-- Plan of the uncommitted step of a context. -/
def planOf (s : State) (c : Nat) (x : Ctx) : StepPlan :=
  match x.planner.plans.get? ((s.stepOf c).toNat % 2) with
  | some q => if q.step = s.stepOf c then q else ⟨s.stepOf c, [], [], 0, 0, [], []⟩
  | none => ⟨s.stepOf c, [], [], 0, 0, [], []⟩

def setPlan (x : Ctx) (q : StepPlan) : Ctx :=
  { x with planner := { x.planner with plans := x.planner.plans.set (q.step.toNat % 2) q } }

/-- STEP_RECORD_APPEND: at the end of a step, with every tile of the context in STEPWAIT, the record is appended; `tokens` are
the tokens the step has produced, with their sequences and positions (R502, R555). -/
def execStepRecordAppend (c : CtxId) (tokens : List (BitVec 24 × BitVec 32 × BitVec 23)) (s : State) :
    Host.Outcome State Fault Refusal :=
  let k := c.val
  .next (match s.ctxs.get? k with
  | none => s
  | some x =>
    if s.ctxSt k ≠ CtxSt.running ∨ s.reviving k = true ∨ x.appended.isSome = true
        ∨ (s.ctxTiles k).all (fun t => (s.tile t).st == .stepwait) = false then s
    else
      let q := planOf s k x
      let toks := tokens.map fun t =>
        State.completionBytes St.ok 0 0 t.1.toNat (s.stepOf k) t.2.1.toNat t.2.2.toNat
      let x1 := setPlan x { q with completions := q.completions ++ toks }
      let rs := memberRecords s k 1 x1 (s.stepOf k).toNat q.entries q.advanced q.stalled []
      let s1 := (s.draw).2.setCtx k { x1 with appended := some rs }
      rs.keys.foldl layPending s1)

/-! ### Holds for want of room (R503, R556) -/

/-- PART.JSTAT follows the contexts held for journal room. -/
def showHeld (s : State) (p : Nat) : State :=
  let n := ((s.ctxsOn p).filter fun c => match s.ctxs.get? c with
    | some x => x.holds.contains .journal
    | none => false).length
  (s.setFld (R.partJstat p) F.partJstat_held n).setFld (R.partJstat p) F.partJstat_full (bit (n != 0) 0)

/-- A context is held until its journal rings have room. -/
def holdJournal (s : State) (c : Nat) : State :=
  let was := match s.ctxs.get? c with | some x => x.holds.contains .journal | none => true
  let s1 := (s.ctxParts c).foldl showHeld (s.hold c .journal)
  if was then s1 else (s.ctxParts c).foldl (fun s p => journalRecord s p 1) s1

/-- Holds for room end when the tail of partition `p` has moved. -/
def freeJournal (s : State) (p : Nat) : State :=
  let cs := (s.ctxsOn p).filter fun c => match s.ctxs.get? c with
    | some x => x.holds.contains .journal
    | none => false
  cs.foldl (fun s c => (s.ctxParts c).foldl showHeld (s.unhold c .journal)) s

/-- PART_JTAIL_WRITE: a tail above the head or below the current one is rejected. -/
def execPartJtailWrite (path : RegPath) (p : PartId) (tail : BitVec 64) (s : State) : Host.Outcome State Fault Refusal :=
  .next (if jHead s p.val < tail.toNat ∨ tail.toNat < jTail s p.val then
      rejectReg s path (R.partJtail p.val) true (some p.val)
    else freeJournal (s.setReg (R.partJtail p.val) tail) p.val)

end Sys2Proof.Machine
end

