-- ==== Sys2Proof/Machine/Planner.lean ====
section
/-! DEFINITION. The step planner (R231, R232, R238 to R244, R254 to R271, R500, R501, R503 to R509, R553 to R556). -/

namespace Sys2Proof.Machine

/-! ### The KV configuration block (R269) -/

structure KvCfg where
  layers : Nat
  heads : Nat
  rcBase : Nat
  rcCount : Nat
  privOff : Nat
  privSize : Nat
  arenas : Nat
  groupMap : Nat
deriving DecidableEq, Repr

def kvCfg (s : State) (a : Nat) : KvCfg :=
  let w (i : Nat) : Nat := s.load (a + 8 * i) 8
  { layers := bitsOf (w 0) 27 16 + 1, heads := bitsOf (w 0) 39 28 + 1, rcBase := bitsOf (w 1) 43 0, rcCount := w 2,
    privOff := bitsOf (w 3) 31 0, privSize := bitsOf (w 3) 63 32, arenas := w 4, groupMap := w 5 }

/-- Owning tile of group `g` of sequence `q` for a layer and KV head (R232). -/
def ownerTile (s : State) (k : KvCfg) (layer head g q : Nat) : Nat :=
  let e := s.load (k.groupMap + 8 * (layer * k.heads + head)) 8
  let n := bitsOf e 7 0 + 1
  s.load (k.groupMap + bitsOf e 39 8 + 2 * ((g + q) % n)) 2

/-! ### Pages (R238 to R242) -/

def pageGroup (e : Nat) : Nat := if e ≤ 8 then 0 else e - 8
def pagePositions (e : Nat) : Nat := 16 * 2 ^ kvSize e

/-- End of the positions that `n` entries allocate. -/
def allocatedPositions (n : Nat) : Nat := if n = 0 then 0 else kvStart (n - 1) + pagePositions (n - 1)

/-- Bytes of a page of `t` positions, `d` being D. -/
def pageBytes (fmt d t : Nat) : Nat := if t ≤ 32 then 4 * t * d else slabBytes fmt d * (t / 64) + 256 * d

/-- Bytes of a page up to the end of what its first `n` positions have written. -/
def writtenBytes (fmt d t n : Nat) : Nat :=
  if n = 0 then 0
  else if t ≤ 32 then 2 * t * d + 2 * d * n
  else if n % 64 = 0 then slabBytes fmt d * (n / 64)
  else slabBytes fmt d * (t / 64) + 128 * d + 2 * d * (n % 64)

/-- A page descriptor (R241). -/
def descBits (base size pool rc : Nat) (shared cow cold : Bool) (step : Nat) : Nat :=
  base % 2 ^ 44 + size * 2 ^ 44 + pool * 2 ^ 48 + rc * 2 ^ 50 + bit shared 70 + bit cow 71 + bit cold 72 + 2 ^ 73
    + step % 2 ^ 32 * 2 ^ 96

def descBase (d : Nat) : Nat := bitsOf d 43 0
def descSize (d : Nat) : Nat := bitsOf d 47 44
def descPool (d : Nat) : Nat := bitsOf d 49 48
def descRc (d : Nat) : Nat := bitsOf d 69 50
def descShared (d : Nat) : Bool := d.testBit 70
def descCow (d : Nat) : Bool := d.testBit 71
def descCold (d : Nat) : Bool := d.testBit 72

/-- Header fields of a page table (R242). -/
def tblFmt (s : State) (a : Nat) : Nat := bitsOf (s.load a 8) 18 16
def tblDim (s : State) (a : Nat) : Nat := bitsOf (s.load a 8) 22 19 * 64
def tblCount (s : State) (a : Nat) : Nat := bitsOf (s.load (a + 0x10) 8) 10 0
def tblCap (s : State) (a : Nat) : Nat := bitsOf (s.load (a + 0x10) 8) 26 16
def tblEntry (s : State) (a e : Nat) : Nat := s.load (a + 0x40 + 16 * e) 16

/-- A descriptor or an entry count that the planner's allocation decides (R68). -/
def notePage (s : State) (a v : Nat) : State := { s with board := { s.board with tablePages := s.board.tablePages.set a v } }

def setEntry (s : State) (a e d : Nat) : State := notePage (s.store (a + 0x40 + 16 * e) 16 d) (a + 0x40 + 16 * e) d

def setCount (s : State) (a n : Nat) : State :=
  notePage (s.store (a + 0x10) 8 (setBitsOf (s.load (a + 0x10) 8) 10 0 n)) (a + 0x10) n

/-! ### Arenas (R257, R258, R291) -/

def roundUp (x n : Nat) : Nat := ceilDiv x n * n

/-- End of the slice or stack of an address. -/
def unitEnd (a : Nat) : Nat :=
  if a < 0x10000000000 then a / 0x2000000000 * 0x2000000000 + (a % 0x2000000000 / 0x18000000 + 1) * 0x18000000
  else (a / 0x1000000000 + 1) * 0x1000000000

/-- The slice or stack of an address holds no pages: it is not in service, or a reserved spare's slot (R284, R285, R291). -/
def noRoom (s : State) (a : Nat) : Bool :=
  match s.region a with
  | .slice p i => decide (s.part.tilesPerPart ≤ i) && (s.fld (R.capSpare p) F.capSpare_spare).testBit (i - s.part.tilesPerPart)
  | .capacity _ => false
  | _ => true

/-- Lowest place for `n` bytes at or behind `m` that meets no retired region, unusable slot or retired stack (R291); a cold page
lies in one stack (R266). -/
def carveAt (s : State) (cold : Bool) : Nat → Nat → Nat → Nat → Nat → Option Nat
  | 0, _, _, _, _ => none
  | fuel + 1, top, m, n, align =>
    let b := roundUp m align
    if top < b + n then none
    else match s.holes.find? fun r => decide (r * 0x200000 < b + n) && decide (b < (r + 1) * 0x200000) with
      | some r => carveAt s cold fuel top ((r + 1) * 0x200000) n align
      | none =>
        if noRoom s b then carveAt s cold fuel top (unitEnd b) n align
        else if unitEnd b < b + n ∧ (cold = true ∨ noRoom s (b + n - 1) = true) then carveAt s cold fuel top (unitEnd b) n align
        else some b

/-- A range still serves pages: it meets no retired region, and its slice or stack is in service (R291). -/
def serves (s : State) (a n : Nat) : Bool :=
  !(s.holes.any fun r => decide (r * 0x200000 < a + n) && decide (a < (r + 1) * 0x200000)) && !noRoom s a && !noRoom s (a + n - 1)

/-- A region of a size code, format and layout taken from an arena: the lowest free one that still serves, or one carved at the
high-water mark. -/
def takeRegion (s : State) (a : Arena) (size fmt n : Nat) (cold : Bool) : Option (PageRegion × Arena) :=
  let fits (r : PageRegion) : Bool := r.size == size && r.fmt == fmt && r.cold == cold && serves s r.addr n
  let best := (a.free.filter fits).foldl (fun (m : Option PageRegion) r => match m with
    | none => some r
    | some x => if r.addr < x.addr then some r else some x) none
  match best with
  | some r => some (r, { a with free := a.free.filter (· != r) })
  | none =>
    match carveAt s cold 4096 (a.base + a.size) (a.base + a.mark) n (if cold then 0x10000 else 64) with
    | none => none
    | some b => some (⟨b, size, fmt, cold⟩, { a with mark := b + n - a.base })

/-- The region at a given address, when it is free (R506). -/
def takeAt (s : State) (a : Arena) (addr size fmt n : Nat) (cold : Bool) : Option (PageRegion × Arena) :=
  match a.free.find? fun r => r.addr == addr && r.size == size && r.fmt == fmt && r.cold == cold && serves s addr n with
  | some r => some (r, { a with free := a.free.filter (· != r) })
  | none =>
    if a.base + a.mark ≤ addr ∧ carveAt s cold 1 (a.base + a.size) addr n 1 = some addr then
      some (⟨addr, size, fmt, cold⟩, { a with mark := addr + n - a.base })
    else none

/-- Distance of two base dies in shared edges (R22). -/
def dieHops (p q : Nat) : Nat := (p % 4 - q % 4) + (q % 4 - p % 4) + (p / 4 - q / 4) + (q / 4 - p / 4)

/-- Arenas by key: tile, 4096 + partition for the orphan arena, 8192 + partition for the near arena. -/
def nearKey (p : Nat) : Nat := 8192 + p

/-- Pools for a page of a tile, in the order of R257. -/
def poolOrder (parts : List Nat) (t : Nat) : List Nat :=
  let p := t / 256
  let far := (List.range 5).flatMap fun h => parts.filter fun q => q != p && dieHops p q == h
  [t, 4096 + p, nearKey p] ++ far.map nearKey

/-- Pool code of a page descriptor. -/
def poolCode (key : Nat) : Nat := if key < 8192 then 0 else 1

/-- The first pool of a list with room. -/
def allocIn (s : State) (ar : SMap Arena) (size fmt n : Nat) : List Nat → Option (Nat × PageRegion × SMap Arena)
  | [] => none
  | k :: rest => match (ar.get? k).bind fun a => takeRegion s a size fmt n false with
    | some (r, a) => some (k, r, ar.set k a)
    | none => allocIn s ar size fmt n rest

/-- The arena an address lies in. -/
def arenaOf (ar : SMap Arena) (addr : Nat) : Option Nat :=
  (ar.rows.find? fun k => decide (k.2.base ≤ addr) && decide (addr < k.2.base + k.2.size)).map (·.1)

def giveBack (ar : SMap Arena) (k : Nat) (r : PageRegion) : SMap Arena :=
  match ar.get? k with
  | some a => ar.set k { a with free := a.free ++ [r] }
  | none => ar

/-! ### Reference counts (R262) -/

def rcGet (s : State) (k : KvCfg) (i : Nat) : Nat := bitsOf (s.load (k.rcBase + 4 * i) 4) 23 0
def rcSet (s : State) (k : KvCfg) (i n : Nat) : State := s.store (k.rcBase + 4 * i) 4 (n % 2 ^ 24)

/-- The lowest index from `i` on without a count; index 0 is never used. [DEDUCED, log 75] -/
def freeRc (s : State) (k : KvCfg) : Nat → Nat → Option Nat
  | 0, _ => none
  | n + 1, i => if rcGet s k i = 0 then some i else freeRc s k n (i + 1)

/-! ### Admission entries (R500) -/

def entryHead (typ : Nat) (batch : Bool) (seq : Nat) : List Byte := leBytes 8 (typ + bit batch 8 + seq % 2 ^ 24 * 2 ^ 16)

def entry64 (typ : Nat) (batch : Bool) (seq : Nat) (rest : List Byte) : List Byte :=
  entryHead typ batch seq ++ rest ++ List.replicate (56 - rest.length) 0

/-- ALLOC, SHARE, COPY and MIGRATE. -/
def pageEntry (typ seq layer head e d : Nat) (orig : Nat) : List Byte :=
  entry64 typ false seq (leBytes 8 (layer + head * 2 ^ 12 + e * 2 ^ 24) ++ leBytes 16 d ++ leBytes 8 orig)

/-- INPUT entries of tokens from position `p` on, 12 to an entry. -/
def inputEntries : Nat → Nat → Nat → List Byte → List (List Byte)
  | 0, _, _, _ => []
  | n + 1, seq, p, toks =>
    if toks = [] then []
    else
      let now := toks.take 48
      let cnt := now.length / 4
      entry64 2 true seq (leBytes 8 (p + cnt * 2 ^ 24) ++ now) :: inputEntries n seq (p + cnt) (toks.drop 48)

def entryTyp (e : List Byte) : Nat := (e.getD 0 0).toNat
def entrySeq (e : List Byte) : Nat := bitsOf (leVal (e.take 8)) 39 16
def entryWord (e : List Byte) (i : Nat) : Nat := leVal ((e.drop (8 * i)).take 8)

/-! ### What a plan is asked to do -/

/-- A free: sequence, reason of R500 and tag of its END completion. -/
structure PlanFree where
  seq : Nat
  why : Nat
  tag : Nat
deriving DecidableEq, Repr

/-- The decisions a plan starts from: frees, batch entries of stage 2 in order with the tag of their request, prefill spans,
stalls imposed on it, recorded placements, whether it regenerates a record, and rejections. -/
structure PlanAsk where
  frees : List PlanFree
  stage2 : List (Nat × List Byte)
  spans : List (Nat × Nat)
  forced : Option (List Nat)
  placed : List (List Byte)
  replay : Bool
  rejects : List (List Byte)
deriving DecidableEq, Repr

/-- A page that a plan takes for a table: the table, layer and head, entry, descriptor, journal type, and for a copy the original
descriptor and the bytes to copy. -/
structure Act where
  seq : Nat
  table : Nat
  layer : Nat
  head : Nat
  e : Nat
  d : Nat
  typ : Nat
  orig : Option (Nat × Nat)
deriving DecidableEq, Repr

/-- A plan in the making. -/
structure Work where
  s : State
  pl : Planner
  step : W64
  cfg : KvCfg
  parts : List Nat
  entries : List (List Byte)
  acts : List Act
  stalls : List Nat
  moves : List PageMove
  done : List (List Byte)
  allocs : Nat
  copies : Nat
deriving DecidableEq, Repr

namespace Work

def add (w : Work) (e : List Byte) : Work := { w with entries := w.entries ++ [e] }

def seq? (w : Work) (q : Nat) : Option Seq := w.pl.seqs.find? fun x => x.id == q

def setSeq (w : Work) (x : Seq) : Work :=
  { w with pl := { w.pl with seqs := w.pl.seqs.map fun y => if y.id = x.id then x else y } }

/-! ### Stage 1: frees (R255, R264) -/

/-- A page leaves its table: its count falls, and an uncounted page or one whose count reaches 0 waits for the free list. -/
def dropPage (w : Work) (fmt d : Nat) : Work :=
  if d.testBit 73 = false then w
  else
    let n := rcGet w.s w.cfg (descRc d)
    let s1 := if descRc d = 0 then w.s else rcSet w.s w.cfg (descRc d) (n - 1)
    if descRc d ≠ 0 ∧ 1 < n then { w with s := s1 }
    else match (if 2 ≤ descPool d then none else arenaOf w.pl.arenas (descBase d)) with
      | none => { w with s := s1 }
      | some k => { w with s := s1, pl := { w.pl with
          freeing := w.pl.freeing ++ [(w.step + 2, k, ⟨descBase d, descSize d, fmt, descCold d⟩)] } }

def freeSeq (w : Work) (f : PlanFree) : Work :=
  match w.seq? f.seq with
  | none => w
  | some x =>
    let w1 := x.tables.vals.foldl (fun w a =>
      (List.range (tblCount w.s a)).foldl (fun w e => w.dropPage (tblFmt w.s a) (tblEntry w.s a e)) w) w
    let w2 := w1.add (entry64 7 true f.seq (leBytes 8 f.why))
    { w2 with pl := { w2.pl with seqs := w2.pl.seqs.filter fun y => y.id != f.seq },
              done := w2.done ++ [State.completionBytes St.ok 2 f.tag f.seq w.step 0 0] }

/-! ### Stage 2: admissions (R261, R500, R554) -/

/-- The sequence is STALLED. The plan is then made again without it, so that it takes no page (R259). -/
def stall (w : Work) (q : Nat) : Work := { w with stalls := if w.stalls.contains q then w.stalls else w.stalls ++ [q] }

/-- Where a record puts a page of one of the types `typs` (R506). -/
def recorded (placed : List (List Byte)) (typs : List Nat) (q layer head e : Nat) : Option Nat :=
  (placed.find? fun r => entrySeq r == q && bitsOf (entryWord r 1) 11 0 == layer && bitsOf (entryWord r 1) 23 12 == head
    && bitsOf (entryWord r 1) 34 24 == e && typs.contains (entryTyp r)).map fun r => leVal ((r.drop 16).take 16)

/-- A new page for entry `e` of a table: where the record puts it when that place is free, otherwise by R257. -/
def newPage (w : Work) (placed : List (List Byte)) (q a layer head e : Nat) : Option (Nat × PageRegion × SMap Arena) :=
  let fmt := tblFmt w.s a
  let n := pageBytes fmt (tblDim w.s a) (pagePositions e)
  let t := ownerTile w.s w.cfg layer head (pageGroup e) q
  let here := (recorded placed [0x10, 0x12] q layer head e).bind fun d => (arenaOf w.pl.arenas (descBase d)).bind fun k =>
    (w.pl.arenas.get? k).bind fun ar =>
      (takeAt w.s ar (descBase d) (kvSize e) fmt n false).map fun r => (k, r.1, w.pl.arenas.set k r.2)
  here.orElse fun _ => allocIn w.s w.pl.arenas (kvSize e) fmt n (poolOrder w.parts t)

/-- A page copied before the tick, and named by its entry at the tick. -/
def copyTo (w : Work) (q a layer head e d orig n : Nat) : Work :=
  { (w.add (pageEntry 0x12 q layer head e d (descBase orig))) with
      moves := w.moves ++ [⟨a, e, d, orig, n, none⟩], allocs := w.allocs + 1, copies := w.copies + 1 }

/-- One source entry shared with a new table; the page that P cuts is also marked for copying in both tables. Where no count is
left the page is copied instead, and where no page is left either the sequence stops. [DEDUCED, log 75] -/
def sharePage (w : Work) (placed : List (List Byte)) (q src dst layer head P e : Nat) : Work :=
  let d := tblEntry w.s src e
  let cut := decide (P < kvStart e + pagePositions e)
  let fresh := decide (descRc d = 0)
  -- a record's SHARE or COPY stands, with the index it gave (R260, R506)
  let share := (recorded placed [0x11] q layer head e).map descRc
  let copy := share.isNone && (recorded placed [0x12] q layer head e).isSome
  let index := (share.filter fun i => decide (0 < i) && decide (i < w.cfg.rcCount) && rcGet w.s w.cfg i == 0).orElse fun _ =>
    freeRc w.s w.cfg w.cfg.rcCount 1
  match (if copy then none else if fresh then index else some (descRc d)) with
  | some i =>
    let n := if fresh then 2 else rcGet w.s w.cfg i + 1
    let d1 := descBits (descBase d) (descSize d) (descPool d) i true (descCow d || cut) (descCold d) (bitsOf d 127 96)
    let s1 := setEntry (setEntry (rcSet w.s w.cfg i n) src e d1) dst e d1
    { (w.add (pageEntry 0x11 q layer head e d1 0)) with s := setCount s1 dst (e + 1) }
  | none =>
    match w.newPage placed q dst layer head e with
    | none => w.stall q
    | some (k, r, ar) =>
      let d1 := descBits r.addr (descSize d) (poolCode k) 0 false false false w.step.toNat
      let n := writtenBytes (tblFmt w.s src) (tblDim w.s src) (pagePositions e) (min (pagePositions e) (P - kvStart e))
      ({ w with s := setCount (setEntry w.s dst e d1) dst (e + 1), pl := { w.pl with arenas := ar } }).copyTo q dst layer head e d1
        d n

/-- Header of a new page table (R242). -/
def newTable (w : Work) (t : TablePlace) (c : Nat) : Work :=
  let a := t.addr.toNat
  let hdr := leBytes 8 (1 + t.kvfmt.toNat * 2 ^ 16 + t.dim.toNat * 2 ^ 19 + t.g.toNat * 2 ^ 23)
    ++ leBytes 8 (t.seq.toNat + t.layer.toNat * 2 ^ 24 + t.head.toNat * 2 ^ 36) ++ leBytes 8 (t.cap.toNat * 2 ^ 16)
    ++ leBytes 8 c ++ leBytes 8 c ++ leBytes 8 c ++ leBytes 8 t.wins.toNat ++ leBytes 8 0
  { w with s := notePage (w.s.writeBytes a hdr) (a + 0x10) 0 }

/-- ADMIT: the sequence becomes live with its tables, sharing the pages of its source below P. -/
def admitEntry (w : Work) (placed : List (List Byte)) (tables : List TablePlace) (tag : Nat) (e : List Byte) : Work :=
  let q := entrySeq e
  let src := w.seq? (bitsOf (entryWord e 2) 23 0)
  let P := if (entryWord e 2).testBit 47 then bitsOf (entryWord e 2) 46 24 else 0
  let mine := tables.filter fun t => t.seq.toNat == q
  let key (t : TablePlace) : Nat := t.layer.toNat * 4096 + t.head.toNat
  let tabs := mine.foldl (fun (m : SMap Nat) t => m.set (key t) t.addr.toNat) SMap.empty
  let w1 := mine.foldl (fun w t => w.newTable t P) (w.add e)
  let y : Seq := ⟨q, tag, bitsOf (entryWord e 1) 22 0, 0, P, 0, tabs, false⟩
  let w2 := { w1 with pl := { w1.pl with seqs := w1.pl.seqs ++ [y] } }
  match src with
  | none => w2
  | some x =>
    if P = 0 then w2
    else
      let w3 := tabs.rows.foldl (fun w ka => match x.tables.get? ka.1 with
        | none => w
        | some sa => (List.range (kvEntry (P - 1) + 1)).foldl
            (fun w e => w.sharePage placed q sa ka.2 (ka.1 / 4096) (ka.1 % 4096) P e) w) w2
      if w3.stalls.length = w2.stalls.length then w3 else w2.freeSeq ⟨q, 1, tag⟩

/-- SAMPLE sets the maximum length; INPUT beyond the prompt known so far lengthens it. -/
def note (w : Work) (e : List Byte) : Work :=
  match w.seq? (entrySeq e) with
  | none => w.add e
  | some x =>
    let w1 := w.add e
    if entryTyp e = 4 then w1.setSeq { x with maxLen := bitsOf (entryWord e 2) 38 16 }
    else if entryTyp e = 2 then
      w1.setSeq { x with prompt := max x.prompt (bitsOf (entryWord e 1) 22 0 + bitsOf (entryWord e 1) 27 24 - x.len) }
    else w1

def stage2 (w : Work) (placed : List (List Byte)) (tables : List TablePlace) (x : Nat × List Byte) : Work :=
  if entryTyp x.2 = 1 then w.admitEntry placed tables x.1 x.2 else w.note x.2

/-! ### Spans -/

/-- Positions of a sequence in the step: one in decode, the span given, or the whole rest of the prompt, in prefill.
[DEDUCED, log 74] -/
def spanOf (spans : List (Nat × Nat)) (x : Seq) : Nat :=
  if x.prompt = 0 then 1
  else match spans.find? fun y => y.1 == x.id with
    | some y => min (max 1 y.2) x.prompt
    | none => x.prompt

/-! ### Stages 3 and 4: copy-on-write and growth (R256 to R259, R263) -/

/-- Copy-on-write of one entry that the step will write. -/
def cowEntry (w : Work) (placed : List (List Byte)) (x : Seq) (a layer head e : Nat) : Work :=
  let d := tblEntry w.s a e
  if w.stalls.contains x.id = true ∨ descCow d = false then w
  else
    let n := rcGet w.s w.cfg (descRc d)
    let own (base pool step : Nat) : Nat := descBits base (descSize d) pool 0 false false (descCold d) step
    if descRc d ≠ 0 ∧ 1 < n then
      match w.newPage placed x.id a layer head e with
      | none => w.stall x.id
      | some (k, r, ar) =>
        let bytes := writtenBytes (tblFmt w.s a) (tblDim w.s a) (pagePositions e) (x.len - kvStart e)
        let act : Act := ⟨x.id, a, layer, head, e, own r.addr (poolCode k) w.step.toNat, 0x12, some (d, bytes)⟩
        { w with s := rcSet w.s w.cfg (descRc d) (n - 1), pl := { w.pl with arenas := ar }, acts := w.acts ++ [act] }
    else
      -- the page has no index any more, and its count is free for another page (R262)
      { w with s := if descRc d = 0 then w.s else rcSet w.s w.cfg (descRc d) 0,
               acts := w.acts ++ [⟨x.id, a, layer, head, e, own (descBase d) (descPool d) (bitsOf d 127 96), 0, none⟩] }

def cowSeq (w : Work) (placed : List (List Byte)) (n : Nat) (x : Seq) : Work :=
  x.tables.rows.foldl (fun w ka =>
    let first := kvEntry x.len
    let last := kvEntry (x.len + n - 1)
    (List.range (last + 1 - first)).foldl (fun w i =>
      if first + i < tblCount w.s ka.2 then w.cowEntry placed x ka.2 (ka.1 / 4096) (ka.1 % 4096) (first + i) else w) w) w

/-- Growth of one table by the entry after its last. -/
def growEntry (w : Work) (placed : List (List Byte)) (x : Seq) (a layer head e : Nat) : Work :=
  if w.stalls.contains x.id then w
  else if tblCap w.s a ≤ e then w.stall x.id
  else match w.newPage placed x.id a layer head e with
    | none => w.stall x.id
    | some (k, r, ar) =>
      let d := descBits r.addr (kvSize e) (poolCode k) 0 false false false w.step.toNat
      { w with pl := { w.pl with arenas := ar }, acts := w.acts ++ [⟨x.id, a, layer, head, e, d, 0x10, none⟩] }

/-- Growth of a sequence. -/
def growSeq (w : Work) (placed : List (List Byte)) (n : Nat) (x : Seq) : Work :=
  x.tables.rows.foldl (fun w ka =>
    let have' := tblCount w.s ka.2
    let need := if allocatedPositions have' < x.len + n then kvEntry (x.len + n - 1) + 1 else have'
    (List.range (need - have')).foldl (fun w i => w.growEntry placed x ka.2 (ka.1 / 4096) (ka.1 % 4096) (have' + i)) w) w

/-- The pages of a plan put into their tables; a copy's bytes and entry follow at the tick. -/
def applyAct (w : Work) (a : Act) : Work :=
  match a.orig with
  | some (d, n) => w.copyTo a.seq a.table a.layer a.head a.e a.d d n
  | none =>
    let s1 := setEntry w.s a.table a.e a.d
    if a.typ = 0 then { w with s := s1 }
    else { (w.add (pageEntry a.typ a.seq a.layer a.head a.e a.d 0)) with
             s := setCount s1 a.table (a.e + 1), allocs := w.allocs + 1 }

/-- Growth entries of one sequence with its PREFILL entry, or its STALL entry. -/
def closeSeq (w : Work) (n : Nat) (x : Seq) : Work :=
  if w.stalls.contains x.id then
    let w1 := w.add (entry64 6 true x.id [])
    { (w1.setSeq { x with span := 0, stalled := true }) with
        done := w1.done ++ [State.completionBytes St.stalled 1 0 x.id w.step 0 0] }
  else
    let w1 := (w.acts.filter fun a => a.seq == x.id && a.typ == 0x10).foldl applyAct w
    let w2 := if x.prompt = 0 then w1 else w1.add (entry64 5 true x.id (leBytes 8 n))
    w2.setSeq { x with len := x.len + n, span := n, prompt := x.prompt - min n x.prompt, stalled := false }

/-! ### Stage 5: cold migration (R265, R266) -/

/-- Bytes of a block of a cold page in its pseudo-channel, and the range a cold page spans. -/
def coldRows (fmt d : Nat) : Nat := ceilDiv (4 * slabBytes fmt d) 0x1000
def coldSpan (fmt d : Nat) : Nat := (coldRows fmt d - 1) * 0x20000 + 0x10000

/-- The arena of a tile is below the watermark; pages that wait for the free list count as free (R264, R265). [DEDUCED, log 76] -/
def low (w : Work) (t dim : Nat) : Bool :=
  match w.pl.arenas.get? t with
  | none => false
  | some a =>
    let bytes (l : List PageRegion) : Nat := (l.map fun r => pageBytes r.fmt dim (16 * 2 ^ r.size)).sum
    let free := (a.size - a.mark) + bytes a.free + bytes ((w.pl.freeing.filter fun f => f.2.1 == t).map (·.2.2))
    decide (free * 100 < a.size * w.s.fld (R.partKvctl (w.parts.headD 0)) F.partKvctl_cold_wm)

/-- The slabs of a page copied to a cold page. -/
def coldCopy (s : State) (src dst fmt d : Nat) : State :=
  let ch := slabBytes fmt d
  (List.range 16).foldl (fun s j =>
    (List.range (coldRows fmt d)).foldl (fun s r =>
      let n := min 0x1000 (4 * ch - r * 0x1000)
      s.writeBytes (dst + j * 0x1000 + r * 0x20000) (s.bytesAt (src + 4 * ch * j + r * 0x1000) n)) s) s

/-- One group migrated to the near arena, where the record puts it or at the first place free; a record's MIGRATE stands wherever the
page lies (R260, R506). Only a group that is full before the step migrates, and none that is shared. [DEDUCED, log 76; DESIGN CHOICE,
log 143] -/
def migrateEntry (w : Work) (ask : PlanAsk) (x : Seq) (a layer head e : Nat) : Work :=
  let d := tblEntry w.s a e
  let t := ownerTile w.s w.cfg layer head (pageGroup e) x.id
  let place := recorded ask.placed [0x13] x.id layer head e
  if pageGroup e = 0 ∨ descCold d = true ∨ x.len - x.span < kvStart e + pagePositions e
      ∨ (if ask.replay then place.isNone
        else descPool d != 0 || descShared d || arenaOf w.pl.arenas (descBase d) != some t || !(w.low t (tblDim w.s a))) = true then w
  else
    let fmt := tblFmt w.s a
    let dim := tblDim w.s a
    let near := w.pl.arenas.get? (nearKey (t / 256))
    let here := (place.bind fun c => near.bind fun ar => takeAt w.s ar (descBase c) 8 fmt (coldSpan fmt dim) true)
    match here.orElse fun _ => near.bind fun ar => takeRegion w.s ar 8 fmt (coldSpan fmt dim) true with
    | none => if ask.replay then w.stall x.id else w
    | some (r, ar) =>
      let d1 := descBits r.addr 8 1 0 false false true w.step.toNat
      let w1 := ({ w with pl := { w.pl with arenas := w.pl.arenas.set (nearKey (t / 256)) ar },
                          moves := w.moves ++ [(⟨a, e, d1, d, 0, some (fmt, dim)⟩ : PageMove)] }).dropPage fmt d
      w1.add (pageEntry 0x13 x.id layer head e d1 0)

def migrateSeq (ask : PlanAsk) (w : Work) (x : Seq) : Work :=
  x.tables.rows.foldl (fun w ka =>
    (List.range (tblCount w.s ka.2 - 1)).foldl (fun w e => w.migrateEntry ask x ka.2 (ka.1 / 4096) (ka.1 % 4096) e) w) w

/-! ### Stage 6: length copies (R244) -/

/-- [DEDUCED, log 76] -/
def writeCopy (s : State) (step : W64) (a c : Nat) : State := s.store (a + 0x20 + 8 * (step.toNat % 2)) 8 (c % 2 ^ 23)

end Work

def sortBy (key : Nat × List Byte → Nat) (l : List (Nat × List Byte)) : List (Nat × List Byte) :=
  l.mergeSort fun a b => decide (key a ≤ key b)

/-- Live sequences of a plan in ascending order. -/
def Work.live (w : Work) : List Seq := w.pl.seqs.mergeSort fun a b => decide (a.id ≤ b.id)

/-- The six stages of a plan of step `step`, in which the sequences of `stalled` take nothing (R255). [DEDUCED, log 74] -/
def planOnce (s : State) (x : Ctx) (step : W64) (inp : PlanIn) (ask : PlanAsk) (stalled : List Nat) : Work :=
  let w0 : Work :=
    { s := s, pl := x.planner, step := step, cfg := kvCfg s x.kvBlock, parts := (List.range 8).filter fun p => x.mask.testBit p,
      entries := [], acts := [], stalls := stalled, moves := [], done := ask.rejects, allocs := 0, copies := 0 }
  let w1 := (ask.frees.mergeSort fun a b => decide (a.seq ≤ b.seq)).foldl Work.freeSeq w0
  let w2 := (sortBy (fun e => entrySeq e.2) ask.stage2).foldl (fun w e => w.stage2 ask.placed inp.tables e) w1
  let span (y : Seq) : Nat := Work.spanOf ask.spans y
  let w3 := w2.live.foldl (fun w y => w.cowSeq ask.placed (span y) y) w2
  let w4 := w3.live.foldl (fun w y => w.growSeq ask.placed (span y) y) w3
  let w5 := (w4.acts.filter fun a => a.typ != 0x10).foldl Work.applyAct w4
  let w6 := w5.live.foldl (fun w y => w.closeSeq (span y) y) w5
  let w7 := if s.fld (R.partKvctl (w6.parts.headD 0)) F.partKvctl_cold_wm = 0 ∧ ask.replay = false then w6
    else w6.live.foldl (Work.migrateSeq ask) w6
  -- a table's copy is written equal to the length the step starts from
  let s8 := w7.live.foldl (fun s y => y.tables.vals.foldl (fun s a => Work.writeCopy s step a (y.len - y.span)) s) w7.s
  { w7 with s := s8 }

/-- A plan made again, up to `fuel` times, without the first sequence that finds no page in it: that one takes none, and every later
one is decided with the pages it leaves (R259). -/
def planAgain (s : State) (x : Ctx) (step : W64) (inp : PlanIn) (ask : PlanAsk) : Nat → List Nat → Work
  | 0, stalled => planOnce s x step inp ask stalled
  | fuel + 1, stalled =>
    let w := planOnce s x step inp ask stalled
    if w.stalls.length = stalled.length then w
    else planAgain s x step inp ask fuel (w.stalls.take (stalled.length + 1))

/-- The plan of step `step` (R255, R259, R260). -/
def runPlan (s : State) (x : Ctx) (step : W64) (inp : PlanIn) (ask : PlanAsk) : Work :=
  planAgain s x step inp ask (x.planner.seqs.length + ask.stage2.length + 1) (ask.forced.getD [])

/-! ### Copies before the tick (R263, R265, R378) -/

/-- One piece of a copy: rows, bytes of a row in lines of 64, source and destination of the first, and the strides of the rows. -/
structure CopyPiece where
  src : Nat
  dst : Nat
  lines : Nat
  rows : Nat
  srcStep : Nat
  dstStep : Nat
deriving DecidableEq, Repr

/-- The pieces of a move: up to 4 MiB of a page in one row, or one stretch of every block of a cold page (R265, R266). -/
def movePieces (m : PageMove) : List CopyPiece :=
  let src := descBase m.orig
  let dst := descBase m.d
  match m.cold with
  | none => (List.range (ceilDiv m.n 0x400000)).map fun i =>
      ⟨src + i * 0x400000, dst + i * 0x400000, (min 0x400000 (m.n - i * 0x400000)) / 64, 1, 0, 0⟩
  | some (fmt, d) =>
    let ch := slabBytes fmt d
    (List.range (Work.coldRows fmt d)).map fun r =>
      ⟨src + r * 0x1000, dst + r * 0x20000, (min 0x1000 (4 * ch - r * 0x1000)) / 64, 16, 4 * ch, 0x1000⟩

/-- The descriptor of a piece, with the address of the next one (R351). -/
def pieceBytes (s : State) (x : CopyPiece) (next : Nat) : List Byte :=
  let dev := s.localDev * 2 ^ 44
  ([next, dev + x.src, dev + x.dst, 64 + x.srcStep * 2 ^ 32, 64 + x.dstStep * 2 ^ 32,
    2 ^ 50 + 2 ^ 48 + 63 * 2 ^ 40 + 63 * 2 ^ 32 + (x.rows - 1) * 2 ^ 16 + (x.lines - 1), 0, 2 ^ 8]).flatMap (leBytes 8)

/-- A move that a bulk mover makes: the original lies in this device's memory. Bytes of a remote or host page are free. -/
def onQueue (s : State) (c : Nat) (m : PageMove) : Bool :=
  decide (descPool m.orig < 2) && (s.copyArea c).isSome && !(s.queueOff (s.copyQueue c))

/-- The copies of a plan are posted to the firmware queue of its context: their descriptors in its area, and one chain (R378). -/
def postCopies (s : State) (c : Nat) (q : StepPlan) : State :=
  let pieces := ((q.moves.filter (onQueue s c)).flatMap movePieces).filter fun x => decide (0 < x.lines)
  match s.copyArea c, pieces with
  | some b, _ :: _ =>
    let n := pieces.length
    let s1 := pieces.zipIdx.foldl (fun s x =>
      s.writeBytes (b + 64 * x.2) (pieceBytes s x.1 (if x.2 + 1 < n then b + 64 * (x.2 + 1) else 0))) (s.dropCopies c)
    s1.addHead (s.copyQueue c) ⟨b, 0, false, q.step, 0, none⟩
  | _, _ => s

/-- The tables name the copies of a plan at its tick (R263, R265). A page that no bulk mover copies gets its bytes here. -/
def makeMove (c : Nat) (s : State) (m : PageMove) : State :=
  let s1 := if onQueue s c m then s
    else match m.cold with
    | some (fmt, dim) => Work.coldCopy s (descBase m.orig) (descBase m.d) fmt dim
    | none =>
      if descPool m.orig < 2 then s.writeBytes (descBase m.d) (s.bytesAt (descBase m.orig) m.n)
      else ((s.draw).2).writeBytes (descBase m.d) ((List.range m.n).map (Config.remoteByte (s.draw).1))
  setEntry s1 m.table m.e m.d

/-- The moves of the plan of a context's uncommitted step, made at the tick that begins it. -/
def makeMoves (s : State) (c : Nat) : State :=
  match s.ctxs.get? c with
  | none => s
  | some x => (planOf s c x).moves.foldl (makeMove c) s

/-- The plan of a step whose tick is still to come. -/
def planAhead (s : State) (c : Nat) (x : Ctx) : Option StepPlan :=
  x.planner.plans.vals.find? fun q =>
    x.planner.planned == some q.step && (q.step == s.stepOf c + 1 || (s.ctxSt c == CtxSt.ready && q.step == s.stepOf c))

/-- A reset lost what the firmware queues of a partition had to do: the planner's copies are posted again. -/
def repostCopies (s : State) (p : Nat) : State :=
  (s.ctxs.rows.filter fun x => s.leadOf x.1 == p).foldl (fun s x => match planAhead s x.1 x.2 with
    | some q => postCopies s x.1 q
    | none => s) s

/-! ### The host queue (R553, R554) -/

/-- Request entries written and not read: their 64 bytes, in ring order. -/
def newRequests (s : State) (c : Nat) : List (List Byte) :=
  let q := R.hifQbase c
  let k := s.fld q F.hifQbase_k
  let cons := s.fld (R.hifRq c) F.hifRq_cons
  let n := (s.fld (R.hifRq c) F.hifRq_prod + 2 ^ 32 - cons) % 2 ^ 32
  if s.fld q F.hifQbase_valid = 0 then []
  else (List.range (min n (2 ^ k))).map fun i => s.bytesAt (s.fld q F.hifQbase_base * 64 + 64 * ((cons + i) % 2 ^ k)) 64

/-- Reserved bits of a request that are not zero, by opcode. -/
def requestBad (r : List Byte) : Bool :=
  let op := entryTyp r
  let w (i : Nat) : Nat := entryWord r i
  bitsOf (w 0) 15 8 != 0 || bitsOf (w 0) 63 56 != 0
    || (match op with
      | 1 => bitsOf (w 1) 63 23 != 0 || bitsOf (w 2) 63 48 != 0 || bitsOf (w 5) 63 39 != 0 || bitsOf (w 3) 63 52 != 0
      | 2 => bitsOf (w 1) 63 23 != 0 || w 2 != 0 || w 4 != 0 || w 5 != 0 || bitsOf (w 3) 63 52 != 0
      | 3 => w 1 != 0 || w 2 != 0 || w 3 != 0 || w 4 != 0 || w 5 != 0
      | 4 => bitsOf (w 1) 31 0 != 0 || w 2 != 0 || w 4 != 0 || w 5 != 0 || bitsOf (w 3) 63 52 != 0
      | _ => true)
    || bitsOf (w 3) 1 0 != 0 || w 6 != 0 || w 7 != 0

/-- Bytes of host memory a request names, and whether the region grants them. -/
def requestLen (r : List Byte) : Nat := if entryTyp r = 4 then bitsOf (entryWord r 1) 63 32 else 4 * bitsOf (entryWord r 1) 22 0

def requestReadable (s : State) (r : List Byte) : Bool :=
  requestLen r == 0 || (s.hostAddr (bitsOf (entryWord r 3) 51 44) (bitsOf (entryWord r 3) 43 0) (requestLen r) false).isSome

/-- Requests turned into frees, entries and rejections; `live` are the sequences live so far with the next input position
of each. Frees come before admissions, so an END names a sequence that is live before the plan (R255, R554). [DEDUCED, log 74] -/
def readRequests (s : State) (step : W64) (start : List Nat) :
    List (List Byte × List Byte) → List (Nat × Nat) → List Seq → PlanAsk → PlanAsk
  | [], _, _, acc => acc
  | (r, data) :: rest, live, seqs, acc =>
    let q := bitsOf (entryWord r 0) 55 32
    let tag := bitsOf (entryWord r 0) 31 16
    let op := entryTyp r
    let known := live.find? fun y => y.1 == q
    let w2 := entryWord r 2
    let P := if w2.testBit 47 then bitsOf w2 46 24 else 0
    let badSource := op == 1 && w2.testBit 47
      && !(seqs.any fun y => y.id == bitsOf w2 23 0 && decide (P ≤ y.len)) || (op == 1 && !w2.testBit 47 && w2 != 0)
    let gone := op == 3 && (!(start.contains q) || acc.frees.any fun f => f.seq == q)
    let reject := requestBad r || gone || (op == 1 && known.isSome) || (op != 1 && known.isNone) || badSource
      || !(requestReadable s r)
    if reject then
      readRequests s step start rest live seqs { acc with rejects := acc.rejects ++ [State.completionBytes St.bound 3 tag q step 0 0] }
    else if op = 1 then
      let n := bitsOf (entryWord r 1) 22 0
      let es := entry64 1 true q (leBytes 8 n ++ leBytes 8 w2)
        :: entry64 4 true q (leBytes 8 (entryWord r 4) ++ leBytes 8 (entryWord r 5))
        :: inputEntries (n + 1) q P (data.take (4 * n))
      readRequests s step start rest ((q, P + n) :: live) seqs { acc with stage2 := acc.stage2 ++ es.map fun e => (tag, e) }
    else if op = 3 then
      readRequests s step start rest (live.filter fun y => y.1 != q) (seqs.filter fun y => y.id != q)
        { acc with frees := acc.frees ++ [⟨q, 1, tag⟩] }
    else
      let p := known.elim 0 (·.2)
      let es := if op = 2 then inputEntries (data.length + 1) q p (data.take (requestLen r))
        else [entry64 3 true q (leBytes 8 (p + requestLen r * 2 ^ 32) ++ digest (data.take (requestLen r)))]
      let p1 := if op = 2 then p + bitsOf (entryWord r 1) 22 0 else p
      readRequests s step start rest ((q, p1) :: live.filter fun y => y.1 != q) seqs
        { acc with stage2 := acc.stage2 ++ es.map fun e => (tag, e) }

/-- How many requests a plan reads: those before the first ADMIT that would pass the batch limit. [DEDUCED, log 74] -/
def readCount (limit : Nat) : List (List Byte) → Nat → Nat
  | [], _ => 0
  | r :: rest, live =>
    if entryTyp r = 1 then (if limit ≤ live then 0 else 1 + readCount limit rest (live + 1)) else 1 + readCount limit rest live

/-! ### Planning a step -/

/-- The step that the next plan is for. -/
def nextPlan (s : State) (c : Nat) (x : Ctx) : W64 :=
  match x.planner.planned with
  | some n => n + 1
  | none => s.stepOf c

/-- The planner works for a context: it is READY with its start asked for, or RUNNING, and its next plan is not further than
one step ahead. -/
def mayPlan (s : State) (c : Nat) (x : Ctx) : Bool :=
  let st := s.ctxSt c
  let n := nextPlan s c x
  (st == CtxSt.running || st == CtxSt.held || (st == CtxSt.ready && x.startNext)) && x.planner.waiting.isNone
    && (n == s.stepOf c || (n == s.stepOf c + 1 && st != CtxSt.ready))

/-- A plan becomes the plan of its step: entries for the journal, completions, tables, statistics. -/
def takePlan (c : Nat) (x : Ctx) (w : Work) : State :=
  let live := w.live
  let q : StepPlan :=
    { step := w.step, entries := w.entries, named := live.flatMap fun y => y.tables.vals,
      advanced := (live.filter fun y => !y.stalled).length, stalled := w.stalls.length, completions := w.done,
      moves := w.moves }
  let pl := { w.pl with planned := some w.step, waiting := none, union := [], heard := [],
                        nAlloc := w.allocs, nCopies := w.copies, nStalled := w.stalls.length }
  postCopies (w.s.setCtx c (setPlan { x with planner := pl } q)) c q

/-- Peer devices of a context (R455). -/
def peersOf (s : State) (c : Nat) : List Nat :=
  match s.ctxs.get? c with
  | some x => if x.peerTable = 0 then [] else (List.range 4096).filter fun d => d != s.localDev && (s.peerOf c d).isSome
  | none => []

/-- Requests of the host, spans, finished sequences and those at their maximum length, as a plan takes them. [DEDUCED, log 74] -/
def hostAsk (s : State) (c : Nat) (x : Ctx) (step : W64) (inp : PlanIn) : PlanAsk × Nat :=
  let ended := x.planner.seqs.filter fun y => inp.done.any (fun d => d.toNat == y.id) || (y.maxLen != 0 && decide (y.maxLen ≤ y.len))
  let frees := ended.map fun y => (⟨y.id, 0, y.tag⟩ : PlanFree)
  let seqs := x.planner.seqs.filter fun y => !(ended.any fun z => z.id == y.id)
  let rs := newRequests s c
  -- the batch of the partition: its other planners' live sequences count as well (R268)
  let others := (s.ctxs.rows.filter fun y => y.1 != c && s.leadOf y.1 == s.leadOf c).map fun y => y.2.planner.seqs.length
  let n := readCount (s.fld (R.partKvctl (s.leadOf c)) F.partKvctl_batch_max) rs (seqs.length + others.sum)
  let spans := inp.spans.map fun y => (y.1.toNat, y.2.toNat)
  let data := (List.range n).map fun i => inp.data.getD i []
  let read (sources : List Seq) : PlanAsk :=
    readRequests s step (seqs.map (·.id)) ((rs.take n).zip data) (seqs.map fun y => (y.id, y.len + y.prompt)) sources
      ⟨frees, [], spans, none, [], false, []⟩
  -- a sequence that the plan frees is no source of one that it admits (R255, R261)
  let freed := (read seqs).frees
  (read (seqs.filter fun y => !(freed.any fun f => f.seq == y.id)), n)

/-- Largest number of bytes and of completions that the plan of a step gives: from a trial of it. [DEDUCED, log 76] -/
def planRoom (s : State) (c : Nat) (x : Ctx) (w : Work) : Bool × Bool :=
  let bytes := 256 + 64 * w.entries.length
  let earlier := if x.appended.isSome then 0 else 256 + 64 * (planOf s c x).entries.length
  let j := (s.ctxParts c).all fun p => journalRoom s p (bytes + earlier)
  let q := R.hifCq c
  let used := (s.fld q F.hifCq_prod + 2 ^ 32 - s.fld q F.hifCq_cons) % 2 ^ 32
  let need := w.done.length + w.pl.seqs.length + (planOf s c x).completions.length + x.planner.seqs.length
  (j, s.fld (R.hifQbase c) F.hifQbase_valid == 0 || decide (used + need ≤ 2 ^ s.fld (R.hifQbase c) F.hifQbase_k))

/-! ### Regeneration (R504 to R509) -/

/-- A regeneration halts with a status at a step. -/
def haltReplay (s : State) (c status : Nat) (step : W64) : State :=
  let p := s.leadOf c
  let s1 := ((s.setFld (R.partReplay p) F.partReplay_state 2).setFld (R.partReplay p) F.partReplay_status status).setReg
    (R.partReplaystep p) step
  s1.updCtx c fun x => { x with regen := none }

/-- Entries of a record. -/
def recordEntries (bs : List Byte) : List (List Byte) :=
  (List.range ((bs.length - 256) / 64)).map fun i => (bs.drop (256 + 64 * i)).take 64

/-- What a record asks of the planner; the bytes of an INPUT_REF entry are checked against its digest (R509). -/
def recordAsk (es : List (List Byte)) : PlanAsk :=
  let batch := batchOf es
  { frees := (batch.filter fun e => entryTyp e == 7).map fun e => ⟨entrySeq e, bitsOf (entryWord e 1) 1 0, 0⟩,
    stage2 := (batch.filter fun e => decide (1 ≤ entryTyp e) && decide (entryTyp e ≤ 4)).map fun e => (0, e),
    spans := (batch.filter fun e => entryTyp e == 5).map fun e => (entrySeq e, bitsOf (entryWord e 1) 22 0),
    forced := some ((batch.filter fun e => entryTyp e == 6).map entrySeq),
    placed := es.filter fun e => !((e.getD 1 0).getLsbD 0),
    replay := true,
    rejects := [] }

/-- INPUT_REF entries whose data the driver supplies do not match. -/
def refsBad (es : List (List Byte)) (data : List (List Byte)) : Bool :=
  ((es.filter fun e => entryTyp e == 3).zip (data ++ List.replicate es.length [])).any fun ed =>
    digest ed.2 != (ed.1.drop 16).take 48

/-- The plan of a regenerated step. -/
def replayPlan (s : State) (c : Nat) (x : Ctx) (g : Regen) (inp : PlanIn) : State :=
  let step := nextPlan s c x
  let head := s.bytesAt g.place 256
  let len := bitsOf (leVal (head.take 8)) 63 32
  let bs := s.bytesAt g.place len
  let crcOk := leVal ((head.drop 0xF8).take 4) == crc32 (head.take 0xF8)
  let chainOk := g.before == [] || digest g.before == (head.drop 0x60).take 48
  let es := recordEntries bs
  if crcOk = false ∨ chainOk = false ∨ leVal ((head.drop 8).take 8) ≠ step.toNat ∨ len < 256 ∨ refsBad es inp.data = true then
    haltReplay s c St.bound step
  else
    let w := runPlan s x step inp (recordAsk es)
    let asked := (recordAsk es).forced.getD []
    let captures := es.filter fun e => entryTyp e == 0x20
    let w1 := { w with entries := w.entries ++ captures }
    if digest (batchOf w.entries).flatten ≠ (head.drop 0x30).take 48 then haltReplay s c St.bound step
    else if w.stalls.any (fun q => !asked.contains q) then haltReplay s c St.stalled step
    else
      let x1 := { x with regen := if step = g.last then none else some ⟨step + 1, g.last, g.place + len, bs⟩ }
      let p := s.leadOf c
      let s1 := takePlan c x1 w1
      let s2 := (s1.setReg (R.partReplaystep p) step).bump (R.partReplay p) F.partReplay_steps 1
      State.showKv (if step = g.last then s2.setFld (R.partReplay p) F.partReplay_state 3 else s2) p

/-! ### Committed lengths (R491) -/

/-- Committed length of a page table. -/
def committedLen (s : State) (a : Nat) : Nat := s.load (a + 0x18) 8

def setCommitted (s : State) (a x : Nat) : State := s.store (a + 0x18) 8 (x % 2 ^ 23)

/-- The committed lengths of the last commit are folded: before the next plan writes its length copies, and before a revival takes its own
from them (R491, R497). [DEDUCED, log 76] -/
def foldLengths (s : State) (c : Nat) : State :=
  match s.ctxs.get? c with
  | none => s
  | some x => (x.folds.foldl (fun s f => setCommitted s f.1 f.2) s).setCtx c { x with folds := [] }

/-! ### The commands -/

/-- PLAN_STEP: the planner of a context plans its next step, once the lengths of the last commit are folded. In a context with peers the plan waits for their stall sets
(R501). -/
def execPlanStep (c : CtxId) (inp : PlanIn) (s : State) : Host.Outcome State Fault Refusal :=
  let k := c.val
  let s := foldLengths s k
  .next (match s.ctxs.get? k with
  | none => s
  | some x =>
    if mayPlan s k x = false then s
    else
      let step := nextPlan s k x
      match x.regen with
      | some g => replayPlan s k x g inp
      | none =>
        let (ask, n) := hostAsk s k x step inp
        let w := runPlan s x step inp ask
        let room := planRoom s k x w
        if room.1 = false then holdJournal s k
        else if room.2 = false then s.hold k .queueRoom
        else
          let read (s : State) : State :=
            s.setFld (R.hifRq k) F.hifRq_cons ((s.fld (R.hifRq k) F.hifRq_cons + n) % 2 ^ 32)
          let peers := peersOf s k
          if peers = [] then State.showKv (read (takePlan k x w)) (s.leadOf k)
          else
            let s1 := peers.foldl (fun s d => s.emit (.stallSet d step w.stalls)) s
            s1.setCtx k { x with planner := { x.planner with
              waiting := some inp, union := (x.planner.union ++ w.stalls).dedup } })

/-- STALL_SET_EXCHANGE: a peer's set is merged; once every peer has been heard the plan is made with the union. [DEDUCED, log 76] -/
def execStallSetExchange (c : CtxId) (device : BitVec 12) (seqs : List (BitVec 24)) (s : State) :
    Host.Outcome State Fault Refusal :=
  let k := c.val
  .next (match s.ctxs.get? k with
  | none => s
  | some x =>
    if (peersOf s k).contains device.toNat = false then s
    else
      let pl := { x.planner with union := (x.planner.union ++ seqs.map (·.toNat)).dedup,
                                 heard := (device.toNat :: x.planner.heard).dedup }
      let x1 := { x with planner := pl }
      match pl.waiting with
      | none => s.setCtx k x1
      | some inp =>
        if (peersOf s k).all (fun d => pl.heard.contains d) = false then s.setCtx k x1
        else
          let step := nextPlan s k x1
          let (ask, n) := hostAsk s k x1 step inp
          let w := runPlan s x1 step inp { ask with forced := some pl.union }
          let s1 := takePlan k x1 w
          State.showKv (s1.setFld (R.hifRq k) F.hifRq_cons ((s1.fld (R.hifRq k) F.hifRq_cons + n) % 2 ^ 32)) (s.leadOf k))

/-- HIF_RQ_PROD_WRITE: the driver posts requests; a count more than 2^k ahead of what has been read is rejected. -/
def execHifRqProdWrite (path : RegPath) (c : CtxId) (prod : BitVec 32) (s : State) : Host.Outcome State Fault Refusal :=
  .next (if 2 ^ s.fld (R.hifQbase c.val) F.hifQbase_k < (prod.toNat + 2 ^ 32 - s.fld (R.hifRq c.val) F.hifRq_cons) % 2 ^ 32 then
      rejectReg s path (R.hifRq c.val) true none
    else s.setFld (R.hifRq c.val) F.hifRq_prod prod.toNat)

/-- HIF_CQ_CONS_WRITE: the driver has taken completions; a hold for room in the ring ends. -/
def execHifCqConsWrite (c : CtxId) (cons : BitVec 32) (s : State) : Host.Outcome State Fault Refusal :=
  .next ((s.setFld (R.hifCq c.val) F.hifCq_cons cons.toNat).unhold c.val .queueRoom)

/-- A plan is ready for the tick at which a running context would go on, or at which a started one begins: it is made, and its copies
have landed (R254, R263, R265). [DEDUCED, log 45] -/
def planReady (s : State) (c : Nat) (x : Ctx) : Bool :=
  let st := s.ctxSt c
  if st = CtxSt.running then (x.planner.planned == some (s.stepOf c + 1) && !(s.copiesLeft c)) || !x.holds.isEmpty
  else if st = CtxSt.ready ∧ x.startNext = true then x.planner.planned == some (s.stepOf c) && !(s.copiesLeft c)
  else true

/-- Pages whose tick has come enter the free list (R264). -/
def freePages (x : Ctx) (step : W64) : Ctx :=
  let due := x.planner.freeing.filter fun f => f.1 == step
  { x with planner := { x.planner with
      arenas := due.foldl (fun m f => giveBack m f.2.1 f.2.2) x.planner.arenas,
      freeing := x.planner.freeing.filter fun f => f.1 != step, nFreed := due.length } }

end Sys2Proof.Machine
end

