-- ==== Sys2Proof/Machine/Contexts.lean ====
section
/-! DEFINITION. Contexts: load, start, hold, preemption, teardown, windows, model keys, the alarm policy and fences, and
the register path of synchronisation objects (R69, R74, R449 to R478, R529, R530, R553, R560 to R563). -/

namespace Sys2Proof.Machine

/-! ### The context record (R454) -/

abbrev Rec := List Byte

def recW (r : Rec) (o : Nat) : Nat := leVal ((r.drop o).take 8)
def recMask (r : Rec) : Nat := bitsOf (recW r 8) 23 16
def recSecure (r : Rec) : Bool := (recW r 0).testBit 16
def recFabric (r : Rec) : Bool := (recW r 0).testBit 17
def recEntry (r : Rec) : Nat := recW r 0x18
def recTileList (r : Rec) : Nat := bitsOf (recW r 0x20) 43 0
def recTileCount (r : Rec) : Nat := bitsOf (recW r 0x20) 54 44 + 1
def recShare (r : Rec) : Nat := bitsOf (recW r 0x38) 6 0
def recCap (r : Rec) : Nat := bitsOf (recW r 0x38) 7 7
def recWays (r : Rec) : Nat := bitsOf (recW r 0x38) 12 8
def recBlock (r : Rec) (p : Nat) : Nat := bitsOf (recW r (0x100 + 8 * p)) 7 0
def recBlocks (r : Rec) (p : Nat) : Nat := bitsOf (recW r (0x100 + 8 * p)) 16 8

def zeroBytes (r : Rec) (o n : Nat) : Bool := ((r.drop o).take n).all (· == 0)

/-- Reserved fields and ranges of the fixed part. -/
def headOk (r : Rec) : Bool :=
  bitsOf (recW r 0) 15 0 == 1 && bitsOf (recW r 0) 63 18 == 0 && bitsOf (recW r 8) 63 24 == 0
    && bitsOf (recW r 0x18) 63 44 == 0 && bitsOf (recW r 0x18) 3 0 == 0
    && bitsOf (recW r 0x20) 63 55 == 0 && bitsOf (recW r 0x20) 5 0 == 0
    && bitsOf (recW r 0x28) 63 44 == 0 && bitsOf (recW r 0x30) 63 44 == 0 && bitsOf (recW r 0x30) 13 0 == 0
    && decide (1 ≤ recShare r) && decide (recShare r ≤ 64) && decide (recWays r ≤ 16) && bitsOf (recW r 0x38) 63 13 == 0
    && zeroBytes r 0x48 0xB8 && zeroBytes r 0x140 0xC0 && zeroBytes r 0x600 0x200

/-- Object blocks: in range, in members only, and owned by nobody (R465). -/
def blocksOk (s : State) (r : Rec) : Bool :=
  (List.range 8).all fun p =>
    bitsOf (recW r (0x100 + 8 * p)) 63 17 == 0
      && (recBlocks r p == 0 || (decide (recBlock r p + recBlocks r p ≤ 256) && (recMask r).testBit p
        && (List.range (recBlocks r p)).all fun i => s.fld (R.synOwn p (recBlock r p + i)) F.synOwn_valid == 0))

/-! ### Windows (R456 to R458) -/

def parseWindow (b : List Byte) : Window :=
  let w0 := recW b 0
  let w2 := recW b 16
  let kind := BitVec.ofNat 3 (bitsOf w0 50 48)
  { valid := w0.testBit 63, f := w0.testBit 54, x := w0.testBit 53, w := w0.testBit 52, r := w0.testBit 51, kind := kind,
    base := bitsOf w0 43 16 * 0x10000, limit := bitsOf (recW b 8) 43 16 * 0x10000 + 0xFFFF,
    dest := if kind = 6 then bitsOf w2 7 0 else bitsOf w2 11 0 }

/-- Zero fields of an entry. -/
def windowClean (b : List Byte) : Bool :=
  let w0 := recW b 0
  let w2 := recW b 16
  let kind := bitsOf w0 50 48
  bitsOf w0 62 55 == 0 && bitsOf w0 47 44 == 0 && bitsOf w0 15 0 == 0 && bitsOf (recW b 8) 63 44 == 0
    && bitsOf (recW b 8) 15 0 == 0 && recW b 24 == 0
    && (if kind = 5 then bitsOf w2 63 12 == 0 else if kind = 6 then bitsOf w2 63 8 == 0 else w2 == 0)

/-- Slice indices that a range of one private range touches. -/
def sliceSpan (a b : Nat) : List Nat :=
  let i := a % 0x2000000000 / 0x18000000
  (List.range (b % 0x2000000000 / 0x18000000 + 1 - i)).map (i + ·)

/-- The place of a window fits its kind (table "Window kinds"). -/
def placeOk (s : State) (mask : Nat) (tiles : List Nat) (x : Window) : Bool :=
  let a := x.base
  let b := x.limit
  let member (p : Nat) : Bool := mask.testBit p
  let privateIn : Bool := decide (b < 0x10000000000) && a / 0x2000000000 == b / 0x2000000000 && member (a / 0x2000000000)
  let slicesOn : Bool := (sliceSpan a b).all fun i =>
    !(noRoom s (a / 0x2000000000 * 0x2000000000 + i * 0x18000000))
  let capIn : Bool := decide (0x20000000000 ≤ a) && decide (b < 0x40000000000)
    && (let n := (a - 0x20000000000) / 0x1000000000
        (List.range ((b - 0x20000000000) / 0x1000000000 + 1 - n)).all fun i => s.stackOn (n + i) && member ((n + i) / 4))
  decide (a ≤ b) && (match x.kind.toNat with
    | 0 => privateIn && slicesOn && (sliceSpan a b).all fun i =>
        !x.w || decide (s.part.tilesPerPart ≤ i) || tiles.contains (a / 0x2000000000 * 256 + i)
    | 1 => capIn
    | 2 => decide (0xE0000000000 ≤ a) && decide (b < 0xE0080000000)
        && (a - 0xE0000000000) / 0x10000000 == (b - 0xE0000000000) / 0x10000000 && member ((a - 0xE0000000000) / 0x10000000)
    | 3 => decide (0xE8000000000 ≤ a) && decide (b < 0xE8100000000)
        && (let t := (a - 0xE8000000000) / 0x200000
            (List.range ((b - 0xE8000000000) / 0x200000 + 1 - t)).all fun i => tiles.contains (t + i))
    | 4 => (privateIn && slicesOn) || capIn
    | 5 => true
    | 6 => s.fld (R.hifHreg x.dest) F.hifHreg_valid == 1 && decide (b - a < 2 ^ s.fld (R.hifHreg x.dest) F.hifHreg_size)
    | _ => false)

/-- Ranges that lie outside every window: the firmware regions, the journal and error rings, the record copies and the
host-queue area (R275, R498, R514, R553). -/
def fwStack (s : State) (p : Nat) : Nat := (s.fwRegion p).elim 0 (· - 0xFF0000000)
/-- [DESIGN CHOICE, log 80] -/
def recordArea (s : State) (p : Nat) : Nat := fwStack s p + 0xFC8000000
/-- [DESIGN CHOICE, log 80] -/
def queueArea (s : State) : Nat := fwStack s 0 + 0xFCC000000

def reservedRanges (s : State) : List (Nat × Nat) :=
  (List.range 8).flatMap (fun p =>
    (match s.fwRegion p with
      | some b => [(b, b + 0xFFFFFFF), (recordArea s p, recordArea s p + 0xFFFFF)]
      | none => [])
      ++ [(jBase s p, jBase s p + jSize s p - 1),
          (s.fld (R.errBase p) F.errBase_base * 0x10000,
           s.fld (R.errBase p) F.errBase_base * 0x10000 + 2 ^ s.fld (R.errBase p) F.errBase_size - 1)])
    ++ [(queueArea s, queueArea s + 0x3FFFFFF)]

/-- No byte of a window with W lies in a window of another context, and shared bytes stay in one logical partition
(R458). The windows that another context gets at its next tick count too. -/
def shareOk (s : State) (c mask : Nat) (x : Window) : Bool :=
  !x.here || s.ctxs.rows.all fun y =>
    y.1 == c || (y.2.windows.vals ++ y.2.nextWindows.elim [] (·.vals)).all fun z =>
      !z.here || !(overlaps x.base x.limit z.base z.limit) || (!x.w && !z.w && y.2.mask == mask)

/-- A window opened over a retired region: firmware opens none, while one that is open already stays (R273). [DEDUCED, log 139] -/
def overHole (s : State) (c : Nat) (x : Window) : Bool :=
  x.here && (s.holes.any fun h => overlaps x.base x.limit (h * 0x200000) (h * 0x200000 + 0x1FFFFF))
    && !((s.ctxs.get? c).any fun y => y.windows.vals.contains x)

/-- Sixteen entries that obey R456 to R458. [DEDUCED, log 78] -/
def windowsOk (s : State) (c mask : Nat) (tiles : List Nat) (b : Nat → List Byte) : Bool :=
  (List.range 16).all fun w =>
    let x := parseWindow (b w)
    windowClean (b w)
      && (if w = 0 then x.valid && x.kind == 4 && x.r && x.x && !x.w else !(x.valid && x.x))
      && (!x.valid || (placeOk s mask tiles x && shareOk s c mask x && !overHole s c x
        && (!x.here || !((reservedRanges s).any fun q => overlaps x.base x.limit q.1 q.2))))

def entryBytes (r : Rec) (w : Nat) : List Byte := (r.drop (0x200 + 32 * w)).take 32

def windowsOf (b : Nat → List Byte) : SMap Window := ⟨(List.range 16).map fun w => (w, parseWindow (b w))⟩

/-! ### Rings -/

/-- The ring whose first word lies at `o` of a record; `none` when unused. -/
def parseRing (r : Rec) (o : Nat) : Option RingDef :=
  if recW r o = 0 then none
  else some ⟨bitsOf (recW r o) 43 6 * 64, bitsOf (recW r o) 47 44, bitsOf (recW r (o + 8)) 13 0, bitsOf (recW r (o + 8)) 22 16⟩

def ringsAt (r : Rec) (p : Nat) : CtxRings :=
  let o := 0x400 + 64 * p
  ⟨parseRing r o, parseRing r (o + 0x10), parseRing r (o + 0x20), 0, 0⟩

/-- Bytes a ring occupies: entries and, for a collective ring, the status word behind them. -/
def ringBytes (kind k : Nat) : Nat := if kind = 0 then 64 * 2 ^ k else if kind = 1 then 8 * 2 ^ k else 32 * 2 ^ k + 8

/-- A scratch window of partition `p` that holds a range. -/
def inScratch (ws : SMap Window) (p a n : Nat) : Bool :=
  ws.vals.any fun x => x.valid && x.kind == 2 && decide (x.base ≤ a) && decide (a + n - 1 ≤ x.limit)
    && (a - 0xE0000000000) / 0x10000000 == p

def ringOk (r : Rec) (ws : SMap Window) (p kind : Nat) : Bool :=
  let o := 0x400 + 64 * p + 16 * kind
  let w := recW r o
  match parseRing r o with
  | none => true
  | some d =>
    bitsOf w 63 48 == 0 && bitsOf w 5 0 == 0 && decide (4 ≤ d.k) && decide (d.k ≤ 12) && (recMask r).testBit p
      && inScratch ws p d.base (ringBytes kind d.k)
      && bitsOf (recW r (o + 8)) 63 (if kind = 1 then 23 else 14) == 0
      && decide (recBlock r p * 64 ≤ d.doorbell) && decide (d.doorbell < (recBlock r p + recBlocks r p) * 64)

def ringsOk (r : Rec) (ws : SMap Window) : Bool :=
  (List.range 8).all fun p =>
    zeroBytes r (0x400 + 64 * p + 0x30) 16 && ringOk r ws p 0 && ringOk r ws p 1 && ringOk r ws p 2

/-! ### Tiles, ways, queues, the KV block (R233, R269, R294, R377, R463) -/

/-- Memory that holds what a record names. -/
def isData (s : State) (a : Nat) : Bool := match s.region a with | .hole => false | .registers => false | _ => true

/-- The tile list of a record can be read. -/
def tileListOk (s : State) (r : Rec) : Bool :=
  isData s (recTileList r) && s.statusAt (recTileList r) (2 * recTileCount r) == .ok

def recTiles (s : State) (r : Rec) : List Nat :=
  (List.range (recTileCount r)).map fun i => s.load (recTileList r + 2 * i) 2

def tilesOk (s : State) (mask : Nat) (l : List Nat) : Bool :=
  decide l.Nodup && l.all fun t =>
    decide (t < 2048) && decide (t % 256 < s.part.tilesPerPart) && s.mapped (t / 256) (t % 256) && mask.testBit (t / 256)
      && (s.tile t).st == .idle && !(s.tile t).ctxValid

/-- Scratch ways of partition `p` that the scratch windows cover. -/
def scratchWays (ws : SMap Window) (p : Nat) : List Nat :=
  (List.range 16).filter fun w => ws.vals.any fun x =>
    x.valid && x.kind == 2 && overlaps x.base x.limit (scratchBase p + w * 0x1000000) (scratchBase p + w * 0x1000000 + 0xFFFFFF)

def freeWayList (s : State) (p : Nat) : List Nat :=
  (List.range 16).filter fun w =>
    s.fld (R.scaWay p w) F.scaWay_kind == 0

/-- Cache ways that a load takes in partition `p`: the lowest free ones that no scratch window needs. -/
def cacheWays (s : State) (r : Rec) (ws : SMap Window) (p : Nat) : List Nat :=
  ((freeWayList s p).filter fun w => !(scratchWays ws p).contains w).take (recWays r)

def waysOk (s : State) (r : Rec) (ws : SMap Window) : Bool :=
  (List.range 8).all fun p => !((recMask r).testBit p)
    || ((scratchWays ws p).all (freeWayList s p).contains && (cacheWays s r ws p).length == recWays r)

def freeBulk (s : State) (p : Nat) : Option Nat := (List.range 64).find? fun q => s.fld (R.bulkQctl p q) F.bulkQctl_valid == 0

def bulkOk (s : State) (r : Rec) : Bool :=
  (List.range 8).all fun p => (parseRing r (0x400 + 64 * p + 0x10)).isNone || (freeBulk s p).isSome

/-- The KV configuration block obeys R233 and R269. -/
def kvOk (s : State) (r : Rec) (ws : SMap Window) (tiles : List Nat) : Bool :=
  let a := recW r 0x28
  if a = 0 then true
  else
    let k := kvCfg s a
    let w0 := s.load a 8
    bitsOf w0 15 0 == 1 && bitsOf w0 63 40 == 0 && k.rcBase % 64 == 0 && decide (1 ≤ k.rcCount)
      && decide (k.rcCount ≤ 1048575) && (List.range 8).any (fun p => inScratch ws p k.rcBase (4 * (k.rcCount + 1)))
      && k.privOff % 0x10000 == 0 && decide (k.privOff + k.privSize ≤ 0x18000000)
      && (s.bytesAt (a + 0x30) 208).all (· == 0)
      && (List.range (k.layers * k.heads)).all fun i =>
        let e := s.load (k.groupMap + 8 * i) 8
        (List.range (bitsOf e 7 0 + 1)).all fun j => tiles.contains (s.load (k.groupMap + bitsOf e 39 8 + 2 * j) 2)

/-- Shares stay within R461 on every member. -/
def sharesOk (s : State) (c : Nat) (r : Rec) : Bool := decide (shareSum s c + recShare r ≤ 64)

/-! ### Queue pairs (R553) -/

def pairBytes (k : Nat) : Nat := 96 * 2 ^ k

/-- Pairs in the host-queue area, by start and end. -/
def pairs (s : State) : List (Nat × Nat) :=
  (List.range 512).filterMap fun i =>
    let q := R.hifQbase i
    if s.fld q F.hifQbase_valid = 1 then some (s.fld q F.hifQbase_base * 64, s.fld q F.hifQbase_base * 64 + pairBytes (s.fld q F.hifQbase_k))
    else none

/-- Lowest place for a pair of order `k`. [DEDUCED, log 78] -/
def placePair (s : State) (k : Nat) : Option Nat :=
  let top := queueArea s + 0x4000000
  let starts := queueArea s :: (pairs s).map (·.2)
  let fits (a : Nat) : Bool := decide (a + pairBytes k ≤ top)
    && (pairs s).all fun p => decide (a + pairBytes k ≤ p.1) || decide (p.2 ≤ a)
  (starts.filter fits).foldl (fun m a => match m with | none => some a | some b => some (min a b)) none

/-! ### Acceptance of a load (R452, R462, R463) -/

/-- A context before its load completes. -/
def Ctx.loading (r : Rec) (order no : Nat) (inbound : List (Nat × Bool)) : Ctx :=
  { record := r, secure := recSecure r, fabric := recFabric r, mask := recMask r, seed := BitVec.ofNat 64 (recW r 0x10),
    entry := recEntry r, tiles := [], kvBlock := recW r 0x28, peerTable := recW r 0x30,
    startStep := BitVec.ofNat 64 (recW r 0x40), windows := SMap.empty, nextWindows := none, rings := SMap.empty,
    snapRings := SMap.empty, snapColl := SMap.empty, snapObjs := SMap.empty, startCmds := [], startNext := false,
    preempting := 0, holds := [], appended := none, lastRecord := SMap.empty, inbound := inbound,
    firstPeriod := 0, deferred := none, waiting := none, slips := 0, firstTick := 0, folds := [],
    planner := Planner.reset, regen := none, partner := none, recPoint := none, lastPoint := none,
    queueOrder := order, loadNo := no, residues := SMap.empty }

/-- The mask of a record names one logical partition, none of it fenced or in reset. -/
def maskOk (s : State) (mask : Nat) : Bool :=
  match (List.range 8).find? mask.testBit with
  | none => false
  | some p => (s.members p).foldl (fun m q => m + 2 ^ q) 0 == mask
      && (s.members p).all fun q => !(s.fenced q) && !(s.inReset q)

/-- Lowest free slot of the lowest-numbered member, passing by indices freed less than 1 s ago. [DEDUCED, log 78] -/
def freeSlot (s : State) (mask : Nat) (recent : List CtxId) : Option Nat :=
  ((List.range 512).filter fun c => mask.testBit (c / 64)).find? fun c =>
    s.ctxSt c == CtxSt.free && !(recent.any fun r => r.val == c)

/-- The driver's record can be read. -/
def recordAt (s : State) (a : Nat) : Nat × Rec :=
  if a % 64 ≠ 0 ∨ isData s a = false then (St.bound, [])
  else if s.statusAt a 2048 ≠ .ok then (St.poison, [])
  else (St.ok, s.bytesAt a 2048)

/-- Index `c` goes to LOADING with a record. -/
def acceptLoad (s : State) (c : Nat) (r : Rec) (order : Nat) (inbound : List (Nat × Bool)) : State :=
  let id := c * 128 + s.ctxId c % 128
  let s1 := ((s.setFld (R.ctxState c) F.ctxState_ctx_id id).setFld (R.ctxState c) F.ctxState_secure (bit (recSecure r) 0))
  (s1.setCtxSt c CtxSt.loading).setCtx c (Ctx.loading r order ((s.ctxs.vals.map (·.loadNo)).foldl max 0 + 1) inbound)

def orderOk (k : Nat) : Bool := k == 0 || (decide (6 ≤ k) && decide (k ≤ 14))

/-- LOAD_CONTEXT: the load is accepted, and the response carries the context ID. `recent` are the indices whose teardown
completed less than 1 s ago; `inbound` lists the inbound objects of the compiled model with their parity (R484). -/
def execLoadContext (c : Cmd) (addr : BitVec 64) (k : BitVec 8) (recent : List CtxId) (inbound : List (BitVec 17 × Bool))
    (s : State) : Host.Outcome State Fault Refusal :=
  .next (mgmt 0x0403 .hostOnly false c s fun s =>
    let (st, r) := recordAt s addr.toNat
    if st ≠ St.ok then (st, [], s)
    else if orderOk k.toNat = false ∨ maskOk s (recMask r) = false then (St.bound, [], s)
    else match freeSlot s (recMask r) recent with
      | none => (St.bound, [], s)
      | some i =>
        let s1 := acceptLoad s i r k.toNat (inbound.map fun x => (x.1.toNat, x.2))
        (St.ok, leBytes 2 (s1.ctxId i), s1))

/-! ### Completion of a load (R463) -/

/-- Every check of R463 steps 1 and 2. -/
def loadChecks (s : State) (c : Nat) (x : Ctx) : Bool :=
  let r := x.record
  let tiles := recTiles s r
  let ws := windowsOf (entryBytes r)
  headOk r && maskOk s x.mask && blocksOk s r && tileListOk s r && tilesOk s x.mask tiles && windowsOk s c x.mask tiles (entryBytes r)
    && ringsOk r ws && kvOk s r ws tiles && sharesOk s c r && waysOk s r ws && bulkOk s r
    && (x.queueOrder == 0 || (placePair s x.queueOrder).isSome)

/-- Arenas of R257 for a context. -/
def arenasOf (s : State) (x : Ctx) (tiles : List Nat) : SMap Arena :=
  if x.kvBlock = 0 then SMap.empty
  else
    let k := kvCfg s x.kvBlock
    let a1 := tiles.foldl (fun (m : SMap Arena) t => m.set t ⟨sliceBase t + k.privOff, k.privSize, 0, []⟩) SMap.empty
    ((List.range 8).filter x.mask.testBit).foldl (fun m p =>
      let w (i : Nat) : Nat := s.load (k.arenas + 32 * p + 8 * i) 8
      (m.set (4096 + p) ⟨w 0, w 1, 0, []⟩).set (nearKey p) ⟨w 2, w 3, 0, []⟩) a1

/-- Ways, queues and blocks of one member partition assigned to a context. -/
def assignPart (s : State) (c : Nat) (r : Rec) (ws : SMap Window) (p : Nat) : State :=
  let cw := cacheWays s r ws p
  let s1 := cw.foldl (fun s w => setWay s p w 1 c) s
  let s2 := (scratchWays ws p).foldl (fun s w => setWay s p w 2 c) s1
  (List.range (recBlocks r p)).foldl (fun s i =>
    let b := recBlock r p + i
    let s1 := s.setReg (R.synOwn p b) (BitVec.ofNat 64 (2 ^ 63 + bit (recFabric r) 62 + s.ctxId c))
    (List.range 64).foldl (fun s j => s.setObj (State.objKey p (64 * b + j)) 0) s1) s2

/-- The post ring of a partition gets its bulk queue. -/
def assignQueue (s : State) (c : Nat) (x : Ctx) (p : Nat) : State × Ctx :=
  let g := ringsAt x.record p
  match g.post, freeBulk s p with
  | some d, some q =>
    let s1 := (s.setFld (R.bulkQctl p q) F.bulkQctl_valid 1).setFld (R.bulkQctl p q) F.bulkQctl_ctx (s.ctxId c)
    let o := 0x400 + 64 * p + 0x18
    let rec1 := x.record.take o ++ leBytes 8 (setBitsOf (recW x.record o) 22 16 q) ++ x.record.drop (o + 8)
    (s1, { x with rings := x.rings.set p { g with post := some { d with queue := q } }, record := rec1 })
  | _, _ => (s, { x with rings := x.rings.set p g })

/-- A tile taken by a context: registers as at context start, the start step, its owner, and its save area in the top 2,176 KiB of
its slice (R76). -/
def takeTile (s : State) (c : Nat) (step : W64) (t : Nat) : State :=
  let T := (s.tile t).cleared .idle
  (s.setFld (R.tileSaveBase t) F.tileSaveBase_base ((sliceBase t + 0x17DE0000) / 0x10000)).setTile t { T with ctxValid := true, ctxIndex := c, ctxGen := s.ctxId c % 128, step := step }

/-- Steps 3 to 6 of a load. -/
def setUp (s : State) (c : Nat) (x : Ctx) : State :=
  let tiles := recTiles s x.record
  let ws := windowsOf (entryBytes x.record)
  let parts := (List.range 8).filter x.mask.testBit
  let rec0 := x.record.take 8 ++ leBytes 8 (setBitsOf (recW x.record 8) 15 0 (s.ctxId c)) ++ x.record.drop 16
  let x1 := { x with record := rec0, tiles := tiles, windows := ws, planner := { Planner.reset with arenas := arenasOf s x tiles } }
  let s1 := parts.foldl (fun s p => assignPart s c x.record ws p) s
  let (s2, x2) := parts.foldl (fun sx p => assignQueue sx.1 c sx.2 p) (s1, x1)
  let s3 := tiles.foldl (fun s t => takeTile s c x.startStep t) s2
  let s4 := match x.queueOrder, placePair s x.queueOrder with
    | 0, _ => s3
    | k, some a =>
      (((((s3.setFld (R.hifQbase c) F.hifQbase_valid 1).setFld (R.hifQbase c) F.hifQbase_k k).setFld (R.hifQbase c)
        F.hifQbase_base (a / 64)).setReg (R.hifRq c) 0).setReg (R.hifCq c) 0)
    | _, none => s3
  let s5 := (s4.writeBytes (recordArea s4 (parts.headD 0) + 2048 * c) x2.record).setCtx c x2
  let s6 := ((s5.setReg (R.ctxCommit c) (x.startStep - 1)).setReg (R.ctxRevive c) 0).setReg (R.ctxRpoint c) (BitVec.allOnes 64)
  let s7 := (s6.setFld (R.ctxShare c) F.ctxShare_share (recShare x.record)).setFld (R.ctxShare c) F.ctxShare_cap (recCap x.record)
  startRecord (s7.setCtxSt c CtxSt.ready) c

/-- LOAD_COMPLETE: the checks and the set-up end; a load that fails leaves nothing assigned, and a kept StartContext then ends with BOUND;
otherwise it takes effect and answers at the next tick (R462 to R464). -/
def execLoadComplete (c : CtxId) (s : State) : Host.Outcome State Fault Refusal :=
  let k := c.val
  .next (match s.ctxs.get? k with
  | none => s
  | some x =>
    if s.ctxSt k ≠ CtxSt.loading then s
    -- the load waits for the clears of what its windows open (R314)
    else if (windowsOf (entryBytes x.record)).vals.all (clearedFor s k) = false then s
    else if loadChecks s k x then
      -- a flow stop holds a context as soon as it is loaded (R658)
      let s1 := if s.board.flowStop then (setUp s k x).hold k .flow else setUp s k x
      if x.startCmds = [] then s1 else s1.updCtx k fun y => { y with startNext := true }
    else
      let s1 := (({ s with ctxs := s.ctxs.erase k }).setCtxSt k CtxSt.free).setFld (R.ctxState k) F.ctxState_secure 0
      x.startCmds.foldl (fun s cmd => reply s 0x0404 cmd St.bound []) s1)

/-! ### Lifecycle commands (R69, R74, R462, R464, R529) -/

/-- Start of a READY context, or of one that is LOADING, at the next tick that it receives; `none` in any other state (R464).
[DEDUCED, log 79] -/
def startCtx (s : State) (k : Nat) : Option State :=
  if s.ctxSt k = CtxSt.ready ∨ s.ctxSt k = CtxSt.loading then some (s.updCtx k fun x => { x with startNext := true }) else none

def holdCtx (s : State) (k : Nat) : Option State :=
  if s.ctxSt k = CtxSt.running ∨ s.ctxSt k = CtxSt.held then some ((s.hold k .driver).settleHold k) else none

/-- [DEDUCED, log 68] -/
def releaseCtx (s : State) (k : Nat) : Option State :=
  if s.ctxSt k = CtxSt.running ∨ s.ctxSt k = CtxSt.held then
    -- a hold after a loss of the host link needs the link back (R572)
    let s0 := ((s.unhold k .driver).unhold k .peerLost).unhold k .depart
    let s1 := if s.fld R.hifLink F.hifLink_width = 0 then s0 else s0.unhold k .hostLink
    -- a hold that has not taken effect yet ends with its last reason
    some (match s1.ctxs.get? k with
      | some x =>
        if x.holds = [] ∧ s1.ctxSt k = CtxSt.running then
          (s1.setFld (R.ctxState k) F.ctxState_hold_pending 0).resumeWaiting k
        else s1
      | none => s1)
  else none

def preemptCtx (s : State) (k : Nat) (urgent : Bool) : Option State :=
  if s.ctxSt k = CtxSt.running ∨ s.ctxSt k = CtxSt.held then
    let s1 := (s.ctxTiles k).foldl (fun s t => requestSave s t (if urgent then .urgent else .step)) s
    some (s1.updCtx k fun x => { x with preempting := if urgent then 2 else 1 })
  else none

/-- A saved tile starts to read its save area (R74). -/
def restoreTile (s : State) (t : Nat) : State :=
  let T := s.tile t
  if T.st = .idle ∧ T.preempt = none then
    s.setTile t { T with st := .restore, preempt := some .restore, preemptResult := 0 }
  else s

def resumeCtx (s : State) (k : Nat) : Option State :=
  if s.ctxSt k = CtxSt.saved then some ((s.ctxTiles k).foldl restoreTile s) else none

/-- [DEDUCED, log 79] -/
def tearDownCtx (s : State) (k : Nat) : Option State :=
  let st := s.ctxSt k
  if st = CtxSt.ready ∨ st = CtxSt.running ∨ st = CtxSt.held ∨ st = CtxSt.saved then some (s.startTeardown k St.cancelled)
  else none

/-- A lifecycle command on the scoped context. -/
def ctxCommand (code : Nat) (c : Cmd) (s : State) (f : State → Nat → Option State) : Host.Outcome State Fault Refusal :=
  .next (mgmt code .hostOnly false c s fun s => match scopeCtx c with
    | none => (St.bound, [], s)
    | some k => match f s k with
      | none => (St.bound, [], s)
      | some s1 => (St.ok, [], s1))

/-- START_CONTEXT: while the context is LOADING the command is kept and answers when the load has ended (R464). -/
def execStartContext (c : Cmd) (s : State) : Host.Outcome State Fault Refusal :=
  match c.path, scopeCtx c with
  | .host, some k =>
    if s.ctxSt k = CtxSt.loading ∧ s.board.restricted = false then .next (s.updCtx k fun x => { x with startCmds := x.startCmds ++ [c] })
    else ctxCommand 0x0404 c s startCtx
  | _, _ => ctxCommand 0x0404 c s startCtx

def execHoldContext (c : Cmd) (s : State) : Host.Outcome State Fault Refusal := ctxCommand 0x0405 c s holdCtx
def execReleaseContext (c : Cmd) (s : State) : Host.Outcome State Fault Refusal := ctxCommand 0x0406 c s releaseCtx
def execPreemptContext (c : Cmd) (urgent : Bool) (s : State) : Host.Outcome State Fault Refusal :=
  ctxCommand 0x0407 c s fun s k => preemptCtx s k urgent
def execResumeContext (c : Cmd) (s : State) : Host.Outcome State Fault Refusal := ctxCommand 0x0408 c s resumeCtx
def execTearDownContext (c : Cmd) (s : State) : Host.Outcome State Fault Refusal := ctxCommand 0x0409 c s tearDownCtx

/-! ### Window updates (R460) -/

/-- Windows for the next tick from 16 entries at an address; `none` when they break a rule. -/
def updateWindows (s : State) (k a : Nat) : Option State :=
  match s.ctxs.get? k with
  | none => none
  | some x =>
    let b (w : Nat) : List Byte := s.bytesAt (a + 32 * w) 32
    let st := s.ctxSt k
    if (st = CtxSt.ready ∨ st = CtxSt.running ∨ st = CtxSt.held ∨ st = CtxSt.saved) ∧ s.statusAt a 512 = .ok
        ∧ windowsOk s k x.mask x.tiles b = true then
      some (s.setCtx k { x with nextWindows := some (windowsOf b) })
    else none

def execUpdateContextWindows (c : Cmd) (addr : BitVec 64) (s : State) : Host.Outcome State Fault Refusal :=
  ctxCommand 0x040A c s fun s k => updateWindows s k addr.toNat

/-- Regions of private and capacity windows that no window of a context covers any more are cleared. Of a region that another window
still covers in part, the 64 KiB blocks left stay shut to every other context until it is cleared (R314). [DEDUCED, log 78] -/
def clearLeft (s : State) (owner : Nat) (old : SMap Window) : State :=
  let live := s.ctxs.vals.flatMap fun x => (x.windows.vals ++ (x.nextWindows.elim [] (·.vals))).filter Window.here
  let regions := (old.vals.filter fun x => x.valid && (x.kind == 0 || x.kind == 1)).flatMap fun x =>
    (List.range (x.limit / 0x200000 + 1 - x.base / 0x200000)).map (x.base / 0x200000 + ·)
  let covered (a n : Nat) : Bool := live.any fun y => overlaps y.base y.limit a (a + n - 1)
  let (kept, gone) := regions.dedup.partition fun r => covered (r * 0x200000) 0x200000
  let wasOpen (b : Nat) : Bool := old.vals.any fun x => x.valid && overlaps x.base x.limit (b * 0x10000) (b * 0x10000 + 0xFFFF)
  let blocks := (kept.flatMap fun r => (List.range 32).map (r * 32 + ·)).filter fun b => wasOpen b && !covered (b * 0x10000) 0x10000
  let left := blocks.map fun b => (b, owner)
  gone.foldl clearRegion { s with board := { s.board with unclean := s.board.unclean ++ left } }

/-- The windows of a context take effect at a tick it receives. -/
def applyWindows (s : State) (k : Nat) : State :=
  match s.ctxs.get? k with
  | none => s
  | some x => match x.nextWindows with
    | none => s
    | some ws =>
      if ws.vals.all (clearedFor s k) = false then s
      else retireMoved (clearLeft (s.setCtx k { x with windows := ws, nextWindows := none }) k x.windows)

/-! ### Teardown (R453, R529, R530) -/

/-- Engines that still count work of a context: unit kinds and indices. -/
def holders (s : State) (k : Nat) : List (Nat × Nat × Nat) :=
  let tiles := (s.ctxTiles k).filter fun t => s.reqs.vals.any fun r => r.tile == t
  let queues := (s.ctxQueues k).filter fun q => s.qInFlight q != 0
  tiles.map (fun t => (t / 256, 1, t))
    ++ queues.map fun q => if q < 16384 then (qPart q, 2, q) else (qPart q, 7, qNum q)

/-- Fabric requests of a context without an answer. -/
def fabricHeld (s : State) (k : Nat) : Bool := s.fab.out.any fun f => reqCtx s f == some k

/-- The context is gone: tiles cleared, blocks, queues and the queue pair freed, the generation increased; a StartContext that was kept
ends with CANCELLED. [DEDUCED, log 47] -/
def freeCtx (s : State) (k : Nat) (x : Ctx) : State :=
  let id := s.ctxId k
  let s0 := endRecord (x.startCmds.foldl (fun s cmd => reply s 0x0404 cmd St.cancelled []) s) k
  let s1 := x.tiles.foldl (fun s t =>
    let st : TileSt := match (s.tile t).st with | .reset => .reset | .halted => .halted | .off => .off | _ => .idle
    let c := s.clearTile t st
    c.setTile t { c.tile t with ctxValid := false }) s0
  let s2 := (List.range 8).foldl (fun s p => (List.range 256).foldl (fun s b =>
    if s.fld (R.synOwn p b) F.synOwn_valid = 1 ∧ s.fld (R.synOwn p b) F.synOwn_ctx_id = id then s.setReg (R.synOwn p b) 0 else s) s) s1
  let s3 := (List.range 8).foldl (fun s p => (List.range 64).foldl (fun s q =>
    if s.fld (R.bulkQctl p q) F.bulkQctl_valid = 1 ∧ s.fld (R.bulkQctl p q) F.bulkQctl_ctx = id then
      (s.setFld (R.bulkQctl p q) F.bulkQctl_valid 0).setFld (R.bulkQctl p q) F.bulkQctl_ctx 0
    else s) s) s2
  let s4 := ((s3.setReg (R.hifQbase k) 0).setReg (R.hifRq k) 0).setReg (R.hifCq k) 0
  let mine := s4.board.unclean.map fun b => if b.2 = k then (b.1, 512) else b
  let s5 := clearLeft { s4 with ctxs := s4.ctxs.erase k, board := { s4.board with unclean := mine } } 512 x.windows
  let s6 := ((s5.setCtxSt k CtxSt.free).setFld (R.ctxState k) F.ctxState_secure 0).setFld (R.ctxState k) F.ctxState_ctx_id
    (k * 128 + (id + 1) % 128)
  let s7 := (s6.setReg (R.ctxShare k) 0).setReg (R.ctxRevive k) 0
  State.showKv (retireMoved (((List.range 8).filter x.mask.testBit).foldl showHeld s7)) (s.leadOf k)

/-- TEARDOWN_COMPLETE: nothing carries the context's tag any more, and no member partition is in reset (R529, R544). -/
def execTeardownComplete (c : CtxId) (s : State) : Host.Outcome State Fault Refusal :=
  let k := c.val
  .next (match s.ctxs.get? k with
  | none => s
  | some x =>
    if s.ctxSt k = CtxSt.teardown ∧ ctxInflight s k = 0 ∧ fabricHeld s k = false ∧ (s.ctxParts k).any s.inReset = false
        ∧ (holders s k).all (fun h => !(s.engResets.any fun e => e.kind == h.2.1 && e.index == h.2.2)) = true then
      freeCtx s k x
    else s)

/-- TEARDOWN_DEADLINE: every engine that still holds the context is reset. -/
def execTeardownDeadline (c : CtxId) (s : State) : Host.Outcome State Fault Refusal :=
  let k := c.val
  .next (if s.ctxSt k = CtxSt.teardown then
      (holders s k).foldl (fun s h => s.startEngineReset h.1 h.2.1 h.2.2 2) s
    else s)

/-! ### CTX.CMD (R478) -/

/-- A write of CTX.CMD; a command its state does not allow is rejected. [DEDUCED, log 78] -/
def ctxCmd (s : State) (path : RegPath) (k cmd : Nat) : State :=
  let addr := s.fld (R.ctxRecord k) F.ctxRecord_addr * 64
  let done : Option State := match cmd with
    | 1 =>
      let (st, r) := recordAt s addr
      if s.ctxSt k = CtxSt.free ∧ st = St.ok ∧ maskOk s (recMask r) = true ∧ (recMask r).testBit (k / 64) = true then
        some (acceptLoad s k r 0 [])
      else none
    | 2 => startCtx s k
    | 3 => holdCtx s k
    | 4 => releaseCtx s k
    | 5 => preemptCtx s k false
    | 6 => preemptCtx s k true
    | 7 => resumeCtx s k
    | 8 => tearDownCtx s k
    | 9 => updateWindows s k (addr + 0x200)
    | _ => none
  done.getD (rejectReg s path (R.ctxCmd k) true (some (k / 64)))

/-! ### Model keys and images (R468, R469, R562) -/

def showModelKeys (s : State) (p : Nat) : State :=
  let any := (List.range 16).any fun i => s.board.modelKeys.has (p * 16 + i)
  s.setFld R.secKeystat F.secKeystat_model_any (setBitsOf (s.fld R.secKeystat F.secKeystat_model_any) p p (bit any 0))

/-- The two seeds of the wrap key pair, from the random source (R562). -/
def wrapSeed (w : Nat) : List Byte := (List.range 32).map (Config.keyByte w)
def wrapReject (w : Nat) : List Byte := (List.range 32).map fun i => Config.keyByte w (32 + i)

/-- The model key that a wrapped key holds under the wrap key pair of a draw: the secret of the ciphertext unwraps it (R562). -/
def unwrapModelKey (w : Nat) (ct wrapped : List Byte) : Option (List Byte) :=
  (Aes.unwrapKey ((MlKem.decapsulate (wrapSeed w) (wrapReject w) ct).map BitVec.toNat) (wrapped.map BitVec.toNat)).map
    fun k => k.map (BitVec.ofNat 8)

/-- LOAD_MODEL_KEY: a wrapped key for a slot of the scoped partition. -/
def execLoadModelKey (c : Cmd) (slot : BitVec 8) (counter : BitVec 64) (ct : List Byte) (wrapped : List Byte) (s : State) :
    Host.Outcome State Fault Refusal :=
  .next (mgmt 0x040C .hostOnly false c s fun s =>
    match scopePart c, s.board.wrapKey with
    | some p, some w =>
      if counter.toNat ≠ s.board.wrapCount ∨ 16 ≤ slot.toNat ∨ ct.length ≠ 1568 ∨ wrapped.length ≠ 40
          then (St.bound, [], s)
      else match unwrapModelKey w ct wrapped with
      | none => (St.bound, [], s)
      | some key =>
        let s2 := { s with board := { s.board with
          modelKeys := s.board.modelKeys.set (p * 16 + slot.toNat) key, wrapUses := s.board.wrapUses + 1 } }
        (St.ok, [], showModelKeys (if s2.board.wrapUses = 65536 then s2.newWrapKey else s2) p)
    | _, _ => (St.bound, [], s))

def execUnloadModelKey (c : Cmd) (slot : BitVec 8) (s : State) : Host.Outcome State Fault Refusal :=
  .next (mgmt 0x040D .hostOnly false c s fun s =>
    match scopePart c with
    | none => (St.bound, [], s)
    | some p =>
      if 16 ≤ slot.toNat then (St.bound, [], s)
      else (St.ok, [], showModelKeys { s with board := { s.board with modelKeys := s.board.modelKeys.erase (p * 16 + slot.toNat) } } p))

/-- Plaintext of an image under a model key, in units of 64 bytes whose tweak is the unit's number (R469). -/
def decryptImage (key bs : List Byte) : List Byte :=
  let k1 := key.map BitVec.toNat
  let k2 := (List.range 32).map fun i => (Config.tweakKeyByte key i).toNat
  (List.range (ceilDiv bs.length 64)).flatMap fun u =>
    let unit := (bs.drop (64 * u)).take 64
    let whole := unit.length / 16 * 16
    (Aes.xtsDecrypt k1 k2 u ((unit.take whole).map BitVec.toNat)).map (BitVec.ofNat 8)
      ++ ((List.range (unit.length - whole)).map (whole + ·)).map (Config.tailByte key u unit)

/-- LOAD_MODEL_IMAGE: an encrypted image of the scoped context, in a capacity or host window, decrypted into a window with
W. `ext` is what host memory holds. -/
def execLoadModelImage (c : Cmd) (slot : BitVec 8) (img : BitVec 64) (len : BitVec 64) (dst : BitVec 64) (ext : List Byte)
    (s : State) : Host.Outcome State Fault Refusal :=
  .next (mgmt 0x040E .hostOnly false c s fun s =>
    match scopeCtx c with
    | none => (St.bound, [], s)
    | some k =>
      let n := len.toNat
      let at' (x : BitVec 64) : Nat × Nat := (bitsOf x.toNat 47 44, s.localDev * 2 ^ 44 + bitsOf x.toNat 43 0)
      let src := at' img
      let srcHost := match s.window k src.1 with | some w => w.kind == 6 | none => false
      let srcOk := match s.window k src.1 with | some w => w.kind == 6 || w.kind == 1 | none => false
      let from' := s.resolve k src.1 (if srcHost then src.2 % 2 ^ 44 else src.2) n .rd
      let to' := s.resolve k (at' dst).1 (at' dst).2 n .wr
      match s.board.modelKeys.get? (k / 64 * 16 + slot.toNat), from', to' with
      | some key, some l, some (.here d) =>
        -- the bulk movers of firmware write it, at its home (R355, R469)
        let put (d : Nat) (bs : List Byte) (s : State) : State :=
          (s.homeRange 512 d n 1 true).writeBytes d (decryptImage key bs)
        if 16 ≤ slot.toNat ∨ n = 0 ∨ srcOk = false ∨ s.answers k d n = false then (St.bound, [], s)
        else match l with
          | .here a =>
            if s.statusAt a n ≠ .ok then (St.poison, [], s) else (St.ok, [], put d (s.bytesAt a n) s)
          | .host h =>
            if ext.length ≠ n then (St.timeout, [], s.emit (.hostRead h n))
            else (St.ok, [], put d ext (s.emit (.hostRead h n)))
          | .peer _ _ => (St.bound, [], s)
      | _, _, _ => (St.bound, [], s))

/-- GET_WRAP_KEY: counter, encapsulation key and signature. -/
def execGetWrapKey (c : Cmd) (s : State) : Host.Outcome State Fault Refusal :=
  .next (mgmt 0x0411 .hostOnly false c s fun s =>
    match s.board.wrapKey with
    | none => (St.bound, [], s)
    | some w =>
      let (n, s1) := s.draw
      (St.ok, leBytes 8 s.board.wrapCount ++ MlKem.encapsulationKey (wrapSeed w) ++ (List.range 96).map (Config.keyByte n), s1))

/-! ### Alarm policy and fences (R473 to R475) -/

/-- Levels that no source lowers while the lock is set. -/
def levelsOk (s : State) (new : Nat) : Bool :=
  s.fld R.secAlarmpol F.secAlarmpol_lock == 0
    || (List.range 5).all fun i => decide (s.fld R.secAlarmpol F.secAlarmpol_levels / 4 ^ i % 4 ≤ new / 4 ^ i % 4)

/-- A write of SEC.ALARMPOL: whole or not at all; a lock that is set stays set. -/
def writeAlarmPolicy (s : State) (path : RegPath) (x m : W64) : State :=
  let old := s.reg R.secAlarmpol
  let new := ((old &&& ~~~m) ||| (x &&& m)).toNat
  if levelsOk s (bitsOf new 9 0) = false then rejectReg s path R.secAlarmpol true none
  else
    let s1 := (s.setFld R.secAlarmpol F.secAlarmpol_levels (bitsOf new 9 0)).setFld R.secAlarmpol F.secAlarmpol_lock
      (max (s.fld R.secAlarmpol F.secAlarmpol_lock) (bitsOf new 16 16))
    markLevel s1 R.secAlarmpol (pathLevel path) m

/-- SEC_ALARMPOL_WRITE: `size` is 4 or 8 bytes; a 4-byte access reaches bits [31:0]. -/
def execSecAlarmpolWrite (path : RegPath) (x : BitVec 64) (s : State) : Host.Outcome State Fault Refusal :=
  .next (writeAlarmPolicy s path x (BitVec.allOnes 64))

def execSetAlarmPolicy (c : Cmd) (items : List Item) (s : State) : Host.Outcome State Fault Refusal :=
  .next (mgmt 0x040F .trayOnly false c s fun s =>
    let tab : List Setting := [⟨R.secAlarmpol, F.secAlarmpol_levels, 0, 0x3FF⟩, ⟨R.secAlarmpol, F.secAlarmpol_lock, 0, 1⟩]
    match (gatherItems items).rows, items.all (itemOk s c tab) with
    | [(_, m, x)], true =>
      let s1 := writeAlarmPolicy s .item x m
      let new := ((s.reg R.secAlarmpol &&& ~~~m) ||| (x &&& m)).toNat
      if levelsOk s (bitsOf new 9 0) then (St.ok, [], s1) else (St.bound, [], s1)
    | _, _ => (St.bound, [], s))

/-- Regions of the private and near capacity ranges of a partition. -/
def partRegions (s : State) (p : Nat) : List Nat :=
  let a := p * 0x2000000000 / 0x200000
  let b := capBase (4 * p) / 0x200000
  ((List.range 0x10000).map (a + ·) ++ (List.range 0x20000).map (b + ·)).filter (regionOf s p)

/-- A fence lifted: erased keys drawn again, every region of the partition cleared. [DEDUCED, log 15] -/
def liftFence (s : State) (p : Nat) : State :=
  let erased := s.fld (R.partFence p) F.partFence_keys_erased = 1
  let s1 := if erased then
      let (n, t) := s.draw
      let t1 := { t with board := { t.board with memKeys := t.board.memKeys.set p n } }
      (partRegions t1 p).foldl clearRegion
        (t1.setFld R.secKeystat F.secKeystat_mem_valid (setBitsOf (t1.fld R.secKeystat F.secKeystat_mem_valid) p p 1))
    else (partRegions s p).foldl clearRegion s
  (s1.setFld (R.partFence p) F.partFence_keys_erased 0).setFld (R.partFence p) F.partFence_fenced 0

/-- CLEAR_FENCE: the fence of the scoped partition and of its logical partition, or of every partition, is lifted.
[DEDUCED, log 15] -/
def execClearFence (c : Cmd) (s : State) : Host.Outcome State Fault Refusal :=
  .next (mgmt 0x0410 .trayOnly false c s fun s =>
    let scope := match c.scope.kind.toNat, scopePart c with
      | 0, _ => List.range 8
      | _, some p => s.members p
      | _, none => []
    let ps := scope.filter s.fenced
    if ps = [] then (St.bound, [], s) else (St.ok, [], ps.foldl liftFence s))

/-! ### Objects through the register path (R467) -/

/-- An update on its way to the object's base die. -/
def pathUpdate (s : State) (k : ReqKind) (p i : Nat) (x : W64) : State :=
  let r : MemReq :=
    { tile := 2049, flight := 0, kind := k, dest := .local, addr := State.objKey p i, data := x, cmp := 0, hint := 0,
      ctx := 65536, done := false, arbiter := false, val := 0, bad := false }
  { s with reqs := s.reqs.set s.nextReq r, nextReq := s.nextReq + 1 }

/-- SYN_OBJ_WRITE: the driver arms an object. -/
def execSynObjWrite (p : PartId) (i : BitVec 14) (x : BitVec 64) (s : State) : Host.Outcome State Fault Refusal :=
  .next (pathUpdate s .arm p.val i.toNat x)

/-- SYN_SIG_WRITE: the driver signals an object. -/
def execSynSigWrite (p : PartId) (i : BitVec 14) (x : BitVec 64) (s : State) : Host.Outcome State Fault Refusal :=
  .next (pathUpdate s .signal p.val i.toNat x)

end Sys2Proof.Machine
end

