-- ==== Sys2Proof/Machine/Ticks.lean ====
section
/-! DEFINITION. Ticks: their announcement, the ready check, slips, the tick itself with the commit of steps, revivals,
regeneration and recovery points (R31, R54 to R58, R431 to R436, R484, R488 to R508, R520, R538, R539, R542). -/

namespace Sys2Proof.Machine

/-! ### Announcement (R432, R433, R436, R488, R489) -/

def roleMaster : Nat := 1
def roleBackup : Nat := 2

def tickRole (s : State) : Nat := s.fld R.plTickctl F.plTickctl_role

/-- The device is the tick master, or the backup that has taken its place (R436). [DEDUCED, log 62] -/
def isMaster (s : State) : Bool := tickRole s == roleMaster || (tickRole s == roleBackup && s.ticks.acting)

def setTicks (s : State) (t : TickState) : State := { s with ticks := t }

/-- The period for the interval that the next tick opens: a value waiting in the shadow copy counts (R488). -/
def nextPeriod (s : State) : Nat :=
  match s.shadow.get? R.devTickper with
  | some (m, x) => bitsOf (((s.reg R.devTickper &&& ~~~m) ||| (x &&& m))).toNat 28 0
  | none => s.fld R.devTickper F.devTickper_period

/-- The 16 bytes of a TICK: number, period, master. -/
def tickPayload (n period master : Nat) : List Byte := leBytes 8 n ++ leBytes 4 period ++ leBytes 4 master

/-- Ports on which children of the tick tree have probed. [DEDUCED, log 62] -/
def childPorts (s : State) : List Nat := (List.range 24).filter fun k => s.ticks.children.testBit k && s.portUp k

/-- A tick is scheduled on this device and passed to its children with the remaining countdown in ns. -/
def scheduleTick (s : State) (n period master countdown : Nat) : State :=
  let s1 := (childPorts s).foldl (fun t k =>
    t.emitLink k (linkPacket t Pk.tick (BitVec.ofNat 64 countdown) (tickPayload n period master))) s
  (setTicks s1 { s1.ticks with announced := some n, notReady := false, sentNotReady := false, decided := false }).setFld
    R.devTickper F.devTickper_active period

/-- The next tick announced by the master, or by the backup that takes its place, which keeps the period in force (R489). -/
def announce (s : State) : State :=
  scheduleTick s (((s.reg R.plTicknum).toNat + 1) % 2 ^ 64)
    (if tickRole s = roleMaster then nextPeriod s else s.fld R.devTickper F.devTickper_active) s.localDev (s.fld R.plTickctl F.plTickctl_lead * 1000)

/-- TICK_ANNOUNCE: at T - L. -/
def execTickAnnounce (s : State) : Host.Outcome State Fault Refusal :=
  .next (if isMaster s = true ∧ s.ticks.announced = none then announce s else s)

/-- TICK: from the parent port; the countdown loses the latency of that link. A backup that had taken over follows again.
[DEDUCED, log 62] -/
def execTick (port : PortId) (k : Packet) (s : State) : Host.Outcome State Fault Refusal :=
  if k.fits 0x20 = false then .fault .illFormed
  else .next (if tickParent s ≠ some port.val ∨ s.hasId = false then s
  else
    let w (i n : Nat) : Nat := leVal ((k.payload.drop i).take n)
    scheduleTick (setTicks s { s.ticks with acting := false }) (w 0 8) (w 8 4 % 2 ^ 29) (w 12 4 % 4096)
      (k.operand.toNat - s.fld (R.plPstat port.val) F.plPstat_latency))

/-- A tick that slips is counted, for the device and for the step of each running context (R433, R499). -/
def countSlip (s : State) : State :=
  let s1 := s.bump R.plTickstat F.plTickstat_slips 1
  { s1 with ctxs := s1.ctxs.mapKV fun c x => if s1.ctxSt c = CtxSt.running then { x with slips := x.slips + 1 } else x }

/-- BACKUP_MASTER_TAKEOVER: no TICK has come by the expected T - C; the backup announces it, and the ticks after it. -/
def execBackupMasterTakeover (s : State) : Host.Outcome State Fault Refusal :=
  .next (if tickRole s = roleBackup ∧ s.ticks.announced = none then
      announce (countSlip (setTicks s { s.ticks with acting := true }))
    else s)

/-! ### The ready check (R54, R58, R254, R297, R433, R494, R501, R520, R532, R538) -/

/-- A tile that the check finds not ready; one in HALTED is not sampled. -/
def tileUnready (T : Tile) : Bool :=
  match T.st with
  | .run => true | .handler => true | .save => true | .restore => true | .reset => true
  | .off => false | .idle => false | .stepwait => false | .halted => false

/-- A context does not keep the tick from firing. -/
def ctxReady (s : State) (c : Nat) (x : Ctx) : Bool :=
  let parity := match x.recPoint with | some r => r.parityDone | none => true
  !(s.reviving c) && x.deferred.isNone && (x.waiting.isNone || s.ctxSt c == CtxSt.held) && parity && planReady s c x

def deviceReady (s : State) : Bool :=
  s.tiles.vals.all (fun T => !(tileUnready T)) && s.ctxs.rows.all (fun r => ctxReady s r.1 r.2)
    && (List.range 8).all (fun p => !(s.inReset p)) && s.board.wayWait.isEmpty

/-- Failed checks of each tile in a row, for the hang limit. -/
def countUnready (s : State) : State :=
  { s with tiles := s.tiles.mapKV fun _ T =>
      if tileUnready T then { T with notReady := T.notReady + 1 } else if T.st = .halted then T else { T with notReady := 0 } }

/-- NOT_READY goes up the tree once for a tick, or is noted at the master. -/
def reportUnready (s : State) (n : Nat) : State :=
  if isMaster s then setTicks s { s.ticks with notReady := true, sentNotReady := true }
  else if s.ticks.sentNotReady then s
  else
    let s1 := match tickParent s with
      | some k => s.emitLink k (linkPacket s Pk.notReady 0 (leBytes 8 n))
      | none => s
    setTicks s1 { s1.ticks with sentNotReady := true }

/-- READY_CHECK: at T - C. -/
def execReadyCheck (s : State) : Host.Outcome State Fault Refusal :=
  .next (match s.ticks.announced with
  | none => s
  | some n =>
    let s1 := countUnready s
    if deviceReady s then s1
    else
      let s2 := reportUnready s1 n
      setTicks s2 { s2.ticks with missed := true })

/-- NOT_READY: collected at the master until T - D and counted as late afterwards; forwarded once elsewhere. -/
def execNotReady (port : PortId) (k : Packet) (s : State) : Host.Outcome State Fault Refusal :=
  if k.fits 0x22 = false then .fault .illFormed
  else .next (if s.portUp port.val = false ∨ s.hasId = false ∨ s.ticks.announced ≠ some (leVal k.payload) then s
  else if isMaster s then
    if s.ticks.decided then s.bump R.plTickstat F.plTickstat_late 1 else setTicks s { s.ticks with notReady := true }
  else reportUnready s (leVal k.payload))

/-- The announced tick is put off (R57): nothing else changes. -/
def slip (s : State) : State :=
  let s1 := countSlip s
  setTicks s1 { s1.ticks with notReady := false, sentNotReady := false, decided := false, missed := false }

/-- SLIP_DECISION: at T - D the master slips the tick to T + Q when a NOT_READY has come, Q being the larger of slip_q
and C. -/
def execSlipDecision (s : State) : Host.Outcome State Fault Refusal :=
  .next (match s.ticks.announced with
  | none => s
  | some n =>
    if isMaster s = false then s
    else if s.ticks.notReady = false then setTicks s { s.ticks with decided := true }
    else
      let f (x : Fld) : Nat := s.fld R.plTickctl x
      let countdown := (f F.plTickctl_decide + max (f F.plTickctl_slip_q) (f F.plTickctl_check)) * 1000
      slip ((childPorts s).foldl (fun t k =>
        t.emitLink k (linkPacket t Pk.slip (BitVec.ofNat 64 countdown) (leBytes 8 n))) s))

/-- SLIP: the device reschedules the tick and passes the packet on. -/
def execSlip (port : PortId) (k : Packet) (s : State) : Host.Outcome State Fault Refusal :=
  if k.fits 0x21 = false then .fault .illFormed
  else .next (if tickParent s ≠ some port.val ∨ s.hasId = false ∨ s.ticks.announced ≠ some (leVal k.payload) then s
  else
    let left := k.operand.toNat - s.fld (R.plPstat port.val) F.plPstat_latency
    slip ((childPorts s).foldl (fun t i => t.emitLink i (linkPacket t Pk.slip (BitVec.ofNat 64 left) k.payload)) s))

/-! ### The tick (R55, R464, R484, R490, R491) -/

/-- Fields that count within a step, by register. -/
def stepFields : List (Nat × List Fld) :=
  [(R.mxaThrottle 0, [F.mxaThrottle_gap_cycles]), (R.mxaResidue 0, [F.mxaResidue_step_fails]),
   (R.mxaPasscnt 0, [F.mxaPasscnt_abandoned, F.mxaPasscnt_committed]), (R.mxaBusycnt 0, [F.mxaBusycnt_dummy, F.mxaBusycnt_active]),
   (R.vxuResidue 0, [F.vxuResidue_step_fails]),
   (R.vxuSpecial 0, [F.vxuSpecial_nan_out, F.vxuSpecial_inf_out, F.vxuSpecial_ftz_out, F.vxuSpecial_daz_in]),
   (R.lsEcc 0, [F.lsEcc_uncorrected]), (R.lsMemops 0, [F.lsMemops_issued]),
   (R.tileKvwStat 0, [F.tileKvwStat_pagef, F.tileKvwStat_misses, F.tileKvwStat_walks]),
   (R.dmaGstat 0, [F.dmaGstat_late1, F.dmaGstat_late0, F.dmaGstat_capped1, F.dmaGstat_capped0]),
   (R.scaStat 0, [F.scaStat_misses, F.scaStat_hits]), (R.cruDisp 0, [F.cruDisp_started]), (R.collStat 0, [F.collStat_commands])]

/-- The tile whose block an offset lies in. -/
def tileOfReg (off : Nat) : Option Nat :=
  if 0x08000000 ≤ off ∧ off < 0x08800000 then some ((off - 0x08000000) / 0x1000) else none

/-- The tick is withheld from a tile: its context stays held (R464). -/
def withheld (s : State) (t : Nat) : Bool :=
  (s.tile t).ctxValid && s.ctxSt (s.tile t).ctxIndex == CtxSt.held

def reached (s : State) (off : Nat) : Bool :=
  match tileOfReg off with
  | some t => !(withheld s t)
  | none => true

/-- A register with its counts of the step at zero. -/
def stepZero (off : Nat) (x : W64) : W64 :=
  match RegTab.find off with
  | none => x
  | some (d, _) => match stepFields.find? fun f => f.1 == d.base with
    | none => x
    | some (_, fs) => BitVec.ofNat 64 (fs.foldl (fun a f => setBitsOf a f.hi f.lo 0) x.toNat)

/-- Counters, trap counts and walker caches that start again at a tick (R55, R68, R211). -/
def clearStep (s : State) : State :=
  { s with
    regs := s.regs.mapKV fun off x => if reached s off then stepZero off x else x,
    tiles := s.tiles.mapKV fun t T => if withheld s t then T
      else { T with trapCount := 0, walker := SMap.empty, stalledTags := T.held && T.stall == 1,
                    stalledSync := T.held && T.stall == 3 },
    queues := s.queues.mapKV fun k q => if k < 16384 ∧ withheld s (qTile k) = true then q else { q with done := 0 },
    poisonSeen := [] }

/-- Objects of a context in the set of a step's parity armed to zero (R484): in the rank of R219, after the register arms of
the cycle and before the arms and signals of tiles, which come as commands before and after this one. [DESIGN CHOICE, log 145] -/
def armInbound (s : State) (c : Nat) (odd : Bool) : State :=
  match s.ctxs.get? c with
  | none => s
  | some x => (x.inbound.filter fun o => o.2 == odd).foldl (fun s o => s.setObj o.1 0) s

/-- Doorbell objects of a context. -/
def doorbells (x : Ctx) : List Nat :=
  x.rings.rows.flatMap fun r =>
    ([r.2.launch, r.2.post, r.2.coll].filterMap id).map fun d => State.objKey r.1 d.doorbell

/-- What the partition controller keeps at a tick: ring positions and doorbells (R494, R533). -/
def snapshot (s : State) (c : Nat) : State :=
  s.updCtx c fun x =>
    { x with snapRings := x.rings,
             snapColl := (List.range 8).foldl (fun m p => m.set p (s.collRing (State.collKey c p)).pos) SMap.empty,
             snapObjs := (doorbells x).foldl (fun m k => m.set k (s.obj k)) SMap.empty }

/-- A step begins at tick `n`: inbound objects are armed, the snapshot is taken, and its first tick and period noted. -/
def beginStep (s : State) (c n : Nat) : State :=
  let odd := (s.stepOf c).toNat % 2 == 1
  let s1 := snapshot (armInbound s c odd) c
  s1.updCtx c fun x => { x with firstTick := n, firstPeriod := s.fld R.devTickper F.devTickper_active, slips := 0 }

def lenCopy (s : State) (step : W64) (a : Nat) : Nat := s.load (a + 0x20 + 8 * (step.toNat % 2)) 8

/-- Steps between recovery points of a context (R538). [DEDUCED, log 95] -/
def pointInterval (s : State) (c : Nat) : Nat :=
  let i := s.fld (R.partRecovctl (s.leadOf c)) F.partRecovctl_rp_interval
  let p := s.fld R.devTickper F.devTickper_active
  if i ≠ 0 then i else max 1 (100000000 / max 1 p)

/-- A recovery point of the step just committed: the planner's state and the committed lengths, here and at the partner.
[DEDUCED, log 95] -/
def takePoint (s : State) (c : Nat) (step : W64) : State :=
  match s.ctxs.get? c with
  | none => s
  | some x => match x.partner with
    | none => s
    | some d =>
      if step.toNat % pointInterval s c ≠ 0 then s
      else
        let tables := x.planner.seqs.flatMap fun q => q.tables.vals
        let len (a : Nat) : Nat := (x.folds.find? fun f => f.1 == a).elim (committedLen s a) (·.2)
        let r : RecPoint := ⟨step, false, x.planner, tables.map fun a => (a, len a)⟩
        (s.setCtx c { x with recPoint := some r }).emit (.recoveryPoint d c step)

/-- Every tile of a context is at its next step and issues (R55). -/
def advanceTiles (s : State) (l : List Nat) (step : W64) : State :=
  l.foldl (fun s t =>
    let T := s.tile t
    s.setTile t { T with st := .run, stall := 0, step := step, residues := 0, revive := false }) s

/-- The commit of a context's step at tick `n` (R490, R491). -/
def commitStep (s : State) (c n : Nat) : State :=
  match s.ctxs.get? c with
  | none => s
  | some x => match x.appended with
    | none => s
    | some rs =>
      let step := s.stepOf c
      let q := planOf s c x
      let s1 := (commitRecords s c rs).setReg (R.ctxCommit c) step
      let s2 := s1.showCompletions c q.completions
      let s3 := (s2.setFld (R.ctxRevive c) F.ctxRevive_this_step 0).setFld (R.ctxRevive c) F.ctxRevive_state 0
      let s4 := (foldLengths s3 c).updCtx c fun y => { y with folds := q.named.map fun a => (a, lenCopy s3 step a) }
      let s5 := (makeMoves (s4.updCtx c fun y => freePages y (step + 1)) c).showKv (s4.leadOf c)
      let s6 := beginStep (applyWindows (advanceTiles s5 x.tiles (step + 1)) c) c n
      takePoint s6 c step

/-- Step s commits at a tick at which every tile waits in STEPWAIT, no revival runs and the record is appended (R490). -/
def commits (s : State) (c : Nat) : Bool :=
  match s.ctxs.get? c with
  | none => false
  | some x => s.ctxSt c == CtxSt.running && !(s.reviving c) && x.deferred.isNone && x.waiting.isNone
      && x.appended.isSome
      && x.tiles.all fun t => (s.tile t).st == .stepwait

/-- A READY context whose start was asked for, and which nothing holds, begins: every tile issues its first bundle, and a StartContext
kept since the load answers (R464). [DEDUCED, log 45] -/
def startStep (s : State) (c n : Nat) : State :=
  match s.ctxs.get? c with
  | none => s
  | some x =>
    if s.ctxSt c = CtxSt.ready ∧ x.startNext = true ∧ x.holds = [] then
      let s0 := x.startCmds.foldl (fun s cmd => reply s 0x0404 cmd St.ok []) s
      let s1 := (s0.setCtxSt c CtxSt.running).updCtx c fun y => { y with startNext := false, startCmds := [] }
      let s2 := x.tiles.foldl (fun s t =>
        let T := s.tile t
        s.setTile t { T with st := .run, pc := BitVec.ofNat 44 x.entry, step := s.stepOf c }) s1
      beginStep (applyWindows (makeMoves s2 c) c) c n
    else if s.ctxSt c = CtxSt.ready then applyWindows s c
    else s

/-- A held context without a reason left runs again (R464). -/
def releaseHeld (s : State) (c : Nat) : State :=
  match s.ctxs.get? c with
  | none => s
  | some x => if s.ctxSt c = CtxSt.held ∧ x.holds = [] then (s.setCtxSt c CtxSt.running).resumeWaiting c else s

/-- The step of a context whose tile missed a tick that fired although the device was not ready (R435). [DEDUCED, log 44] -/
def reviveMissed (s : State) (c : Nat) : State :=
  if s.ctxSt c = CtxSt.running ∧ (s.ctxTiles c).any (fun t => tileUnready (s.tile t)) = true then s.startRevival c 0xC else s

/-- TICK_FIRE: shadows apply, contexts are released, steps commit and begin, counters restart (R55, R464, R490). -/
def fireTick (s : State) (n : Nat) : State :=
  let s1 := s.ctxs.keys.foldl releaseHeld (s.setReg R.plTicknum (BitVec.ofNat 64 n))
  let s2 := applyWays (applySettings s1 fun off => !(isWay off) && reached s1 off)
  let ready := s2.ctxs.keys.filter fun c => commits s2 c
  let s3 := if s.ticks.missed then s2.ctxs.keys.foldl (fun s c => if ready.contains c then s else reviveMissed s c) s2 else s2
  let s4 := ready.foldl (fun s c => commitStep s c n) s3
  let s5 := s4.ctxs.keys.foldl (fun s c => if ready.contains c then s else startStep s c n) s4
  let s6 := clearStep s5
  setTicks s6 { s6.ticks with announced := none, notReady := false, sentNotReady := false, decided := false, missed := false,
                              acting := s6.ticks.acting && tickRole s6 == roleBackup }

def execTickFire (s : State) : Host.Outcome State Fault Refusal :=
  .next (match s.ticks.announced with
  | none => s
  | some n => fireTick s n)

/-! ### Revival (R493 to R497, R520, R526) -/

/-- No operation of the context's tiles is in flight: stage 1 has ended. -/
def stageOneDone (s : State) (c : Nat) : Bool :=
  (s.ctxTiles c).all fun t => (s.tile t).flights.isEmpty && !(s.reqs.vals.any fun r => r.tile == t)

/-- An engine reset of one of the context's engines is in progress (R526). -/
def engineBusy (s : State) (c : Nat) : Bool :=
  s.engResets.any fun e =>
    (e.kind == 1 && (s.ctxTiles c).contains e.index) || (e.kind == 2 && s.qCtx e.index == some c)
      || (e.kind == 7 && s.qCtx (16384 + e.part * 80 + e.index) == some c)
      || ((e.kind == 5 || e.kind == 8) && (s.ctxParts c).contains e.part)

/-- Stage 2: the engines' work of the context is cancelled, without records; what peers have sent stays (R494). -/
def dropWork (s : State) (c : Nat) : State :=
  let s1 := (s.ctxLaunches c).foldl State.cancelLaunch ((s.ctxQueues c).foldl State.dropQueue s)
  let s2 := (s1.ctxColls c).foldl (fun s k =>
    s.setColl k { s.collRing k with cur := none, halted := false, merge := SMap.empty }) s1
  let mine := s2.fab.out.filter fun f => reqCtx s2 f == some c && (match f.who with | .mem _ => false | .probe _ => false | _ => true)
  mine.foldl State.dropReq s2

/-- Stage 3: length copies equal C again, doorbells and ring positions from the snapshot. -/
def rollBack (s : State) (c : Nat) (x : Ctx) : State :=
  let step := s.stepOf c
  let s1 := (planOf s c x).named.foldl (fun s a => Work.writeCopy s step a (committedLen s a)) (foldLengths s c)
  let s2 := x.snapObjs.rows.foldl (fun s r => s.setObj r.1 r.2) s1
  let s3 := (s2.ctxColls c).foldl (fun s k => s.setColl k { s.collRing k with pos := x.snapColl.getD (k % 8) 0 }) s2
  s3.updCtx c fun y => { y with rings := x.snapRings }

/-- Stage 4: the record and the token completions of the step are withdrawn; the plan is kept. -/
def withdraw (s : State) (c : Nat) : State :=
  s.updCtx c fun x =>
    let q := planOf s c x
    let kept := q.completions.filter fun b => bitsOf (leVal (b.take 8)) 7 4 != 0
    setPlan { x with appended := none } { q with completions := kept }

/-- Stage 5: every tile restarts at the step entry. -/
def restartTiles (s : State) (c : Nat) (x : Ctx) : State :=
  x.tiles.foldl (fun s t =>
    let s1 := s.clearTile t .run
    let T := s1.tile t
    s1.setTile t { T with pc := BitVec.ofNat 44 x.entry, step := s.stepOf c, trapCount := 0, preempt := (s.tile t).preempt }) s

/-- REVIVAL_RESTART: stages 2 to 5 (R494). [DEDUCED, log 44] -/
def execRevivalRestart (c : CtxId) (s : State) : Host.Outcome State Fault Refusal :=
  let k := c.val
  .next (match s.ctxs.get? k with
  | none => s
  | some x =>
    if s.reviving k = false ∨ stageOneDone s k = false ∨ engineBusy s k = true ∨ (s.ctxParts k).any s.inReset = true then s
    else
      let s1 := withdraw (rollBack (dropWork s k) k x) k
      (restartTiles s1 k x).setFld (R.ctxRevive k) F.ctxRevive_state 2)

/-- REVIVAL_PROBE: the peer of a deferred revival is probed with a signal of amount 0 (R520). -/
def execRevivalProbe (c : CtxId) (handle : BitVec 64) (s : State) : Host.Outcome State Fault Refusal :=
  let k := c.val
  .next (match (s.ctxs.get? k).bind (·.deferred) with
  | none => s
  | some d =>
    let h := Handle.ofBits handle
    if s.fab.out.any (fun f => match f.who with | .probe x => x == k | _ => false) = true ∨ h.device ≠ d ∨ h.remote = false then s
    else s.sendRequest (s.leadOf k) k d Pk.sig (h.part * 16384 + h.index) 1 0 0 [] (.probe k))

/-- REVIVE_STEP: a revival on request of the uncommitted step that the command names. [DEDUCED, log 46] -/
def execReviveStep (c : Cmd) (first last : BitVec 64) (s : State) : Host.Outcome State Fault Refusal :=
  .next (mgmt 0x0504 .both false c s fun s => match scopeCtx c with
  | none => (St.bound, [], s)
  | some k =>
    if (s.ctxSt k ≠ CtxSt.running ∧ s.ctxSt k ≠ CtxSt.held) ∨ first ≠ s.stepOf k ∨ last ≠ first then (St.bound, [], s)
    else (St.ok, [], s.startRevival k 0xE))

/-! ### Regeneration (R504, R507) -/

/-- The records lie in a capacity window of the context. -/
def inCapacity (s : State) (k a n : Nat) : Bool :=
  (List.range 16).any fun w => match s.window k w with
    | some x => x.kind.toNat == 1 && s.winOk k w a n .rd
    | none => false

/-- REGENERATE_STEPS: the planner of the context takes its batch entries from records, from the next step on. -/
def execRegenerateSteps (c : Cmd) (first last addr : BitVec 64) (s : State) : Host.Outcome State Fault Refusal :=
  .next (mgmt 0x0503 .both false c s fun s => match scopeCtx c with
  | none => (St.bound, [], s)
  | some k => match s.ctxs.get? k with
    | none => (St.bound, [], s)
    | some x =>
      let st := s.ctxSt k
      if (st = CtxSt.ready ∨ st = CtxSt.running ∨ st = CtxSt.held) ∧ first = nextPlan s k x ∧ first.toNat ≤ last.toNat
          ∧ x.regen = none ∧ inCapacity s k addr.toNat 256 = true then
        let p := s.leadOf k
        let s1 := ((s.setFld (R.partReplay p) F.partReplay_state 1).setFld (R.partReplay p) F.partReplay_status 0).setFld
          (R.partReplay p) F.partReplay_steps 0
        (St.ok, [], (s1.setReg (R.partReplaystep p) first).setCtx k { x with regen := some ⟨first, last, addr.toNat, []⟩ })
      else (St.bound, [], s))

/-! ### Recovery points and the loss of peers (R538, R539, R542) -/

/-- RECOVERY_POINT_COMPLETE: the parity data is acknowledged, or with `all` every byte of the point. -/
def execRecoveryPointComplete (c : CtxId) (all : Bool) (s : State) : Host.Outcome State Fault Refusal :=
  let k := c.val
  .next (match s.ctxs.get? k with
  | none => s
  | some x => match x.recPoint with
    | none => s
    | some r =>
      if all then (s.setCtx k { x with recPoint := none, lastPoint := some { r with parityDone := true } }).setReg (R.ctxRpoint k) r.step
      else s.setCtx k { x with recPoint := some { r with parityDone := true } })

/-- Objects of the blocks that a context owns. -/
def ownedObjects (s : State) (c : Nat) : List Nat :=
  (List.range 8).flatMap fun p => (List.range 256).flatMap fun b =>
    if s.ownsObj (s.ctxId c) p (64 * b) then (List.range 64).map fun j => State.objKey p (64 * b + j) else []

/-- ROLLBACK_TO_RECOVERY_POINT: lengths and planner come back from the point, `pages` are the bytes that firmware restores
(parity data, and pages freed since); objects are armed again, and the context stands before the step after the point. -/
def execRollbackToRecoveryPoint (c : CtxId) (pages : List (BitVec 44 × List Byte)) (s : State) :
    Host.Outcome State Fault Refusal :=
  let k := c.val
  .next (match s.ctxs.get? k with
  | none => s
  | some x => match x.lastPoint with
    | none => s
    | some r =>
      if s.ctxSt k ≠ CtxSt.running ∧ s.ctxSt k ≠ CtxSt.held then s
      else
        let s1 := pages.foldl (fun s w => s.writeBytes w.1.toNat w.2) ((dropWork s k).dropCopies k)
        let s2 := r.lens.foldl (fun s l => setCommitted s l.1 l.2) s1
        let s3 := (ownedObjects s2 k).foldl (fun s o => s.setObj o 0) (s2.setReg (R.ctxCommit k) r.step)
        let x1 := { x with
          -- the statistics stay those of the last completed plan (R271)
          planner := { r.planner with planned := some r.step, plans := SMap.empty, waiting := none, nAlloc := x.planner.nAlloc,
                                      nCopies := x.planner.nCopies, nStalled := x.planner.nStalled, nFreed := x.planner.nFreed },
          appended := none, recPoint := none, deferred := none, waiting := none, regen := none, folds := [] }
        let s4 := (s3.setCtx k x1).setFld (R.ctxRevive k) F.ctxRevive_state 0
        snapshot (restartTiles s4 k x1) k)

/-- A PEER record raises ALERT# whatever its severity (R542). -/
def lossAlert (s : State) (p : Nat) : State :=
  if s.fld (R.errCtl p) F.errCtl_alert_min ≤ 2 then s
  else ((s.setFld (R.errStat p) F.errStat_alert 1).updateAlert.emit (.alertEvent p)).emit (.msix 512)

/-- PEER_LOSS_LIMIT: the stall set of a peer has been awaited for loss_limit. -/
def execPeerLossLimit (c : CtxId) (device : BitVec 12) (s : State) : Host.Outcome State Fault Refusal :=
  let k := c.val
  .next (match s.ctxs.get? k with
  | none => s
  | some x =>
    if x.planner.waiting.isSome = true ∧ (peersOf s k).contains device.toNat = true
        ∧ x.planner.heard.contains device.toNat = false then
      let p := s.leadOf k
      lossAlert (s.record p (s.nameCtx (ErrRec.mk0 0x14 2 p 0x0B 0 (device.toNat + 1 * 2 ^ 12)) (some k))) p
    else s)

/-- NEIGHBOUR_PORTS_DOWN: every port to a device has been down for 100 ms. -/
def execNeighbourPortsDown (device : BitVec 12) (s : State) : Host.Outcome State Fault Refusal :=
  let ports := (List.range s.ports).filter fun k => s.fld (R.plPstat k) F.plPstat_nbr_dev == device.toNat
  .next (if ports ≠ [] ∧ ports.all (fun k => !(s.portUp k)) = true then
      let p := s.fld (R.plPctl (ports.headD 0)) F.plPctl_part
      lossAlert (s.record p (ErrRec.mk0 0x14 2 p 0x0A (ports.headD 0) (device.toNat + 1 * 2 ^ 12))) p
    else s)

end Sys2Proof.Machine
end

