-- ==== Sys2Proof/Machine/Recovery.lean ====
section
/-! DEFINITION. Engine, partition and chip resets, watchdogs and heartbeats, pending repairs and tile retirement, and
die-to-die links (R282 to R286, R389 to R395, R472, R521 to R536, R540, R541, R604). -/

namespace Sys2Proof.Machine

/-! ### Engine resets (R526, R527) -/

/-- Rings that engine `e` of partition `p` serves. -/
def engineRings (s : State) (p e : Nat) : List Nat :=
  s.coll.keys.filter fun k => k % 8 == p && k / 8 % 2 == e

/-- A near-memory unit as its reset leaves it (R347). Its launch, held by the dispatcher, still ends with the status that the unit
aborted with. -/
def clearUnit (s : State) (k : Nat) : State :=
  let u := s.unit k
  let u1 : CruUnit := { CruUnit.reset with disabled := u.disabled }
  let u2 : CruUnit := match u.st, s.launches.get? u.launch with
    | .aborted st f, some _ => { u1 with st := .aborted st f, launch := u.launch }
    | _, _ => u1
  (s.setUnit k u2).showUnit k

/-- A fabric port as its reset leaves it: retry buffer and credits, and the stores for traffic through it. -/
def clearPort (s : State) (k : Nat) : State :=
  let via (src : BitVec 12) : Bool := (s.routePorts src.toNat).contains k
  let fab := { s.fab with reorder := s.fab.reorder.filter fun x => !via x.2.src,
                          answers := s.fab.answers.filter fun x => !via (BitVec.ofNat 12 (x.1 / 4)) }
  (portDown { s with fab := fab } k).setLink k Link.reset

/-- What an engine reset clears, by unit kind. -/
def clearEngine (s : State) (p kind index : Nat) : State :=
  match kind with
  | 1 => s.clearTile index (if (s.tile index).st = .off then .off else .reset)
  | 2 => s.dropQueue index
  | 5 => clearUnit s index
  | 7 => s.dropQueue (16384 + p * 80 + index)
  | 8 => (engineRings s p index).foldl (fun s k => s.setColl k CollRing.reset) s
  | 10 => clearPort s index
  | _ => s

/-- Contexts whose work an engine holds. -/
def engineCtxs (s : State) (p kind index : Nat) : List Nat :=
  match kind with
  | 1 => if (s.tile index).ctxValid then [(s.tile index).ctxIndex] else []
  | 2 => (s.qCtx index).toList
  | 5 => if (s.unit index).st = .idle then [] else ((s.launches.get? (s.unit index).launch).map (·.ctx)).toList
  | 7 => (s.qCtx (16384 + p * 80 + index)).toList
  | 8 => ((engineRings s p index).map (· / 8)).dedup
  | _ => []

/-- A unit of the kinds that ERR.ENGRST takes, in partition `p`. -/
def engineOf (s : State) (p kind index : Nat) : Bool :=
  match kind with
  | 1 => index / 256 == p && decide (index % 256 < s.part.tilesPerPart)
  | 2 => index / 2048 == p && decide (index / 8 % 256 < s.part.tilesPerPart)
  | 5 => index / 128 == p && s.stackOn (index / 32)
  | 7 => decide (index < 80)
  | 8 => decide (index < 2)
  | 10 => decide (index < s.ports) && s.fld (R.plPctl index) F.plPctl_part == p
  | _ => false

/-- An engine reset on request: the steps whose work it drops are revived with cause 0xF (R493, R526). -/
def engRst (s : State) (p kind index : Nat) : Option State :=
  if engineOf s p kind index = false ∨ s.fld (R.errEngstat p) F.errEngstat_result = 1 then none
  else
    let s1 := (engineCtxs s p kind index).foldl (fun s c => s.startRevival c 0xF) s
    some (s1.startEngineReset p kind index 1)

def execResetEngine (c : Cmd) (kind : BitVec 8) (index : BitVec 24) (s : State) : Host.Outcome State Fault Refusal :=
  .next (mgmt 0x0506 .both false c s fun s => match scopePart c with
    | none => (St.bound, [], s)
    | some p => match engRst s p kind.toNat index.toNat with
      | none => (St.bound, [], rejectReg s .item (R.errEngrst p) true (some p))
      | some s1 => (St.ok, [], s1))

/-- RESET record at the end of a level, with its duration. -/
def endRecord' (s : State) (p kind index level cause us : Nat) : State :=
  s.record p (ErrRec.mk0 0x0D 0 p kind index (level + 2 ^ 4 + cause * 2 ^ 8 + us % 2 ^ 32 * 2 ^ 16))

/-- An engine taken out of service: recorded, and a near-memory unit marked. -/
def disableEngine (s : State) (p kind index : Nat) : State :=
  let e := (p, kind, index)
  let s1 := { s with offEngines := if s.offEngines.contains e then s.offEngines else s.offEngines ++ [e] }
  let s2 :=
    if kind = 5 then
      let r := R.cruFault (index / 32 / 4) (index / 32 % 4)
      (s1.setUnit index { s1.unit index with disabled := true }).setFld r F.cruFault_failed
        (setBitsOf (s1.fld r F.cruFault_failed) (index % 32) (index % 32) 1)
    else s1
  repairRecord s2 p kind index 0 true

/-- An engine that passes its self-test is back in service. -/
def enableEngine (s : State) (p kind index : Nat) : State :=
  let s1 := { s with offEngines := s.offEngines.filter (· != (p, kind, index)) }
  if kind = 5 then
    let r := R.cruFault (index / 32 / 4) (index / 32 % 4)
    (s1.setUnit index { s1.unit index with disabled := false }).setFld r F.cruFault_failed
      (setBitsOf (s1.fld r F.cruFault_failed) (index % 32) (index % 32) 0)
  else s1

/-- The array test of a tile in an engine reset (R117, R526): one that is due starts before the reset ends, and a failed one fails the
tile's self-test. -/
def resetTest (s : State) (k i : Nat) : Option State :=
  let T := s.tile i
  if k = 1 ∧ T.st = .reset ∧ T.bist = true then some s
  else if k = 1 ∧ T.st = .reset ∧ T.bistDue = true then some (startBist s i (BitVec.ofNat 4 (s.fld (R.mxaBist i) F.mxaBist_pattern)))
  else none

/-- ENGINE_RESET_COMPLETE: the engine is clear and has run its self-test; `us` is the duration. -/
def execEngineResetComplete (p : PartId) (kind : BitVec 8) (index : BitVec 24) (pass : Bool) (us : BitVec 32) (s : State) :
    Host.Outcome State Fault Refusal :=
  let k := kind.toNat
  let i := index.toNat
  .next (match s.engResets.find? fun e => e.part == p.val && e.kind == k && e.index == i with
  | none => s
  | some e =>
    if k = 1 ∧ (s.tile i).st = .save then s else
    match resetTest s k i with
    | some s0 => s0
    | none =>
    let pass := pass && !(k == 1 && s.fld (R.mxaBist i) F.mxaBist_result == 3)
    let s1 := clearEngine { s with engResets := s.engResets.filter (· != e) } p.val k i
    let s2 := endRecord' s1 p.val k i 1 e.cause us.toNat
    if pass then
      let s3 := (enableEngine s2 p.val k i).setFld (R.errEngstat p.val) F.errEngstat_result 2
      if k = 1 ∧ (s3.tile i).st = .reset then s3.setTile i { s3.tile i with st := .idle }
      else if k = 10 then setPortState s3 i 2
      else if k = 7 then repostCopies s3 p.val
      else s3
    else
      let s3 := (disableEngine s2 p.val k i).setFld (R.errEngstat p.val) F.errEngstat_result 3
      if k = 1 then (markTile s3 i).startPartitionReset p.val 8 else s3)

/-! ### Watchdogs and heartbeats (R521, R522, R524, R528) -/

/-- A unit's pending work addresses only quiesced units (R622). -/
def onlyQuiesced (s : State) (p kind index : Nat) : Bool :=
  let desc (k : Nat) : Bool :=
    let l := (s.queue k).active.filter (·.status == 0)
    l != [] && l.all fun a => s.descQuiesced a.d
  match kind with
  | 2 => desc index
  | 7 => desc (16384 + p * 80 + index)
  | 5 => s.fld (R.capStatus (index / 128) (index / 32 % 4)) F.capStatus_quiesced == 1
  | 8 => (engineRings s p index).all fun k => match (s.collRing k).cur with
    | none => true
    | some c => s.quiesced ((CollOp.ofWords c.words).addr % 2 ^ 44)
  | _ => false

/-- The engine holds accepted work. -/
def engineHolds (s : State) (p kind index : Nat) : Bool :=
  let q (k : Nat) : Bool :=
    let Q := s.queue k
    (Q.st == .run && (Q.active != [] || Q.fetched != [] || Q.chain.isSome)) || Q.active.any fun a => a.owes.isSome
  match kind with
  | 2 => q index
  | 7 => q (16384 + p * 80 + index)
  | 5 => (match (s.unit index).st with | .run => true | .boundary => true | _ => false)
  | 8 => (engineRings s p index).any fun k => (s.collRing k).cur.isSome
  | _ => false

/-- The current work of a queue ends with TIMEOUT; a wait for room in the ring ends without a record (R365). -/
def timeoutQueue (s : State) (k : Nat) : State :=
  let Q := s.queue k
  match owing s k, Q.active, Q.fetched, Q.chain with
  | some (i, n), _, _, _ => missRecord s k i n
  | none, a :: _, _, _ => failActive s k 0 St.timeout (recordDue s k a && s.ringFull k)
  | none, [], d :: rest, _ => (s.setQueue k { Q with fetched := rest }).endDescriptor k (newActive d .start) St.timeout 0 false
  | none, [], [], some h => s.endDescriptor k (newActive (parseDesc h h.addr []) .fetch) St.timeout 0 false
  | none, [], [], none => s

def timeoutEngine (s : State) (p kind index : Nat) : State :=
  match kind with
  | 2 => timeoutQueue s index
  | 5 => (s.launchUnits (s.unit index).launch).foldl (fun s k => match (s.unit k).st with
      | .run => s.abortUnit k St.timeout false
      | .boundary => s.abortUnit k St.timeout false
      | _ => s) s
  | 7 => timeoutQueue s (16384 + p * 80 + index)
  | 8 => ((engineRings s p index).filter fun k => (s.collRing k).cur.isSome).foldl
      (fun s k => s.haltColl (k / 8) p St.timeout) s
  | _ => s

/-- HANG record: what hung, and the reset level that starts. [DEDUCED, log 81] -/
def hangRecord (s : State) (p kind index what level : Nat) : State :=
  s.record p (ErrRec.mk0 0x0C 3 p kind index (what + level * 2 ^ 8))

/-- ENGINE_WATCHDOG_EXPIRE: no progress for ERR.CTL.eng_to. -/
def execEngineWatchdogExpire (p : PartId) (kind : BitVec 8) (index : BitVec 24) (s : State) :
    Host.Outcome State Fault Refusal :=
  let k := kind.toNat
  let i := index.toNat
  .next (if engineOf s p.val k i = true ∧ engineHolds s p.val k i = true ∧ onlyQuiesced s p.val k i = false then
      (hangRecord (timeoutEngine s p.val k i) p.val k i 2 1).startEngineReset p.val k i 4
    else s)

/-- PARTITION_HEARTBEAT_MISSING: for 10 ms. -/
def execPartitionHeartbeatMissing (p : PartId) (s : State) : Host.Outcome State Fault Refusal :=
  .next ((hangRecord s p.val 0x0B 0 3 2).startPartitionReset p.val 6)

/-- DEVICE_HEARTBEAT_MISSING: for 100 ms. -/
def execDeviceHeartbeatMissing (s : State) : Host.Outcome State Fault Refusal :=
  .next ((s.recordAll (ErrRec.mk0 0x0C 3 0 0x0C 0 (3 + 3 * 2 ^ 8))).startChipReset 6)

/-- RESET_DEADLINE_EXPIRE: a level has not completed; the next one starts with cause 0x02. -/
def execResetDeadlineExpire (level : BitVec 2) (p : PartId) (kind : BitVec 8) (index : BitVec 24) (s : State) :
    Host.Outcome State Fault Refusal :=
  let k := kind.toNat
  let i := index.toNat
  .next (match level.toNat with
  | 1 =>
    if s.engResets.any (fun e => e.part == p.val && e.kind == k && e.index == i) then
      ((hangRecord s p.val k i 4 2).setFld (R.errEngstat p.val) F.errEngstat_result 4).startPartitionReset p.val 2
    else s
  | 2 =>
    if s.fld (R.partRststat p.val) F.partRststat_phase ≠ 0 then (hangRecord s p.val 0x0B 0 4 3).startChipReset 2 else s
  | 3 =>
    if s.fld R.devRststat F.devRststat_phase = 1 then
      let s1 := (s.recordAll (ErrRec.mk0 0x0C 3 0 0x0C 0 (4 + 4 * 2 ^ 8))).requestPowerCycle 2
      { s1 with board := { s1.board with lost := true } }
    else s
  | _ => s)

/-! ### Repairs and tile retirement (R283, R286, R316, R540, R541, R604) -/

/-- Good tiles of a compute die: those mapped and the good spares. -/
def goodTiles (s : State) (p : Nat) : Nat :=
  ((List.range s.part.tilesPerPart).filter (s.mapped p)).length
    + ((List.range s.part.orphanSlots).filter fun k => s.fld (R.nocOmap p k) F.nocOmap_spare == 1).length

/-- DEV.VARIANT.eff_grade falls to the highest grade that every compute die still meets (R604). -/
def lowerGrade (s : State) : State :=
  let least := ((List.range 8).map (goodTiles s)).foldl min 272
  let g := if 256 ≤ least then 0 else if 240 ≤ least then 1 else 2
  s.setFld R.devVariant F.devVariant_eff_grade (max g (s.fld R.devVariant F.devVariant_eff_grade))

/-- CAP.SPARE from CAP.ORPHAN.reserve: the highest-numbered usable slots whose tiles are good spares (R285). -/
def reserveSpares (s : State) (p : Nat) : State :=
  let good := (List.range s.part.orphanSlots).filter fun k =>
    (s.fld (R.capOrphan p) F.capOrphan_usable).testBit k && s.fld (R.nocOmap p k) F.nocOmap_spare == 1
  let n := s.fld (R.capOrphan p) F.capOrphan_reserve
  s.setFld (R.capSpare p) F.capSpare_spare ((good.drop (good.length - n)).foldl (fun a k => a + 2 ^ k) 0)

/-- Uncorrectable lines of a range become poisoned ones: the copy of R540. [DEDUCED, log 82] -/
def poisonCopy (s : State) (a n : Nat) : State :=
  { s with lines := s.lines.mapKV fun l m =>
      if a / 64 ≤ l ∧ l < (a + n) / 64 ∧ m.ue = true then ⟨m.gen, true, false, 0, false⟩ else m }

/-- A tile of a partition is retired: onto the highest reserved spare, whose tile comes into service, or its index is left unmapped
and the failed tile is off. `badSlice` says that the retired tile's slice fails its test. [DEDUCED, log 82] -/
def retireTile (s : State) (t : Nat) (badSlice : Bool) : State :=
  let p := t / 256
  let put (st : TileSt) (s : State) : State := s.setTile t { (s.tile t).cleared st with bistDue := false }
  let posT := s.posOf t
  let s0 := { s with board := { s.board with retireTiles := s.board.retireTiles.filter (· != t) } }
  let s1 := (addMapRec s0 (MapRec.field 5 (p + posT * 2 ^ 16) 0)).setFld R.devVariant F.devVariant_field_degraded 1
  match ((List.range 48).filter fun k => (s.fld (R.capSpare p) F.capSpare_spare).testBit k).getLast? with
  | some k =>
    let o := R.nocOmap p k
    let posS := s.fld o F.nocOmap_phys_row * 17 + s.fld o F.nocOmap_phys_col
    let slot := p * 0x2000000000 + (s.part.tilesPerPart + k) * 0x18000000
    let place (s : State) (r : Nat) (fr fc : Fld) (pos : Nat) : State := (s.setFld r fr (pos / 17)).setFld r fc (pos % 17)
    let s2 := (poisonCopy s1 (sliceBase t) 0x18000000).clearRange slot 0x18000000
    let s3 := { s2 with lines := s2.lines.keep fun l _ => !(decide (slot / 64 ≤ l) && decide (l < slot / 64 + 0x600000)) }
    let s4 := (place s3 (R.nocTmap p (t % 256)) F.nocTmap_phys_row F.nocTmap_phys_col posS).setFld (R.nocTmap p (t % 256))
      F.nocTmap_field 1
    let s5 := ((place s4 o F.nocOmap_phys_row F.nocOmap_phys_col posT).setFld o F.nocOmap_field 1).setFld o F.nocOmap_spare 0
    let s6 := (place s5 (R.tileId t) F.tileId_phys_row F.tileId_phys_col posS).setReg (R.mxaRepair t)
      (BitVec.ofNat 64 (s.part.repairBits p posS))
    let s7 := s6.setFld (R.capSpare p) F.capSpare_spare (setBitsOf (s6.fld (R.capSpare p) F.capSpare_spare) k k 0)
    let s8 := if badSlice then s7.setFld (R.capOrphan p) F.capOrphan_usable
        (setBitsOf (s7.fld (R.capOrphan p) F.capOrphan_usable) k k 0) else s7
    lowerGrade (put .idle (repairRecord (showSlice (addMapRec s8 (MapRec.field 4 (t + posS * 2 ^ 16) k)) t posS) p 1 t 4 true))
  | none =>
    let s2 := s1.setFld (R.nocTmap p (t % 256)) F.nocTmap_valid 0
    let s3 := (s2.ctxs.keys.filter fun c => (s2.ctxTiles c).contains t).foldl (fun s c => s.hold c .peerLost) s2
    lowerGrade (put .off (repairRecord s3 p 1 t 5 true))

/-- Partition of a pending repair. -/
def MapRec.part (r : MapRec) : Nat := if r.typ = 5 ∨ r.typ = 6 then r.a % 8 else r.a % 32 / 4

/-- Logical tile whose slice lies at a physical position. -/
def tileAt (s : State) (p pos : Nat) : Option Nat :=
  ((List.range s.part.tilesPerPart).map (p * 256 + ·)).find? fun t => s.posOf t == pos

/-- Orphan slot whose slice lies at a physical position (R284). -/
def slotAt (s : State) (p pos : Nat) : Option Nat :=
  (List.range s.part.orphanSlots).find? fun k => s.posOfIndex p (s.part.tilesPerPart + k) == pos

/-- An orphan slot becomes a hole, reserved or not (R284). -/
def dropSlot (s : State) (p k : Nat) : State :=
  let off (s : State) (r : Nat) (f : Fld) : State := s.setFld r f (setBitsOf (s.fld r f) k k 0)
  off (off s (R.capOrphan p) F.capOrphan_usable) (R.capSpare p) F.capSpare_spare

/-- The slice at a physical position fails: the tile that owns it is marked, or its orphan slot becomes a hole. -/
def failSliceAt (s : State) (p pos : Nat) : State :=
  match tileAt s p pos with
  | some t => markTile s t
  | none => (slotAt s p pos).elim s (dropSlot s p)

/-- A pending repair applied. -/
def applyRepair (s : State) (r : MapRec) : State :=
  let p := r.part
  match r.typ with
  | 6 =>
    let pos := bitsOf r.a 24 16
    let used := rowsSpared s r.a
    if 16 ≤ used then failSliceAt s p pos
    else
      let s1 := addMapRec s (MapRec.field 6 r.a (r.b + used * 2 ^ 16))
      let s2 := match tileAt s1 p pos with
        | some t => showSlice s1 t pos
        | none => s1
      repairRecord s2 p 3 (p * 512 + pos) 6 false
  | 5 => failSliceAt s p (bitsOf r.a 24 16)
  | 8 => failStack s (r.a % 32)
  | 7 =>
    let n := r.a % 32
    let reg := R.capRepair (n / 4) (n % 4)
    let c := bitsOf r.a 12 8
    repairRecord ((addMapRec s r).setFld reg F.capRepair_spare_bank (setBitsOf (s.fld reg F.capRepair_spare_bank) c c 1)) p 4 n
      7 false
  | _ =>
    let n := r.a % 32
    let reg := R.capRepair (n / 4) (n % 4)
    let key := n * 32 + bitsOf r.a 12 8
    let f := s.board.flash
    let s1 := { s with board := { s.board with flash := { f with rowRepairs := f.rowRepairs.set key (f.rowRepairs.getD key 0 + 1) } } }
    repairRecord (s1.bump reg F.capRepair_rows 1) p 4 n 0 false

/-! ### Partition reset (R532 to R534) -/

/-- Dirty remote lines of a base die written back; every line leaves its cache. -/
def flushDie (s : State) (p : Nat) : State :=
  let s1 := (s.cache.filter (·.die == p)).foldl State.writeBack s
  { s1 with cache := s1.cache.filter (·.die != p) }

def tilesOf (s : State) (p : Nat) : List Nat := (List.range s.part.tilesPerPart).map (p * 256 + ·)

/-- Units of the stacks of a partition. -/
def unitsOf (s : State) (p : Nat) : List Nat := s.units.keys.filter fun k => k / 128 == p

/-- Tiles of a partition that a reset has cleared are power-gated (R60). -/
def gateTiles (s : State) (p : Nat) : State :=
  (s.tiles.keys.filter (· / 256 == p)).foldl (fun s t =>
    if (s.tile t).st = .reset ∨ (s.tile t).st = .idle then s.setTile t { s.tile t with st := .off } else s) s

/-- Phase 3: tiles, queues, units and rings of a partition are cleared; each tile keeps its owner and step. [DEDUCED, log 93] -/
def clearPart (s : State) (p : Nat) : State :=
  let s1 := (s.queues.keys.filter fun k => State.queue s k != Queue.reset && qPart k == p).foldl State.dropQueue s
  let s2 := (s1.tiles.keys.filter (· / 256 == p)).foldl (fun s t => if (s.tile t).st = .off then s.clearTile t .off else s.clearTile t .reset) s1
  let s3 := (s2.launches.rows.filter fun l => l.2.part == p).foldl (fun s l => s.dropLaunch l.1) s2
  let s4 := (unitsOf s3 p).foldl clearUnit s3
  let s5 := (s4.coll.keys.filter (· % 8 == p)).foldl (fun s k => s.setColl k CollRing.reset) s4
  s5.setFld (R.errEngstat p) F.errEngstat_resets 0

/-- A crozier wave of one partition: its OFF tiles at the wave's positions are powered, and array tests that a handler or a
command asked for start (R117, R599). -/
def powerWave (s : State) (p w : Nat) : State :=
  let l := (tilesOf s p).filter fun t => s.mapped p (t % 256) && (s.tile t).st == .off && s.posOf t % 8 == w
    && !(s.board.badPorts.contains (p * 272 + s.posOf t))
  l.foldl (fun s t =>
    let s1 := s.setTile t { s.tile t with st := .reset }
    match s.board.arrayTests.find? (·.1 == t) with
    | some x => { startBist s1 t (BitVec.ofNat 4 x.2) with
                  board := { s1.board with arrayTests := s1.board.arrayTests.filter (·.1 != t) } }
    | none => if (s1.tile t).bistDue then startBist s1 t (BitVec.ofNat 4 (s1.fld (R.mxaBist t) F.mxaBist_pattern)) else s1) s

/-- Tile ports that a test finds failed beyond their spares, named by the link codes of R391 as units of kind 9 (R396). -/
def failPorts (s : State) (p : Nat) (fails : List (Nat × Nat)) : State :=
  let l := (fails.filter fun e => e.1 == 9 && decide (0x2000 + p * 0x200 ≤ e.2) && decide (e.2 < 0x2000 + p * 0x200 + 272)).map
    fun e => p * 272 + e.2 % 0x200
  { s with board := { s.board with badPorts := (s.board.badPorts ++ l).dedup } }

/-- The port of a tile is out of service. -/
def portFailed (s : State) (t : Nat) : Bool := s.board.badPorts.contains (t / 256 * 272 + s.posOf t)

/-- Phase 5 ends: tiles that a test fails, or whose port does, are marked and power-gated (R60), failing engines disabled, and the others are in service.
Ways whose tag test passes are enabled again (R315). [DESIGN CHOICE, log 83] -/
def takeTests (s : State) (p : Nat) (fails : List (Nat × Nat)) : State :=
  let s := failPorts s p fails
  let late := (((s.board.startFail.filter (· / 256 == p)) ++ (tilesOf s p).filter fun t => s.mapped p (t % 256) && portFailed s t)).map
    fun t => (1, t)
  let bad := fails ++ late
  let tiles := (tilesOf s p).filter fun t => (s.tile t).st == .reset
  let s1 := tiles.foldl (fun s t => s.setTile t { s.tile t with st := if bad.contains (1, t) then .off else .idle }) s
  let s2 := bad.foldl (fun s e => if e.1 = 1 then markTile s e.2
    else if engineOf s p e.1 e.2 then disableEngine s p e.1 e.2 else s) s1
  let s3 := (s2.offEngines.filter fun e => e.1 == p && !bad.contains e.2).foldl (fun s e => enableEngine s p e.2.1 e.2.2) s2
  let s4 := (List.range 16).foldl (fun s w =>
    if bad.contains (6, w) then s
    else { s.setFld (R.scaWay p w) F.scaWay_disabled 0 with wayOff := s.wayOff.filter (·.1 != p * 16 + w) }) s3
  { s4 with board := { s4.board with startFail := s4.board.startFail.filter (· / 256 != p) } }

/-- Phase 6: pending repairs and retirements of a partition. [DESIGN CHOICE, log 83] -/
def doRepairs (s : State) (p : Nat) (fails : List (Nat × Nat)) : State :=
  let due (r : MapRec) : Bool := r.typ != 9 && r.part == p
  let mine := s.board.repairs.filter due
  let s1 := mine.foldl applyRepair { s with board := { s.board with repairs := s.board.repairs.filter fun r => !due r } }
  (s1.board.retireTiles.filter (· / 256 == p)).foldl
    (fun s t => retireTile s t (fails.contains (3, p * 512 + s.posOf t) || portFailed s t)) s1

/-- The firmware region of a partition lies where R275 puts it, the partition controller writes the fault handler's image there, and
the tiles' FH_BASE points to it. [DESIGN CHOICE, log 80] -/
def placeFirmware (s : State) (p : Nat) : State :=
  match s.fwHome p with
  | none => s
  | some b =>
    let s1 := s.writeBytes b (Config.handlerImage.take 0x10000000)
    (tilesOf s p).foldl (fun s t => s.setFld (R.tileFhBase t) F.tileFhBase_base (b / 0x1000))
      { s with mem := s1.mem, lines := s1.lines, board := { s.board with fwPlaces := s.board.fwPlaces.set p b } }

/-- Phase 7: scratch ways read zero; objects outside fabric blocks read 0; doorbells, ring positions and grouping. -/
def restorePart (s : State) (p : Nat) : State :=
  let s1 := (List.range 16).foldl (fun s w =>
    if s.fld (R.scaWay p w) F.scaWay_kind = 2 then zeroScratch s p w else s) (placeFirmware s p)
  let fabric (k : Nat) : Bool := s1.fld (R.synOwn p (k % 16384 / 64)) F.synOwn_fabric == 1
  let s2 := { s1 with objs := s1.objs.keep fun k _ => k / 16384 != p || fabric k }
  let s3 := (s2.ctxsOn p).foldl (fun s c => match s.ctxs.get? c with
    | none => s
    | some x =>
      let s' := (x.snapObjs.rows.filter fun r => r.1 / 16384 == p).foldl (fun s r => s.setObj r.1 r.2) s
      let k := State.collKey c p
      let s'' := if s'.coll.has k then s'.setColl k { s'.collRing k with pos := x.snapColl.getD p 0 } else s'
      match x.snapRings.get? p with
      | some r => s''.setCtx c { x with rings := x.rings.set p r }
      | none => s'') s2
  match s3.board.groupNext.get? p with
  | some n =>
    { (s3.setFld (R.partGroup p) F.partGroup_size n).setFld (R.partGroup p) F.partGroup_lead (p / 2 ^ n * 2 ^ n) with
      board := { s3.board with groupNext := s3.board.groupNext.erase p } }
  | none => s3

/-- The PLLs of a partition are locked. -/
def lockPlls (s : State) (p : Nat) : State :=
  [F.clkStatus_noc_lock, F.clkStatus_timing_lock, F.clkStatus_tile_lock].foldl (fun s f =>
    s.setFld R.clkStatus f (setBitsOf (s.fld R.clkStatus f) p p 1)) s

/-- A reset of a partition ends: affected contexts are revived with cause 0xD. -/
def endPartitionReset (s : State) (p us : Nat) : State :=
  let r := R.partRststat p
  let s0 := repostCopies (lockPlls (restorePart s p) p) p
  let s1 := (s0.setFld r F.partRststat_phase 0).setFld r F.partRststat_last_us us
  let s2 := (endRecord' s1 p 0x0B 0 2 (s1.fld r F.partRststat_last_cause) us).flushRing p
  (s2.ctxsOn p).foldl State.resetRevival s2

/-- PARTITION_RESET_PHASE_END: `fails` are the units, by kind and index, that the tests of phases 5 and 6 find failed; `us` is
the duration of the whole reset at phase 7. -/
def execPartitionResetPhaseEnd (p : PartId) (fails : List (BitVec 8 × BitVec 24)) (us : BitVec 32) (s : State) :
    Host.Outcome State Fault Refusal :=
  let q := p.val
  let bad := fails.map fun x => (x.1.toNat, x.2.toNat)
  let next (s : State) (n : Nat) : State := s.setFld (R.partRststat q) F.partRststat_phase n
  .next (match s.fld (R.partRststat q) F.partRststat_phase with
  | 1 => next s 2
  | 2 => next (flushDie s q) 3
  | 3 => next (clearPart s q) 4
  | 4 => next (gateTiles s q) 5
  | 5 =>
    let waits (t : Nat) : Bool := (s.tile t).bist || (s.mapped q (t % 256) && (s.tile t).st == .off
      && !(s.board.startFail.contains t) && !portFailed s t)
    if (tilesOf s q).any waits then s else next (takeTests s q bad) 6
  | 6 => next (doRepairs s q bad) 7
  | 7 => endPartitionReset s q us.toNat
  | _ => s)

def execResetPartition (c : Cmd) (s : State) : Host.Outcome State Fault Refusal :=
  .next (mgmt 0x0507 .both false c s fun s => match scopePart c with
    | none => (St.bound, [], s)
    | some p => (St.ok, [], s.startPartitionReset p 1))

/-! ### Chip reset (R535, R536) -/

def setFlash (s : State) (f : Flash) : State := { s with board := { s.board with flash := f } }

/-- Components whose bank changes with a processor. -/
def compsOf (proc : Nat) : List Nat := if proc / 16 = 2 then [2, 4] else [proc / 16]

/-- Every hold for the activation ends. -/
def endFwHolds (s : State) : State := s.ctxs.keys.foldl (fun s c => s.unhold c .firmware) s

/-- An activation fails: the processor and those already activated, last first, return to their previous banks, the holds end, and the
failure is reported (R577, R580). -/
def failActivation (s : State) : State :=
  match s.board.activating with
  | [] => s
  | _ :: _ =>
    let f := s.board.flash
    let back := s.board.activated.foldl (fun f p => (compsOf p).foldl (fun f k =>
      { f with bank := f.bank.set k (s.board.previous.getD k 0) }) f) f
    let s1 := setFlash { s with board := { s.board with activating := [], activated := [] } } back
    ((endFwHolds s1).setFld R.mgtFwstat F.mgtFwstat_state 5 |>.setFld R.mgtFwstat F.mgtFwstat_processor 0).emit (.activation false)

/-- End of the reset phase: every die but its always-on domain is reset, and the start sequence begins as a restart, with full training
where R598 asks for it. [DEDUCED, log 93] -/
def chipClear (s : State) : State :=
  let s1 := (List.range 8).foldl (fun s p => gateTiles (clearPart (flushDie s p) p) p) (failActivation s)
  let fab := { s1.fab with out := [], reorder := [], links := SMap.empty, departed := [], departing := false }
  -- the requests that waited at a unit are dropped; the clears, scrub passes and rewrites of the stacks still stand
  let kept := s1.held.filter fun h => match h.2 with | .clear .. => true | .scrub .. => true | .rewrite .. => true | _ => false
  let s2 := { s1 with fab := fab, reqs := SMap.empty, held := kept, capUsed := SMap.empty, ticks := TickState.reset }
  let s3 := (List.range 12).foldl (fun s e => s.setFld (R.nocEdge e) F.nocEdge_state 0) s2
  let s4 := (((s3.setFld R.hifLink F.hifLink_width 0).setFld R.hifLink F.hifLink_rate 0).setFld R.hifLink F.hifLink_ready
    0).bump R.hifLink F.hifLink_downs 1
  let s5 := (((s4.setFld R.clkStatus F.clkStatus_noc_lock 0).setFld R.clkStatus F.clkStatus_timing_lock 0).setFld R.clkStatus
    F.clkStatus_tile_lock 0)
  let b := R.bootStatus
  let s6 := s5.setReg b (BitVec.ofNat 64 (2 * 2 ^ 8 + 1 * 2 ^ 16))
  { s6 with board := { s6.board with restart := true, retry := false, wave := 0, startFail := [], fwResend := SMap.empty,
                                     trainedFull := !s.board.flash.trained || s.fld R.bootCtl F.bootCtl_full_next == 1 } }

/-- CHIP_RESET_PHASE_END: the reset phase; the restart, once the start is ready; the recovery. -/
def execChipResetPhaseEnd (us : BitVec 32) (s : State) : Host.Outcome State Fault Refusal :=
  let r := R.devRststat
  .next (match s.fld r F.devRststat_phase with
  | 1 => (chipClear s).setFld r F.devRststat_phase 2
  | 2 => if s.fld R.bootStatus F.bootStatus_ready = 1 then s.setFld r F.devRststat_phase 3 else s
  | 3 =>
    let s1 := (List.range 8).foldl restorePart s
    let s2 := (s1.setFld r F.devRststat_phase 0).setFld r F.devRststat_last_us us.toNat
    let s3 := s2.recordAll (ErrRec.mk0 0x0D 0 0 0x0C 0
      (3 + 2 ^ 4 + s2.fld r F.devRststat_last_cause * 2 ^ 8 + us.toNat * 2 ^ 16))
    let s4 := (List.range 8).foldl State.flushRing s3
    s4.ctxs.keys.foldl State.resetRevival s4
  | _ => s)

def execResetDevice (c : Cmd) (s : State) : Host.Outcome State Fault Refusal :=
  .next (mgmt 0x0508 .both false c s fun s => (St.ok, [], s.startChipReset 1))

/-! ### Alarm sources of pins and supplies (R472) -/

def execDebugUnlockFailure (s : State) : Host.Outcome State Fault Refusal := .next (s.raiseAlarm 3 0 none)

def execLidTamper (s : State) : Host.Outcome State Fault Refusal := .next (s.raiseAlarm 4 0 none)

def execVoltageGlitch (s : State) : Host.Outcome State Fault Refusal := .next (s.raiseAlarm 2 0 none)

/-! ### Die-to-die links (R389, R392 to R395) -/

/-- Base dies that an edge joins. -/
def edgeDies (e : Nat) : List Nat :=
  ([[0, 1], [1, 2], [2, 3], [4, 5], [5, 6], [6, 7], [0, 4], [1, 5], [2, 6], [3, 7], [0], [7]] : List (List Nat)).getD e []

/-- PKG_LINK record in the rings of both partitions of the edge. -/
def edgeRecord (s : State) (e sev event module lane : Nat) : State :=
  (edgeDies e).foldl (fun s p =>
    s.record p (ErrRec.mk0 9 sev p 9 e (event + module * 2 ^ 8 + lane * 2 ^ 16))) s

/-- A module out of service: the edge is degraded, or down without a working module. The package map records it, so that an edge
without a working module fails the next chip reset (R395, R408). [DEDUCED, log 137] -/
def moduleOut (s : State) (e m : Nat) : State :=
  let r := R.nocEdge e
  let good := setBitsOf (s.fld r F.nocEdge_module_good) m m 0
  let s1 := addMapRec ((s.setFld r F.nocEdge_module_good good).setFld r F.nocEdge_degraded 1) (MapRec.field 3 (e + m * 2 ^ 16) 3)
  edgeRecord (if good = 0 then s1.setFld r F.nocEdge_state 0 else s1) e 4 4 m 0

/-- A wire that waits for its repair, as a lane repair record without its spare (R393). -/
def laneRec (e m : Nat) (d : Bool) (l : Nat) : MapRec := MapRec.field 2 (e + m * 2 ^ 16 + bit d 24 + l * 2 ^ 32) 0

/-- Lanes of a module and direction that the package map records as failed: the place is word A's low half (R408). -/
def failedLanes (s : State) (place : Nat) : List Nat :=
  (s.board.flash.mapRecs.filter fun r => r.typ == 2 && r.a % 2 ^ 32 == place).map fun r => bitsOf r.a 39 32

/-- Spares of a link: 4 lanes 64 to 67 in each module and direction of an edge, 8 bonds in each direction of a tile port (R391,
R396); a bridge has the lane remapping of its interface, which the spec does not count. [DEDUCED, log 82] -/
def sparesOf (link : Nat) : Nat := if link < 12 then 4 else if link < 0x2000 then 256 else 8

/-- A failed wire is repaired with the next spare and recorded. One beyond the spares of an edge's module leaves the half of its lanes
that is good, or disables it; one beyond those of a tile port puts the port out of service (R394, R396, R404). -/
def repairWire (s : State) (r : MapRec) : State :=
  let place := r.a % 2 ^ 32
  let link := r.a % 65536
  let lane := bitsOf r.a 39 32
  let bad := failedLanes s place
  if bad.contains lane then s
  else if bad.length < sparesOf link then
    addMapRec s (MapRec.field 2 (place + lane * 2 ^ 32 + ((if link < 12 then 64 else 0) + bad.length) * 2 ^ 40) 0)
  else if link < 12 then
    let all := lane :: bad
    let v := if all.all (32 ≤ ·) then 1 else if all.all (fun l => decide (l < 32) || decide (64 ≤ l)) then 2 else 3
    addMapRec s (MapRec.field 3 place v)
  else if 0x2000 ≤ link then
    { s with board := { s.board with badPorts := (s.board.badPorts ++ [(link - 0x2000) / 0x200 * 272 + link % 0x200]).dedup } }
  else s

/-- D2D_FLIT_RECEIVE: a flit of a module arrives; `resent` flits of the buffer follow a failed one, `laneErrors` parity errors
have shown since the last, and a lane of a direction may be marked for repair. A flit's first failure is no retry: the sixteenth retry
in a row that fails is its seventeenth failure (R394). -/
def execD2dFlitReceive (edge : Fin 12) (module : Fin 16) (ok : Bool) (resent : BitVec 8) (laneErrors : BitVec 16)
    (marked : Option (Bool × BitVec 8)) (s : State) : Host.Outcome State Fault Refusal :=
  let e := edge.val
  let m := module.val
  let key := e * 16 + m
  let r := R.nocEdge e
  .next (if (s.fld r F.nocEdge_module_good).testBit m = false then s
  else
    let s1 := s.bump (R.nocEdgeerr e) F.nocEdgeerr_lane_errors laneErrors.toNat
    let s2 := match marked with
      | none => s1
      | some (d, l) => edgeRecord { s1.setFld r F.nocEdge_repair_pending 1 with
          board := { s1.board with lanes := s1.board.lanes ++ [laneRec e m d l.toNat] } } e 1 2 m l.toNat
    if ok then { s2 with board := { s2.board with d2dFails := s2.board.d2dFails.erase key } }
    else
      let n := s2.board.d2dFails.getD key 0 + 1
      let s3 := { s2.bump (R.nocEdgeerr e) F.nocEdgeerr_retries resent.toNat with
                  board := { s2.board with d2dFails := s2.board.d2dFails.set key n } }
      if n < 17 then s3
      else moduleOut (edgeRecord { s3 with board := { s3.board with d2dFails := s3.board.d2dFails.erase key } } e 1 1 m 0) e m)

end Sys2Proof.Machine
end

