-- ==== Sys2Proof/Machine/HostLink.lean ====
section
/-! DEFINITION. The host link and BAR2, the management bus, attestation, and firmware delivery and activation (R547, R550 to
R552, R558, R567 to R580). -/

namespace Sys2Proof.Machine

/-! ### BAR2 (R550, R337, R471) -/

/-- Device address and checks of a host access of `n` bytes at a BAR2 offset: the address, or the failed check with the
address it names. -/
def bar2Place (s : State) (off n : Nat) (write : Bool) : Nat × Option (Nat × Option Nat) :=
  let seg := off / (s.board.bar2Size / 16)
  let r := R.hifSeg seg
  let a := s.fld r F.hifSeg_base * 2 ^ 26 + off % (s.board.bar2Size / 16)
  let place (x : Nat) : Bool := match s.region x with
    | .hole => false
    | .registers => false
    | .localStore _ => false
    | .scratch p => s.fld (R.scaWay p ((x - scratchBase p) / 0x1000000)) F.scaWay_kind == 2
    | _ => true
  let secure := s.ctxs.vals.any fun x => x.secure && x.windows.vals.any fun w =>
    w.valid && w.kind != 5 && w.kind != 6 && decide (w.base < a + n) && decide (a ≤ w.limit)
  if 16 ≤ seg ∨ s.fld r F.hifSeg_valid = 0 ∨ (write = true ∧ s.fld r F.hifSeg_wr = 0) then (a, some (2, none))
  else if place a = false ∨ place (a + n - 1) = false then (a, some (1, some a))
  else if secure = true ∨ s.offFirmware a n = false then (a, some (2, some a))
  else (a, none)

/-- ACCESS record of a rejected host access through BAR2. [DEDUCED, log 88] -/
def bar2Record (s : State) (off check : Nat) (a : Option Nat) : State :=
  let p := (a.map s.homeOf).getD 0
  let r := ErrRec.mk0 0x0B 1 p 0x0F 0 (St.bound + check * 2 ^ 8 + 2 ^ 11 + off * 2 ^ 24)
  s.record p (match a with
    | some x => { r with addr := s.localDev * 2 ^ 44 + x, addrKind := 1 }
    | none => { r with device := true })

/-- A line of the access is leased, or its slice or stack quiesced: the access waits (R281, R337). -/
def bar2Leased (s : State) (a n : Nat) : Bool := s.waitsAt a n

/-- The device as a host access finds it: on, and not inside a reset of the chip. [DEDUCED, log 13] -/
def hostReach (s : State) : Bool := s.fld R.hifLink F.hifLink_width != 0

/-- BAR2_READ: `n` + 1 bytes at an offset. Bytes of an uncorrectable line read as ones; a bad line poisons the completion. -/
def execBar2Read (off : BitVec 36) (n : BitVec 12) (x : LineFault) (s : State) : Host.Outcome State Fault Refusal :=
  let len := n.toNat + 1
  let (a, bad) := bar2Place s off.toNat len false
  .next (if hostReach s = false then s
  else match bad with
  | some (check, y) =>
    (bar2Record s off.toNat check y).emit (.bar2Value (List.replicate len 0xFF) false)
  | none =>
    if bar2Leased s a len then s.holdAt a len (.hostRead off n x)
    else
      let s1 := homeFault s a x
      let bs := (List.range len).map fun i => if s1.lineSt ((a + i) / 64) = .ue then 0xFF else s1.byteAt (a + i)
      ((s1.readRecords (s1.homeOf a) a len none 1).homeRange 512 a len 1 false).emit (.bar2Value bs (s1.statusAt a len != .ok)))

/-- BAR2_WRITE: bytes at an offset, performed at the home of the line. -/
def execBar2Write (off : BitVec 36) (bytes : List Byte) (s : State) : Host.Outcome State Fault Refusal :=
  let (a, bad) := bar2Place s off.toNat bytes.length true
  .next (if hostReach s = false ∨ bytes = [] then s
  else match bad with
  | some (check, y) => bar2Record s off.toNat check y
  | none =>
    if bar2Leased s a bytes.length then s.holdAt a bytes.length (.hostWrite off bytes)
    else (s.homeRange 512 a bytes.length 1 true).writeBytes a bytes)

/-! ### Host memory and the link (R551, R552, R569, R572) -/

/-- FABRIC record of event 3 about the host link. -/
def hostTimeoutRecord (s : State) (sev : Nat) (c : Option Nat) : State :=
  s.recordAll (s.nameCtx (ErrRec.mk0 0x0A sev 0 0x0F 0 3) c)

/-- The record of a load that host memory did not answer, in the tile's partition too: it names the address (R207, R551). -/
def loadTimeoutRecord (s : State) (q : MemReq) : State :=
  s.recordAll { s.nameCtx (ErrRec.mk0 0x0A 1 0 0x0F 0 3) (some (q.ctx / 128)) with addr := q.addr, addrKind := 1 }

/-- The next chunk of a started descriptor comes from or goes to host memory. -/
def hostChunk (s : State) (k : Nat) (a : Active) : Bool :=
  let src := !a.d.zeroOp && (match s.qResolve k a.d.swin (a.d.srcAt a.pos) 1 .rd with | some (.host _) => true | _ => false)
  let dst := match s.qResolve k a.d.dwin (a.d.dstAt a.pos) 1 .wr with | some (.host _) => true | _ => false
  a.status == 0 && decide (a.pos < a.d.total) && (src || dst)

/-- HOST_READ_TIMEOUT: 50 ms without a completion. A descriptor ends with TIMEOUT; a load marks its register (R207). -/
def execHostReadTimeout (x : HostRead) (s : State) : Host.Outcome State Fault Refusal :=
  .next (match x with
  | .mem r => match s.reqs.get? r.toNat with
    | some q => match q.dest, q.kind with
      | .host _, .load => (loadTimeoutRecord s q).answer r.toNat q 0 true
      | _, _ => s
    | none => s
  | .dma q i =>
    let k := queueKey q
    match activeAt s k i.toNat with
    | some a =>
      if hostChunk s k a then failActive (hostTimeoutRecord s (if (s.qCtx k).isSome then 2 else 1) (s.qCtx k)) k i.toNat St.timeout false
      else s
    | none => s)

/-- FABRIC record of event 1 or 2 about the host link, with vector 513. [DEDUCED, log 88] -/
def linkEvent (s : State) (event : Nat) : State := (s.recordAll (ErrRec.mk0 0x0A 1 0 0x0F 0 event)).emit (.msix 513)

/-- The host link goes down while the module stays powered: contexts are held and transfers with the host pool in flight end
with TIMEOUT (R572). -/
def hostDown (s : State) : State :=
  let l := R.hifLink
  if s.fld l F.hifLink_width = 0 then s
  else
    let s1 := ((s.setFld l F.hifLink_width 0).setFld l F.hifLink_rate 0).bump l F.hifLink_downs 1
    let s2 := linkEvent s1 1
    let s3 := s2.ctxs.keys.foldl (fun s c => s.hold c .hostLink) s2
    (s3.queues.keys).foldl (fun s k => match (s.queue k).active.findIdx? (hostChunk s k) with
      | some i => failActive s k i St.timeout false
      | none => s) s3

/-- HOST_LINK_CHANGE: the width and rate of the link now; width 0 when it is down. -/
def execHostLinkChange (width : BitVec 5) (rate : BitVec 3) (s : State) : Host.Outcome State Fault Refusal :=
  let l := R.hifLink
  let old := s.fld l F.hifLink_width
  .next (if width = 0 then hostDown s
    else if s.board.perst = true ∨ (old = width.toNat ∧ s.fld l F.hifLink_rate = rate.toNat) then s
    else
      let s1 := (s.setFld l F.hifLink_width width.toNat).setFld l F.hifLink_rate rate.toNat
      if old = 0 then s1 else linkEvent s1 2)

def execPerstAssert (s : State) : Host.Outcome State Fault Refusal :=
  .next (({ hostDown s with board := { (hostDown s).board with perst := true } }).setFld R.mgtPins F.mgtPins_perst 1)

def execPerstDeassert (s : State) : Host.Outcome State Fault Refusal :=
  .next (({ s with board := { s.board with perst := false } }).setFld R.mgtPins F.mgtPins_perst 0)

/-- CONFIGURATION_REQUEST: retried until HIF.LINK.ready is set. -/
def execConfigurationRequest (s : State) : Host.Outcome State Fault Refusal :=
  .next (s.emit (.config (s.fld R.hifLink F.hifLink_ready == 0)))

/-- SET_HOST_REGION: the value of HIF.HREG, with the checks of the register. -/
def execSetHostRegion (c : Cmd) (region : BitVec 8) (value : BitVec 64) (s : State) : Host.Outcome State Fault Refusal :=
  let r := R.hifHreg region.toNat
  .next (mgmt 0x0002 .hostOnly false c s fun s =>
    if regOk s r (BitVec.allOnes 64) value then
      (St.ok, [], markLevel (applyItem s r (BitVec.allOnes 64) value) r 1 (BitVec.allOnes 64))
    else (St.bound, [], rejectReg s .item r true none))

/-! ### The management bus (R558) -/

/-- ENTDAA: the dynamic address, and whether the tray reports another module with the same slot number (R657). -/
def execEntdaa (addr : BitVec 7) (dup : Bool) (s : State) : Host.Outcome State Fault Refusal :=
  .next (if s.board.aux then
      ({ s with board := { s.board with i3cAddr := addr.toNat } }).setFld R.mgtPins F.mgtPins_slot_dup (if dup then 1 else 0)
    else s)

def execMctpEndpointIdAssign (eid : BitVec 8) (s : State) : Host.Outcome State Fault Refusal :=
  .next (if s.board.aux then s.setFld R.mgtId F.mgtId_mctp_eid eid.toNat else s)

/-! ### Attestation (R568) -/

/-- `n` bytes of a signature made with the identity key. -/
def drawnBytes (s : State) (n : Nat) : List Byte × State :=
  let (i, s1) := s.draw
  ((List.range n).map (Config.keyByte i), s1)

def spdmAnswer (s : State) (f : State → Option (List Byte × State)) : State :=
  if s.board.restricted then s.emit (.spdm false [])
  else match f s with
    | some (bs, s1) => s1.emit (.spdm true bs)
    | none => s.emit (.spdm false [])

/-- GET_CERTIFICATE: `n` bytes of the chain in slot 0. -/
def execGetCertificate (slot : BitVec 4) (n : BitVec 16) (s : State) : Host.Outcome State Fault Refusal :=
  .next (spdmAnswer s fun s => if slot = 0 then some ((List.range n.toNat).map Config.certByte, s) else none)

/-- CHALLENGE: a signature of 96 bytes made with the identity key. -/
def execChallenge (slot : BitVec 4) (nonce : List Byte) (s : State) : Host.Outcome State Fault Refusal :=
  .next (spdmAnswer s fun s =>
    if slot = 0 ∧ nonce.length = 32 then
      let (sig, s1) := drawnBytes s 96
      some (nonce ++ sig, s1)
    else none)

/-- GET_MEASUREMENTS: the SHA-384 digest with an index of the table "Measurements". [DEDUCED, log 92] -/
def execGetMeasurements (index : BitVec 8) (s : State) : Host.Outcome State Fault Refusal :=
  let f := s.board.flash
  let image (k : Nat) : List Byte := (List.range 48).map (Config.imageDigest k (f.version.getD (k * 2 + f.bank.getD k 0) 0))
  .next (spdmAnswer s fun s => match index.toNat with
    | 1 => some (image 1, s)
    | 2 => some (image 2, s)
    | 3 => some (image 3, s)
    | 4 => some (image 4, s)
    | 5 => some (digest (packageMap s), s)
    | 6 => some (digest (leBytes 8 (s.reg R.secAlarmpol).toNat), s)
    | 7 => some (digest (secureList s).flatten, s)
    | _ => none)

/-! ### Firmware delivery (R573 to R575) -/

def fwState (s : State) : Nat := s.fld R.mgtFwstat F.mgtFwstat_state

/-- MGT.FWSTAT shows the chunks stored, and the state of the delivery. -/
def showChunks (s : State) : State :=
  let f := s.board.flash
  let total := f.digests.length + 1
  let s1 := (s.setFld R.mgtFwstat F.mgtFwstat_chunks_done f.chunks.rows.length).setFld R.mgtFwstat F.mgtFwstat_chunks_total total
  if f.chunks.rows.length = total then (s1.setFld R.mgtFwstat F.mgtFwstat_state 2).emit .applyComplete
  else
    let s2 := s1.setFld R.mgtFwstat F.mgtFwstat_state 1
    match (List.range total).find? fun i => !(f.chunks.has i) with
    | some i => s2.emit (.chunkRequest i)
    | none => s2

/-- Chunk 0: the manifest of a package. One of the same package keeps the chunks stored; another discards them.
[DESIGN CHOICE, log 91] -/
def takeManifest (s : State) (bytes : List Byte) (m : Manifest) : State :=
  let f := s.board.flash
  let id := digest bytes
  let chunks := if f.manifest = id then f.chunks else SMap.empty
  showChunks (setFlash s { f with
    manifest := id, digests := m.digests, matrix := m.matrix, order := m.order.map BitVec.toNat, chunks := chunks.set 0 bytes,
    staged := (List.range 4).foldl (fun a i => a.set (i + 1) (m.versions.getD i 0)) SMap.empty })

/-- A manifest is accepted: the digest of its public key is the one fused at its key index, the index is not revoked, and the
signature of every other byte of the manifest verifies (R574). -/
def manifestAccepted (bytes : List Byte) (m : Manifest) : Bool :=
  let key := (bytes.drop m.keyAt.toNat).take 2592
  let sig := (bytes.drop m.sigAt.toNat).take 4627
  let others := bytes.take m.sigAt.toNat ++ bytes.drop (m.sigAt.toNat + 4627)
  digest key == (List.range 48).map (Config.fusedKeyByte m.keyIndex.toNat) && !(Config.keyRevoked m.keyIndex.toNat)
    && MlDsa.verify key others sig

/-- FIRMWARE_CHUNK_RECEIVE: chunk `i`; `m` are the manifest's fields when `i` is 0. A chunk that fails its digest is asked for
again; no package is taken during an activation. -/
def execFirmwareChunkReceive (i : BitVec 16) (bytes : List Byte) (m : Option Manifest) (s : State) :
    Host.Outcome State Fault Refusal :=
  let k := i.toNat
  let f := s.board.flash
  .next (if fwState s = 3 ∨ fwState s = 4 then s
  else if k = 0 then
    match m with
    | some x => if manifestAccepted bytes x then takeManifest s bytes x else s.setFld R.mgtFwstat F.mgtFwstat_state 5
    | none => s
  else if fwState s ≠ 1 ∨ f.digests.length < k then s
  else if f.digests[k - 1]? = some (digest bytes) then
    showChunks (setFlash s { f with chunks := f.chunks.set k bytes })
  else s.emit (.chunkRequest k))

/-! ### Activation (R576 to R578) -/

/-- Version of a component in its active bank. -/
def activeVersion (f : Flash) (k : Nat) : W64 := f.version.getD (k * 2 + f.bank.getD k 0) 0

/-- Each version of a combination accepts every other (R574). -/
def allowed (f : Flash) (v : List W64) : Bool :=
  [1, 2, 3, 4].all fun j => [1, 2, 3, 4].all fun k =>
    j == k || f.matrix.contains ⟨j, v.getD (j - 1) 0, k, v.getD (k - 1) 0⟩

/-- The versions of a component that run once the first `n` processors have been activated. -/
def versionsAt (f : Flash) (n k : Nat) : List W64 :=
  let runs (l : List Nat) : Bool := l.any fun p => (compsOf p).contains k
  let done := runs (f.order.take n)
  (if done then [f.staged.getD k 0] else []) ++ (if done = false ∨ runs (f.order.drop n) = true then [activeVersion f k] else [])

/-- The combinations of versions met along the activation order, processor by processor (R576). -/
def combinations (f : Flash) : List (List W64) :=
  (List.range f.order.length).flatMap fun n =>
    (versionsAt f (n + 1) 1).flatMap fun a => (versionsAt f (n + 1) 2).flatMap fun b =>
      (versionsAt f (n + 1) 3).flatMap fun c => (versionsAt f (n + 1) 4).map fun d => [a, b, c, d]

/-- Contexts that a processor serves. -/
def servedBy (s : State) (proc : Nat) : List Nat :=
  match proc / 16 with
  | 1 => s.ctxs.keys
  | 2 => s.ctxsOn (proc % 16)
  | 3 => (s.ctxs.rows.filter fun r => r.2.peerTable != 0).map (·.1)
  | _ => []

/-- The next processor's contexts are held, or the activation has ended. -/
def nextProcessor (s : State) : State :=
  match s.board.activating with
  | [] =>
    let f := s.board.flash
    ((setFlash { s with board := { s.board with activated := [] } } { f with bothFormats := true }).setFld R.mgtFwstat
      F.mgtFwstat_state 4 |>.setFld R.mgtFwstat F.mgtFwstat_processor 0).emit (.activation true)
  | p :: _ =>
    let s1 := s.setFld R.mgtFwstat F.mgtFwstat_processor (p / 16)
    (servedBy s1 p).foldl (fun s c => s.hold c .firmware) s1

/-- ACTIVATE_FIRMWARE: every combination met must be allowed, or nothing is activated. -/
def execActivateFirmware (s : State) : Host.Outcome State Fault Refusal :=
  let f := s.board.flash
  .next (if fwState s ≠ 2 ∨ (combinations f).all (allowed f) = false then s.emit (.activation false)
    else
      let s1 := { s with board := { s.board with activating := f.order, activated := [], previous := f.bank } }
      nextProcessor (s1.setFld R.mgtFwstat F.mgtFwstat_state 3))

/-- A component runs its staged bank from now on: the boot record names it. [DESIGN CHOICE, log 91] -/
def switchBank (f : Flash) (previous : SMap Nat) (k : Nat) : Flash :=
  let b := 1 - previous.getD k 0
  { f with bank := f.bank.set k b, version := f.version.set (k * 2 + b) (f.staged.getD k 0) }

/-- PROCESSOR_RESTART_DONE: the processor runs its new image, once its contexts are held. -/
def execProcessorRestartDone (s : State) : Host.Outcome State Fault Refusal :=
  .next (match s.board.activating with
  | [] => s
  | p :: rest =>
    if (servedBy s p).any fun c => s.ctxSt c == CtxSt.running then s
    else
      let f := (compsOf p).foldl (fun f k => switchBank f s.board.previous k) s.board.flash
      let s1 := setFlash { s with board := { s.board with activating := rest, activated := p :: s.board.activated } } f
      nextProcessor (endFwHolds s1))

/-- PROCESSOR_RESTART_TIMEOUT: the processor and those already activated, last first, return to their previous banks. -/
def execProcessorRestartTimeout (s : State) : Host.Outcome State Fault Refusal :=
  .next (failActivation s)

/-- CONFIRM_UPDATE: old-format records and the fall-back banks go. -/
def execConfirmUpdate (c : Cmd) (s : State) : Host.Outcome State Fault Refusal :=
  .next (mgmt 0x0003 .both false c s fun s =>
    let f := s.board.flash
    let s1 := setFlash { s with board := { s.board with previous := SMap.empty } } { f with bothFormats := false }
    (St.ok, [], if fwState s = 4 then s1.setFld R.mgtFwstat F.mgtFwstat_state 0 else s1))

end Sys2Proof.Machine
end

