-- ==== Sys2Proof/Machine/Power.lean ====
section
/-! DEFINITION. Power, temperatures and coolant: the limiter and its ladder, sensors and their failures, refresh rates and
quiesce, the clamp, the coolant report, regulator faults and the trip (R24, R280 to R282, R290, R566, R609 to R631). -/

namespace Sys2Proof.Machine

/-! ### Records (R631) -/

/-- Signed reading as 16 bits. -/
def reading16 (x : Int) : Nat := (BitVec.ofInt 16 x).toNat

def thermalSev (event : Nat) : Nat :=
  if event = 2 ∨ event = 4 ∨ event = 6 then 0 else if event = 3 then 4 else if event = 9 then 5 else 1

def powerSev (event : Nat) : Nat := if event = 3 then 0 else if event = 4 then 3 else if event = 6 ∨ event = 7 then 5 else 1

/-- Partition in whose ring a sensor's records stand; I/O dies belong to the device. -/
def sensorPart (i : Nat) : Option Nat :=
  match spotOf i with
  | .tile p _ => some p
  | .layer p _ _ => some p
  | .base p _ => some p
  | .stack n _ => some (n / 4)
  | .io _ _ => none
  | .nothing => none

/-- THERMAL record about a sensor, with a partner or substitute. -/
def sensorRecord (s : State) (i event : Nat) (x : Int) (other : Option (Nat × Int)) : State :=
  let o := match other with | some (j, y) => reading16 y * 2 ^ 24 + j * 2 ^ 40 | none => 0
  let synd := event + reading16 x * 2 ^ 8 + o
  match sensorPart i with
  | some p => s.record p (ErrRec.mk0 0x0E (thermalSev event) p 0x0D i synd)
  | none => s.recordAll (ErrRec.mk0 0x0E (thermalSev event) 0 0x0D i synd)

/-- THERMAL record about the device. -/
def thermalRecord (s : State) (event : Nat) (x : Int) : State :=
  s.recordAll (ErrRec.mk0 0x0E (thermalSev event) 0 0x0C 0 (event + reading16 x * 2 ^ 8))

def effectiveLimit (s : State) : Nat := s.fld R.pwrLimit F.pwrLimit_effective

/-- POWER record about the device; the unit index names the regulator or supply. [DEDUCED, log 88] -/
def powerRecord (s : State) (event index value : Nat) : State :=
  s.recordAll (ErrRec.mk0 0x0F (powerSev event) 0 0x0E index (event + value % 65536 * 2 ^ 8 + effectiveLimit s * 2 ^ 24))

def powerRecordAt (s : State) (p event index value : Nat) : State :=
  s.record p (ErrRec.mk0 0x0F (powerSev event) p 0x0E index (event + value % 65536 * 2 ^ 8 + effectiveLimit s * 2 ^ 24))

/-! ### The power limit (R612, R613) -/

def clampOn (s : State) : Bool := s.board.flowStop || s.board.undervolt

/-- L of R612. -/
def limitL (s : State) : Nat :=
  if clampOn s then 400
  else min s.part.maxPower (min (s.fld R.pwrLimit F.pwrLimit_tray) (s.fld R.pwrLimit F.pwrLimit_coolant))

/-- PWR.LIMIT.effective and the clamp bits of PWR.STAT; entering the clamp sets B to 400 W. -/
def showLimit (s : State) : State :=
  let b (x : Bool) : Nat := if x then 1 else 0
  let s1 := s.setFld R.pwrLimit F.pwrLimit_effective (limitL s)
  let s2 := (s1.setFld R.pwrStat F.pwrStat_clamp (b (clampOn s))).setFld R.pwrStat F.pwrStat_flow_fault (b s.board.flowStop)
  if clampOn s then s2.setFld R.pwrLimit F.pwrLimit_budget 400 else s2

/-- B at the end of a window whose average input power is `w`. -/
def nextBudget (s : State) (w : Nat) : State :=
  let l := limitL s
  let b := s.fld R.pwrLimit F.pwrLimit_budget
  let calm := if w + 50 ≤ l then s.board.calm + 1 else 0
  let since := s.board.sinceRise + 1
  let rise := decide (b < l) && decide (10 ≤ calm) && decide (10 ≤ since)
  let down := s.board.outletHot || decide (l < w) || decide (l < b)
  let b' := if clampOn s then 400 else if down then max 400 (b - 25) else if rise then min l (b + 25) else b
  { s.setFld R.pwrLimit F.pwrLimit_budget b' with
    board := { s.board with calm := calm, sinceRise := if rise ∧ down = false ∧ clampOn s = false then 0 else since } }

/-! ### The ladder (R614, R615, R621) -/

/-- Measured draw over the last 10 ms in W, core current in A and core voltage in mV of a partition. -/
abbrev PartDraw := BitVec 16 × BitVec 16 × BitVec 16

/-- Shares of the remainder `m` in proportion to the draws, at least `m / 16` each: partitions below that floor get it, and
the others share the rest. `fuel` bounds the rounds. [DEDUCED, log 84] -/
def shares : Nat → Nat → List Nat → List Nat → List Nat
  | 0, m, draws, _ => draws.map fun _ => m / 16
  | n + 1, m, draws, fixed =>
    let live := (List.range draws.length).filter fun i => !fixed.contains i
    let sum := (live.map fun i => draws.getD i 0).sum
    let rest := m - fixed.length * (m / 16)
    let get (i : Nat) : Nat :=
      if fixed.contains i then m / 16 else if sum = 0 then rest / max 1 live.length else rest * draws.getD i 0 / sum
    let low := live.filter fun i => decide (get i < m / 16)
    if low = [] then (List.range draws.length).map get else shares n m draws (fixed ++ low)

def ladderGap (step : Nat) : Nat := if 4 ≤ step then 1023 else if 1 ≤ step then 256 else 0
def ladderMem (step : Nat) : Nat := if 6 ≤ step then 2 else if 3 ≤ step then 1 else 0

/-- Highest tile frequency of a ladder step, in 25 MHz units. -/
def ladderFreq (step fmax : Nat) : Nat := if 5 ≤ step then 20 else if 2 ≤ step then min fmax 40 else fmax

/-- [DEDUCED, log 85] -/
def thermFreq (s : State) (p : Nat) : Nat := s.board.thermFreq.getD p 60

/-- A partition stands at a ladder step; a dead pair of its base die holds it at step 6 (R617). -/
def setLadder (s : State) (p step : Nat) : State :=
  let r := R.pwrPctl p
  let n := if s.baseDead p then 6 else step
  ((((s.setFld r F.pwrPctl_step n).setFld r F.pwrPctl_gap (ladderGap n)).setFld r F.pwrPctl_memcap (ladderMem n)).setFld r
    F.pwrPctl_freq (min (ladderFreq n (s.fld r F.pwrPctl_fmax)) (thermFreq s p)))

/-- Core current limit of a share, in 10 A units. -/
def coreLimit (s : State) (p share mv : Nat) : Nat :=
  let top := s.fld (R.pwrPctl p) F.pwrPctl_ilim_max
  max 5 (min top (if mv = 0 then top else share * 1000 / mv / 10))

/-- One window of a partition: its limit, its step of the ladder, and its counts. [DEDUCED, log 85] -/
def ladderWindow (s : State) (p share : Nat) (d : PartDraw) (w : Nat) : State :=
  let r := R.pwrPctl p
  let lim := coreLimit s p share d.2.2.toNat
  let cur := d.2.1.toNat
  let step := s.fld r F.pwrPctl_step
  let exceeds := decide (lim * 10 < cur) || s.baseHot p
  let anyHot := ((List.range s.part.tilesPerPart).map (p * 256 + ·)).any s.tileHot
  let cool := if anyHot then 0 else s.board.cool.getD p 0 + 1
  let below := if exceeds = false ∧ cur + 10 ≤ lim * 10 then s.board.below.getD p 0 + 1 else 0
  let top := if exceeds = true ∧ step = 6 then s.board.overTen.getD p 0 + 1 else 0
  let up := decide (10 ≤ below)
  let freq := if up = true ∧ 10 ≤ cool then min 60 (thermFreq s p + 1) else thermFreq s p
  let s1 := { s with board := { s.board with cool := s.board.cool.set p cool,
                                             below := s.board.below.set p (if up then 0 else below),
                                             overTen := s.board.overTen.set p top,
                                             thermFreq := s.board.thermFreq.set p freq } }
  let s2 := setLadder (s1.setFld r F.pwrPctl_ilim_now lim) p
    (if exceeds then min 6 (step + 1) else if up then step - 1 else step)
  if top = 10 then powerRecordAt s2 p 1 (1 + p) w else s2

/-- LIMITER_WINDOW: the end of a 1 ms window: average input power in W, input voltage in 10 mV, the draw of fabric, I/O dies,
stacks and conversion in W, and the partitions' draws. -/
def execLimiterWindow (inputW inputV other : BitVec 16) (parts : List PartDraw) (s : State) :
    Host.Outcome State Fault Refusal :=
  let w := inputW.toNat
  let s1 := showLimit (nextBudget (showLimit s) w)
  let s2 := ((s1.setFld R.pwrStat F.pwrStat_input_w w).setFld R.pwrStat F.pwrStat_input_v inputV.toNat).setFld R.pwrStat
    F.pwrStat_over (if limitL s1 < w then 1 else 0)
  let left := s2.fld R.pwrLimit F.pwrLimit_budget - other.toNat
  let draws := (List.range 8).map fun p => (parts.getD p (0, 0, 0))
  let sh := shares 8 left (draws.map fun d => d.1.toNat) []
  .next ((List.range 8).foldl (fun s p => ladderWindow s p (sh.getD p 0) (draws.getD p (0, 0, 0)) w) s2)

/-! ### Flow stop and undervoltage (R627 to R629) -/

/-- The flow stops: clamp, ladder step 6, a hold of every context, and the records. -/
def stopFlow (s : State) : State :=
  if s.board.flowStop ∨ s.board.lost then s
  else
    let s1 := showLimit { s with board := { s.board with flowStop := true, goodReports := 0 } }
    let s2 := (List.range 8).foldl (fun s p => setLadder s p 6) s1
    let s3 := s2.ctxs.keys.foldl (fun s c => s.hold c .flow) s2
    powerRecord (thermalRecord s3 8 0) 2 0 (s3.fld R.pwrStat F.pwrStat_input_w)

/-- The flow has recovered (R628). -/
def resumeFlow (s : State) : State :=
  let s1 := showLimit { s with board := { s.board with flowStop := false } }
  let s2 := s1.ctxs.keys.foldl (fun s c => s.unhold c .flow) s1
  powerRecord s2 3 0 (s2.fld R.pwrStat F.pwrStat_input_w)

def execFlowFaultAssert (s : State) : Host.Outcome State Fault Refusal :=
  .next (if s.board.pwrEn then stopFlow (s.setFld R.mgtPins F.mgtPins_flow_fault 1) else s.setFld R.mgtPins F.mgtPins_flow_fault 1)

/-- FLOW_RECOVERY: FLOW_FAULT# is deasserted; two valid reports in a row must have given a flow. -/
def execFlowRecovery (s : State) : Host.Outcome State Fault Refusal :=
  let s1 := s.setFld R.mgtPins F.mgtPins_flow_fault 0
  .next (if s.board.flowStop = true ∧ s.board.lost = false ∧ 2 ≤ s.board.goodReports then resumeFlow s1 else s1)

/-- INPUT_UNDERVOLTAGE: below 40.0 V for 100 µs. -/
def execInputUndervoltage (v : BitVec 16) (s : State) : Host.Outcome State Fault Refusal :=
  .next (if s.board.undervolt then s
    else powerRecord (showLimit { s with board := { s.board with undervolt := true } }) 5 0 v.toNat)

def execUndervoltageRecover (s : State) : Host.Outcome State Fault Refusal :=
  .next (if s.board.undervolt then showLimit { s with board := { s.board with undervolt := false } } else s)

/-- Firmware halts every tile in RUN or STEPWAIT (R60). -/
def haltTiles (s : State) : State :=
  (s.tiles.keys.filter fun t => (s.tile t).st == .run || (s.tile t).st == .stepwait).foldl (fun s t =>
    s.setTile t { s.tile t with st := .halted, asm := [], held := false, stall := 0 }) s

/-- FLOW_STOP_TIMEOUT: 10 s without recovery. -/
def execFlowStopTimeout (s : State) : Host.Outcome State Fault Refusal :=
  .next (if s.board.flowStop = true ∧ s.board.lost = false then
      let s1 := haltTiles ((List.range 8).foldl flushDie s)
      let s2 := { s1 with board := { s1.board with lost := true } }
      (powerRecord s2 7 0 (s2.fld R.pwrStat F.pwrStat_input_w)).requestPowerCycle 0xA
    else s)

/-- REGULATOR_FAULT: a rail by the indices of R631; `amps` is its current. -/
def execRegulatorFault (rail : BitVec 8) (amps : BitVec 16) (s : State) : Host.Outcome State Fault Refusal :=
  let i := rail.toNat
  let of (p : Nat) : State := (powerRecordAt s p 4 i amps.toNat).startPartitionReset p 0xA
  .next (if i = 0 then (powerRecord s 4 0 amps.toNat).startChipReset 0xA
    else if i < 33 then of ((i - 1) % 8)
    else if i < 65 then of ((i - 33) / 4)
    else powerRecord s 4 i amps.toNat)

/-! ### Coolant (R566, R625, R626) -/

/-- The coolant limit for an inlet in 0.125 °C and a flow in mL/min, at most the rating. [DEDUCED, log 86] -/
def coolantLimit (p : Part) (inlet : Int) (flow : Nat) : Nat :=
  let head := (464 - inlet).toNat
  let byFlow := 12 * flow / 10
  let byOut := 697 * flow * head / 80000
  min p.maxPower (min byFlow byOut / 25 * 25)

/-- COOLANT_REPORT: word 0 of the report and its sequence number. [DEDUCED, log 34 and 86] -/
def execCoolantReport (c : Cmd) (w : BitVec 64) (_seq : BitVec 32) (s : State) : Host.Outcome State Fault Refusal :=
  .next (mgmt 0x0005 .trayOnly false c s fun s =>
    let inlet : Int := (w.extractLsb' 0 16).toInt
    let outlet : Int := (w.extractLsb' 16 16).toInt
    let flow := (w.extractLsb' 32 16).toNat
    let vIn := w.getLsbD 48
    let vOut := w.getLsbD 49
    let vFlow := w.getLsbD 50
    if bitsOf w.toNat 63 51 ≠ 0 then (St.bound, [], s)
    else
      let s1 := s.setFld R.mgtCoolant F.mgtCoolant_report (w.toNat % 2 ^ 51)
      let s2 := if vIn || vOut || vFlow then s1.setFld R.mgtCoolant F.mgtCoolant_stale 0 else s1
      let cold := vIn && decide (inlet < 136)
      let s3 := if cold then thermalRecord s2 6 (inlet * 2) else s2
      let s4 := if vIn = true ∧ vFlow = true ∧ cold = false then
          s3.setFld R.pwrLimit F.pwrLimit_coolant (coolantLimit s3.part inlet flow) else s3
      let hot := vOut && decide (472 < outlet)
      let s5 := if vOut then { s4 with board := { s4.board with outletHot := hot } } else s4
      let s6 := if hot then thermalRecord s5 7 (outlet * 2) else s5
      let good := if vFlow = true ∧ 500 ≤ flow then s6.board.goodReports + 1 else 0
      let s7 := showLimit { s6 with board := { s6.board with goodReports := good } }
      (St.ok, [], if vFlow = true ∧ flow < 500 then stopFlow s7 else s7))

/-- COOLANT_REPORT_STALE: 300 ms without a valid report. -/
def execCoolantReportStale (s : State) : Host.Outcome State Fault Refusal :=
  let s1 := (s.setFld R.mgtCoolant F.mgtCoolant_stale 1).setFld R.pwrLimit F.pwrLimit_coolant (coolantLimit s.part 320 2000)
  .next (showLimit (thermalRecord { s1 with board := { s1.board with goodReports := 0 } } 5 640))

/-- SET_POWER_LIMIT: the tray limit, in multiples of 25 W up to the rating, and the partitions' tile clocks (R632). -/
def execSetPowerLimit (c : Cmd) (items : List Item) (s : State) : Host.Outcome State Fault Refusal :=
  .next (mgmt 0x0007 .trayOnly false c s fun s =>
    applyItems s c [⟨R.pwrLimit, F.pwrLimit_tray, 800, s.part.maxPower⟩, ⟨R.pwrPctl 0, F.pwrPctl_fmax, 20, 60⟩] items fun g =>
      match g.get? R.pwrLimit with
      | some (_, x) => bitsOf x.toNat 11 0 % 25 == 0
      | none => true)

/-! ### Refresh and quiesce (R24, R280 to R282, R290) -/

/-- Refresh rate that a reading asks for. -/
def rateOf (x : Int) : Nat := if 380 < x then 2 else if 340 < x then 1 else 0

/-- Rate, and whether the reading quiesces or lets the unit resume, of a list of sensors: a dead sensor asks for 4× and never
quiesces. -/
def sensorRate (s : State) (l : List Nat) (deadAll : Bool) : Nat :=
  let dead := if deadAll then false else l.any s.sensDead
  if dead then 2 else (l.map fun i => if s.sensUsable i then rateOf (s.reading i) else 0).foldl max 0

/-- Both sensors of one pair of a stack have failed (R617). -/
def stackDead (s : State) (n : Nat) : Bool :=
  [0, 1].any fun i => s.sensDead (stackSensor n (2 * i)) && s.sensDead (stackSensor n (2 * i + 1))

def stackSensors (n : Nat) : List Nat := (List.range 4).map (stackSensor n)

/-- The sensor of a list with the highest usable reading, with that reading. -/
def hottest (s : State) (l : List Nat) : Nat × Int :=
  (l.filter s.sensUsable).foldl (fun a i => if a.2 < s.reading i then (i, s.reading i) else a) (l.headD 0, -32768)

/-- Waiting revivals of contexts that a unit's quiesce held back start (R622). -/
def resumeAll (s : State) : State := s.ctxs.keys.foldl (fun s c =>
  if s.ctxSt c = CtxSt.running then s.resumeWaiting c else s) s

/-- A slice follows the layers above its tile: rates rise at once, the cap holds at 4×, and a valid reading above 105 °C
quiesces it until every layer reads 103 °C or less. [DEDUCED, log 96] -/
def updateSlice (s : State) (t : Nat) : State :=
  let r := R.slcStatus t
  let l := s.layersOf t
  let old := s.fld r F.slcStatus_rate
  let rate := (List.range 4).foldl (fun a i =>
    setBitsOf a (2 * i + 1) (2 * i) (max (bitsOf a (2 * i + 1) (2 * i)) (sensorRate s [l.getD i 0] false))) old
  let cap := (List.range 4).any fun i => bitsOf rate (2 * i + 1) (2 * i) == 2
  let s1 := (s.setFld r F.slcStatus_rate rate).setFld r F.slcStatus_capped (if cap then 1 else 0)
  let q := s.fld r F.slcStatus_quiesced
  let (i, x) := hottest s l
  if q = 0 ∧ s.anyAbove l 420 = true then sensorRecord (s1.setFld r F.slcStatus_quiesced 1) i 1 x none
  else if q = 1 ∧ s.anyAbove l 412 = false then resumeAll (sensorRecord (s1.setFld r F.slcStatus_quiesced 0) i 2 x none)
  else s1

/-- A capacity stack follows its sensors. [DEDUCED, log 96] -/
def updateStack (s : State) (n : Nat) : State :=
  let r := R.capStatus (n / 4) (n % 4)
  let l := stackSensors n
  let rate := max (s.fld r F.capStatus_rate) (if stackDead s n then 2 else sensorRate s l true)
  let s1 := (s.setFld r F.capStatus_rate rate).setFld r F.capStatus_capped (if rate = 2 then 1 else 0)
  let q := s.fld r F.capStatus_quiesced
  let (i, x) := hottest s l
  if q = 0 ∧ s.anyAbove l 420 = true then sensorRecord (s1.setFld r F.capStatus_quiesced 1) i 1 x none
  else if q = 1 ∧ s.anyAbove l 412 = false then resumeAll (sensorRecord (s1.setFld r F.capStatus_quiesced 0) i 2 x none)
  else s1

/-- What follows the readings of a sensor. -/
def followSensor (s : State) (i : Nat) : State :=
  match spotOf i with
  | .layer p _ k =>
    ((tilesOf s p).filter fun t => State.regionOfPos (s.posOf t) == k).foldl updateSlice s
  | .stack n _ => if s.stackOn n then updateStack s n else s
  | .base p _ => if s.baseDead p then setLadder s p 6 else s
  | _ => s

/-! ### Sensors (R616 to R619) -/

/-- The entry of THM.SUBST that marks a sensor failed. [DEDUCED, log 87] -/
def substOf (s : State) (i : Nat) : Option Nat :=
  (List.range 64).find? fun k => s.fld (R.thmSubst k) F.thmSubst_valid == 1 && s.fld (R.thmSubst k) F.thmSubst_failed == i

/-- THM.SENS of a sensor from its raw reading and what is known of it. -/
def showSensor (s : State) (i : Nat) (ok : Bool) : State :=
  let raw : Int := (s.board.raw.getD i 0).toInt
  let valid := ok && decide (-160 ≤ raw) && decide (raw ≤ 600)
  let sub := substOf s i
  let failed := !valid || s.board.stuck.contains i || sub.isSome
  let x : Nat := match sub with
    | some k => reading16 (s.reading (s.fld (R.thmSubst k) F.thmSubst_substitute) + (s.fld (R.thmSubst k) F.thmSubst_offset : Nat))
    | none => if failed then 0x258 else reading16 raw
  let b (y : Bool) (n : Nat) : Nat := if y then 2 ^ n else 0
  let was := s.sensFailed i
  let s1 := s.setReg (R.thmSens i) (BitVec.ofNat 64 (b valid 31 + b failed 30 + b sub.isSome 29 + x))
  if failed = true ∧ was = false ∧ sub.isNone = true then sensorRecord s1 i 3 600 none else s1

/-- THM.STAT: sensors failed, and the highest governing reading. -/
def showThermal (s : State) : State :=
  let all := List.range 3344
  let (i, x) := hottest s all
  let n := (all.filter s.sensFailed).length
  ((s.setFld R.thmStat F.thmStat_failed n).setFld R.thmStat F.thmStat_hottest (if x = -32768 then 0 else reading16 x)).setFld
    R.thmStat F.thmStat_hottest_index i

/-- A sensor of a logic die trips the module at 115 °C. [DEDUCED, log 85] -/
def tripSensor (i : Nat) : Bool :=
  match spotOf i with | .tile _ _ => true | .base _ _ => true | .io _ _ => true | _ => false

/-- Samples in a row at or above 115 °C. -/
def countHot (s : State) (i : Nat) (x : BitVec 16) (ok : Bool) : State :=
  let n := if ok = true ∧ tripSensor i = true ∧ 460 ≤ x.toInt then s.board.hot.getD i 0 + 1 else 0
  { s with board := { s.board with hot := s.board.hot.set i n, raw := s.board.raw.set i x } }

/-- The module without power on its dies: what the auxiliary supply, flash and the trip latch keep, and the straps; an activation that was running has
failed (R580). `part` is
what the latch and flash hold now. [DEDUCED, log 94] -/
def powerOff (s0 : State) (part : Part) (b : Board → Board) : State :=
  let s := failActivation s0
  let pins := s.reg R.mgtPins
  let keep : Board := { Board.reset with
    aux := s.board.aux, pwrEn := s.board.pwrEn, input := s.board.input, clkOk := s.board.clkOk, perst := s.board.perst,
    tripped := s.board.tripped, powerFault := s.board.powerFault, flash := s.board.flash, i3cAddr := s.board.i3cAddr,
    lost := s.board.lost }
  let s1 := { State.reset with pending := s.pending, part := part, board := b keep, outbox := s.outbox, freeCtr := s.freeCtr }
  let s2 := if s0.board.activating = [] then s1 else s1.setFld R.mgtFwstat F.mgtFwstat_state 5
  s2.setReg R.mgtPins (pins &&& 0x00700000 ||| resetReg part R.mgtPins)

/-- THERMTRIP# (R623): every regulator is switched off; the trip stays latched. [DEDUCED, log 94] -/
def thermTrip (s : State) : State :=
  powerOff s { s.part with trip := true } fun b => { b with tripped := true, lost := true }

/-- SENSOR_SAMPLE: readings of the sensors named, with the hardware's checks. -/
def execSensorSample (samples : List (BitVec 12 × BitVec 16 × Bool)) (s : State) : Host.Outcome State Fault Refusal :=
  let l := samples.filter fun x => decide (x.1.toNat < 3344)
  let s1 := l.foldl (fun s x => showSensor (countHot s x.1.toNat x.2.1 x.2.2) x.1.toNat x.2.2) s
  -- readings taken from a substitute follow it
  let s2 := (List.range 64).foldl (fun s k =>
    if s.fld (R.thmSubst k) F.thmSubst_valid = 1 ∧ s.board.raw.has (s.fld (R.thmSubst k) F.thmSubst_failed) = true then
      showSensor s (s.fld (R.thmSubst k) F.thmSubst_failed) (s.sensValid (s.fld (R.thmSubst k) F.thmSubst_failed)) else s) s1
  .next (if l.any fun x => 3 ≤ s2.board.hot.getD x.1.toNat 0 then thermTrip s2
    else showThermal (l.foldl (fun s x => followSensor s x.1.toNat) s2))

/-- SENSOR_STUCK_CHECK: `moved` says that the reading has changed in 10 s, `nbrMoved` that the mean of its valid neighbours has
changed by 4 °C. -/
def execSensorStuckCheck (i : Fin 3344) (moved nbrMoved : Bool) (s : State) : Host.Outcome State Fault Refusal :=
  let n := ((neighbours i.val).filter s.sensUsable).length
  .next (if moved = false ∧ nbrMoved = true ∧ 2 ≤ n ∧ s.board.stuck.contains i.val = false then
      let s1 := { s with board := { s.board with stuck := s.board.stuck ++ [i.val] } }
      showThermal (followSensor (showSensor s1 i.val (s1.sensValid i.val)) i.val)
    else s)

/-- PAIR_DISAGREEMENT: a pair has differed by more than 3.0 °C for 1 s. It is counted, and recorded unless the pair has been
recorded within the hour. -/
def execPairDisagreement (x : PairSeen) (s : State) : Host.Outcome State Fault Refusal :=
  let i := x.sensor
  let j := partnerOf i.val
  let a := s.reading i.val
  let b := s.reading j
  .next (if paired i.val = true ∧ s.sensUsable i.val = true ∧ s.sensUsable j = true ∧ (12 < a - b ∨ 12 < b - a) then
      (if x.recent then s else sensorRecord s i.val 4 a (some (j, b))).bump R.thmStat F.thmStat_disagree 1
    else s)

/-- THM_SUBST_WRITE: a substitute for a failed sensor (R619); rejected with BOUND when it may not stand in. [DEDUCED, log 87] -/
def substWrite (s : State) (path : RegPath) (k : Nat) (x : W64) : State :=
  let r := R.thmSubst k
  let failed := bitsOf x.toNat 43 32
  let sub := bitsOf x.toNat 55 44
  let old := s.fld r F.thmSubst_failed
  if x.getLsbD 63 = true
      ∧ (!((neighbours failed).contains sub) || s.sensFailed sub || (substOf s failed).isSome) = true then
    rejectReg s path r true none
  else
    let show' (s : State) (i : Nat) : State := followSensor (showSensor s i (s.sensValid i)) i
    let was := s.fld r F.thmSubst_valid = 1
    let s1 := markLevel (s.setReg r (x &&& 0x80FFFFFF0000003F)) r (pathLevel path) (BitVec.allOnes 64)
    -- the sensor that the entry named before reads as itself again
    let s2 := if was then show' s1 old else s1
    let s3 := if x.getLsbD 63 then show' s2 failed else s2
    if was ∨ x.getLsbD 63 = true then showThermal s3 else s3

def execThmSubstWrite (path : RegPath) (i : Fin 64) (x : BitVec 64) (s : State) : Host.Outcome State Fault Refusal :=
  .next (substWrite s path i.val x)

/-! ### Loops over time (R280, R621, R622) -/

/-- Sensors that set the rate of a part, and whether they let it fall below a level. -/
def mayFall (s : State) (l : List Nat) (level : Nat) : Bool :=
  !(l.any s.sensDead) && !(s.anyAbove l (if level = 2 then 372 else 332))

/-- REFRESH_RATE_LOWER: 10 ms at least 2 °C below the threshold. -/
def execRefreshRateLower (u : HotUnit) (s : State) : Host.Outcome State Fault Refusal :=
  .next (match u with
  | .layer t l =>
    let r := R.slcStatus t.val
    let i := 2 * l.val
    let v := bitsOf (s.fld r F.slcStatus_rate) (i + 1) i
    if v = 0 ∨ mayFall s [(s.layersOf t.val).getD l.val 0] v = false then s
    else
      let rate := setBitsOf (s.fld r F.slcStatus_rate) (i + 1) i (v - 1)
      let cap := (List.range 4).any fun j => bitsOf rate (2 * j + 1) (2 * j) == 2
      (s.setFld r F.slcStatus_rate rate).setFld r F.slcStatus_capped (if cap then 1 else 0)
  | .stack n =>
    let r := R.capStatus (n.val / 4) (n.val % 4)
    let v := s.fld r F.capStatus_rate
    if v = 0 ∨ stackDead s n.val = true ∨ s.anyAbove (stackSensors n.val) (if v = 2 then 372 else 332) = true then s
    else (s.setFld r F.capStatus_rate (v - 1)).setFld r F.capStatus_capped 0)

/-- THERMAL_GAP_STEP: 100 µs at least 2 °C below the target. -/
def execThermalGapStep (t : TileId) (s : State) : Host.Outcome State Fault Refusal :=
  .next (if s.tileCool t.val then
      { s with board := { s.board with thermalGap := s.board.thermalGap.set t.val (s.thermalGap t.val - 16) } }
    else s)

/-- DIE_FREQUENCY_STEP: 1 ms with a tile of the die at gap 1,023 and still above its target. -/
def execDieFrequencyStep (p : PartId) (s : State) : Host.Outcome State Fault Refusal :=
  .next (if (tilesOf s p.val).any (fun t => s.heldGap t == 1023 && s.tileHot t) then
      let f := max 20 (s.fld (R.pwrPctl p.val) F.pwrPctl_freq - 1)
      (({ s with board := { s.board with thermFreq := s.board.thermFreq.set p.val f } }).setFld (R.pwrPctl p.val) F.pwrPctl_freq f)
    else s)

/-- QUIESCE_COOLANT_TIMEOUT: the unit of an address has stayed quiesced for 2 s. -/
def execQuiesceCoolantTimeout (addr : BitVec 44) (s : State) : Host.Outcome State Fault Refusal :=
  .next (if s.quiesced addr.toNat then
      let l := match s.region addr.toNat with
        | .slice p i => s.layersOf (p * 256 + i)
        | .capacity n => stackSensors n
        | _ => []
      let (i, x) := hottest s l
      stopFlow (sensorRecord s i 10 x none)
    else s)

end Sys2Proof.Machine
end

