-- ==== Sys2Proof/Machine/BringUp.lean ====
section
/-! DEFINITION. Clock inputs, the start sequence, tile waves, and the power pins (R275, R313, R399 to R407, R468, R583 to R606,
R623, R644 to R657). -/

namespace Sys2Proof.Machine

/-! ### Steps of a start (R591) -/

def bootStep (s : State) : Nat := s.fld R.bootStatus F.bootStatus_step

/-- The start or restart is in a step. -/
def inStep (s : State) (n : Nat) : Bool := s.starting && bootStep s == n

def goStep (s : State) (n : Nat) : State := s.setFld R.bootStatus F.bootStatus_step n

/-- The start fails with a code, at the step where it stands (R595). -/
def failStart (s : State) (code : Nat) : State :=
  let s1 := (s.setFld R.bootStatus F.bootStatus_failed 1).setFld R.bootStatus F.bootStatus_fail_code code
  s1.updateAlert.emit (.bootEvent false)

/-- Every unit trains in full (R598). -/
def fullTraining (s : State) : Bool :=
  !s.board.flash.trained || s.fld R.bootStatus F.bootStatus_map_lost == 1 || s.fld R.bootCtl F.bootCtl_full_next == 1 || s.board.retry

/-- The start sequence begins at step 1. -/
def beginStart (s : State) : State :=
  let kind := if s.board.retry then 3 else if s.board.restart then 2 else if fullTraining s then 1 else 0
  let s1 := s.setReg R.bootStatus (BitVec.ofNat 64 (kind * 2 ^ 8 + 2 ^ 16))
  { s1 with board := { s1.board with trainedFull := fullTraining s, wave := 0, startFail := [], fwResend := SMap.empty } }

/-! ### What the steps find -/

/-- Step 2: banks (R592). A component whose active bank does not verify, or whose combination of versions the matrix does not
allow, takes its other bank. -/
def takeBanks (s : State) (active other : Nat) : State :=
  let f := s.board.flash
  let bad := [1, 2, 3, 4].filter fun k => !(active.testBit (k - 1))
  let flip (f : Flash) (k : Nat) : Flash := { f with bank := f.bank.set k (1 - f.bank.getD k 0) }
  let f1 := bad.foldl flip f
  let combo (f : Flash) : Bool := f.matrix == [] || allowed f ([1, 2, 3, 4].map (activeVersion f))
  let last := ((f.order.map (· / 16)).getLast?).getD 1
  let bad2 := if combo f1 = true ∨ bad.contains last = true then bad else bad ++ [last]
  let f2 := if bad2 = bad then f1 else flip f1 last
  if bad2.any (fun k => !(other.testBit (k - 1))) = true ∨ combo f2 = false then failStart s 2
  else goStep (setFlash (if bad2 = [] then s else s.setFld R.bootStatus F.bootStatus_bank_fallback 1) f2) 3

/-- The strap of a site as step 3 reads it (R400 to R402): what NOC.DIEID shows, the record, and the stack or I/O die left out of
service. -/
def takeStrap (s : State) (x : PartId × Fin 11 × Option (BitVec 6 × Bool)) : State :=
  let p := x.1.val
  let j := x.2.1.val
  let code := (x.2.2.map (·.1.toNat)).getD 0
  let fault := x.2.2.any fun y => y.2 || y.1.toNat != strapOf p j
  let s1 := s.setReg (R.nocDieid p j) (BitVec.ofNat 64 (bit x.2.2.isSome 15 + bit fault 14 + code))
  let stops := decide (j < 6) || (j == 10 && p == 0)
  let s2 := s1.record p (ErrRec.mk0 0x12 (if stops then 5 else 4) p 0x0B 0 (code + bit true 8 + bit x.2.2.isNone 9))
  let n := 4 * p + (j - 6)
  if 6 ≤ j ∧ j < 10 then
    (s2.setFld R.devStacks F.devStacks_populated (setBitsOf (s2.fld R.devStacks F.devStacks_populated) n n 0)).setFld
      R.devVariant F.devVariant_field_degraded 1
  else if stops then s2 else s2.setFld R.devVariant F.devVariant_field_degraded 1

/-- Step 3: every site of the assembly reads its strap well but those named, which show what they read. -/
def takeStraps (s : State) (sites : List (PartId × Fin 11 × Option (BitVec 6 × Bool))) : State :=
  let bad := sites.filter fun x => s.part.dieSite x.1.val x.2.1.val
    && (match x.2.2 with | some y => y.2 || y.1.toNat != strapOf x.1.val x.2.1.val | none => true)
  let s0 := (List.range 8).foldl (fun s p => (List.range 11).foldl (fun s j => { s with regs := s.regs.erase (R.nocDieid p j) }) s) s
  let s1 := bad.foldl takeStrap (s0.setFld R.devStacks F.devStacks_populated s0.part.populated)
  if bad.any fun x => decide (x.2.1.val < 6) || (x.2.1.val == 10 && x.1.val == 0) then failStart s1 3 else goStep s1 4

/-- Positions that fuses or records call bad, by partition × 272 + position (R397, R602). -/
def calledBad (s : State) : List Nat :=
  s.part.badTiles ++ (s.board.flash.mapRecs.filter (·.typ == 5)).map fun r => r.a % 8 * 272 + bitsOf r.a 24 16

/-- The numbering of R397 over the tiles that fuses and records call good, in the registers that show it. -/
def numberTiles (s : State) : State :=
  let bad := calledBad s
  (List.range 8).foldl (fun s p =>
    if Part.anyBad bad p = false then s
    else
      let s1 := (List.range s.part.tilesPerPart).foldl (fun s i =>
        let t := p * 256 + i
        let pos := (s.part.tilePos bad p i).getD i
        ((s.setReg (R.nocTmap p i) (BitVec.ofNat 64 (s.part.tmapBits bad p i))).setReg (R.tileId t)
          (BitVec.ofNat 64 (Part.idBits t pos))).setReg (R.mxaRepair t) (BitVec.ofNat 64 (s.part.repairBits p pos))) s
      (List.range s.part.orphanSlots).foldl (fun s k =>
        s.setReg (R.nocOmap p k) (BitVec.ofNat 64 (s.part.omapBits bad p k))) s1) s

/-- A record of the package map applied to registers that hold their fused values (R397, R398, R408). The numbering has taken the
disabled tiles in; DEV.VARIANT.field_degraded is set again for them, as found at the earlier start. [DESIGN CHOICE, log 135] -/
def applyMapRec (s : State) (r : MapRec) : State :=
  let pos := bitsOf r.a 24 16
  match r.typ with
  | 3 => s.setFld (R.nocEdge (r.a % 65536)) F.nocEdge_degraded 1
  | 4 =>
    let t := r.a % 2048
    let k := r.b % 64
    let p := t / 256
    let old := s.posOf t
    let m := R.nocTmap p (t % 256)
    let o := R.nocOmap p k
    let put (s : State) (r : Nat) (fr fc : Fld) (x : Nat) : State := (s.setFld r fr (x / 17)).setFld r fc (x % 17)
    let s1 := ((put s m F.nocTmap_phys_row F.nocTmap_phys_col pos).setFld m F.nocTmap_field 1).setFld m F.nocTmap_valid 1
    let s2 := ((put s1 o F.nocOmap_phys_row F.nocOmap_phys_col old).setFld o F.nocOmap_field 1).setFld o F.nocOmap_spare
      (if (calledBad s).contains (p * 272 + old) then 0 else 1)
    (put s2 (R.tileId t) F.tileId_phys_row F.tileId_phys_col pos).setReg (R.mxaRepair t)
      (BitVec.ofNat 64 (s.part.repairBits p pos))
  | 5 => s.setFld R.devVariant F.devVariant_field_degraded 1
  | 7 =>
    let n := r.a % 32
    let reg := R.capRepair (n / 4) (n % 4)
    let c := bitsOf r.a 12 8
    s.setFld reg F.capRepair_spare_bank (setBitsOf (s.fld reg F.capRepair_spare_bank) c c 1)
  | 8 =>
    let n := r.a % 32
    (s.setFld R.devStacks F.devStacks_retired (setBitsOf (s.fld R.devStacks F.devStacks_retired) n n 1)).setFld
      (R.capStatus (n / 4) (n % 4)) F.capStatus_retired 1
  | 9 => { s with holes := (bitsOf r.a 43 21 :: s.holes).dedup }
  | _ => s

/-- SLC.REPAIR of the tiles whose slices have spared rows (R319, R408). -/
def showSlices (s : State) : State :=
  s.board.flash.mapRecs.foldl (fun s r =>
    if r.typ = 6 then (tileAt s (r.a % 8) (bitsOf r.a 24 16)).elim s fun t => showSlice s t (bitsOf r.a 24 16) else s) s

/-- Rows that post-package repair has replaced, as CAP.REPAIR shows them (R316). [DEDUCED, log 100] -/
def showRowRepairs (s : State) : State :=
  s.board.flash.rowRepairs.rows.foldl (fun s x => s.bump (R.capRepair (x.1 / 128) (x.1 / 32 % 4)) F.capRepair_rows x.2) s

/-- The registers that the package map decides, from the fuses and the records in force (R397, R398, R408). -/
def deriveMap (s : State) : State :=
  let fused (r : Nat) : Bool := match RegTab.find r with
    | some (d, _) => d.base == R.nocTmap 0 0 || d.base == R.nocOmap 0 0 || d.base == R.tileId 0 || d.base == R.mxaRepair 0
        || d.base == R.capRepair 0 0 || d.base == R.slcRepair 0
    | none => false
  let s1 := { s with regs := s.regs.keep (fun r _ => !fused r), holes := [] }
  let s2 := (s1.setFld R.devStacks F.devStacks_retired 0)
  lowerGrade (showRowRepairs (showSlices (s2.board.flash.mapRecs.foldl applyMapRec (numberTiles s2))))

/-- NOC.DIEID.mismatch of a site: the code read differs from the die-identity record (R411). -/
def showMismatch (s : State) (p j : Nat) : State :=
  let r := R.nocDieid p j
  let mine := s.board.flash.mapRecs.find? fun x => x.typ == 1 && bitsOf x.a 10 8 == p && bitsOf x.a 5 0 == strapOf p j
  if s.fld r F.nocDieid_present = 1 ∧ mine.any (fun x => bitsOf x.a 5 0 != s.fld r F.nocDieid_strap) = true then
    s.setFld r F.nocDieid_mismatch 1
  else s

/-- Stacks that the assembly calls populated and that step 3 found absent or faulty are retired, with a record (R402). -/
def retireAbsent (s : State) : State :=
  (List.range 32).foldl (fun s n =>
    let r := R.nocDieid (n / 4) (6 + n % 4)
    if s.part.populated.testBit n = true ∧ (s.fld r F.nocDieid_present = 0 ∨ s.fld r F.nocDieid_strap_fault = 1)
        ∧ (s.fld R.devStacks F.devStacks_retired).testBit n = false then
      retireStack s n
    else s) s

/-- A copy of the package map with bytes read changed: it stays valid while every check passes (R406, R408). -/
def readCopy (s : State) (c : MapCopy) (flips : List (BitVec 18 × Byte)) : MapCopy :=
  if flips = [] ∨ c.valid = false then c
  else
    let bs := flips.foldl (fun bs x => bs.set x.1.toNat (bs.getD x.1.toNat 0 ^^^ x.2)) (mapBytes s c)
    { c with valid := checksPass bs }

/-- No copy of the training record is valid: every unit trains in full (R598). -/
def noteUntrained (s : State) (untrained : Bool) : State :=
  if untrained = false then s
  else
    let s1 := if s.board.restart || s.board.retry then s else s.setFld R.bootStatus F.bootStatus_kind 1
    { s1 with board := { s1.board with trainedFull := true } }

/-- Step 4: fuses and the package map (R406, R407). A start takes the valid copy with the higher sequence number; with none it starts
with fuses only and trains in full. A restart whose copy is the one in force finds its registers as they were. [DEDUCED, log 99] -/
def takeMap (s : State) (a b : List (BitVec 18 × Byte)) (untrained : Bool) : State :=
  let f := s.board.flash
  let f1 := { f with mapA := readCopy s f.mapA a, mapB := readCopy s f.mapB b, trained := f.trained && !untrained }
  let s1 := noteUntrained (setFlash s f1) untrained
  let same := f1.mapValid && f1.mapSeq == f.mapSeq
  let s2 := if s.board.restart = true ∧ same = true then s1 else deriveMap s1
  let s3 := (List.range 8).foldl (fun s p => (List.range 11).foldl (fun s j => showMismatch s p j) s) s2
  if f1.mapValid then goStep (retireAbsent s3) 5
  else
    let s4 := (s3.setFld R.bootStatus F.bootStatus_map_lost 1).setFld R.devVariant F.devVariant_field_degraded 1
    goStep (retireAbsent ((noteUntrained s4 true).recordAll (ErrRec.mk0 0x12 5 0 0x0C 0 (2 ^ 10)))) 5

/-- Keys drawn at a cold start (R468, R562). -/
def drawKeys (s : State) : State :=
  let s1 := (List.range 8).foldl (fun s p =>
    let (n, t) := s.draw
    { t with board := { t.board with memKeys := t.board.memKeys.set p n } }) s
  let s2 := (s1.setFld R.secKeystat F.secKeystat_mem_valid 0xFF).setFld R.secKeystat F.secKeystat_id_valid 1
  ({ s2 with board := { s2.board with idKey := true } }).newWrapKey

/-- Edges that the part has. -/
def edges (s : State) : List Nat := if 12 < s.ports then List.range 12 else List.range 11

/-- Step 5: base dies, and the PLLs of their clocks; the edges begin to train. -/
def takeBases (s : State) (failed : List PartId) : State :=
  if failed ≠ [] then failStart s 4
  else
    let s1 := (s.setFld R.clkStatus F.clkStatus_noc_lock 0xFF).setFld R.clkStatus F.clkStatus_timing_lock 0xFF
    let s2 := if s1.board.restart then s1 else drawKeys s1
    goStep ((edges s2).foldl (fun s e => s.setFld (R.nocEdge e) F.nocEdge_state 1) s2) 6

/-- A unit failed its verify and was trained in full (R597). -/
def noteFull (s : State) (full : Bool) : State :=
  if full = false then s
  else
    let s1 := if fullTraining s then s else s.setFld R.bootStatus F.bootStatus_retrained 1
    { s1 with board := { s1.board with trainedFull := true } }

/-- NOC.EDGE of a trained edge: its modules out of service and at half width by the package map, and the most spare lanes used in a
module (R394, R408, R411). -/
def showEdge (s : State) (e : Nat) : State :=
  let recs := s.board.flash.mapRecs
  let mask (p : Nat → Bool) : Nat :=
    (recs.filter fun r => r.typ == 3 && r.a % 65536 == e && p (r.b % 4)).foldl
      (fun a r => setBitsOf a (bitsOf r.a 23 16) (bitsOf r.a 23 16) 1) 0
  let bad := mask (· == 3)
  let good := 0xFFFF - bad
  let half := mask (· != 3) &&& good
  let used (m d : Nat) : Nat := (failedLanes s (e + m * 2 ^ 16 + d * 2 ^ 24)).length
  let spares := ((List.range 16).flatMap fun m => [used m 0, used m 1]).foldl max 0
  let r := R.nocEdge e
  (((((s.setFld r F.nocEdge_module_good good).setFld r F.nocEdge_half half).setFld r F.nocEdge_state
    (if good = 0 then 0 else 2)).setFld r F.nocEdge_degraded (if bad = 0 ∧ half = 0 then 0 else 1)).setFld r
    F.nocEdge_repair_pending 0).setFld r F.nocEdge_spares_max (min 4 spares)

/-- A change of module width that this start has recorded is a unit that it found failed: PKG_LINK record and field_degraded. -/
def noteWidth (s : State) (r : MapRec) : State :=
  (edgeRecord s (r.a % 65536) 4 (if r.b % 4 = 3 then 4 else 3) (bitsOf r.a 23 16) 0).setFld R.devVariant F.devVariant_field_degraded 1

/-- Step 6: pending lane repairs and failed wires are repaired and recorded, the modules that do not train are recorded as disabled,
and the edges come up (R393, R394, R404). A base-die edge or the edge of I/O die 0 without a working module fails the start. -/
def takeEdges (s : State) (dead : List (Fin 12 × Fin 16)) (wires : List Wire) (full : Bool) : State :=
  let before := s.board.flash.mapRecs
  let s1 := s.board.lanes.foldl (fun s r => (edgeDies (r.a % 65536)).foldl (fun s p => repairRecord s p 9 (r.a % 65536) 2 false)
    (repairWire s r)) { s with board := { s.board with lanes := [] } }
  let s2 := wires.foldl (fun s w => repairWire s (laneRec w.link.toNat w.module.val w.dir w.lane.toNat)) s1
  let s3 := dead.foldl (fun s x =>
    let r := MapRec.field 3 (x.1.val + x.2.val * 2 ^ 16) 3
    if s.board.flash.mapRecs.contains r then s else addMapRec s r) s2
  let s4 := (edges s3).foldl showEdge s3
  let s5 := (s4.board.flash.mapRecs.filter fun r => r.typ == 3 && !(before.contains r)).foldl noteWidth s4
  let s6 := noteFull { s5 with board := { s5.board with d2dFails := SMap.empty } } full
  if (List.range 11).any fun e => s6.fld (R.nocEdge e) F.nocEdge_module_good == 0 then failStart s6 5 else goStep s6 7

/-- A lost package map is written anew once the memories have been tested (R407). [DEDUCED, log 99] -/
def newMap (s : State) : State :=
  if s.fld R.bootStatus F.bootStatus_map_lost = 0 then s else setFlash s (s.board.flash.writeMap s.board.flash.mapRecs)

/-- A full memory test at full training lifts the retirement of a unit that it finds good (R317). [DEDUCED, log 99] -/
def liftGood (s : State) (bad : List StackId) (regions : List (BitVec 23)) : State :=
  let f := s.board.flash
  let stays (r : MapRec) : Bool := match r.typ with
    | 8 => bad.any fun n => n.val == r.a % 32
    | 9 => regions.any fun x => x.toNat == bitsOf r.a 43 21
    | _ => true
  let good := f.mapRecs.filter fun r => !stays r
  let s1 := if good = [] then s else
    setFlash s (f.writeMap (f.mapRecs.filter stays))
  good.foldl (fun s r => match r.typ with
    | 8 =>
      let n := r.a % 32
      (s.setFld R.devStacks F.devStacks_retired (setBitsOf (s.fld R.devStacks F.devStacks_retired) n n 0)).setFld
        (R.capStatus (n / 4) (n % 4)) F.capStatus_retired 0
    | _ => { s with holes := s.holes.filter (· != bitsOf r.a 43 21) }) s1

/-- Step 7: memory; full training at a cold start, and any start with the map lost (R407), tests every slice and stack, and a cold start writes every line as zeros with
generation 0 (R313, R317, R598). -/
def takeMemory (s : State) (bad : List StackId) (regions : List (BitVec 23)) (full : Bool) : State :=
  let s0 := if (s.board.restart = false ∧ fullTraining s = true) ∨ s.fld R.bootStatus F.bootStatus_map_lost = 1 then
      regions.foldl (fun s r => if s.holes.contains r.toNat = false ∧ s.isDram (r.toNat * 0x200000) = true
        then retireRegion s r.toNat else s) (liftGood s bad regions)
    else s
  let s1 := bad.foldl (fun s n =>
    if s.stackOn n.val then (retireStack s n.val).setFld R.devVariant F.devVariant_field_degraded 1 else s) s0
  let s2 := if s1.board.restart then s1
    else { s1 with mem := s1.mem.filter (fun c => !(decide (c.1 < 0x40000000000))), lines := SMap.empty, gens := SMap.empty, baseGens := SMap.empty,
                   genBad := [], mirror := SMap.empty }
  let s3 := noteFull (newMap s2) full
  goStep { s3 with board := { s3.board with wave := 0 } } 8

/-- Step 9 begins: the fault handler lies in each partition's firmware region (R601). -/
def placeHandlers (s : State) : State :=
  ((List.range 8).foldl placeFirmware s).setFld R.clkStatus F.clkStatus_tile_lock 0xFF

/-- A good spare tile fails its test: it is disabled, and a field record is written (R602). -/
def dropSpare (s : State) (p k : Nat) : State :=
  let o := R.nocOmap p k
  if s.fld o F.nocOmap_spare = 0 then s
  else
    let pos := s.posOfIndex p (s.part.tilesPerPart + k)
    let s1 := (s.setFld o F.nocOmap_spare 0).setFld (R.capSpare p) F.capSpare_spare
      (setBitsOf (s.fld (R.capSpare p) F.capSpare_spare) k k 0)
    repairRecord ((addMapRec s1 (MapRec.field 5 (p + pos * 2 ^ 16) 0)).setFld R.devVariant F.devVariant_field_degraded 1) p 1 (p * 256 + 255) 5
      true

/-- Step 10: tests reconciled with fuses and records (R284, R602 to R604). `slices` are indices of a partition's private range: a
tile whose slice or port fails counts as failing, a spare tile too. A tile with a second defective array row, or one beside a spare
row in use or defective, fails (R109). A restart runs only the tests that are due: array tests, and self-tests of the engines that an
engine reset disabled; one that passes brings its engine back (R593). -/
def takeTests10 (s : State) (tiles' : List TileId) (rows' : List (TileId × BitVec 5)) (engines : List (PartId × BitVec 8 × BitVec 24))
    (spares' : List (PartId × Fin 48)) (slices' : List (PartId × Fin 272)) : State :=
  let run {α : Type} (l : List α) : List α := if s.board.restart then [] else l
  let (tiles, rows, spares, slices) := (run tiles', run rows', run spares', run slices')
  let due := s.board.retireTiles.filter fun t => s.fld (R.mxaBist t) F.mxaBist_result == 3
  let slot (i : Nat) : Nat := i - s.part.tilesPerPart
  let portSlots := (List.range 8).flatMap fun p => ((List.range s.part.orphanSlots).filter fun k =>
    s.board.badPorts.contains (p * 272 + s.posOfIndex p (s.part.tilesPerPart + k))).map fun k => (p, k)
  let lost := (slices.filter fun x => decide (s.part.tilesPerPart ≤ x.2.val)).map (fun x => (x.1.val, slot x.2.val)) ++ portSlots
  let s0 := lost.foldl (fun s x => dropSpare (dropSlot s x.1 x.2) x.1 x.2) s
  let s0' := spares.foldl (fun s x => if x.2.val < s.part.orphanSlots then dropSpare s x.1.val x.2.val else s) s0
  let s1 := if s.board.restart then s0' else (List.range 8).foldl reserveSpares s0'
  let badSlice (t : Nat) : Bool := (slices.any fun x => x.1.val == t / 256 && x.2.val == t % 256) || portFailed s1 t
  let all := tiles.map Fin.val ++ due ++ s1.board.startFail ++ ((List.range 8).flatMap (tilesOf s1)).filter badSlice
  let usable (x : TileId × BitVec 5) : Bool := spareUsable s1 x.1.val && (rows.filter fun y => y.1 == x.1 && y.2 != x.2).isEmpty
  let (rowsIn, rowsOut) := rows.dedup.partition usable
  let bad := (all ++ rowsOut.map fun x => x.1.val).dedup.filter fun t =>
    decide (t % 256 < s1.part.tilesPerPart) && s1.mapped (t / 256) (t % 256)
  let s2 := rowsIn.foldl (fun s x => spareIn s x.1.val x.2.toNat) s1
  let s3 := s2.tiles.keys.foldl (fun s t =>
    if (s.tile t).st = .reset then s.setTile t { s.tile t with st := .idle } else s) s2
  let s4 := bad.foldl (fun s t => retireTile s t (badSlice t)) s3
  let failing := (engines.map fun e => (e.1.val, e.2.1.toNat, e.2.2.toNat)).filter fun e =>
    e.2.1 != 1 && engineOf s4 e.1 e.2.1 e.2.2 && (!s.board.restart || s.offEngines.contains e)
  let back := (s4.offEngines.filter fun e => !failing.contains e).foldl (fun s e => enableEngine s e.1 e.2.1 e.2.2) s4
  let s5 := failing.foldl (fun s e => (if s.offEngines.contains e then s else disableEngine s e.1 e.2.1 e.2.2).setFld R.devVariant
    F.devVariant_field_degraded 1) back
  let s6 := (List.range 24).foldl (fun s k => if k < s.ports then setPortState s k 2 else s) s5
  goStep (lowerGrade { s6 with board := { s6.board with startFail := [] } }) 11

/-- Rings and segments that firmware places at a cold start. [DESIGN CHOICE, log 80] -/
def placeAreas (s : State) : State :=
  let s1 := (List.range 8).foldl (fun s p =>
    let b := fwStack s p
    (s.setFld (R.partJbase p) F.partJbase_base ((b + 0xF80000000) / 0x100000)).setFld (R.errBase p) F.errBase_base
      ((b + 0xFC0000000) / 0x10000)) s
  ((s1.setFld (R.hifSeg 0) F.hifSeg_base (queueArea s1 / 2 ^ 26)).setFld (R.hifSeg 0) F.hifSeg_wr 1).setFld (R.hifSeg 0)
    F.hifSeg_valid 1

/-- Step 12: ready (R605). -/
def finishStart (s : State) (ms : Nat) : State :=
  let s1 := if s.board.restart then s else setTickTimes (placeAreas s) 0
  let s2 := if s1.board.trainedFull then
      { (setFlash s1 { s1.board.flash with trained := true }).setFld R.bootCtl F.bootCtl_full_next 0 with
        part := { s1.part with fullNext := false } }
    else s1
  let b := R.bootStatus
  let s3 := ((s2.setFld b F.bootStatus_ready 1).setFld b F.bootStatus_duration_ms (min ms (2 ^ 32 - 1))).setFld R.hifLink
    F.hifLink_ready 1
  ((List.range 8).foldl State.flushRing s3).emit (.bootEvent true)

/-- START_STEP_DONE: the step in progress has ended with what it found; `ms` is the duration since step 1. -/
def execStartStepDone (x : StepFind) (ms : BitVec 32) (s : State) : Host.Outcome State Fault Refusal :=
  .next (if s.starting = false then s
  else match bootStep s, x with
  | 1, .plain => goStep s 2
  | 2, .banks a o => takeBanks s a.toNat o.toNat
  | 3, .straps l => takeStraps s l
  | 4, .plain => takeMap s [] [] false
  | 4, .flash a b u => takeMap s a b u
  | 5, .bases l => takeBases s l
  | 6, .edges d h f => takeEdges s d h f
  | 7, .memory b g f => takeMemory s b g f
  | 8, .plain => if s.board.wave = 8 then goStep (placeHandlers s) 9 else s
  | 9, .plain => goStep s 10
  | 10, .tests t r u p l => if s.tiles.vals.any (·.bist) then s else takeTests10 s t r u p l
  | 11, .ports f => goStep (noteFull s f) 12
  | 12, .plain => finishStart s ms.toNat
  | _, _ => s)

/-- START_STEP_TIMEOUT: the start begins again once with full training, and then fails (R594). -/
def execStartStepTimeout (s : State) : Host.Outcome State Fault Refusal :=
  .next (if s.starting = false then s
  else if s.board.retry then failStart s 6
  else
    let s1 := { s with board := { s.board with retry := true } }
    beginStart { s1 with tiles := s1.tiles.mapKV fun _ T => if T.st = .reset ∨ T.st = .idle then { T with st := .off, bist := false } else T })

/-- RESTART_SUPERVISION_TIMEOUT: 8 s since the reset phase without step 12. -/
def execRestartSupervisionTimeout (s : State) : Host.Outcome State Fault Refusal :=
  .next (if s.fld R.devRststat F.devRststat_phase = 2 ∧ s.fld R.bootStatus F.bootStatus_ready = 0 then
      let s1 := s.requestPowerCycle 2
      { s1 with board := { s1.board with lost := true } }
    else s)

/-! ### Waves and tile firmware (R599 to R601) -/

/-- CROZIER_WAVE: a wave of the start, or of a partition reset. -/
def execCrozierWave (p : Option PartId) (w : Fin 8) (s : State) : Host.Outcome State Fault Refusal :=
  .next (match p with
  | none =>
    if inStep s 8 = true ∧ s.board.wave = w.val then
      let s1 := (List.range 8).foldl (fun s p => powerWave s p w.val) s
      { s1 with board := { s1.board with wave := w.val + 1 } }
    else s
  | some q => if s.fld (R.partRststat q.val) F.partRststat_phase = 5 then powerWave s q.val w.val else s)

def failTile (s : State) (t : Nat) : State :=
  { s with board := { s.board with startFail := (s.board.startFail.filter (· != t)) ++ [t] } }

/-- TILE_POWER_GOOD_TIMEOUT: the tile is off and counts as failing its test. -/
def execTilePowerGoodTimeout (t : TileId) (s : State) : Host.Outcome State Fault Refusal :=
  .next (if (s.tile t.val).st = .reset then
      failTile (s.setTile t.val { s.tile t.val with st := .off, bist := false }) t.val
    else s)

/-- TILE_FIRMWARE_BLOCK: a bad block is sent again up to three times. -/
def execTileFirmwareBlock (t : TileId) (block : BitVec 16) (crcOk : Bool) (s : State) : Host.Outcome State Fault Refusal :=
  let n := s.board.fwResend.getD t.val 0
  let put (m : SMap Nat) : State := { s with board := { s.board with fwResend := m } }
  .next (if inStep s 9 = false then s
    else if crcOk then put (s.board.fwResend.erase t.val)
    else if n < 3 then (put (s.board.fwResend.set t.val (n + 1))).emit (.fwBlock t.val block.toNat)
    else failTile s t.val)

/-! ### REFCLK, CLK_OK and PLLs (R585, R586, R589) -/

/-- The settle count runs while PWRGD and CLK_OK are high. -/
def runSettle (s : State) : State :=
  { s with board := { s.board with settling := s.board.input && s.board.clkOk && !s.board.settled && !s.board.lost } }

def execClkOkRise (s : State) : Host.Outcome State Fault Refusal :=
  .next ((runSettle { s with board := { s.board with clkOk := true } }).setFld R.mgtPins F.mgtPins_clk_ok 1)

def execClkOkFall (s : State) : Host.Outcome State Fault Refusal :=
  let s1 := (runSettle { s with board := { s.board with clkOk := false } }).setFld R.mgtPins F.mgtPins_clk_ok 0
  .next (if s.board.settled = true ∧ s.board.pwrEn = true then powerRecord s1 6 0 0 else s1)

/-- SETTLE_COUNT_DONE: REFCLK is trusted and step 1 begins; a trip of the last time is reported. -/
def execSettleCountDone (glitch : Bool) (s : State) : Host.Outcome State Fault Refusal :=
  .next (if s.board.settling = false then s
    else
      let s1 := { s with board := { s.board with settling := false, settled := true } }
      let s2 := beginStart (s1.setFld R.clkStatus F.clkStatus_refclk_ok (if glitch then 0 else 1))
      let s3 := if s.part.trip then thermalRecord s2 9 0 else s2
      if glitch then failStart s3 1 else s3)

def execRefclkGlitch (s : State) : Host.Outcome State Fault Refusal :=
  .next (if s.board.settled = true ∧ s.board.pwrEn = true then (s.bump R.clkStatus F.clkStatus_glitches 1).raiseAlarm 2 0 none
    else s)

/-- REFCLK_STOP: the monitor asserts POWER_CYCLE_REQ# without a clock. [DEDUCED, log 88] -/
def execRefclkStop (s : State) : Host.Outcome State Fault Refusal :=
  .next (if s.board.settled = true ∧ s.board.pwrEn = true then
      let b := { s.board with powerCycleRequest := true, lost := true }
      (({ s with board := b }).setFld R.mgtPins F.mgtPins_power_cycle_req 1).setFld R.clkStatus F.clkStatus_refclk_ok 0
    else s)

/-- A partition PLL unlocks: its lock bit falls, and a partition reset, or for the timing PLL of base die 0 a chip reset, names
it by its code of the clock meter. -/
def unlock (s : State) (f : Fld) (p code : Nat) (chip : Bool) : State :=
  let s1 := s.setFld R.clkStatus f (setBitsOf (s.fld R.clkStatus f) p p 0)
  if chip then s1.startChipResetOf 8 code else s1.startPartitionResetOf p 8 code

/-- A near-memory unit loses its clock: a running program aborts, and the unit is disabled. -/
def stopUnit (s : State) (k : Nat) : State :=
  let s1 := match (s.unit k).st with
    | .run => s.abortUnit k St.poison true
    | .boundary => s.abortUnit k St.poison true
    | _ => s
  disableEngine s1 (k / 128) 5 k

/-- [DEDUCED, log 81] -/
def execPllLockLoss (x : Pll) (s : State) : Host.Outcome State Fault Refusal :=
  .next (if s.fld R.bootStatus F.bootStatus_ready = 0 then s
  else match x with
  | .network p => unlock s F.clkStatus_noc_lock p.val (0x08 + p.val) false
  | .timing p => unlock s F.clkStatus_timing_lock p.val (0x18 + p.val) (p.val == 0)
  | .tile p => unlock s F.clkStatus_tile_lock p.val (0x10 + p.val) false
  | .die2die e m => if (s.fld (R.nocEdge e.val) F.nocEdge_module_good).testBit m.val then moduleOut s e.val m.val else s
  | .hbm n => if s.stackOn n.val then retireStack s n.val else s
  | .stackLogic n => if s.stackOn n.val then ((List.range 32).map (n.val * 32 + ·)).foldl stopUnit s else s
  | .serdes d => ((List.range 12).map (12 * d.val + ·)).foldl portDown s)

/-! ### Power pins (R651 to R657) -/

/-- The part as flash and latch leave it when the dies lose power. -/
def keptPart (s : State) : Part := { s.part with fullNext := s.fld R.bootCtl F.bootCtl_full_next == 1 }

/-- AUX_POWER_UP: the auxiliary supply reaches 3.0 V. -/
def execAuxPowerUp (slot : BitVec 6) (s : State) : Host.Outcome State Fault Refusal :=
  .next (if s.board.aux then s
    else
      let s1 := { s with board := { s.board with aux := true }, part := { s.part with slotId := slot } }
      (s1.setFld R.mgtPins F.mgtPins_slot_id slot.toNat).setFld R.mgtPins F.mgtPins_trip_prev (if s.part.trip then 1 else 0))

/-- PWR_EN_ASSERT: the input stage comes up, PWRGD is released and CLK_SETTLE sampled. -/
def execPwrEnAssert (slot : BitVec 6) (settle : BitVec 3) (s : State) : Host.Outcome State Fault Refusal :=
  .next (if s.board.aux = false ∨ s.board.pwrEn = true ∨ s.board.powerFault = true then s
    else
      let s1 := { s with part := { s.part with slotId := slot, settle := settle },
                         board := { s.board with pwrEn := true, input := true, lost := false } }
      let s2 := runSettle ((s1.setFld R.mgtPins F.mgtPins_slot_id slot.toNat).setFld R.clkStatus F.clkStatus_settle settle.toNat)
      if s2.fld R.mgtPins F.mgtPins_flow_fault = 1 then stopFlow s2 else s2)

/-- PWR_EN_DEASSERT: the orderly power-down; the open-drain outputs are released. -/
def execPwrEnDeassert (s : State) : Host.Outcome State Fault Refusal :=
  .next (if s.board.pwrEn = false then s
    else powerOff s (keptPart s) fun b =>
      { b with pwrEn := false, input := false, lost := false, tripped := false, powerFault := false })

/-- EFUSE_SWITCH_OFF: the input stage is off until PWR_EN falls. [DEDUCED, log 94] -/
def switchOff (s : State) : State :=
  powerOff s (keptPart s) fun b => { b with input := false, lost := true, powerFault := true }

def execEfuseSwitchOff (s : State) : Host.Outcome State Fault Refusal := .next (if s.board.input then switchOff s else s)

/-- P3V3_AUX_LOSS: the trip latch and the management address go with the supply. -/
def execP3v3AuxLoss (s : State) : Host.Outcome State Fault Refusal :=
  let s1 := if s.board.pwrEn then switchOff s else s
  let s2 := { s1 with part := { s1.part with trip := false }, board := { s1.board with aux := false, i3cAddr := 0, tripped := false } }
  .next ((s2.setFld R.mgtId F.mgtId_mctp_eid 0).setFld R.mgtPins F.mgtPins_trip_prev 0)

/-- SURPRISE_REMOVAL: every contact breaks while the module is powered. -/
def execSurpriseRemoval (s : State) : Host.Outcome State Fault Refusal :=
  .next (powerOff s { keptPart s with trip := false } fun b =>
    { b with aux := false, pwrEn := false, input := false, clkOk := false, perst := true, lost := true, tripped := false,
             powerFault := false, i3cAddr := 0 })

end Sys2Proof.Machine
end

