-- ==== Sys2Proof/Machine/RegAccess.lean ====
section
/-! DEFINITION. Register accesses with an effect of their own: key registers, command fields and start bits reached through
the register path, DEV.COMMIT, the clock meter, the array test and the requests of tiles where they arrive (R8, R37, R66,
R77, R116, R204, R219, R467, R474, R526, R532, R546, R548, R549, R582, R590). -/

namespace Sys2Proof.Machine

open Sys2Proof.Fp

/-! ### DEV.COMMIT (R37) -/

/-- DEV.COMMIT selects the register at an offset: its partition's bit, or the device bit for a device-wide block.
[DEDUCED, log 22] -/
def commitSelects (x : W64) (off : Nat) : Bool :=
  match RegTab.find off with
  | none => false
  | some (d, idx) =>
    match regPart d.base idx with
    | some p => x.getLsbD p
    | none => x.getLsbD 8 && !(d.base == R.nocEdge 0) && !(d.base == R.nocEdgeerr 0) && !(d.base == R.secAlarmpol)

/-- The shadow copies that a write of DEV.COMMIT selects take effect together; those of SCA.WAYw wait for their tick (R37, R297). -/
def commitShadows (s : State) (x : W64) : State := applySettings s fun off => commitSelects x off && !(isWay off)

def execDevCommit (x : BitVec 64) (s : State) : Host.Outcome State Fault Refusal := .next (commitShadows s x)

/-! ### The clock meter (R590) -/

/-- A code of the table "Meter sources" whose clock exists on the part. [DEDUCED, log 21] -/
def meterSource (s : State) (c : Nat) : Bool :=
  let p := s.part
  c == 0 || (decide (0x08 ≤ c) && decide (c < 0x20))
    || (decide (0x20 ≤ c) && decide (c < 0x40) && decide (c % 4 < p.stacksPerPart))
    || (decide (0x40 ≤ c) && decide (c < 0x40 + s.ports)) || c == 0x58
    || (decide (0x60 ≤ c) && decide (c < 0x6C) && !(decide (s.ports ≤ 12) && c == 0x6B))

/-- A start with these contents of CLK.METER is accepted. -/
def meterOk (s : State) (whole : W64) : Bool :=
  let f (g : Fld) : Nat := bitsOf whole.toNat g.hi g.lo
  s.fld R.clkMeter F.clkMeter_busy == 0 && decide (10 ≤ f F.clkMeter_window) && decide (f F.clkMeter_window ≤ 24)
    && f F.clkMeter_ref != f F.clkMeter_meas && meterSource s (f F.clkMeter_ref)
    && meterSource s (f F.clkMeter_meas)

/-- A write of CLK.METER with start set: the measurement runs and clears the last count, or the write is rejected whole. -/
def startMeter (s : State) (path : RegPath) (m x : W64) : State :=
  let whole := (s.reg R.clkMeter &&& ~~~m) ||| x
  if meterOk s whole = false then rejectReg s path R.clkMeter true none
  else
    let g (f : Fld) : Nat := bitsOf whole.toNat f.hi f.lo
    let s1 := ((s.setFld R.clkMeter F.clkMeter_window (g F.clkMeter_window)).setFld R.clkMeter F.clkMeter_ref
      (g F.clkMeter_ref)).setFld R.clkMeter F.clkMeter_meas (g F.clkMeter_meas)
    (s1.setFld R.clkMeter F.clkMeter_busy 1).setFld R.clkMetercnt F.clkMetercnt_valid 0

/-- CLK_METER_START: a write of CLK.METER with its start bit. -/
def execClkMeterStart (path : RegPath) (x : BitVec 64) (s : State) : Host.Outcome State Fault Refusal :=
  .next (startMeter s path (BitVec.allOnes 64) (x ||| 1))

/-- METER_COMPLETE: the edges counted. -/
def execMeterComplete (count : BitVec 40) (s : State) : Host.Outcome State Fault Refusal :=
  .next (if s.fld R.clkMeter F.clkMeter_busy = 1 then
    ((s.setFld R.clkMeter F.clkMeter_busy 0).setFld R.clkMetercnt F.clkMetercnt_count count.toNat).setFld R.clkMetercnt
      F.clkMetercnt_valid 1
  else s)

/-! ### The array test (R116) -/

/-- A write of MXA.BIST with start set: the tile must be in RESET or IDLE, and the pattern one of the three. While a test runs
the write is taken and the test starts again. [DESIGN CHOICE, log 114] -/
def bistWrite (s : State) (path : RegPath) (t pattern : Nat) : State :=
  let st := (s.tile t).st
  if (st ≠ .reset ∧ st ≠ .idle) ∨ 2 < pattern ∨ s.part.tilesPerPart ≤ t % 256 then
    rejectReg s path (R.mxaBist t) true (some (t / 256))
  else startBist s t (BitVec.ofNat 4 pattern)

def execMxaBistStart (path : RegPath) (t : TileId) (pattern : BitVec 4) (s : State) : Host.Outcome State Fault Refusal :=
  .next (bistWrite s path t.val pattern.toNat)

/-! ### Registers reached by a general access -/

/-- Mailbox buffer and MSI-X table: words that hold what is written to them (R547, R582). [DESIGN CHOICE, log 16] -/
def plainWord (base : Nat) : Bool :=
  (decide (0x0E001000 ≤ base) && decide (base < 0x0E002000)) || (decide (0x0D100000 ≤ base) && decide (base < 0x0D102020))

/-- The pending bits of MSI-X: every vector is sent at once, so that they read 0 (R547). [DESIGN CHOICE, log 16] -/
def pendingWord (base : Nat) : Bool := decide (0x0D110000 ≤ base) && decide (base < 0x0D110048)

/-- The write of a reset register: the key must be 0xC5 (R546). -/
def keyedReset (s : State) (path : RegPath) (off : Nat) (p : Option Nat) (x : W64) (go : State → State) : State :=
  if bitsOf x.toNat 15 8 ≠ 0xC5 then rejectReg s path off true p
  else if bitsOf x.toNat 1 0 = 1 then go s else s

/-- PL.PCTLk: RWS fields to the shadow copy, then the command. -/
def portWrite (s : State) (base k : Nat) (d : RegDef) (x m : W64) : State :=
  let s1 := applyFields s base d x m
  match bitsOf x.toNat 1 0 with
  | 1 => setPortState (portDown s1 k) k 2
  | 2 => portDown s1 k
  | _ => s1

/-- DMA.QCTLq and BULK.QCTLq: RW fields, then the command. Queues 64 to 79 stay firmware's: valid reads 1 and ctx 0 (R382). -/
def queueWrite (s : State) (base k : Nat) (d : RegDef) (x m : W64) : State :=
  let s0 := applyFields s base d x m
  let s1 := if State.fwQueue k then (s0.setFld base F.bulkQctl_valid 1).setFld base F.bulkQctl_ctx 0 else s0
  match bitsOf x.toNat 63 62 with
  | 1 => resumeQueue s1 k
  | 2 => cancelQueue s1 k
  | _ => s1

/-- TILE.PREEMPT: a request, ignored while one is in progress. -/
def preemptWrite (s : State) (t : Nat) (x : W64) : State :=
  let T := s.tile t
  match bitsOf x.toNat 1 0 with
  | 1 => requestSave s t .step
  | 2 => requestSave s t .urgent
  | 3 =>
    if T.st = .idle ∧ T.preempt = none then
      s.setTile t { T with st := .restore, preempt := some .restore, preemptResult := 0 }
    else s
  | _ => s

/-- R474 is met for the fence of a partition: no key of its logical partition is erased, the device is not restricted to reports, and
every region of the scope reads as cleared. [DEDUCED, log 15] -/
def fenceMet (s : State) (p : Nat) : Bool :=
  !s.board.restricted && (s.members p).all (fun q => s.fld (R.partFence q) F.partFence_keys_erased == 0)
    && s.mem.all fun c => !(s.isDram c.1 && (s.members p).contains (s.homeOf c.1)) || s.byteAt c.1 == 0

/-- Registers whose write does something that their fields alone do not; `none` for every other register.
[DEDUCED, log 14 and 15 and 17] -/
def specialWrite (s : State) (path : RegPath) (base : Nat) (d : RegDef) (idx : List Nat) (x m : W64) : Option State :=
  let b := d.base
  let i := idxAt idx 0
  let j := idxAt idx 1
  let low := m.getLsbD 0
  if b = R.devCommit then some (commitShadows s x)
  else if b = R.devReset then some (if low then keyedReset s path base none x (·.startChipReset 1) else s)
  else if b = R.partReset 0 then some (if low then keyedReset s path base (some i) x (·.startPartitionReset i 1) else s)
  else if b = R.ctxCmd 0 then some (if low then ctxCmd s path i (bitsOf x.toNat 3 0) else s)
  else if b = R.errEngrst 0 then
    some (if low then (engRst s i (bitsOf x.toNat 31 24) (bitsOf x.toNat 23 0)).getD (rejectReg s path base true (some i)) else s)
  else if b = R.capGenclr 0 then
    some ((genClear s i (bitsOf x.toNat 43 21) (bitsOf x.toNat 63 48 + 1)).getD
      (rejectReg (s.setFld (R.capGenstat i) F.capGenstat_result 2) path base true (some i)))
  else if b = R.capRetire 0 then some (capRetire s path i (bitsOf x.toNat 63 62) (bitsOf x.toNat 43 21))
  else if b = R.synObj 0 0 then some (pathUpdate s .arm i j x)
  else if b = R.synSig 0 0 then some (pathUpdate s .signal i j x)
  else if b = R.bulkQpost 0 0 then
    let k := 16384 + i * 80 + j
    some (if 4 ≤ (s.queue k).heads.length ∨ (State.fwQueue k = false ∧ (s.qCtx k).isNone = true) then
      rejectReg s path base true (some i)
    else s.addHead k (bulkHead s k (bitsOf x.toNat 43 6 * 64)))
  else if b = R.dmaQctl 0 0 then some (queueWrite s base (i * 8 + j) d x m)
  else if b = R.bulkQctl 0 0 then some (queueWrite s base (16384 + i * 80 + j) d x m)
  else if b = R.plPctl 0 then some (portWrite s base i d x m)
  else if b = R.tilePreempt 0 then some (preemptWrite s i x)
  else if b = R.mxaBist 0 then
    if x.getLsbD 0 then some (bistWrite s path i (bitsOf x.toNat 7 4)) else none
  else if b = R.secAlarmpol then some (writeAlarmPolicy s path x m)
  else if b = R.partGroup 0 then
    some (if low then (regroup s i (bitsOf x.toNat 1 0)).getD (rejectReg s path base true (some i)) else s)
  else if b = R.partFence 0 then some (if x.getLsbD 0 = true ∧ s.fenced i = true then
      (if fenceMet s i then s.setFld (R.partFence i) F.partFence_fenced 0 else rejectReg s path base true (some i))
    else s)
  else if b = R.hifRq 0 then
    some (if low = false then s
    else if 2 ^ s.fld (R.hifQbase i) F.hifQbase_k < (bitsOf x.toNat 31 0 + 2 ^ 32 - s.fld (R.hifRq i) F.hifRq_cons) % 2 ^ 32 then
      rejectReg s path base true none
    else s.setFld (R.hifRq i) F.hifRq_prod (bitsOf x.toNat 31 0))
  else if b = R.hifCq 0 then
    some (if m.getLsbD 32 then (s.setFld (R.hifCq i) F.hifCq_cons (bitsOf x.toNat 63 32)).unhold i .queueRoom else s)
  else if b = R.partJtail 0 then
    let tail := ((s.reg base &&& ~~~m) ||| x).toNat
    some (if jHead s i < tail ∨ tail < jTail s i then rejectReg s path base true (some i)
    else freeJournal (s.setReg base (BitVec.ofNat 64 tail)) i)
  else if b = R.mgtMbctl then
    some (if x.getLsbD 0 then s.setFld R.mgtMbstat F.mgtMbstat_busy 1 else s)
  else if b = R.thmSubst 0 then some (substWrite s path i ((s.reg base &&& ~~~m) ||| x))
  else if b = R.clkMeter then if x.getLsbD 0 then some (startMeter s path m x) else none
  else none

/-- A write with an effect of its own that is rejected for its value before that effect (R10). -/
def specialBad (s : State) (base : Nat) (d : RegDef) (idx : List Nat) (x m : W64) : Bool :=
  let b := d.base
  if b = R.dmaQctl 0 0 ∨ b = R.bulkQctl 0 0 ∨ b = R.plPctl 0 then d.fields.any (fieldBad (written s base x m) m)
  else if b = R.secAlarmpol then !(levelsOk s (bitsOf ((s.reg base &&& ~~~m) ||| (x &&& m)).toNat 9 0))
  else if b = R.clkMeter then x.getLsbD 0 && !(meterOk s ((s.reg base &&& ~~~m) ||| x))
  else if b = R.partGroup 0 then m.getLsbD 0 && (regroup s (idxAt idx 0) (bitsOf x.toNat 1 0)).isNone
  else false

/-- A write at a BAR0 offset. -/
def regWrite (s : State) (path : RegPath) (off size : Nat) (v : W64) : State :=
  let base := off / 8 * 8
  if accessOk off size = false then s
  else
    let m := accessMask off size
    let x := (if size = 4 ∧ off % 8 = 4 then v <<< 32 else v) &&& m
    match RegTab.find base with
    | none => if plainWord base then s.setReg base ((s.reg base &&& ~~~m) ||| x) else s
    | some (d, idx) =>
      if absentUnit s d.base idx then rejectReg s path off true (regPart d.base idx)
      else
        let mark (ok : Bool) (s : State) : State :=
          if ok then markLevel s base (pathLevel path) m else s
        match specialWrite s path base d idx x m with
        | some s1 => if specialBad s base d idx x m then rejectReg s path off true (regPart d.base idx) else mark true s1
        | none => mark (!(writeBad s path base d idx x m)) (writeReg s path off size v)

/-- A read at a BAR0 offset. -/
def regRead (s : State) (path : RegPath) (off size : Nat) : W64 × State :=
  let base := off / 8 * 8
  if accessOk off size = true ∧ (plainWord base = true ∨ pendingWord base = true) then
    let v := s.reg base &&& accessMask off size
    (if size = 4 ∧ off % 8 = 4 then v >>> 32 else v, s)
  else readReg s path off size

/-- REGISTER_READ: the value is returned (R548). [DEDUCED, log 13] -/
def execRegisterRead (path : RegPath) (off : BitVec 28) (size : BitVec 4) (s : State) : Host.Outcome State Fault Refusal :=
  let (v, s1) := regRead s path off.toNat size.toNat
  .next (s1.emit (.regValue v))

/-- REGISTER_WRITE: the write takes effect, or is rejected with BOUND (R8, R10, R548). [DEDUCED, log 13] -/
def execRegisterWrite (path : RegPath) (off : BitVec 28) (size : BitVec 4) (v : BitVec 64) (s : State) :
    Host.Outcome State Fault Refusal :=
  .next (regWrite s path off.toNat size.toNat v)

/-! ### Requests where they arrive (R204) -/

/-- A request to memory of a partition in reset: TIMEOUT, and no record (R532). -/
def refusedByReset (s : State) (q : MemReq) : Bool :=
  match q.kind, q.dest with
  | .signal, _ => false
  | .arm, _ => false
  | .readObj, _ => false
  | .regLoad, _ => false
  | .regStore, _ => false
  | _, .local => decide (q.tile < 2048) && s.resetHome (q.tile / 256) q.addr
  | _, _ => false

/-- A register request of a handler outside the register page of its own tile (R66, R77). [DEDUCED, log 19] -/
def handlerOutside (q : MemReq) : Bool :=
  (q.kind == .regLoad || q.kind == .regStore)
    && !(decide (R.tileId q.tile ≤ q.addr) && decide (q.addr < R.tileId q.tile + 0x1000))

/-- A request of a tile cannot arrive: the route to the base die of its object, to the home of its address or, for the host, to base die
0 is cut, or its far share is 0 (R289, R384, R387, R395). -/
def notReached (s : State) (q : MemReq) : Bool :=
  let p := q.tile / 256
  match q.kind, q.dest with
  | .regLoad, _ => false
  | .regStore, _ => false
  | _, .host _ => s.routeCut p 0
  | _, .peer _ => false
  | .signal, .local => s.routeCut p (q.addr / 16384)
  | .arm, .local => s.routeCut p (q.addr / 16384)
  | .readObj, .local => s.routeCut p (q.addr / 16384)
  | .drop, .local => false
  | _, .local => s.shutOut p (q.ctx / 128) q.addr

/-- MEM_REQUEST_ARRIVE: the request takes effect where it is performed. A line leased to a near-memory unit holds it in the
arbiter, and the code word is read when it is performed (R337), a quiesced slice or stack keeps it waiting (R281), a foreign context tag raises alarm source 0 (R472), a request
of a context in teardown is dropped (R529), and one to memory in reset ends with TIMEOUT. -/
def execMemRequestArrive (r : BitVec 32) (x : LineFault) (s : State) : Host.Outcome State Fault Refusal :=
  let i := r.toNat
  .next (match s.reqs.get? i with
    | none => s
    | some q =>
      if q.done = true ∨ q.arbiter = true ∨ blockedByLine s i q = true
          ∨ (decide (q.tile < 2048) && notReached s q) = true then s
      -- a transaction of a context in teardown is dropped as one of a stale generation (R529)
      else if q.tile < 2048 ∧ s.ctxSt (q.ctx / 128) = CtxSt.teardown then s.dropPacket.answer i q 0 true
      else if refusedByReset s q then s.answer i q 0 true
      else if x = .foreignTag then
        (s.raiseAlarm 0 (s.homeOf q.addr) (some (q.ctx / 128))).answer i q 0 true
      else if handlerOutside q then
        (rejectReg s (.handler (Fin.ofNat 2048 q.tile)) q.addr (q.kind == .regStore)
          ((RegTab.find (q.addr / 8 * 8)).bind fun d => regPart d.1.base d.2)).answer i q 0 true
      else match q.kind, q.dest with
        | .regLoad, _ =>
          let (v, s1) := regRead s (.handler (Fin.ofNat 2048 q.tile)) q.addr 8
          s1.answer i q v false
        | .regStore, _ => (regWrite s (.handler (Fin.ofNat 2048 q.tile)) q.addr 8 q.data).answer i q 0 false
        | _, .peer d => if s.fab.out.any (fun f => f.who == .mem i) then s else sendMem s i q d
        | _, .host n => hostMem s i q n
        | .signal, .local => s.performReq i
        | .arm, .local => s.performReq i
        | .readObj, .local => s.performReq i
        | _, .local =>
          if s.quiesced q.addr then s
          else
            -- the line that the request puts out is one of the tile's own base die, the one it drops is too
            let p := if q.kind = .drop ∨ x = .victimUe then q.tile / 256 else servedAt s (q.tile / 256) (q.ctx / 128) q.addr
            if s.leaseHolds q.addr then
              { s with reqs := s.reqs.set i { q with arbiter := true } }.holdAt q.addr 1 (.mem r x)
            else (lineFault s p (q.ctx / 128) q.addr x).performReq i)

end Sys2Proof.Machine
end

