-- ==== Sys2Proof/Machine/SlotDecode.lean ====
section
/-! DEFINITION. Bundles in memory and the decoding of slot words (R154 to R158, R162, R189, R192, R228). -/

namespace Sys2Proof.Machine

/-! ### The bundle layout (R154) -/

/-- The four slot words of a bundle. -/
structure Bundle where
  s : W32
  v : W32
  m : W32
  d : W32
deriving DecidableEq, Repr

/-- The slot words as one 128-bit value: S, V, M and D from the top. -/
def Bundle.bits (b : Bundle) : BitVec 128 := b.s ++ b.v ++ b.m ++ b.d

/-- The 16 bytes of a bundle in memory, the lowest bits first. -/
def Bundle.bytes (b : Bundle) : List Byte := leBytes 16 b.bits.toNat

/-- The bundle that 16 bytes hold. -/
def Bundle.ofBytes (bs : List Byte) : Bundle :=
  let x : BitVec 128 := BitVec.ofNat 128 (leVal (bs.take 16))
  ⟨x.extractLsb' 96 32, x.extractLsb' 64 32, x.extractLsb' 32 32, x.extractLsb' 0 32⟩

/-! ### Slot words (R155, R157, R158) -/

/-- Opcode of a slot word. -/
def opcodeOf (w : W32) : Nat := (w.extractLsb' 25 7).toNat

/-- A field of `n` bits at bit `lo`. -/
def fieldOf (w : W32) (lo n : Nat) : BitVec n := w.extractLsb' lo n

def flagOf (w : W32) (lo : Nat) : Bool := w.getLsbD lo

/-- The pg, z and t fields (R158). -/
def ctlOf (w : W32) : VCtl := ⟨fieldOf w 2 3, flagOf w 1, flagOf w 0⟩

def scalarOp (w : W32) : TileOp :=
  let d := fieldOf w 20 5
  let a := fieldOf w 15 5
  let b := fieldOf w 10 5
  let ad := fieldOf w 20 4
  let aa := fieldOf w 15 4
  let imm := fieldOf w 0 15
  let alu (op : AluOp) : TileOp := .alu op d a b
  let alui (op : AluiOp) : TileOp := .alui op d a imm
  let br (c : BrCond) : TileOp := .br c d a imm
  match opcodeOf w with
  | 0 => .nop
  | 0x01 => alu .add | 0x02 => alu .sub | 0x03 => alu .and | 0x04 => alu .or | 0x05 => alu .xor | 0x06 => alu .sll
  | 0x07 => alu .srl | 0x08 => alu .sra | 0x09 => alu .slt | 0x0A => alu .sltu | 0x0B => alu .min | 0x0C => alu .max
  | 0x0D => alu .minu | 0x0E => alu .maxu | 0x0F => alu .mul | 0x10 => alu .mulh | 0x11 => alu .mulhu
  | 0x12 => alui .addi | 0x13 => alui .andi | 0x14 => alui .ori | 0x15 => alui .xori | 0x16 => alui .slli
  | 0x17 => alui .srli | 0x18 => alui .srai | 0x19 => alui .slti | 0x1A => alui .sltiu
  | 0x1B => .li d (fieldOf w 0 20)
  | 0x1C => .insh d (fieldOf w 18 2) (fieldOf w 0 16)
  | 0x1D => .aSet ad a
  | 0x1E => .aGet d aa
  | 0x1F => .aAddi ad aa imm
  | 0x20 => .aAdd ad aa b
  | 0x21 => br .eq | 0x22 => br .ne | 0x23 => br .lt | 0x24 => br .ge | 0x25 => br .ltu | 0x26 => br .geu
  | 0x27 => .brP true (fieldOf w 22 3) imm
  | 0x28 => .brP false (fieldOf w 22 3) imm
  | 0x29 => .jmp (fieldOf w 0 25)
  | 0x2A => .jal d (fieldOf w 0 20)
  | 0x2B => .jr a
  | 0x2C => .loopSet (fieldOf w 23 2) a
  | 0x2D => .loopSeti (fieldOf w 23 2) (fieldOf w 0 23)
  | 0x2E => .loopBr (fieldOf w 23 2) (fieldOf w 0 23)
  | 0x2F => .loopGet d (fieldOf w 15 2)
  | 0x30 => .rdsr d (fieldOf w 0 6)
  | 0x31 => .stepWait (flagOf w 24)
  | 0x32 => .fret
  | 0x33 => .fretReplay
  | _ => .raw .s w

def vectorOp (w : W32) : TileOp :=
  let d := fieldOf w 20 5
  let a := fieldOf w 15 5
  let b := fieldOf w 10 5
  let c := fieldOf w 5 5
  let aa := fieldOf w 15 4
  let pd := fieldOf w 20 3
  let n := fieldOf w 9 6
  let pg := fieldOf w 2 3
  let z := flagOf w 1
  let k := ctlOf w
  let ar (op : VArith) : TileOp := .vArith op d a b c k
  match opcodeOf w with
  | 0 => .nop
  | 0x01 => ar .add | 0x02 => ar .sub | 0x03 => ar .mul | 0x04 => ar .fma | 0x05 => ar .fms | 0x06 => ar .fnma
  | 0x07 => ar .max | 0x08 => ar .min | 0x09 => ar .abs | 0x0A => ar .neg
  | 0x0B => .vCmp false pd a b (fieldOf w 5 3) k
  | 0x0C => .vCmp true pd a b (fieldOf w 5 3) k
  | 0x0D => ar .iadd | 0x0E => ar .isub | 0x0F => ar .imul | 0x10 => ar .imulh | 0x11 => ar .iand | 0x12 => ar .ior
  | 0x13 => ar .ixor | 0x14 => ar .ishl | 0x15 => ar .ishr | 0x16 => ar .isar | 0x17 => ar .imax | 0x18 => ar .imin
  | 0x19 => ar .imac
  | 0x1A => .vCvt d a b pg z
  | 0x1B => .vCvtMx d a (fieldOf w 10 3) pg z
  | 0x1C => .vCvtMxs d a (fieldOf w 10 3) c pg z
  | 0x1D => .vCvtMxf d a (fieldOf w 10 3) pg z
  | 0x1E => .vFun .exp2 d a k | 0x1F => .vFun .log2 d a k | 0x20 => .vFun .rcp d a k | 0x21 => .vFun .rsqrt d a k
  | 0x22 => .vOsm d a b c pg z (flagOf w 0)
  | 0x23 => .vRed .rsum d a k | 0x24 => .vRed .rmax d a k | 0x25 => .vRed .rmin d a k | 0x26 => .vRed .irsum d a k
  | 0x27 => .vRed .scan d a k | 0x28 => .vRed .iscan d a k
  | 0x29 => .vTreeInit aa
  | 0x2A => .vTreePush d aa (fieldOf w 11 4) (flagOf w 10)
  | 0x2B => .vTreeFin d aa (flagOf w 10)
  | 0x2C => .vLane3 .perm d a b k
  | 0x2D => .vLaneI .rot d a n k
  | 0x2E => .vLaneI .bfly d a n k
  | 0x2F => .vLane3 .sel d a b k
  | 0x30 => .vBcast d a k
  | 0x31 => .vLaneI .bcastl d a n k
  | 0x32 => .vIns d a n k
  | 0x33 => .vExt d a n k
  | 0x34 => .vIota d n k
  | 0x35 => .vLane3 .mov d a b k
  | 0x36 => .vPred .pand pd (fieldOf w 15 3) (fieldOf w 10 3)
  | 0x37 => .vPred .por pd (fieldOf w 15 3) (fieldOf w 10 3)
  | 0x38 => .vPred .pxor pd (fieldOf w 15 3) (fieldOf w 10 3)
  | 0x39 => .vPred .pandn pd (fieldOf w 15 3) (fieldOf w 10 3)
  | 0x3A => .vPs2p pd a
  | 0x3B => .vPp2s d (fieldOf w 15 3)
  | 0x3C => .vPcnt d (fieldOf w 15 3)
  | 0x3D => .vRng false d a b (fieldOf w 5 2) pg z
  | 0x3E => .vRng true d a b (fieldOf w 5 2) pg z
  | _ => .raw .v w

def matrixOp (w : W32) : TileOp :=
  match opcodeOf w with
  | 0 => .nop
  | 1 => .mxaWload (fieldOf w 21 4) (fieldOf w 18 3) (flagOf w 17)
  | 2 => .mxaPass (fieldOf w 21 4) (fieldOf w 17 4) (fieldOf w 12 5) (fieldOf w 9 3) (flagOf w 8) (flagOf w 7) (flagOf w 6)
  | 3 => .accMv (fieldOf w 20 5) (fieldOf w 15 5)
  | 4 => .accSt false (fieldOf w 21 4) (fieldOf w 16 5) (flagOf w 15)
  | 5 => .accSt true (fieldOf w 21 4) (fieldOf w 16 5) (flagOf w 15)
  | 6 => .accZero (fieldOf w 16 5)
  | _ => .raw .m w

def dataOp (w : W32) : TileOp :=
  let d := fieldOf w 20 5
  let a := fieldOf w 15 5
  let aa := fieldOf w 16 4
  let off := fieldOf w 0 15
  let off14 := fieldOf w 0 14
  let hint := fieldOf w 14 2
  let fl := flagOf w 15
  match opcodeOf w with
  | 0 => .nop
  | 0x01 => .lsLd d aa off fl
  | 0x02 => .lsSt d aa off fl
  | 0x03 => .lsVld d aa off fl
  | 0x04 => .lsVst d aa off fl
  | 0x05 => .lsClaim aa
  | 0x06 => .lsPublish aa
  | 0x07 => .lsRelease aa
  | 0x08 => .lsZero aa fl
  | 0x10 => .memLd d aa off14 hint
  | 0x11 => .memSt d aa off14 hint
  | 0x12 => .memPf aa off14 hint
  | 0x13 => .memDrop aa off14 hint
  | 0x14 => .memFence (flagOf w 24) (flagOf w 23)
  | 0x18 => .atom d a (fieldOf w 10 5) (fieldOf w 6 4) (flagOf w 5) (fieldOf w 1 4)
  | 0x20 => .kvWalk (fieldOf w 21 4) (fieldOf w 17 4) (fieldOf w 12 5) (fieldOf w 7 5)
  | 0x21 => .kvAppend (fieldOf w 17 4) (fieldOf w 12 5)
  | 0x28 => .dmaPost (fieldOf w 17 3) (fieldOf w 13 4) (flagOf w 12)
  | 0x29 => .dmaStat d (fieldOf w 17 3)
  | 0x2A => .dmaCancel (fieldOf w 17 3)
  | 0x30 => .sySignal d a (flagOf w 14)
  | 0x31 => .syWait d a (flagOf w 14)
  | 0x32 => .syArm d a
  | 0x33 => .syRead d a
  | _ => .raw .d w

/-- The operation that a slot word picks by its opcode, with its fields; a word that R155 makes reserved by its opcode or by an
unused field stays a raw word. Reserved values of a used field are for the checks at issue. -/
def decodeSlot (sl : Slot) (w : W32) : TileOp :=
  if wordReserved sl w then .raw sl w
  else match sl with
    | .s => scalarOp w
    | .v => vectorOp w
    | .m => matrixOp w
    | .d => dataOp w

/-- The operations of a bundle in slot order, the all-zero slots left out; a bundle of zeros is one no-op (R155). -/
def decodeBundle (b : Bundle) : List TileOp :=
  let ops := [decodeSlot .s b.s, decodeSlot .v b.v, decodeSlot .m b.m, decodeSlot .d b.d].filter (· != .nop)
  if ops = [] then [.nop] else ops

end Sys2Proof.Machine
end

