-- ==== Sys2Proof/Machine/Cru.lean ====
section
/-! DEFINITION. The instructions of the near-memory units (R322 to R328, R334 to R338, R341 to R347). -/

namespace Sys2Proof.Machine

open Sys2Proof.Fp

/-! ### Registers and store of a unit -/

namespace CruUnit

/-- g0 reads as zero (R322). -/
def rg (u : CruUnit) (n : BitVec 4) : W32 := if n = 0 then 0 else u.g.getD n.toNat 0

def wg (u : CruUnit) (n : BitVec 4) (x : W32) : CruUnit := if n = 0 then u else { u with g := u.g.set n.toNat x }

def rf (u : CruUnit) (n : BitVec 4) : BitVec 512 := u.f.getD n.toNat 0

def wf (u : CruUnit) (n : BitVec 4) (x : BitVec 512) : CruUnit := { u with f := u.f.set n.toNat x }

/-- Bytes of the unit store, kept by 64-byte line. -/
def storeLine (u : CruUnit) (l : Nat) : List Byte := u.store.getD l (List.replicate 64 0)

def readByte (u : CruUnit) (a : Nat) : Byte := (u.storeLine (a / 64)).getD (a % 64) 0

def readStore (u : CruUnit) (a n : Nat) : List Byte := (List.range n).map fun i => u.readByte (a + i)

def writeByte (u : CruUnit) (a : Nat) (b : Byte) : CruUnit :=
  { u with store := u.store.set (a / 64) ((u.storeLine (a / 64)).set (a % 64) b) }

def writeStore (u : CruUnit) (a : Nat) (bs : List Byte) : CruUnit :=
  bs.zipIdx.foldl (fun u b => u.writeByte (a + b.2) b.1) u

/-- A store range that a cm.in in flight will write (R323). -/
def storeBusy (u : CruUnit) (a n : Nat) : Bool :=
  u.reads.any fun r => decide (a < r.store + 64 * r.count) && decide (r.store < a + n)

end CruUnit

/-! ### The stack arbiter (R336, R337, R340) -/

/-- The state that a command leaves; a stop leaves none. -/
def stateOf (s : State) (o : Host.Outcome State Fault Refusal) : State := match o with | .next t => t | _ => s

/-- A held access is performed. -/
def performAccess (s : State) : HeldAccess → State
  | .mem r x =>
    match s.reqs.get? r.toNat with
    | none => s
    | some q => stateOf s (execMemRequestArrive r x { s with reqs := s.reqs.set r.toNat { q with arbiter := false } })
  | .line q ix x ext => stateOf s (execDmaLineReturn q ix x ext s)
  | .fetch q x ext => stateOf s (execDescriptorFetchReturn q x ext s)
  | .complete d => stateOf s (execDescriptorComplete d s)
  | .walk t id x ext => stateOf s (execKvWalkEntryReturn t id x ext s)
  | .collPush c p x ext => stateOf s (execCollPush c p x ext s)
  | .collSend c p x ext => stateOf s (execCollSend c p x ext s)
  | .collEnd c p => stateOf s (execCollectiveCommandComplete c p s)
  | .hostRead off n x => stateOf s (execBar2Read off n x s)
  | .hostWrite off bytes => stateOf s (execBar2Write off bytes s)
  | .packet k x => settleDepart (inOrder s k x)
  | .rewrite l old fixed => if s.codeWord l = old then s.holdWord l fixed else s
  | .clear p r request past => clearHeld s p r request past
  | .scrub x past => endPass s x past

/-- A clear or a scrub pass has waited for a boundary of the unit. -/
def HeldAccess.passed (k : Nat) : HeldAccess → HeldAccess
  | .clear p r request past => .clear p r request (k :: past)
  | .scrub x past => .scrub x (k :: past)
  | a => a

/-- Every access that waits for a boundary of the unit is performed, in the order of arrival; its leases hold none of them.
[DEDUCED, log 50] -/
def performHeld (s : State) (k : Nat) : State :=
  let mine := s.held.filter (·.1 == k)
  let s1 := { s with held := s.held.filter (·.1 != k) }.setUnit k { s.unit k with pass := true }
  let s2 := mine.foldl (fun s h => performAccess s (h.2.passed k)) s1
  s2.setUnit k { s2.unit k with pass := false }

/-- An abort ends the unit's leases, and the accesses that waited are performed (R340, R346). -/
def abortHere (s : State) (k status : Nat) (faulty : Bool) : State := performHeld (s.abortUnit k status faulty) k

/-- A store operand lies in the 64 KiB store with an alignment (R342). [DEDUCED, log 48] -/
def storeOk (a n align : Nat) : Bool := decide (a + n ≤ 0x10000) && a % align == 0

/-! ### Issue of a unit instruction -/

/-- The launch a unit runs. -/
def unitLaunch (s : State) (k : Nat) : Option Launch := s.launches.get? (s.unit k).launch

/-- The 64-byte line of the program that holds the instruction at the pc is loaded again from the image (R346). -/
def reloadLine (s : State) (k : Nat) : State :=
  let u := s.unit k
  let word (i : Nat) (w : W32) : W32 :=
    if i / 16 = u.pc / 16 then BitVec.ofNat 32 (s.load (u.image.1 + 4 * i) 4) else w
  s.setUnit k { u with imem := u.imem.zipIdx.map fun x => word x.2 x.1 }

/-- SRAM_UE record of an instruction memory, which the table of structures does not name: it takes the unit store's code.
[DESIGN CHOICE, log 141] -/
def parityRecord (s : State) (k : Nat) : State :=
  let (syn, s1) := s.sramSyndrome 7
  s1.record (k / 128) (s1.nameCtx (ErrRec.mk0 4 1 (k / 128) 5 k syn) ((s.launches.get? (s.unit k).launch).map (·.ctx)))

/-- A running unit issues, in its quantum. A failed check aborts the program at once, to be rerun; a parity error of the instruction
memory has its line loaded again, and issue resumes (R346). -/
def issue (n : StackId) (c : UnitAt) (s : State) (body : Nat → CruUnit → State → State) : State :=
  let k := State.unitKey n.val c.unit.val
  if (s.unit k).st ≠ .run then s
  else match c.check with
    | .none => body k (s.unit k) s
    | .failed => abortHere s k St.poison true
    | .parity => let s1 := parityRecord (reloadLine s k) k; body k (s1.unit k) s1

/-- An instruction that acts on its unit alone: the new unit with its PC moved on. -/
def unitStep (n : StackId) (c : UnitAt) (s : State) (f : CruUnit → CruUnit) : State :=
  issue n c s fun k u s => s.setUnit k { f u with pc := u.pc + 1 }

/-- As `unitStep`, for an instruction with a store operand: a bad operand aborts with BOUND, and a range that a cm.in in
flight writes holds the instruction. -/
def unitStoreStep (n : StackId) (c : UnitAt) (s : State) (ranges : CruUnit → List (Nat × Nat × Nat))
    (f : CruUnit → CruUnit) : State :=
  issue n c s fun k u s =>
  if (ranges u).any fun r => !storeOk r.1 r.2.1 r.2.2 then abortHere s k St.bound false
  else if (ranges u).any fun r => u.storeBusy r.1 r.2.1 then s
  else s.setUnit k { f u with pc := u.pc + 1 }

/-- Sign-extended 18-bit immediate. -/
def simm (imm : BitVec 18) : W32 := imm.signExtend 32

/-- Store address a + imm18 of the KI format. -/
def kiAddr (u : CruUnit) (a : BitVec 4) (imm : BitVec 18) : Nat := (u.rg a + simm imm).toNat

/-! ### Scalar instructions -/

def cruAlu (op : CruAluOp) (a b : W32) : W32 :=
  match op with
  | .add => a + b
  | .sub => a - b
  | .and => a &&& b
  | .or => a ||| b
  | .xor => a ^^^ b
  | .shl => a <<< (b.toNat % 32)
  | .shr => a >>> (b.toNat % 32)
  | .mul => a * b

def execCruAlu (n : StackId) (c : UnitAt) (op : CruAluOp) (d a b : BitVec 4) (s : State) :
    Host.Outcome State Fault Refusal :=
  .next (unitStep n c s fun u => u.wg d (cruAlu op (u.rg a) (u.rg b)))

def execCruAddi (n : StackId) (c : UnitAt) (d a : BitVec 4) (imm : BitVec 18) (s : State) :
    Host.Outcome State Fault Refusal :=
  .next (unitStep n c s fun u => u.wg d (u.rg a + simm imm))

def execCruLi (n : StackId) (c : UnitAt) (d : BitVec 4) (imm : BitVec 18) (s : State) :
    Host.Outcome State Fault Refusal :=
  .next (unitStep n c s fun u => u.wg d (simm imm))

def execCruLui (n : StackId) (c : UnitAt) (d : BitVec 4) (imm : BitVec 18) (s : State) :
    Host.Outcome State Fault Refusal :=
  .next (unitStep n c s fun u => u.wg d (imm.setWidth 32 <<< 14))

def execCruNop (n : StackId) (c : UnitAt) (s : State) : Host.Outcome State Fault Refusal :=
  .next (unitStep n c s id)

def cruTaken (cnd : CruCond) (a b : W32) : Bool :=
  match cnd with
  | .eq => a == b
  | .ne => a != b
  | .lt => a.slt b
  | .ltu => a.ult b

/-- Offsets count instructions from the branching one (R341); instruction memory has 4,096 places. -/
def cruTarget (pc : Nat) (off : BitVec 18) : Nat := (((pc : Int) + off.toInt) % 4096).toNat

def execCruBranch (n : StackId) (c : UnitAt) (cnd : CruCond) (a b : BitVec 4) (off : BitVec 18) (s : State) :
    Host.Outcome State Fault Refusal :=
  .next (issue n c s fun k u s =>
    s.setUnit k { u with pc := if cruTaken cnd (u.rg a) (u.rg b) then cruTarget u.pc off else u.pc + 1 })

def execCruJmp (n : StackId) (c : UnitAt) (off : BitVec 18) (s : State) : Host.Outcome State Fault Refusal :=
  .next (issue n c s fun k u s => s.setUnit k { u with pc := cruTarget u.pc off })

def execLdS (n : StackId) (c : UnitAt) (d a : BitVec 4) (imm : BitVec 18) (s : State) :
    Host.Outcome State Fault Refusal :=
  .next (unitStoreStep n c s (fun u => [(kiAddr u a imm, 4, 4)]) fun u =>
    u.wg d (BitVec.ofNat 32 (leVal (u.readStore (kiAddr u a imm) 4))))

def execStS (n : StackId) (c : UnitAt) (d a : BitVec 4) (imm : BitVec 18) (s : State) :
    Host.Outcome State Fault Refusal :=
  .next (unitStoreStep n c s (fun u => [(kiAddr u a imm, 4, 1)]) fun u =>
    u.writeStore (kiAddr u a imm) (leBytes 4 (u.rg d).toNat))

def execFld (n : StackId) (c : UnitAt) (fd a : BitVec 4) (imm : BitVec 18) (s : State) :
    Host.Outcome State Fault Refusal :=
  .next (unitStoreStep n c s (fun u => [(kiAddr u a imm, 64, 64)]) fun u =>
    u.wf fd (BitVec.ofNat 512 (leVal (u.readStore (kiAddr u a imm) 64))))

def execFst (n : StackId) (c : UnitAt) (fs a : BitVec 4) (imm : BitVec 18) (s : State) :
    Host.Outcome State Fault Refusal :=
  .next (unitStoreStep n c s (fun u => [(kiAddr u a imm, 64, 1)]) fun u =>
    u.writeStore (kiAddr u a imm) (leBytes 64 (u.rf fs).toNat))

/-! ### Memory instructions (R324, R326, R328, R334, R335) -/

/-- Device address of a channel-local address of unit `c` of stack `n` (R324). -/
def deviceAddr (n c l : Nat) : Nat := capBase n + l / 0x1000 * 0x20000 + c * 0x1000 + l % 0x1000

/-- Every line of a channel-local range lies in a window of the launch's context with the permission. -/
def channelOk (s : State) (n c l lines : Nat) (ctx : Nat) (p : Perm) : Bool :=
  (List.range lines).all fun i => decide (l + 64 * i < 0x80000000)
    && (List.range 16).any fun w => s.winOk ctx w (deviceAddr n c (l + 64 * i)) 64 p

/-- A unit's access aborts its program with BOUND; one outside the windows of a secure context raises alarm source 1 (R459). -/
def unitBound (s : State) (k : Nat) (inWin : Bool) : State :=
  let s1 := abortHere s k St.bound false
  match unitLaunch s k, inWin with
  | some l, false => s1.windowViolation l.ctx
  | _, _ => s1

def execCmIn (n : StackId) (c : UnitAt) (d a b : BitVec 4) (s : State) : Host.Outcome State Fault Refusal :=
  .next (issue n c s fun k u s =>
    let dst := (u.rg d).toNat
    let src := (u.rg a).toNat
    let cnt := (u.rg b).toNat
    if cnt = 0 ∨ 256 < cnt ∨ storeOk dst (64 * cnt) 64 = false ∨ src % 64 ≠ 0
        ∨ channelOk s n.val c.unit.val src cnt ((unitLaunch s k).elim 0 (·.ctx)) .rd = false then
      unitBound s k (channelOk s n.val c.unit.val src (min cnt 256) ((unitLaunch s k).elim 0 (·.ctx)) .rd)
    else if u.storeBusy dst (64 * cnt) then s
    else s.setUnit k { u with reads := u.reads ++ [(⟨dst, src, cnt⟩ : CmIn)], pc := u.pc + 1 })

/-- Outcome and bytes of a line that a unit reads, with the generation of the mirror in the stack logic die (R326, R327). -/
def unitLineSt (s : State) (l : Nat) : LineSt :=
  let m := s.lineMeta l
  if m.ue then .ue else if m.gen ≠ (s.mirror.getD (l / 32768) (0, 0)).1 then .ok else if m.poison then .poison else .ok

def unitLineData (s : State) (l : Nat) : List Byte :=
  let m := s.lineMeta l
  if m.ue = false ∧ m.gen ≠ (s.mirror.getD (l / 32768) (0, 0)).1 then List.replicate 64 0 else s.dramBytes l

/-- A unit reads its own pseudo-channel: a line of a hole, a retired region or an unserved stack gives BOUND (R273). -/
def unitHole (s : State) (a : Nat) : Bool := match s.region a with | .capacity _ => false | _ => true

/-- A unit reads a line from DRAM, whatever a shared cache holds, with what its decoder meets: what is delivered, and the state. The
controller rewrites a corrected line as a host-side write, that of a leased line at the next boundary (R326, R328, R337).
[DEDUCED, log 48] -/
def unitRead (s : State) (a : Nat) (x : LineFault) : (LineSt × List Byte) × State :=
  let l := a / 64
  let s1 := scrubRead s a x
  let got := (unitLineSt s1 l, unitLineData s1 l)
  if x = .none ∨ s.leaseHolds a = false ∨ (s1.lineMeta l).ue = true ∨ s1.codeWord l = s.codeWord l then (got, s1)
  else (got, holdIn (s1.holdWord l (s.codeWord l)) (State.unitAt a) (.rewrite l (s.codeWord l) (s1.codeWord l)))

/-- CM_IN_DATA: the lines of the oldest cm.in arrive, each with what its decoder meets (R326, R327, R346): an unreadable line aborts
with POISON, and one retired meanwhile with BOUND. While the stack is quiesced its accesses wait (R340). -/
def execCmInData (n : StackId) (c : Fin 32) (xs : List LineFault) (s : State) : Host.Outcome State Fault Refusal :=
  let k := State.unitKey n.val c.val
  let u := s.unit k
  let ctx := (unitLaunch s k).map fun l => s.ctxId l.ctx
  .next (match u.reads with
    | [] => s
    | r :: rest =>
      let addr (i : Nat) : Nat := deviceAddr n.val c.val (r.addr + 64 * i)
      if s.quiesced (capBase n.val) then s
      else if (List.range r.count).any fun i => unitHole s (addr i) then
        abortHere (s.accessRecord (n.val / 4) (addr 0) St.bound 1 ctx) k St.bound false
      else
        let (got, s1) := (List.range r.count).foldl (fun (v : List (LineSt × List Byte) × State) i =>
          let (g, t) := unitRead v.2 (addr i) (xs.getD i .none)
          (v.1 ++ [g], t)) ([], s)
        if got.any fun g => g.1 != .ok then
          abortHere ((List.range r.count).foldl (fun s i => s.readRecords (n.val / 4) (addr i) 64 ctx 2) s1) k St.poison false
        else
          s1.setUnit k (got.zipIdx.foldl (fun u g => u.writeStore (r.store + 64 * g.2) g.1.2) { u with reads := rest }))

/-- A granule range of a lease covers a line. -/
def leasedLine (u : CruUnit) (l : Nat) : Bool :=
  u.leases.vals.any fun g => decide (g.1 ≤ l / 0x1000) && decide (l / 0x1000 < g.1 + g.2)

def execCmOut (n : StackId) (c : UnitAt) (d a b : BitVec 4) (s : State) : Host.Outcome State Fault Refusal :=
  .next (issue n c s fun k u s =>
    let dst := (u.rg d).toNat
    let src := (u.rg a).toNat
    let cnt := (u.rg b).toNat
    let addr (i : Nat) : Nat := deviceAddr n.val c.unit.val (dst + 64 * i)
    let ctx := (unitLaunch s k).map fun l => s.ctxId l.ctx
    -- a unit writes whole lines only (R328)
    if cnt = 0 ∨ 256 < cnt ∨ storeOk src (64 * cnt) 1 = false ∨ dst % 64 ≠ 0
        ∨ ((List.range cnt).all fun i => leasedLine u (dst + 64 * i)) = false
        ∨ channelOk s n.val c.unit.val dst cnt ((unitLaunch s k).elim 0 (·.ctx)) .wr = false then
      unitBound s k (channelOk s n.val c.unit.val dst (min cnt 256) ((unitLaunch s k).elim 0 (·.ctx)) .wr)
    else if u.storeBusy src (64 * cnt) = true ∨ s.quiesced (capBase n.val) = true then s
    else if (List.range cnt).any fun i => unitHole s (addr i) then
      abortHere (s.accessRecord (n.val / 4) (addr 0) St.bound 1 ctx) k St.bound false
    else
      (List.range cnt).foldl (fun s i => s.writeBytes (addr i) (u.readStore (src + 64 * i) 64))
        (s.setUnit k { u with pc := u.pc + 1 }))

/-- Every cached copy of the lines of a granule range is written back and invalidated. -/
def flushGranules (s : State) (n c g cnt : Nat) : State :=
  let inside (l : Nat) : Bool :=
    let (m, ch, gr) := State.granuleOf (64 * l)
    m == n && ch == c && decide (g ≤ gr) && decide (gr < g + cnt)
  s.evictAll (s.cache.filter fun x => inside x.line)

/-- A host-side access to a granule range is in flight: it completes before the lease retires (R334). -/
def hostInFlight (s : State) (n c g cnt : Nat) : Bool :=
  s.reqs.vals.any fun r =>
    let (m, ch, gr) := State.granuleOf r.addr
    r.dest == .local && !r.done && !r.arbiter && (match s.region r.addr with | .capacity _ => true | _ => false)
      && m == n && ch == c && decide (g ≤ gr) && decide (gr < g + cnt)

/-- A lease that retires after the limit has passed ends at once (R338). [DEDUCED, log 50] -/
def execLease (n : StackId) (c : UnitAt) (a b : BitVec 4) (slot : BitVec 2) (s : State) :
    Host.Outcome State Fault Refusal :=
  .next (issue n c s fun k u s =>
    let l := (u.rg a).toNat
    let cnt := (u.rg b).toNat
    if l % 0x1000 ≠ 0 ∨ cnt = 0 ∨ 8192 < cnt ∨ 0x80000000 < l + 0x1000 * cnt then abortHere s k St.bound false
    else if hostInFlight s n.val c.unit.val (l / 0x1000) cnt then s
    else
      let leases := if u.leaseExpired then u.leases else u.leases.set slot.toNat (l / 0x1000, cnt)
      ((flushGranules s n.val c.unit.val (l / 0x1000) cnt).setUnit k { u with leases := leases, pc := u.pc + 1 }).showUnit k)

/-- qend: the quantum ends, and the unit waits for its boundary (R336). -/
def execQend (n : StackId) (c : UnitAt) (s : State) : Host.Outcome State Fault Refusal :=
  .next (unitStep n c s fun u => { u with st := .boundary })

/-- QUANTUM_BOUNDARY (R336 to R338): the unit stops issuing, and while a read of its is in flight, or its stack is quiesced, the boundary
waits. Then the arbiter performs the waiting host-side accesses, and the next quantum begins, unless the lease limit has passed or the
memory key has been erased. The
accesses that the end of a stopped unit's leases has left waiting are performed too (R340). [DEDUCED, log 50] -/
def execQuantumBoundary (n : StackId) (c : Fin 32) (s : State) : Host.Outcome State Fault Refusal :=
  let k := State.unitKey n.val c.val
  let u := s.unit k
  .next (if s.quiesced (capBase n.val) then s
    else if u.st = .run ∨ u.st = .boundary then
      if u.reads ≠ [] then s.setUnit k { u with st := .boundary }
      else if u.leaseExpired then abortHere s k St.timeout false
      -- the key of the partition has been erased (R476)
      else if (s.fld R.secKeystat F.secKeystat_mem_valid).testBit (n.val / 4) = false then abortHere s k St.cancelled false
      else
        let s1 := performHeld s k
        let v := s1.unit k
        -- an access may have ended the program
        if v.st = .run ∨ v.st = .boundary then s1.setUnit k { v with st := .run } else s1
    else performHeld s k)

/-- LEASE_LIMIT_EXPIRE: lease_max has passed since the first lease retired: the leases end, and the accesses that waited are performed;
the program aborts at its next boundary (R338, R340). -/
def execLeaseLimitExpire (n : StackId) (c : Fin 32) (s : State) : Host.Outcome State Fault Refusal :=
  let k := State.unitKey n.val c.val
  let u := s.unit k
  .next (if (u.st = .run ∨ u.st = .boundary) ∧ u.leases.rows ≠ [] then
      performHeld ((s.setUnit k { u with leaseExpired := true, leases := SMap.empty }).showUnit k) k
    else s)

/-- end: waits until every instruction has retired and every write is performed, then ends the leases (R342). -/
def execCruEnd (n : StackId) (c : UnitAt) (s : State) : Host.Outcome State Fault Refusal :=
  .next (issue n c s fun k u s =>
    if u.reads = [] ∧ u.bus = [] then
      performHeld ((s.setUnit k { u with st := .ended, leases := SMap.empty }).showUnit k) k
    else s)

/-! ### The shared bus (R344) -/

def execBusPut (n : StackId) (c : UnitAt) (d a b : BitVec 4) (s : State) : Host.Outcome State Fault Refusal :=
  .next (issue n c s fun k u s =>
    let dst := (u.rg d).toNat % 65536
    let tgt := bitsOf (u.rg d).toNat 20 16
    let src := (u.rg a).toNat
    let cnt := (u.rg b).toNat
    if cnt = 0 ∨ 64 < cnt ∨ storeOk src (64 * cnt) 1 = false ∨ storeOk dst (64 * cnt) 1 = false
        ∨ ((unitLaunch s k).elim false fun l => l.mask.testBit tgt) = false then abortHere s k St.bound false
    else if u.storeBusy src (64 * cnt) then s
    else s.setUnit k { u with pc := u.pc + 1, bus := u.bus ++ (List.range cnt).map fun i =>
      (⟨tgt, dst + 64 * i, u.readStore (src + 64 * i) 64⟩ : BusLine) })

/-- The shared bus serves unit `c` of a launch next: no unit that has lines to send comes before it in the round from the one served
last. -/
def busServes (s : State) (x : Launch) (c : Nat) : Bool :=
  let place (j : Nat) : Nat := (j + 32 - (x.busTurn + 1)) % 32
  (List.range 32).all fun j =>
    !(x.mask.testBit j) || (s.unit (State.unitKey x.stack j)).bus.isEmpty || decide (place c ≤ place j)

/-- BUS_LINE_RECEIVE: the oldest line that unit `c` sent reaches its unit, in the unit's turn. -/
def execBusLineReceive (n : StackId) (c : Fin 32) (s : State) : Host.Outcome State Fault Refusal :=
  let k := State.unitKey n.val c.val
  let u := s.unit k
  .next (match u.bus, unitLaunch s k with
    | x :: rest, some l =>
      if busServes s l c.val = false then s
      else
        let s1 := { s.setUnit k { u with bus := rest } with launches := s.launches.set u.launch { l with busTurn := c.val } }
        let kt := State.unitKey n.val x.unit
        let v := s1.unit kt
        s1.setUnit kt { v.writeStore x.store x.bytes with received := v.received + 1 }
    | _, _ => s)

/-- bus.wait: held at issue until the received-line count is at least a. -/
def execBusWait (n : StackId) (c : UnitAt) (a : BitVec 4) (s : State) : Host.Outcome State Fault Refusal :=
  .next (issue n c s fun k u s => if (u.rg a).toNat ≤ u.received then s.setUnit k { u with pc := u.pc + 1 } else s)

/-! ### Dot products (R343) -/

/-- Formats that the dot-product unit takes. -/
def dotFmtOk (w i : BitVec 3) : Bool := w != 5 && w != 7 && i != 5 && i != 7 && ((w == 6) == (i == 6))

def execCdSet (n : StackId) (c : UnitAt) (acc : BitVec 3) (wfmt ifmt : BitVec 3) (s : State) :
    Host.Outcome State Fault Refusal :=
  .next (issue n c s fun k u s =>
    if dotFmtOk wfmt ifmt = false then abortHere s k St.bound false
    else s.setUnit k { u with accs := u.accs.set acc.toNat ⟨wfmt, ifmt, []⟩, pc := u.pc + 1 })

def accOf (u : CruUnit) (acc : BitVec 3) : AccSet := u.accs.getD acc.toNat ⟨0, 0, []⟩

/-- cd.step: the products of a line and a broadcast element enter the column sums; they are kept exactly, as the terms. -/
def execCdStep (n : StackId) (c : UnitAt) (acc : BitVec 3) (a b : BitVec 4) (s : State) :
    Host.Outcome State Fault Refusal :=
  .next (unitStoreStep n c s (fun u => [((u.rg a).toNat, 64, 1), ((u.rg b).toNat, 1, 1)]) fun u =>
    let x := accOf u acc
    let y := { x with steps := (u.readStore (u.rg a).toNat 64, u.readByte (u.rg b).toNat) :: x.steps }
    { u with accs := u.accs.set acc.toNat y })

/-- Result of column `n` of an accumulator set: the block results of its 32 terms with the scales (R127, R343). -/
def dotColumn (x : AccSet) (init : Bool) (old : W32) (n : Nat) (sa sw : Nat × Nat) : W32 :=
  let terms := x.steps.reverse
  let lo (v : Nat) : Nat := v % 16
  let el (f : Nat → Nat) : List Nat × List Nat :=
    (terms.map fun t => f t.2.toNat, terms.map fun t => f (byteOf t.1 n))
  if x.wfmt = 6 then
    let (a0, w0) := el lo
    let (a1, w1) := el (· / 16)
    accEntry x.ifmt x.wfmt init old (a0 ++ a1) (w0 ++ w1) sa sw
  else
    let (a0, w0) := el id
    accEntry x.ifmt x.wfmt init old a0 w0 sa sw

def execCdFin (n : StackId) (c : UnitAt) (acc : BitVec 3) (a b d : BitVec 4) (init : Bool) (s : State) :
    Host.Outcome State Fault Refusal :=
  .next (issue n c s fun k u s =>
    let x := accOf u acc
    let out := (u.rg a).toNat
    let sc := (u.rg b).toNat
    let sa := (u.rg d).toNat
    let fp4 := x.wfmt == 6
    if x.steps.length ≠ 32 ∨ storeOk out 256 1 = false ∨ storeOk sc (if fp4 then 128 else 64) 1 = false
        ∨ storeOk sa (if fp4 then 2 else 1) 1 = false then abortHere s k St.bound false
    else if u.storeBusy out 256 ∨ u.storeBusy sc (if fp4 then 128 else 64) = true
        ∨ u.storeBusy sa (if fp4 then 2 else 1) = true then s
    else
      let col (i : Nat) : W32 :=
        dotColumn x init (BitVec.ofNat 32 (leVal (u.readStore (out + 4 * i) 4))) i
          ((u.readByte sa).toNat, (u.readByte (sa + 1)).toNat)
          ((u.readByte (sc + i)).toNat, (u.readByte (sc + 64 + i)).toNat)
      let u1 := u.writeStore out ((List.range 64).flatMap fun i => leBytes 4 (col i).toNat)
      s.setUnit k { u1 with accs := u1.accs.set acc.toNat { x with steps := [] }, pc := u.pc + 1 })

/-! ### Lane instructions (R342) -/

def flane (x : BitVec 512) (i : Nat) : W32 := x.extractLsb' (32 * i) 32

def flanes (f : Nat → W32) : BitVec 512 :=
  BitVec.ofNat 512 (((List.range 16).map f).foldr (fun x acc => x.toNat + 2 ^ 32 * acc) 0)

def cvLane (op : CvOp) (a b c : W32) : W32 :=
  match op with
  | .add => fadd a b
  | .sub => fsub a b
  | .mul => fmul a b
  | .fma => fma a b c
  | .max => fmax a b

def execCvArith (n : StackId) (c : UnitAt) (op : CvOp) (fd fa fb fc : BitVec 4) (s : State) :
    Host.Outcome State Fault Refusal :=
  .next (unitStep n c s fun u => u.wf fd (flanes fun i => cvLane op (flane (u.rf fa) i) (flane (u.rf fb) i) (flane (u.rf fc) i)))

def execCvExp2 (n : StackId) (c : UnitAt) (fd fa : BitVec 4) (s : State) : Host.Outcome State Fault Refusal :=
  .next (unitStep n c s fun u => u.wf fd (flanes fun i => Fp.exp2 (flane (u.rf fa) i)))

/-- Maximum over the lanes, taken from lane 0 upward. -/
def laneMax (x : BitVec 512) : W32 := (List.range 15).foldl (fun m i => fmax m (flane x (i + 1))) (flane x 0)

def execCvRmax (n : StackId) (c : UnitAt) (fd fa : BitVec 4) (s : State) : Host.Outcome State Fault Refusal :=
  .next (unitStep n c s fun u => u.wf fd (flanes fun _ => laneMax (u.rf fa)))

def execCvBcast (n : StackId) (c : UnitAt) (fd fa lane : BitVec 4) (s : State) : Host.Outcome State Fault Refusal :=
  .next (unitStep n c s fun u => u.wf fd (flanes fun _ => flane (u.rf fa) lane.toNat))

/-- `n` FP32 values at a store address. -/
def storeFloats (u : CruUnit) (a n : Nat) : List W32 :=
  (List.range n).map fun i => BitVec.ofNat 32 (leVal (u.readStore (a + 4 * i) 4))

/-- An instruction with an operand that it does not take aborts the program with BOUND (R346). -/
def unitBad (n : StackId) (c : UnitAt) (s : State) : State := issue n c s fun k _ s => abortHere s k St.bound false

def execCvSum (n : StackId) (c : UnitAt) (fd a b : BitVec 4) (s : State) : Host.Outcome State Fault Refusal :=
  let cnt := ((s.unit (State.unitKey n.val c.unit.val)).rg b).toNat
  .next (if cnt = 0 ∨ 4096 < cnt then unitBad n c s
    else unitStoreStep n c s (fun u => [((u.rg a).toNat, 4 * cnt, 1)]) fun u =>
      u.wf fd (flanes fun _ => canonSum (storeFloats u (u.rg a).toNat cnt)))

/-- Element codes put in the store: one per byte, or an FP4 code in one nibble of each byte. -/
def putCodes (u : CruUnit) (a : Nat) (fmt : BitVec 3) (h : Bool) (l : List Nat) : CruUnit :=
  l.zipIdx.foldl (fun u x =>
    let old := (u.readByte (a + x.2)).toNat
    u.writeByte (a + x.2) (BitVec.ofNat 8 (if fmt = 6 then (if h then old % 16 + x.1 * 16 else old / 16 * 16 + x.1 % 16)
      else x.1))) u

/-- Formats of an MX block: codes 0b101 and 0b111 are reserved here as in R177. -/
def blockFmtOk (fmt : BitVec 3) : Bool := fmt != 5 && fmt != 7

def execCvCvt (n : StackId) (c : UnitAt) (d a b : BitVec 4) (fmt : BitVec 3) (h : Bool) (s : State) :
    Host.Outcome State Fault Refusal :=
  .next (if blockFmtOk fmt = false then unitBad n c s
    else unitStoreStep n c s
      (fun u => [((u.rg a).toNat, 128, 1), ((u.rg d).toNat, 32, 1), ((u.rg b).toNat, 1, 1)]) fun u =>
      let r := cvtBlock fmt none (storeFloats u (u.rg a).toNat 32)
      (putCodes u (u.rg d).toNat fmt h r.2).writeByte (u.rg b).toNat (BitVec.ofNat 8 r.1))

def execCvUnpk (n : StackId) (c : UnitAt) (d a b : BitVec 4) (fmt : BitVec 3) (h : Bool) (s : State) :
    Host.Outcome State Fault Refusal :=
  .next (if blockFmtOk fmt = false then unitBad n c s
    else unitStoreStep n c s
      (fun u => [((u.rg a).toNat, 32, 1), ((u.rg d).toNat, 128, 1), ((u.rg b).toNat, 1, 1)]) fun u =>
      let code (x : Byte) : Nat := if fmt = 6 then (if h then x.toNat / 16 else x.toNat % 16) else x.toNat
      let sc := (u.readByte (u.rg b).toNat).toNat
      u.writeStore (u.rg d).toNat ((u.readStore (u.rg a).toNat 32).flatMap fun x =>
        leBytes 4 (mxToF32 fmt (code x) sc).bits.toNat))

/-! ### Reserved opcodes (R10, R342, R346) -/

/-- Bits of a unit instruction that its operation does not use (R341, R342). -/
def unitUnused (o : Nat) : Nat :=
  let field (hi lo : Nat) : Nat := 2 ^ (hi + 1) - 2 ^ lo
  if o = 0 ∨ o = 0x18 ∨ o = 0x19 then field 25 0
  else if o ≤ 0x08 ∨ o = 0x15 ∨ o = 0x16 ∨ o = 0x1A ∨ o = 0x30 then field 13 0
  else if o = 0x0A ∨ o = 0x0B then field 21 18
  else if o = 0x10 then field 25 18
  else if o = 0x17 then field 25 22 + field 11 0
  else if o = 0x1B then field 25 22 + field 17 0
  else if o = 0x20 then field 22 10 + field 3 0
  else if o = 0x21 then field 14 0
  else if o = 0x22 then field 9 0
  else if o = 0x2B ∨ o = 0x31 ∨ o = 0x32 then field 9 0
  else if 0x28 ≤ o ∧ o ≤ 0x2C then field 13 0
  else if o = 0x2D ∨ o = 0x2E then field 17 0
  else if o = 0x2F then field 17 14 + field 9 0
  else 0

/-- A unit instruction with a reserved opcode, or with a field that it does not use and that is not zero. -/
def unitWordBad (w : BitVec 32) : Bool :=
  let o := bitsOf w.toNat 31 26
  (decide (0x1C ≤ o) && decide (o ≤ 0x1F)) || (decide (0x23 ≤ o) && decide (o ≤ 0x27)) || decide (0x33 ≤ o)
    || w.toNat &&& unitUnused o != 0

/-- A decoded slot word of a bundle; an all-zero slot beside others adds nothing to it (R155). -/
def slotWord (t : Nat) (more : Bool) (op : TileOp) (s : State) : State :=
  let T := s.tile t
  if op = .nop ∧ T.asm ≠ [] then (if more = true ∨ issueBlocked s t T = true then s else tryIssue s t)
  else slotStep t more op s

/-- The instruction that a unit word picks by its opcode, with the fields of its format (R341, R342). -/
def unitWord (n : StackId) (c : UnitAt) (w : W32) (s : State) : Host.Outcome State Fault Refusal :=
  let d : BitVec 4 := w.extractLsb' 22 4
  let a : BitVec 4 := w.extractLsb' 18 4
  let b : BitVec 4 := w.extractLsb' 14 4
  let fc : BitVec 4 := w.extractLsb' 10 4
  let imm : BitVec 18 := w.extractLsb' 0 18
  let acc : BitVec 3 := w.extractLsb' 23 3
  let ka : BitVec 4 := w.extractLsb' 19 4
  let kb : BitVec 4 := w.extractLsb' 15 4
  let fmt : BitVec 3 := w.extractLsb' 11 3
  let alu (op : CruAluOp) := execCruAlu n c op d a b s
  let br (x : CruCond) := execCruBranch n c x d a imm s
  let cv (op : CvOp) := execCvArith n c op d a b fc s
  match bitsOf w.toNat 31 26 with
  | 0x00 => execCruNop n c s
  | 0x01 => alu .add | 0x02 => alu .sub | 0x03 => alu .and | 0x04 => alu .or | 0x05 => alu .xor | 0x06 => alu .shl
  | 0x07 => alu .shr | 0x08 => alu .mul
  | 0x09 => execCruAddi n c d a imm s
  | 0x0A => execCruLi n c d imm s
  | 0x0B => execCruLui n c d imm s
  | 0x0C => br .eq | 0x0D => br .ne | 0x0E => br .lt | 0x0F => br .ltu
  | 0x10 => execCruJmp n c imm s
  | 0x11 => execLdS n c d a imm s
  | 0x12 => execStS n c d a imm s
  | 0x13 => execFld n c d a imm s
  | 0x14 => execFst n c d a imm s
  | 0x15 => execCmIn n c d a b s
  | 0x16 => execCmOut n c d a b s
  | 0x17 => execLease n c a b (w.extractLsb' 12 2) s
  | 0x18 => execQend n c s
  | 0x19 => execCruEnd n c s
  | 0x1A => execBusPut n c d a b s
  | 0x1B => execBusWait n c a s
  | 0x20 => execCdSet n c acc (w.extractLsb' 7 3) (w.extractLsb' 4 3) s
  | 0x21 => execCdStep n c acc ka kb s
  | 0x22 => execCdFin n c acc ka kb (w.extractLsb' 11 4) (w.getLsbD 10) s
  | 0x28 => cv .add | 0x29 => cv .sub | 0x2A => cv .mul | 0x2B => cv .fma | 0x2C => cv .max
  | 0x2D => execCvExp2 n c d a s
  | 0x2E => execCvRmax n c d a s
  | 0x2F => execCvBcast n c d a fc s
  | 0x30 => execCvSum n c d a b s
  | 0x31 => execCvCvt n c d a b fmt (w.getLsbD 10) s
  | 0x32 => execCvUnpk n c d a b fmt (w.getLsbD 10) s
  | _ => .next s

/-- RESERVED_OPCODE: a raw slot word or unit word reaches issue. A reserved one raises ILLOP in a tile slot and aborts the
program with BOUND in a unit; any other is the operation that it encodes. [DESIGN CHOICE, log 125] -/
def execReservedOpcode (x : OpTarget) (w : BitVec 32) (s : State) : Host.Outcome State Fault Refusal :=
  match x with
  | .tile t more sl =>
    .next (slotWord t.val more (decodeSlot sl w) s)
  | .unit n c =>
    if unitWordBad w then .next (unitBad n c s) else unitWord n c w s

/-! ### Launches (R330 to R333, R346) -/

/-- The fields of a launch record at an address. -/
def readLaunch (s : State) (c p a : Nat) : Launch :=
  let w (i : Nat) : Nat := s.load (a + 8 * i) 8
  { ctx := c, part := p, record := a, stack := bitsOf (w 0) 20 16, mask := w 0 / 2 ^ 32, image := bitsOf (w 1) 43 0,
    count := bitsOf (w 1) 63 52 + 1, args := bitsOf (w 2) 43 0, argLines := bitsOf (w 2) 58 52,
    handle := BitVec.ofNat 64 (w 3), amount := bitsOf (w 4) 31 0, param := BitVec.ofNat 64 (w 5), started := false,
    failures := 0, busTurn := 31 }

def inAnyWindow (s : State) (c a n : Nat) (p : Perm) : Bool := (List.range 16).any fun w => s.winOk c w a n p

/-- The checks of R330 on a record. -/
def launchOk (s : State) (x : Launch) : Bool :=
  let w (i : Nat) : Nat := s.load (x.record + 8 * i) 8
  let budget := bitsOf (w 4) 51 32
  bitsOf (w 0) 15 0 == 1 && bitsOf (w 0) 31 21 == 0 && x.stack / 4 == x.part && s.stackOn x.stack && x.mask != 0
    && bitsOf (w 1) 51 44 == 0 && x.image % 64 == 0 && inAnyWindow s x.ctx x.image (4 * x.count) .rd
    && bitsOf (w 2) 51 44 == 0 && bitsOf (w 2) 63 59 == 0 && x.args % 64 == 0 && decide (x.argLines ≤ 64)
    && (x.argLines == 0 || inAnyWindow s x.ctx x.args (64 * x.argLines) .rd)
    && s.handleOk x.ctx x.handle && decide (1 ≤ budget) && decide (budget ≤ 1000000) && bitsOf (w 4) 63 52 == 0 && w 7 == 0
    && (List.range 32).all fun c => !(x.mask.testBit c) || !(s.unit (State.unitKey x.stack c)).disabled

/-- The status word of a launch record (R330). -/
def launchStatus (s : State) (x : Launch) (status reruns failed : Nat) : State :=
  s.store (x.record + 0x30) 8 (status + reruns * 2 ^ 8 + failed * 2 ^ 16)

/-- A launch that is not started: its record shows BOUND, completion is signalled, and a revival follows. An image outside the windows of
a secure context raises alarm source 1 (R330, R459). -/
def refuseLaunch (s : State) (x : Launch) : State :=
  let s1 := launchStatus s x St.bound 0 0
  let inWin := (List.range 16).all fun w => s.winOk x.ctx w x.image (4 * x.count) .rd || !(s.winOk x.ctx w x.image 1 .rd)
  let s2 := if s.handleOk x.ctx x.handle then s1.engineSignal x.part x.ctx x.handle (BitVec.ofNat 64 x.amount) else s1
  (if inWin && inAnyWindow s x.ctx x.image (4 * x.count) .rd then s2 else s2.windowViolation x.ctx).startRevival x.ctx 0xA

/-- LAUNCH_RECORD_READ: the doorbell shows a record that the dispatcher has not read; one that fails its checks gets status
BOUND and its completion signalled. -/
def execLaunchRecordRead (c : CtxId) (p : PartId) (s : State) : Host.Outcome State Fault Refusal :=
  .next (match (s.ctxs.get? c.val).bind fun x => (x.rings.get? p.val).bind fun r => r.launch.map fun d => (r, d) with
    | none => s
    | some (r, d) =>
      if (s.obj (State.objKey p.val d.doorbell)).toNat ≤ r.launched ∨ s.issueStopped c.val = true then s
      else
        let x := readLaunch s c.val p.val (d.base + 64 * (r.launched % 2 ^ d.k))
        let s1 := s.updCtx c.val fun y => { y with rings := y.rings.set p.val { r with launched := r.launched + 1 } }
        if launchOk s x then
          { s1 with launches := s1.launches.set s1.nextLaunch x, nextLaunch := s1.nextLaunch + 1 }
        else refuseLaunch s1 x)

def maskUnits (x : Launch) : List Nat := ((List.range 32).filter x.mask.testBit).map (State.unitKey x.stack ·)

/-- A unit at instruction 0 of a launch, with the program image in its instruction memory unless it lies there already (R331 steps 2
and 3). [DEDUCED, log 11] -/
def freshUnit (s : State) (i : Nat) (x : Launch) (k : Nat) : CruUnit :=
  let u := s.unit k
  let u0 : CruUnit :=
    { u with imem := if u.image = (x.image, x.count) then u.imem else
               (List.range x.count).map fun j => BitVec.ofNat 32 (s.load (x.image + 4 * j) 4),
             image := (x.image, x.count), st := .run, launch := i, pc := 0, f := SMap.empty, accs := SMap.empty, leases := SMap.empty, received := 0,
             reads := [], bus := [], leaseExpired := false, pass := false,
             g := ⟨[(1, BitVec.ofNat 32 (k % 32)), (2, x.param.extractLsb' 0 32), (3, x.param.extractLsb' 32 32)]⟩ }
  u0.writeStore 0 (s.bytesAt x.args (64 * x.argLines))

/-- The home base die of a stack writes back the dirty lines of the context's ways that lie in it (R331 step 1). -/
def State.cleanStack (s : State) (c n : Nat) : State :=
  let mine (x : CacheLine) : Bool := x.die == n / 4 && x.ctx == c && s.homeDie (64 * x.line) == some (n / 4)
    && decide (n = (64 * x.line - 0x20000000000) / 0x1000000000)
  let s1 := (s.cache.filter mine).foldl State.writeBack s
  { s1 with cache := s1.cache.map fun x => if mine x then { x with dirty := 0 } else x }

/-- The stack logic die holds a valid copy of the memory key of its partition (R329). -/
def keyHeld (s : State) (p : Nat) : Bool := (s.fld R.secKeystat F.secKeystat_mem_valid).testBit p

/-- A launch could start now: earlier records of its ring have started, every unit of its mask is idle, its context issues, and the
stack holds its partition's key (R329, R331). -/
def startable (s : State) (i : Nat) (x : Launch) : Bool :=
  !x.started && !(s.launches.rows.any fun jx => decide (jx.1 < i) && jx.2.ctx == x.ctx && jx.2.part == x.part && !jx.2.started)
    && ((maskUnits x).all fun k => (s.unit k).st == .idle) && !(s.issueStopped x.ctx) && keyHeld s x.part

/-- The records of different contexts are taken in round robin: none that could start comes before this one in the round from the
context started last in the partition (R331). -/
def launchServes (s : State) (x : Launch) : Bool :=
  let place (c : Nat) : Nat := (c + 512 - (s.launchTurn.getD x.part 511 + 1)) % 512
  s.launches.rows.all fun jx => !(jx.2.part == x.part && startable s jx.1 jx.2) || decide (place x.ctx ≤ place jx.2.ctx)

/-- LAUNCH_START (R331): the launch can start, and its context has its turn. One whose mask names a unit that has been disabled since
its record was read ends with BOUND (R347). -/
def execLaunchStart (l : BitVec 32) (s : State) : Host.Outcome State Fault Refusal :=
  let i := l.toNat
  .next (match s.launches.get? i with
    | none => s
    | some x =>
      if startable s i x = false ∨ launchServes s x = false then s
      else
        let s1 := { s with launchTurn := s.launchTurn.set x.part x.ctx }
        if (maskUnits x).any fun k => (s.unit k).disabled then
          refuseLaunch { s1 with launches := s.launches.erase i } x
        else
          let s2 := { s1.cleanStack x.ctx x.stack with launches := s.launches.set i { x with started := true } }
          let s3 := (maskUnits x).foldl (fun s k => (s.setUnit k (freshUnit s i x k)).showUnit k) s2
          s3.bump (R.cruDisp x.part) F.cruDisp_started 1)

/-- Precedence of R333: POISON, BOUND, TIMEOUT, CANCELLED. -/
def worstStatus (l : List Nat) : Nat :=
  if l.contains St.poison then St.poison else if l.contains St.bound then St.bound
  else if l.contains St.timeout then St.timeout else if l.contains St.cancelled then St.cancelled else St.ok

def abortStatus (u : CruUnit) : Option (Nat × Bool) :=
  match u.st with | .aborted st f => some (st, f) | _ => none

/-- Units that a check caught in this run abort with POISON, to be rerun (R346). -/
def catchFaults (s : State) (x : Launch) (faults : BitVec 32) : State :=
  ((maskUnits x).filter fun k => faults.getLsbD (k % 32)).foldl (fun s k =>
    match (s.unit k).st with
    | .idle => s
    | .aborted _ _ => s
    | _ => abortHere s k St.poison true) s

/-- A unit that failed a third time is marked failed and gets an engine reset. -/
def failUnit (s : State) (k : Nat) : State :=
  let r := R.cruFault (k / 32 / 4) (k / 32 % 4)
  (s.setFld r F.cruFault_failed (setBitsOf (s.fld r F.cruFault_failed) (k % 32) (k % 32) 1)).startEngineReset
    (k / 128) 5 k 8

/-- LAUNCH_END (R333, R346): every unit has ended or aborted. Units with a hardware fault, among them those in `faults`, are
rerun at most twice, once the stack has its key again (R329); otherwise the status is written and completion signalled, and a status other than OK starts a
revival. [DEDUCED, log 49 and 51] -/
def execLaunchEnd (l : BitVec 32) (faults : BitVec 32) (s : State) : Host.Outcome State Fault Refusal :=
  let i := l.toNat
  .next (match s.launches.get? i with
    | none => s
    | some x =>
      let s0 := catchFaults s x faults
      let us := maskUnits x
      let done (k : Nat) : Bool := match (s0.unit k).st with | .ended => true | .aborted _ _ => true | _ => false
      if x.started = false ∨ us.all done = false then s
      else
        let bad := us.filter fun k => (abortStatus (s0.unit k)).any (·.2)
        if bad ≠ [] ∧ x.failures < 2 ∧ keyHeld s x.part = false then s
        else if bad ≠ [] ∧ x.failures < 2 then
          let s1 := { s0 with launches := s0.launches.set i { x with failures := x.failures + 1 } }
          (bad.foldl (fun s k => (s.setUnit k (freshUnit s i x k)).showUnit k) s1).bump (R.cruDisp x.part)
            F.cruDisp_reruns bad.length
        else
          let st := worstStatus (us.filterMap fun k => (abortStatus (s0.unit k)).map (·.1))
          let failed := (us.filter fun k => (abortStatus (s0.unit k)).isSome).foldl (fun m k => m + 2 ^ (k % 32)) 0
          let s1 := launchStatus s0 x st x.failures failed
          let s2 := s1.engineSignal x.part x.ctx x.handle (BitVec.ofNat 64 x.amount)
          let s3 := bad.foldl failUnit s2
          let s4 := us.foldl (fun s k => (s.setUnit k { s.unit k with st := .idle, bus := [], reads := [] }).showUnit k) s3
          let s5 := { s4 with launches := s4.launches.erase i }
          if st = St.ok then s5 else s5.startRevival x.ctx 0xA)

/-- LAUNCH_BUDGET_EXPIRE: units that still run abort with TIMEOUT (R346). -/
def execLaunchBudgetExpire (l : BitVec 32) (s : State) : Host.Outcome State Fault Refusal :=
  .next (match s.launches.get? l.toNat with
    | none => s
    | some x =>
      if x.started then
        (maskUnits x).foldl (fun s k => match (s.unit k).st with
          | .run => abortHere s k St.timeout false
          | .boundary => abortHere s k St.timeout false
          | _ => s) s
      else s)

end Sys2Proof.Machine
end

