-- ==== Sys2Proof/Machine/TileOps.lean ====
section
/-! DEFINITION. The tile operations: one meaning for each row of the opcode table that is a slot of a tile bundle
(R162 to R218). Each is the issue of its slot; what it computes stands with its unit. -/

namespace Sys2Proof.Machine

/-- R162. -/
def execAdd (t : TileId) (more : Bool) (sd sa sb : BitVec 5) (s : State) : Host.Outcome State Fault Refusal :=
  tileSlot t more (.alu .add sd sa sb) s

/-- R162. -/
def execSub (t : TileId) (more : Bool) (sd sa sb : BitVec 5) (s : State) : Host.Outcome State Fault Refusal :=
  tileSlot t more (.alu .sub sd sa sb) s

/-- R162. -/
def execAnd (t : TileId) (more : Bool) (sd sa sb : BitVec 5) (s : State) : Host.Outcome State Fault Refusal :=
  tileSlot t more (.alu .and sd sa sb) s

/-- R162. -/
def execOr (t : TileId) (more : Bool) (sd sa sb : BitVec 5) (s : State) : Host.Outcome State Fault Refusal :=
  tileSlot t more (.alu .or sd sa sb) s

/-- R162. -/
def execXor (t : TileId) (more : Bool) (sd sa sb : BitVec 5) (s : State) : Host.Outcome State Fault Refusal :=
  tileSlot t more (.alu .xor sd sa sb) s

/-- R162. -/
def execSll (t : TileId) (more : Bool) (sd sa sb : BitVec 5) (s : State) : Host.Outcome State Fault Refusal :=
  tileSlot t more (.alu .sll sd sa sb) s

/-- R162. -/
def execSrl (t : TileId) (more : Bool) (sd sa sb : BitVec 5) (s : State) : Host.Outcome State Fault Refusal :=
  tileSlot t more (.alu .srl sd sa sb) s

/-- R162. -/
def execSra (t : TileId) (more : Bool) (sd sa sb : BitVec 5) (s : State) : Host.Outcome State Fault Refusal :=
  tileSlot t more (.alu .sra sd sa sb) s

/-- R162. -/
def execSlt (t : TileId) (more : Bool) (sd sa sb : BitVec 5) (s : State) : Host.Outcome State Fault Refusal :=
  tileSlot t more (.alu .slt sd sa sb) s

/-- R162. -/
def execSltu (t : TileId) (more : Bool) (sd sa sb : BitVec 5) (s : State) : Host.Outcome State Fault Refusal :=
  tileSlot t more (.alu .sltu sd sa sb) s

/-- R162. -/
def execMin (t : TileId) (more : Bool) (sd sa sb : BitVec 5) (s : State) : Host.Outcome State Fault Refusal :=
  tileSlot t more (.alu .min sd sa sb) s

/-- R162. -/
def execMax (t : TileId) (more : Bool) (sd sa sb : BitVec 5) (s : State) : Host.Outcome State Fault Refusal :=
  tileSlot t more (.alu .max sd sa sb) s

/-- R162. -/
def execMinu (t : TileId) (more : Bool) (sd sa sb : BitVec 5) (s : State) : Host.Outcome State Fault Refusal :=
  tileSlot t more (.alu .minu sd sa sb) s

/-- R162. -/
def execMaxu (t : TileId) (more : Bool) (sd sa sb : BitVec 5) (s : State) : Host.Outcome State Fault Refusal :=
  tileSlot t more (.alu .maxu sd sa sb) s

/-- R162. -/
def execMul (t : TileId) (more : Bool) (sd sa sb : BitVec 5) (s : State) : Host.Outcome State Fault Refusal :=
  tileSlot t more (.alu .mul sd sa sb) s

/-- R162. -/
def execMulh (t : TileId) (more : Bool) (sd sa sb : BitVec 5) (s : State) : Host.Outcome State Fault Refusal :=
  tileSlot t more (.alu .mulh sd sa sb) s

/-- R162. -/
def execMulhu (t : TileId) (more : Bool) (sd sa sb : BitVec 5) (s : State) : Host.Outcome State Fault Refusal :=
  tileSlot t more (.alu .mulhu sd sa sb) s

/-- R162. -/
def execAddi (t : TileId) (more : Bool) (sd sa : BitVec 5) (imm : BitVec 15) (s : State) : Host.Outcome State Fault Refusal :=
  tileSlot t more (.alui .addi sd sa imm) s

/-- R162. -/
def execAndi (t : TileId) (more : Bool) (sd sa : BitVec 5) (imm : BitVec 15) (s : State) : Host.Outcome State Fault Refusal :=
  tileSlot t more (.alui .andi sd sa imm) s

/-- R162. -/
def execOri (t : TileId) (more : Bool) (sd sa : BitVec 5) (imm : BitVec 15) (s : State) : Host.Outcome State Fault Refusal :=
  tileSlot t more (.alui .ori sd sa imm) s

/-- R162. -/
def execXori (t : TileId) (more : Bool) (sd sa : BitVec 5) (imm : BitVec 15) (s : State) : Host.Outcome State Fault Refusal :=
  tileSlot t more (.alui .xori sd sa imm) s

/-- R162. -/
def execSlli (t : TileId) (more : Bool) (sd sa : BitVec 5) (imm : BitVec 15) (s : State) : Host.Outcome State Fault Refusal :=
  tileSlot t more (.alui .slli sd sa imm) s

/-- R162. -/
def execSrli (t : TileId) (more : Bool) (sd sa : BitVec 5) (imm : BitVec 15) (s : State) : Host.Outcome State Fault Refusal :=
  tileSlot t more (.alui .srli sd sa imm) s

/-- R162. -/
def execSrai (t : TileId) (more : Bool) (sd sa : BitVec 5) (imm : BitVec 15) (s : State) : Host.Outcome State Fault Refusal :=
  tileSlot t more (.alui .srai sd sa imm) s

/-- R162. -/
def execSlti (t : TileId) (more : Bool) (sd sa : BitVec 5) (imm : BitVec 15) (s : State) : Host.Outcome State Fault Refusal :=
  tileSlot t more (.alui .slti sd sa imm) s

/-- R162. -/
def execSltiu (t : TileId) (more : Bool) (sd sa : BitVec 5) (imm : BitVec 15) (s : State) : Host.Outcome State Fault Refusal :=
  tileSlot t more (.alui .sltiu sd sa imm) s

/-- R162. -/
def execLi (t : TileId) (more : Bool) (sd : BitVec 5) (imm : BitVec 20) (s : State) : Host.Outcome State Fault Refusal :=
  tileSlot t more (.li sd imm) s

/-- R162. -/
def execInsh (t : TileId) (more : Bool) (sd : BitVec 5) (h : BitVec 2) (imm : BitVec 16) (s : State) : Host.Outcome State Fault Refusal :=
  tileSlot t more (.insh sd h imm) s

/-- R162. -/
def execASet (t : TileId) (more : Bool) (ad : BitVec 4) (sa : BitVec 5) (s : State) : Host.Outcome State Fault Refusal :=
  tileSlot t more (.aSet ad sa) s

/-- R162. -/
def execAGet (t : TileId) (more : Bool) (sd : BitVec 5) (aa : BitVec 4) (s : State) : Host.Outcome State Fault Refusal :=
  tileSlot t more (.aGet sd aa) s

/-- R162. -/
def execAAddi (t : TileId) (more : Bool) (ad aa : BitVec 4) (imm : BitVec 15) (s : State) : Host.Outcome State Fault Refusal :=
  tileSlot t more (.aAddi ad aa imm) s

/-- R162. -/
def execAAdd (t : TileId) (more : Bool) (ad aa : BitVec 4) (sb : BitVec 5) (s : State) : Host.Outcome State Fault Refusal :=
  tileSlot t more (.aAdd ad aa sb) s

/-- R163. -/
def execBrEq (t : TileId) (more : Bool) (sa sb : BitVec 5) (off : BitVec 15) (s : State) : Host.Outcome State Fault Refusal :=
  tileSlot t more (.br .eq sa sb off) s

/-- R163. -/
def execBrNe (t : TileId) (more : Bool) (sa sb : BitVec 5) (off : BitVec 15) (s : State) : Host.Outcome State Fault Refusal :=
  tileSlot t more (.br .ne sa sb off) s

/-- R163. -/
def execBrLt (t : TileId) (more : Bool) (sa sb : BitVec 5) (off : BitVec 15) (s : State) : Host.Outcome State Fault Refusal :=
  tileSlot t more (.br .lt sa sb off) s

/-- R163. -/
def execBrGe (t : TileId) (more : Bool) (sa sb : BitVec 5) (off : BitVec 15) (s : State) : Host.Outcome State Fault Refusal :=
  tileSlot t more (.br .ge sa sb off) s

/-- R163. -/
def execBrLtu (t : TileId) (more : Bool) (sa sb : BitVec 5) (off : BitVec 15) (s : State) : Host.Outcome State Fault Refusal :=
  tileSlot t more (.br .ltu sa sb off) s

/-- R163. -/
def execBrGeu (t : TileId) (more : Bool) (sa sb : BitVec 5) (off : BitVec 15) (s : State) : Host.Outcome State Fault Refusal :=
  tileSlot t more (.br .geu sa sb off) s

/-- R163. -/
def execBrPany (t : TileId) (more : Bool) (pa : BitVec 3) (off : BitVec 15) (s : State) : Host.Outcome State Fault Refusal :=
  tileSlot t more (.brP true pa off) s

/-- R163. -/
def execBrPnone (t : TileId) (more : Bool) (pa : BitVec 3) (off : BitVec 15) (s : State) : Host.Outcome State Fault Refusal :=
  tileSlot t more (.brP false pa off) s

/-- R163. -/
def execJmp (t : TileId) (more : Bool) (off : BitVec 25) (s : State) : Host.Outcome State Fault Refusal :=
  tileSlot t more (.jmp off) s

/-- R163. -/
def execJal (t : TileId) (more : Bool) (sd : BitVec 5) (off : BitVec 20) (s : State) : Host.Outcome State Fault Refusal :=
  tileSlot t more (.jal sd off) s

/-- R164. -/
def execJr (t : TileId) (more : Bool) (sa : BitVec 5) (s : State) : Host.Outcome State Fault Refusal :=
  tileSlot t more (.jr sa) s

/-- R166. -/
def execLoopSet (t : TileId) (more : Bool) (lc : BitVec 2) (sa : BitVec 5) (s : State) : Host.Outcome State Fault Refusal :=
  tileSlot t more (.loopSet lc sa) s

/-- R166. -/
def execLoopSeti (t : TileId) (more : Bool) (lc : BitVec 2) (imm : BitVec 23) (s : State) : Host.Outcome State Fault Refusal :=
  tileSlot t more (.loopSeti lc imm) s

/-- R166. -/
def execLoopBr (t : TileId) (more : Bool) (lc : BitVec 2) (off : BitVec 23) (s : State) : Host.Outcome State Fault Refusal :=
  tileSlot t more (.loopBr lc off) s

/-- R162. -/
def execLoopGet (t : TileId) (more : Bool) (sd : BitVec 5) (lc : BitVec 2) (s : State) : Host.Outcome State Fault Refusal :=
  tileSlot t more (.loopGet sd lc) s

/-- R169. -/
def execRdsr (t : TileId) (more : Bool) (sd : BitVec 5) (sr : BitVec 6) (s : State) : Host.Outcome State Fault Refusal :=
  tileSlot t more (.rdsr sd sr) s

/-- R167. -/
def execStepWait (t : TileId) (more : Bool) (rev : Bool) (s : State) : Host.Outcome State Fault Refusal :=
  tileSlot t more (.stepWait rev) s

/-- R168. -/
def execFret (t : TileId) (more : Bool) (s : State) : Host.Outcome State Fault Refusal :=
  tileSlot t more (.fret) s

/-- R168. -/
def execFretReplay (t : TileId) (more : Bool) (s : State) : Host.Outcome State Fault Refusal :=
  tileSlot t more (.fretReplay) s

/-- R173. -/
def execVAdd (t : TileId) (more : Bool) (vd va vb : BitVec 5) (c : VCtl) (s : State) : Host.Outcome State Fault Refusal :=
  tileSlot t more (.vArith .add vd va vb 0 c) s

/-- R173. -/
def execVSub (t : TileId) (more : Bool) (vd va vb : BitVec 5) (c : VCtl) (s : State) : Host.Outcome State Fault Refusal :=
  tileSlot t more (.vArith .sub vd va vb 0 c) s

/-- R173. -/
def execVMul (t : TileId) (more : Bool) (vd va vb : BitVec 5) (c : VCtl) (s : State) : Host.Outcome State Fault Refusal :=
  tileSlot t more (.vArith .mul vd va vb 0 c) s

/-- R173. -/
def execVFma (t : TileId) (more : Bool) (vd va vb vc : BitVec 5) (c : VCtl) (s : State) : Host.Outcome State Fault Refusal :=
  tileSlot t more (.vArith .fma vd va vb vc c) s

/-- R173. -/
def execVFms (t : TileId) (more : Bool) (vd va vb vc : BitVec 5) (c : VCtl) (s : State) : Host.Outcome State Fault Refusal :=
  tileSlot t more (.vArith .fms vd va vb vc c) s

/-- R173. -/
def execVFnma (t : TileId) (more : Bool) (vd va vb vc : BitVec 5) (c : VCtl) (s : State) : Host.Outcome State Fault Refusal :=
  tileSlot t more (.vArith .fnma vd va vb vc c) s

/-- R173. -/
def execVMax (t : TileId) (more : Bool) (vd va vb : BitVec 5) (c : VCtl) (s : State) : Host.Outcome State Fault Refusal :=
  tileSlot t more (.vArith .max vd va vb 0 c) s

/-- R173. -/
def execVMin (t : TileId) (more : Bool) (vd va vb : BitVec 5) (c : VCtl) (s : State) : Host.Outcome State Fault Refusal :=
  tileSlot t more (.vArith .min vd va vb 0 c) s

/-- R173. -/
def execVAbs (t : TileId) (more : Bool) (vd va : BitVec 5) (c : VCtl) (s : State) : Host.Outcome State Fault Refusal :=
  tileSlot t more (.vArith .abs vd va 0 0 c) s

/-- R173. -/
def execVNeg (t : TileId) (more : Bool) (vd va : BitVec 5) (c : VCtl) (s : State) : Host.Outcome State Fault Refusal :=
  tileSlot t more (.vArith .neg vd va 0 0 c) s

/-- R174. -/
def execVCmp (t : TileId) (more : Bool) (pd : BitVec 3) (va vb : BitVec 5) (cnd : BitVec 3) (c : VCtl) (s : State) : Host.Outcome State Fault Refusal :=
  tileSlot t more (.vCmp false pd va vb cnd c) s

/-- R174. -/
def execVIcmp (t : TileId) (more : Bool) (pd : BitVec 3) (va vb : BitVec 5) (cnd : BitVec 3) (c : VCtl) (s : State) : Host.Outcome State Fault Refusal :=
  tileSlot t more (.vCmp true pd va vb cnd c) s

/-- R173. -/
def execVIadd (t : TileId) (more : Bool) (vd va vb : BitVec 5) (c : VCtl) (s : State) : Host.Outcome State Fault Refusal :=
  tileSlot t more (.vArith .iadd vd va vb 0 c) s

/-- R173. -/
def execVIsub (t : TileId) (more : Bool) (vd va vb : BitVec 5) (c : VCtl) (s : State) : Host.Outcome State Fault Refusal :=
  tileSlot t more (.vArith .isub vd va vb 0 c) s

/-- R173. -/
def execVImul (t : TileId) (more : Bool) (vd va vb : BitVec 5) (c : VCtl) (s : State) : Host.Outcome State Fault Refusal :=
  tileSlot t more (.vArith .imul vd va vb 0 c) s

/-- R173. -/
def execVImulh (t : TileId) (more : Bool) (vd va vb : BitVec 5) (c : VCtl) (s : State) : Host.Outcome State Fault Refusal :=
  tileSlot t more (.vArith .imulh vd va vb 0 c) s

/-- R173. -/
def execVIand (t : TileId) (more : Bool) (vd va vb : BitVec 5) (c : VCtl) (s : State) : Host.Outcome State Fault Refusal :=
  tileSlot t more (.vArith .iand vd va vb 0 c) s

/-- R173. -/
def execVIor (t : TileId) (more : Bool) (vd va vb : BitVec 5) (c : VCtl) (s : State) : Host.Outcome State Fault Refusal :=
  tileSlot t more (.vArith .ior vd va vb 0 c) s

/-- R173. -/
def execVIxor (t : TileId) (more : Bool) (vd va vb : BitVec 5) (c : VCtl) (s : State) : Host.Outcome State Fault Refusal :=
  tileSlot t more (.vArith .ixor vd va vb 0 c) s

/-- R173. -/
def execVIshl (t : TileId) (more : Bool) (vd va vb : BitVec 5) (c : VCtl) (s : State) : Host.Outcome State Fault Refusal :=
  tileSlot t more (.vArith .ishl vd va vb 0 c) s

/-- R173. -/
def execVIshr (t : TileId) (more : Bool) (vd va vb : BitVec 5) (c : VCtl) (s : State) : Host.Outcome State Fault Refusal :=
  tileSlot t more (.vArith .ishr vd va vb 0 c) s

/-- R173. -/
def execVIsar (t : TileId) (more : Bool) (vd va vb : BitVec 5) (c : VCtl) (s : State) : Host.Outcome State Fault Refusal :=
  tileSlot t more (.vArith .isar vd va vb 0 c) s

/-- R173. -/
def execVImax (t : TileId) (more : Bool) (vd va vb : BitVec 5) (c : VCtl) (s : State) : Host.Outcome State Fault Refusal :=
  tileSlot t more (.vArith .imax vd va vb 0 c) s

/-- R173. -/
def execVImin (t : TileId) (more : Bool) (vd va vb : BitVec 5) (c : VCtl) (s : State) : Host.Outcome State Fault Refusal :=
  tileSlot t more (.vArith .imin vd va vb 0 c) s

/-- R173. -/
def execVImac (t : TileId) (more : Bool) (vd va vb vc : BitVec 5) (c : VCtl) (s : State) : Host.Outcome State Fault Refusal :=
  tileSlot t more (.vArith .imac vd va vb vc c) s

/-- R176. -/
def execVCvt (t : TileId) (more : Bool) (vd va kind : BitVec 5) (pg : BitVec 3) (z : Bool) (s : State) : Host.Outcome State Fault Refusal :=
  tileSlot t more (.vCvt vd va kind pg z) s

/-- R177. -/
def execVCvtMx (t : TileId) (more : Bool) (vd va : BitVec 5) (fmt : BitVec 3) (pg : BitVec 3) (z : Bool) (s : State) : Host.Outcome State Fault Refusal :=
  tileSlot t more (.vCvtMx vd va fmt pg z) s

/-- R177. -/
def execVCvtMxs (t : TileId) (more : Bool) (vd va : BitVec 5) (fmt : BitVec 3) (sc : BitVec 5) (pg : BitVec 3) (z : Bool) (s : State) : Host.Outcome State Fault Refusal :=
  tileSlot t more (.vCvtMxs vd va fmt sc pg z) s

/-- R177. -/
def execVCvtMxf (t : TileId) (more : Bool) (vd va : BitVec 5) (fmt : BitVec 3) (pg : BitVec 3) (z : Bool) (s : State) : Host.Outcome State Fault Refusal :=
  tileSlot t more (.vCvtMxf vd va fmt pg z) s

/-- R178. -/
def execVExp2 (t : TileId) (more : Bool) (vd va : BitVec 5) (c : VCtl) (s : State) : Host.Outcome State Fault Refusal :=
  tileSlot t more (.vFun .exp2 vd va c) s

/-- R178. -/
def execVLog2 (t : TileId) (more : Bool) (vd va : BitVec 5) (c : VCtl) (s : State) : Host.Outcome State Fault Refusal :=
  tileSlot t more (.vFun .log2 vd va c) s

/-- R178. -/
def execVRcp (t : TileId) (more : Bool) (vd va : BitVec 5) (c : VCtl) (s : State) : Host.Outcome State Fault Refusal :=
  tileSlot t more (.vFun .rcp vd va c) s

/-- R178. -/
def execVRsqrt (t : TileId) (more : Bool) (vd va : BitVec 5) (c : VCtl) (s : State) : Host.Outcome State Fault Refusal :=
  tileSlot t more (.vFun .rsqrt vd va c) s

/-- R179. -/
def execVOsm (t : TileId) (more : Bool) (vd va vb vc : BitVec 5) (pg : BitVec 3) (z : Bool) (ml : Bool) (s : State) : Host.Outcome State Fault Refusal :=
  tileSlot t more (.vOsm vd va vb vc pg z ml) s

/-- R180. -/
def execVRsum (t : TileId) (more : Bool) (vd va : BitVec 5) (c : VCtl) (s : State) : Host.Outcome State Fault Refusal :=
  tileSlot t more (.vRed .rsum vd va c) s

/-- R180. -/
def execVRmax (t : TileId) (more : Bool) (vd va : BitVec 5) (c : VCtl) (s : State) : Host.Outcome State Fault Refusal :=
  tileSlot t more (.vRed .rmax vd va c) s

/-- R180. -/
def execVRmin (t : TileId) (more : Bool) (vd va : BitVec 5) (c : VCtl) (s : State) : Host.Outcome State Fault Refusal :=
  tileSlot t more (.vRed .rmin vd va c) s

/-- R180. -/
def execVIrsum (t : TileId) (more : Bool) (vd va : BitVec 5) (c : VCtl) (s : State) : Host.Outcome State Fault Refusal :=
  tileSlot t more (.vRed .irsum vd va c) s

/-- R180. -/
def execVScan (t : TileId) (more : Bool) (vd va : BitVec 5) (c : VCtl) (s : State) : Host.Outcome State Fault Refusal :=
  tileSlot t more (.vRed .scan vd va c) s

/-- R180. -/
def execVIscan (t : TileId) (more : Bool) (vd va : BitVec 5) (c : VCtl) (s : State) : Host.Outcome State Fault Refusal :=
  tileSlot t more (.vRed .iscan vd va c) s

/-- R181. -/
def execVTreeInit (t : TileId) (r : TreeRead) (aa : BitVec 4) (s : State) : Host.Outcome State Fault Refusal :=
  treeSlot t r (.vTreeInit aa) s

/-- R132. -/
def execVTreePush (t : TileId) (r : TreeRead) (va : BitVec 5) (aa q : BitVec 4) (i : Bool) (s : State) : Host.Outcome State Fault Refusal :=
  treeSlot t r (.vTreePush va aa q i) s

/-- R181. -/
def execVTreeFin (t : TileId) (r : TreeRead) (vd : BitVec 5) (aa : BitVec 4) (i : Bool) (s : State) : Host.Outcome State Fault Refusal :=
  treeSlot t r (.vTreeFin vd aa i) s

/-- R183. -/
def execVPerm (t : TileId) (more : Bool) (vd va vb : BitVec 5) (c : VCtl) (s : State) : Host.Outcome State Fault Refusal :=
  tileSlot t more (.vLane3 .perm vd va vb c) s

/-- R183. -/
def execVRot (t : TileId) (more : Bool) (vd va : BitVec 5) (n : BitVec 6) (c : VCtl) (s : State) : Host.Outcome State Fault Refusal :=
  tileSlot t more (.vLaneI .rot vd va n c) s

/-- R183. -/
def execVBfly (t : TileId) (more : Bool) (vd va : BitVec 5) (n : BitVec 6) (c : VCtl) (s : State) : Host.Outcome State Fault Refusal :=
  tileSlot t more (.vLaneI .bfly vd va n c) s

/-- R183. -/
def execVSel (t : TileId) (more : Bool) (vd va vb : BitVec 5) (c : VCtl) (s : State) : Host.Outcome State Fault Refusal :=
  tileSlot t more (.vLane3 .sel vd va vb c) s

/-- R183. -/
def execVBcast (t : TileId) (more : Bool) (vd sa : BitVec 5) (c : VCtl) (s : State) : Host.Outcome State Fault Refusal :=
  tileSlot t more (.vBcast vd sa c) s

/-- R183. -/
def execVBcastl (t : TileId) (more : Bool) (vd va : BitVec 5) (n : BitVec 6) (c : VCtl) (s : State) : Host.Outcome State Fault Refusal :=
  tileSlot t more (.vLaneI .bcastl vd va n c) s

/-- R183. -/
def execVIns (t : TileId) (more : Bool) (vd sa : BitVec 5) (n : BitVec 6) (c : VCtl) (s : State) : Host.Outcome State Fault Refusal :=
  tileSlot t more (.vIns vd sa n c) s

/-- R183. -/
def execVExt (t : TileId) (more : Bool) (sd va : BitVec 5) (n : BitVec 6) (c : VCtl) (s : State) : Host.Outcome State Fault Refusal :=
  tileSlot t more (.vExt sd va n c) s

/-- R183. -/
def execVIota (t : TileId) (more : Bool) (vd : BitVec 5) (n : BitVec 6) (c : VCtl) (s : State) : Host.Outcome State Fault Refusal :=
  tileSlot t more (.vIota vd n c) s

/-- R183. -/
def execVMov (t : TileId) (more : Bool) (vd va : BitVec 5) (c : VCtl) (s : State) : Host.Outcome State Fault Refusal :=
  tileSlot t more (.vLane3 .mov vd va 0 c) s

/-- R184. -/
def execVPand (t : TileId) (more : Bool) (pd pa pb : BitVec 3) (s : State) : Host.Outcome State Fault Refusal :=
  tileSlot t more (.vPred .pand pd pa pb) s

/-- R184. -/
def execVPor (t : TileId) (more : Bool) (pd pa pb : BitVec 3) (s : State) : Host.Outcome State Fault Refusal :=
  tileSlot t more (.vPred .por pd pa pb) s

/-- R184. -/
def execVPxor (t : TileId) (more : Bool) (pd pa pb : BitVec 3) (s : State) : Host.Outcome State Fault Refusal :=
  tileSlot t more (.vPred .pxor pd pa pb) s

/-- R184. -/
def execVPandn (t : TileId) (more : Bool) (pd pa pb : BitVec 3) (s : State) : Host.Outcome State Fault Refusal :=
  tileSlot t more (.vPred .pandn pd pa pb) s

/-- R184. -/
def execVPs2p (t : TileId) (more : Bool) (pd : BitVec 3) (sa : BitVec 5) (s : State) : Host.Outcome State Fault Refusal :=
  tileSlot t more (.vPs2p pd sa) s

/-- R184. -/
def execVPp2s (t : TileId) (more : Bool) (sd : BitVec 5) (pa : BitVec 3) (s : State) : Host.Outcome State Fault Refusal :=
  tileSlot t more (.vPp2s sd pa) s

/-- R184. -/
def execVPcnt (t : TileId) (more : Bool) (sd : BitVec 5) (pa : BitVec 3) (s : State) : Host.Outcome State Fault Refusal :=
  tileSlot t more (.vPcnt sd pa) s

/-- R185. -/
def execVRng (t : TileId) (more : Bool) (vd sa sb : BitVec 5) (w : BitVec 2) (pg : BitVec 3) (z : Bool) (s : State) : Host.Outcome State Fault Refusal :=
  tileSlot t more (.vRng false vd sa sb w pg z) s

/-- R185. -/
def execVRngU (t : TileId) (more : Bool) (vd sa sb : BitVec 5) (w : BitVec 2) (pg : BitVec 3) (z : Bool) (s : State) : Host.Outcome State Fault Refusal :=
  tileSlot t more (.vRng true vd sa sb w pg z) s

/-- R85. -/
def execMxaWload (t : TileId) (more : Bool) (aa : BitVec 4) (wfmt : BitVec 3) (c : Bool) (s : State) : Host.Outcome State Fault Refusal :=
  tileSlot t more (.mxaWload aa wfmt c) s

/-- R91. -/
def execMxaPass (t : TileId) (more : Bool) (ai as : BitVec 4) (sr : BitVec 5) (ifmt : BitVec 3) (init c cs : Bool) (s : State) : Host.Outcome State Fault Refusal :=
  tileSlot t more (.mxaPass ai as sr ifmt init c cs) s

/-- R196. -/
def execMxaAccMv (t : TileId) (more : Bool) (vd sr : BitVec 5) (s : State) : Host.Outcome State Fault Refusal :=
  tileSlot t more (.accMv vd sr) s

/-- R96. -/
def execMxaAccSt (t : TileId) (more : Bool) (aa : BitVec 4) (sr : BitVec 5) (pub : Bool) (s : State) : Host.Outcome State Fault Refusal :=
  tileSlot t more (.accSt false aa sr pub) s

/-- R96. -/
def execMxaAccStt (t : TileId) (more : Bool) (aa : BitVec 4) (sr : BitVec 5) (pub : Bool) (s : State) : Host.Outcome State Fault Refusal :=
  tileSlot t more (.accSt true aa sr pub) s

/-- R96. -/
def execMxaAccZero (t : TileId) (more : Bool) (sr : BitVec 5) (s : State) : Host.Outcome State Fault Refusal :=
  tileSlot t more (.accZero sr) s

/-- R198. -/
def execLsLd (t : TileId) (more : Bool) (sd : BitVec 5) (aa : BitVec 4) (off : BitVec 15) (c : Bool) (s : State) : Host.Outcome State Fault Refusal :=
  tileSlot t more (.lsLd sd aa off c) s

/-- R198. -/
def execLsSt (t : TileId) (more : Bool) (sa : BitVec 5) (aa : BitVec 4) (off : BitVec 15) (pub : Bool) (s : State) : Host.Outcome State Fault Refusal :=
  tileSlot t more (.lsSt sa aa off pub) s

/-- R198. -/
def execLsVld (t : TileId) (more : Bool) (vd : BitVec 5) (aa : BitVec 4) (off : BitVec 15) (c : Bool) (s : State) : Host.Outcome State Fault Refusal :=
  tileSlot t more (.lsVld vd aa off c) s

/-- R198. -/
def execLsVst (t : TileId) (more : Bool) (va : BitVec 5) (aa : BitVec 4) (off : BitVec 15) (pub : Bool) (s : State) : Host.Outcome State Fault Refusal :=
  tileSlot t more (.lsVst va aa off pub) s

/-- R198. -/
def execLsClaim (t : TileId) (more : Bool) (aa : BitVec 4) (s : State) : Host.Outcome State Fault Refusal :=
  tileSlot t more (.lsClaim aa) s

/-- R198. -/
def execLsPublish (t : TileId) (more : Bool) (aa : BitVec 4) (s : State) : Host.Outcome State Fault Refusal :=
  tileSlot t more (.lsPublish aa) s

/-- R198. -/
def execLsRelease (t : TileId) (more : Bool) (aa : BitVec 4) (s : State) : Host.Outcome State Fault Refusal :=
  tileSlot t more (.lsRelease aa) s

/-- R198. -/
def execLsZero (t : TileId) (more : Bool) (aa : BitVec 4) (pub : Bool) (s : State) : Host.Outcome State Fault Refusal :=
  tileSlot t more (.lsZero aa pub) s

/-- R202. -/
def execMemLd (t : TileId) (more : Bool) (sd : BitVec 5) (aa : BitVec 4) (off : BitVec 14) (hint : BitVec 2) (s : State) : Host.Outcome State Fault Refusal :=
  tileSlot t more (.memLd sd aa off hint) s

/-- R202. -/
def execMemSt (t : TileId) (more : Bool) (sa : BitVec 5) (aa : BitVec 4) (off : BitVec 14) (hint : BitVec 2) (s : State) : Host.Outcome State Fault Refusal :=
  tileSlot t more (.memSt sa aa off hint) s

/-- R202. -/
def execMemPf (t : TileId) (more : Bool) (aa : BitVec 4) (off : BitVec 14) (hint : BitVec 2) (s : State) : Host.Outcome State Fault Refusal :=
  tileSlot t more (.memPf aa off hint) s

/-- R202. -/
def execMemDrop (t : TileId) (more : Bool) (aa : BitVec 4) (off : BitVec 14) (hint : BitVec 2) (s : State) : Host.Outcome State Fault Refusal :=
  tileSlot t more (.memDrop aa off hint) s

/-- R206. -/
def execMemFence (t : TileId) (more : Bool) (rel d : Bool) (s : State) : Host.Outcome State Fault Refusal :=
  tileSlot t more (.memFence rel d) s

/-- R208. -/
def execAtom (t : TileId) (more : Bool) (sd sb sc : BitVec 5) (aa : BitVec 4) (w : Bool) (op : BitVec 4) (s : State) : Host.Outcome State Fault Refusal :=
  tileSlot t more (.atom sd sb sc aa w op) s

/-- R210. -/
def execKvWalk (t : TileId) (more : Bool) (ad aa : BitVec 4) (sb sd : BitVec 5) (s : State) : Host.Outcome State Fault Refusal :=
  tileSlot t more (.kvWalk ad aa sb sd) s

/-- R212. -/
def execKvAppend (t : TileId) (more : Bool) (aa : BitVec 4) (sb : BitVec 5) (s : State) : Host.Outcome State Fault Refusal :=
  tileSlot t more (.kvAppend aa sb) s

/-- R214. -/
def execDmaPost (t : TileId) (more : Bool) (q : BitVec 3) (aa : BitVec 4) (lo : Bool) (s : State) : Host.Outcome State Fault Refusal :=
  tileSlot t more (.dmaPost q aa lo) s

/-- R214. -/
def execDmaStat (t : TileId) (more : Bool) (sd : BitVec 5) (q : BitVec 3) (s : State) : Host.Outcome State Fault Refusal :=
  tileSlot t more (.dmaStat sd q) s

/-- R214. -/
def execDmaCancel (t : TileId) (more : Bool) (q : BitVec 3) (s : State) : Host.Outcome State Fault Refusal :=
  tileSlot t more (.dmaCancel q) s

/-- R217. -/
def execSySignal (t : TileId) (more : Bool) (sa sb : BitVec 5) (rel : Bool) (s : State) : Host.Outcome State Fault Refusal :=
  tileSlot t more (.sySignal sa sb rel) s

/-- R218. -/
def execSyWait (t : TileId) (more : Bool) (sa sb : BitVec 5) (acq : Bool) (s : State) : Host.Outcome State Fault Refusal :=
  tileSlot t more (.syWait sa sb acq) s

/-- R217. -/
def execSyArm (t : TileId) (more : Bool) (sa sb : BitVec 5) (s : State) : Host.Outcome State Fault Refusal :=
  tileSlot t more (.syArm sa sb) s

/-- R217. -/
def execSyRead (t : TileId) (more : Bool) (sd sa : BitVec 5) (s : State) : Host.Outcome State Fault Refusal :=
  tileSlot t more (.syRead sd sa) s

/-- R155. -/
def execNop (t : TileId) (more : Bool) (s : State) : Host.Outcome State Fault Refusal :=
  tileSlot t more (.nop) s

end Sys2Proof.Machine
end

