-- ==== Sys2Proof/Machine/Dispatch.lean ====
section
/-! DEFINITION. The meaning of every command: one arm for each constructor of Instr. -/

namespace Sys2Proof.Machine

def exec (i : Instr) (s : State) : Host.Outcome State Fault Refusal :=
  match i with
  | .add t more sd sa sb => Sys2Proof.Machine.execAdd t more sd sa sb s
  | .sub t more sd sa sb => Sys2Proof.Machine.execSub t more sd sa sb s
  | .and t more sd sa sb => Sys2Proof.Machine.execAnd t more sd sa sb s
  | .or t more sd sa sb => Sys2Proof.Machine.execOr t more sd sa sb s
  | .xor t more sd sa sb => Sys2Proof.Machine.execXor t more sd sa sb s
  | .sll t more sd sa sb => Sys2Proof.Machine.execSll t more sd sa sb s
  | .srl t more sd sa sb => Sys2Proof.Machine.execSrl t more sd sa sb s
  | .sra t more sd sa sb => Sys2Proof.Machine.execSra t more sd sa sb s
  | .slt t more sd sa sb => Sys2Proof.Machine.execSlt t more sd sa sb s
  | .sltu t more sd sa sb => Sys2Proof.Machine.execSltu t more sd sa sb s
  | .min t more sd sa sb => Sys2Proof.Machine.execMin t more sd sa sb s
  | .max t more sd sa sb => Sys2Proof.Machine.execMax t more sd sa sb s
  | .minu t more sd sa sb => Sys2Proof.Machine.execMinu t more sd sa sb s
  | .maxu t more sd sa sb => Sys2Proof.Machine.execMaxu t more sd sa sb s
  | .mul t more sd sa sb => Sys2Proof.Machine.execMul t more sd sa sb s
  | .mulh t more sd sa sb => Sys2Proof.Machine.execMulh t more sd sa sb s
  | .mulhu t more sd sa sb => Sys2Proof.Machine.execMulhu t more sd sa sb s
  | .addi t more sd sa imm => Sys2Proof.Machine.execAddi t more sd sa imm s
  | .andi t more sd sa imm => Sys2Proof.Machine.execAndi t more sd sa imm s
  | .ori t more sd sa imm => Sys2Proof.Machine.execOri t more sd sa imm s
  | .xori t more sd sa imm => Sys2Proof.Machine.execXori t more sd sa imm s
  | .slli t more sd sa imm => Sys2Proof.Machine.execSlli t more sd sa imm s
  | .srli t more sd sa imm => Sys2Proof.Machine.execSrli t more sd sa imm s
  | .srai t more sd sa imm => Sys2Proof.Machine.execSrai t more sd sa imm s
  | .slti t more sd sa imm => Sys2Proof.Machine.execSlti t more sd sa imm s
  | .sltiu t more sd sa imm => Sys2Proof.Machine.execSltiu t more sd sa imm s
  | .li t more sd imm => Sys2Proof.Machine.execLi t more sd imm s
  | .insh t more sd h imm => Sys2Proof.Machine.execInsh t more sd h imm s
  | .aSet t more ad sa => Sys2Proof.Machine.execASet t more ad sa s
  | .aGet t more sd aa => Sys2Proof.Machine.execAGet t more sd aa s
  | .aAddi t more ad aa imm => Sys2Proof.Machine.execAAddi t more ad aa imm s
  | .aAdd t more ad aa sb => Sys2Proof.Machine.execAAdd t more ad aa sb s
  | .brEq t more sa sb off => Sys2Proof.Machine.execBrEq t more sa sb off s
  | .brNe t more sa sb off => Sys2Proof.Machine.execBrNe t more sa sb off s
  | .brLt t more sa sb off => Sys2Proof.Machine.execBrLt t more sa sb off s
  | .brGe t more sa sb off => Sys2Proof.Machine.execBrGe t more sa sb off s
  | .brLtu t more sa sb off => Sys2Proof.Machine.execBrLtu t more sa sb off s
  | .brGeu t more sa sb off => Sys2Proof.Machine.execBrGeu t more sa sb off s
  | .brPany t more pa off => Sys2Proof.Machine.execBrPany t more pa off s
  | .brPnone t more pa off => Sys2Proof.Machine.execBrPnone t more pa off s
  | .jmp t more off => Sys2Proof.Machine.execJmp t more off s
  | .jal t more sd off => Sys2Proof.Machine.execJal t more sd off s
  | .jr t more sa => Sys2Proof.Machine.execJr t more sa s
  | .loopSet t more lc sa => Sys2Proof.Machine.execLoopSet t more lc sa s
  | .loopSeti t more lc imm => Sys2Proof.Machine.execLoopSeti t more lc imm s
  | .loopBr t more lc off => Sys2Proof.Machine.execLoopBr t more lc off s
  | .loopGet t more sd lc => Sys2Proof.Machine.execLoopGet t more sd lc s
  | .rdsr t more sd sr => Sys2Proof.Machine.execRdsr t more sd sr s
  | .stepWait t more rev => Sys2Proof.Machine.execStepWait t more rev s
  | .stepWaitRetire t => Sys2Proof.Machine.execStepWaitRetire t s
  | .fret t more => Sys2Proof.Machine.execFret t more s
  | .fretReplay t more => Sys2Proof.Machine.execFretReplay t more s
  | .vAdd t more vd va vb c => Sys2Proof.Machine.execVAdd t more vd va vb c s
  | .vSub t more vd va vb c => Sys2Proof.Machine.execVSub t more vd va vb c s
  | .vMul t more vd va vb c => Sys2Proof.Machine.execVMul t more vd va vb c s
  | .vFma t more vd va vb vc c => Sys2Proof.Machine.execVFma t more vd va vb vc c s
  | .vFms t more vd va vb vc c => Sys2Proof.Machine.execVFms t more vd va vb vc c s
  | .vFnma t more vd va vb vc c => Sys2Proof.Machine.execVFnma t more vd va vb vc c s
  | .vMax t more vd va vb c => Sys2Proof.Machine.execVMax t more vd va vb c s
  | .vMin t more vd va vb c => Sys2Proof.Machine.execVMin t more vd va vb c s
  | .vAbs t more vd va c => Sys2Proof.Machine.execVAbs t more vd va c s
  | .vNeg t more vd va c => Sys2Proof.Machine.execVNeg t more vd va c s
  | .vCmp t more pd va vb cnd c => Sys2Proof.Machine.execVCmp t more pd va vb cnd c s
  | .vIcmp t more pd va vb cnd c => Sys2Proof.Machine.execVIcmp t more pd va vb cnd c s
  | .vIadd t more vd va vb c => Sys2Proof.Machine.execVIadd t more vd va vb c s
  | .vIsub t more vd va vb c => Sys2Proof.Machine.execVIsub t more vd va vb c s
  | .vImul t more vd va vb c => Sys2Proof.Machine.execVImul t more vd va vb c s
  | .vImulh t more vd va vb c => Sys2Proof.Machine.execVImulh t more vd va vb c s
  | .vIand t more vd va vb c => Sys2Proof.Machine.execVIand t more vd va vb c s
  | .vIor t more vd va vb c => Sys2Proof.Machine.execVIor t more vd va vb c s
  | .vIxor t more vd va vb c => Sys2Proof.Machine.execVIxor t more vd va vb c s
  | .vIshl t more vd va vb c => Sys2Proof.Machine.execVIshl t more vd va vb c s
  | .vIshr t more vd va vb c => Sys2Proof.Machine.execVIshr t more vd va vb c s
  | .vIsar t more vd va vb c => Sys2Proof.Machine.execVIsar t more vd va vb c s
  | .vImax t more vd va vb c => Sys2Proof.Machine.execVImax t more vd va vb c s
  | .vImin t more vd va vb c => Sys2Proof.Machine.execVImin t more vd va vb c s
  | .vImac t more vd va vb vc c => Sys2Proof.Machine.execVImac t more vd va vb vc c s
  | .vCvt t more vd va kind pg z => Sys2Proof.Machine.execVCvt t more vd va kind pg z s
  | .vCvtMx t more vd va fmt pg z => Sys2Proof.Machine.execVCvtMx t more vd va fmt pg z s
  | .vCvtMxs t more vd va fmt sc pg z => Sys2Proof.Machine.execVCvtMxs t more vd va fmt sc pg z s
  | .vCvtMxf t more vd va fmt pg z => Sys2Proof.Machine.execVCvtMxf t more vd va fmt pg z s
  | .vExp2 t more vd va c => Sys2Proof.Machine.execVExp2 t more vd va c s
  | .vLog2 t more vd va c => Sys2Proof.Machine.execVLog2 t more vd va c s
  | .vRcp t more vd va c => Sys2Proof.Machine.execVRcp t more vd va c s
  | .vRsqrt t more vd va c => Sys2Proof.Machine.execVRsqrt t more vd va c s
  | .vOsm t more vd va vb vc pg z ml => Sys2Proof.Machine.execVOsm t more vd va vb vc pg z ml s
  | .vRsum t more vd va c => Sys2Proof.Machine.execVRsum t more vd va c s
  | .vRmax t more vd va c => Sys2Proof.Machine.execVRmax t more vd va c s
  | .vRmin t more vd va c => Sys2Proof.Machine.execVRmin t more vd va c s
  | .vIrsum t more vd va c => Sys2Proof.Machine.execVIrsum t more vd va c s
  | .vScan t more vd va c => Sys2Proof.Machine.execVScan t more vd va c s
  | .vIscan t more vd va c => Sys2Proof.Machine.execVIscan t more vd va c s
  | .vTreeInit t r aa => Sys2Proof.Machine.execVTreeInit t r aa s
  | .vTreePush t r va aa q ix => Sys2Proof.Machine.execVTreePush t r va aa q ix s
  | .vTreeFin t r vd aa ix => Sys2Proof.Machine.execVTreeFin t r vd aa ix s
  | .vPerm t more vd va vb c => Sys2Proof.Machine.execVPerm t more vd va vb c s
  | .vRot t more vd va n c => Sys2Proof.Machine.execVRot t more vd va n c s
  | .vBfly t more vd va n c => Sys2Proof.Machine.execVBfly t more vd va n c s
  | .vSel t more vd va vb c => Sys2Proof.Machine.execVSel t more vd va vb c s
  | .vBcast t more vd sa c => Sys2Proof.Machine.execVBcast t more vd sa c s
  | .vBcastl t more vd va n c => Sys2Proof.Machine.execVBcastl t more vd va n c s
  | .vIns t more vd sa n c => Sys2Proof.Machine.execVIns t more vd sa n c s
  | .vExt t more sd va n c => Sys2Proof.Machine.execVExt t more sd va n c s
  | .vIota t more vd n c => Sys2Proof.Machine.execVIota t more vd n c s
  | .vMov t more vd va c => Sys2Proof.Machine.execVMov t more vd va c s
  | .vPand t more pd pa pb => Sys2Proof.Machine.execVPand t more pd pa pb s
  | .vPor t more pd pa pb => Sys2Proof.Machine.execVPor t more pd pa pb s
  | .vPxor t more pd pa pb => Sys2Proof.Machine.execVPxor t more pd pa pb s
  | .vPandn t more pd pa pb => Sys2Proof.Machine.execVPandn t more pd pa pb s
  | .vPs2p t more pd sa => Sys2Proof.Machine.execVPs2p t more pd sa s
  | .vPp2s t more sd pa => Sys2Proof.Machine.execVPp2s t more sd pa s
  | .vPcnt t more sd pa => Sys2Proof.Machine.execVPcnt t more sd pa s
  | .vRng t more vd sa sb w pg z => Sys2Proof.Machine.execVRng t more vd sa sb w pg z s
  | .vRngU t more vd sa sb w pg z => Sys2Proof.Machine.execVRngU t more vd sa sb w pg z s
  | .opRetire t id x => Sys2Proof.Machine.execOpRetire t id x s
  | .mxaWload t more aa wfmt c => Sys2Proof.Machine.execMxaWload t more aa wfmt c s
  | .mxaPass t more ai as sr ifmt init c cs => Sys2Proof.Machine.execMxaPass t more ai as sr ifmt init c cs s
  | .passVerdict t id v => Sys2Proof.Machine.execPassVerdict t id v s
  | .mxaAccMv t more vd sr => Sys2Proof.Machine.execMxaAccMv t more vd sr s
  | .mxaAccSt t more aa sr pub => Sys2Proof.Machine.execMxaAccSt t more aa sr pub s
  | .mxaAccStt t more aa sr pub => Sys2Proof.Machine.execMxaAccStt t more aa sr pub s
  | .mxaAccZero t more sr => Sys2Proof.Machine.execMxaAccZero t more sr s
  | .smoothFillEnd t => Sys2Proof.Machine.execSmoothFillEnd t s
  | .smoothRampUpEnd t x => Sys2Proof.Machine.execSmoothRampUpEnd t x s
  | .lsLd t more sd aa off c => Sys2Proof.Machine.execLsLd t more sd aa off c s
  | .lsSt t more sa aa off pub => Sys2Proof.Machine.execLsSt t more sa aa off pub s
  | .lsVld t more vd aa off c => Sys2Proof.Machine.execLsVld t more vd aa off c s
  | .lsVst t more va aa off pub => Sys2Proof.Machine.execLsVst t more va aa off pub s
  | .lsClaim t more aa => Sys2Proof.Machine.execLsClaim t more aa s
  | .lsPublish t more aa => Sys2Proof.Machine.execLsPublish t more aa s
  | .lsRelease t more aa => Sys2Proof.Machine.execLsRelease t more aa s
  | .lsZero t more aa pub => Sys2Proof.Machine.execLsZero t more aa pub s
  | .memLd t more sd aa off hint => Sys2Proof.Machine.execMemLd t more sd aa off hint s
  | .memSt t more sa aa off hint => Sys2Proof.Machine.execMemSt t more sa aa off hint s
  | .memPf t more aa off hint => Sys2Proof.Machine.execMemPf t more aa off hint s
  | .memDrop t more aa off hint => Sys2Proof.Machine.execMemDrop t more aa off hint s
  | .memFence t more rel d => Sys2Proof.Machine.execMemFence t more rel d s
  | .atom t more sd sb sc aa w op => Sys2Proof.Machine.execAtom t more sd sb sc aa w op s
  | .kvWalk t more ad aa sb sd => Sys2Proof.Machine.execKvWalk t more ad aa sb sd s
  | .kvAppend t more aa sb => Sys2Proof.Machine.execKvAppend t more aa sb s
  | .kvWalkEntryReturn t id x ext => Sys2Proof.Machine.execKvWalkEntryReturn t id x ext s
  | .dmaPost t more q aa lo => Sys2Proof.Machine.execDmaPost t more q aa lo s
  | .dmaStat t more sd q => Sys2Proof.Machine.execDmaStat t more sd q s
  | .dmaCancel t more q => Sys2Proof.Machine.execDmaCancel t more q s
  | .sySignal t more sa sb rel => Sys2Proof.Machine.execSySignal t more sa sb rel s
  | .syWait t more sa sb acq => Sys2Proof.Machine.execSyWait t more sa sb acq s
  | .syArm t more sa sb => Sys2Proof.Machine.execSyArm t more sa sb s
  | .syRead t more sd sa => Sys2Proof.Machine.execSyRead t more sd sa s
  | .releaseWritebackDone t id => Sys2Proof.Machine.execReleaseWritebackDone t id s
  | .memRequestArrive r x => Sys2Proof.Machine.execMemRequestArrive r x s
  | .objectUpdateArrive l => Sys2Proof.Machine.execObjectUpdateArrive l s
  | .memDataArrive r ext => Sys2Proof.Machine.execMemDataArrive r ext s
  | .memAckReturn r => Sys2Proof.Machine.execMemAckReturn r s
  | .ibufLineArrive t line x => Sys2Proof.Machine.execIbufLineArrive t line x s
  | .deferredTrapTaken x => Sys2Proof.Machine.execDeferredTrapTaken x s
  | .tagStallTimeout t => Sys2Proof.Machine.execTagStallTimeout t s
  | .syncWaitTimeout t => Sys2Proof.Machine.execSyncWaitTimeout t s
  | .tileHang t => Sys2Proof.Machine.execTileHang t s
  | .stepSaveRequest t => Sys2Proof.Machine.execStepSaveRequest t s
  | .urgentSaveRequest t => Sys2Proof.Machine.execUrgentSaveRequest t s
  | .restoreRequest t => Sys2Proof.Machine.execRestoreRequest t s
  | .preemptDrainDone t => Sys2Proof.Machine.execPreemptDrainDone t s
  | .preemptDefer t => Sys2Proof.Machine.execPreemptDefer t s
  | .saveComplete x => Sys2Proof.Machine.execSaveComplete x s
  | .restoreComplete t => Sys2Proof.Machine.execRestoreComplete t s
  | .descriptorFetchReturn q x ext => Sys2Proof.Machine.execDescriptorFetchReturn q x ext s
  | .descriptorStart q => Sys2Proof.Machine.execDescriptorStart q s
  | .dmaLineReturn q ix x ext => Sys2Proof.Machine.execDmaLineReturn q ix x ext s
  | .descriptorComplete q => Sys2Proof.Machine.execDescriptorComplete q s
  | .dmaTagWaitTimeout q => Sys2Proof.Machine.execDmaTagWaitTimeout q s
  | .ringFullTimeout q => Sys2Proof.Machine.execRingFullTimeout q s
  | .dmaQueueResume t q => Sys2Proof.Machine.execDmaQueueResume t q s
  | .dmaQueueCancel t q => Sys2Proof.Machine.execDmaQueueCancel t q s
  | .bulkQueueResume p q => Sys2Proof.Machine.execBulkQueueResume p q s
  | .bulkQueueCancel p q => Sys2Proof.Machine.execBulkQueueCancel p q s
  | .cancelComplete q => Sys2Proof.Machine.execCancelComplete q s
  | .bulkQpost path p q head => Sys2Proof.Machine.execBulkQpost path p q head s
  | .bulkPostFetch c p => Sys2Proof.Machine.execBulkPostFetch c p s
  | .launchRecordRead c p => Sys2Proof.Machine.execLaunchRecordRead c p s
  | .launchStart l => Sys2Proof.Machine.execLaunchStart l s
  | .launchEnd l faults => Sys2Proof.Machine.execLaunchEnd l faults s
  | .quantumBoundary n c => Sys2Proof.Machine.execQuantumBoundary n c s
  | .leaseLimitExpire n c => Sys2Proof.Machine.execLeaseLimitExpire n c s
  | .launchBudgetExpire l => Sys2Proof.Machine.execLaunchBudgetExpire l s
  | .cruAlu n c op d a b => Sys2Proof.Machine.execCruAlu n c op d a b s
  | .cruAddi n c d a imm => Sys2Proof.Machine.execCruAddi n c d a imm s
  | .cruLi n c d imm => Sys2Proof.Machine.execCruLi n c d imm s
  | .cruLui n c d imm => Sys2Proof.Machine.execCruLui n c d imm s
  | .cruBranch n c cnd a b off => Sys2Proof.Machine.execCruBranch n c cnd a b off s
  | .cruJmp n c off => Sys2Proof.Machine.execCruJmp n c off s
  | .ldS n c d a imm => Sys2Proof.Machine.execLdS n c d a imm s
  | .stS n c d a imm => Sys2Proof.Machine.execStS n c d a imm s
  | .fld n c fd a imm => Sys2Proof.Machine.execFld n c fd a imm s
  | .fst n c fs a imm => Sys2Proof.Machine.execFst n c fs a imm s
  | .cmIn n c d a b => Sys2Proof.Machine.execCmIn n c d a b s
  | .cmInData n c xs => Sys2Proof.Machine.execCmInData n c xs s
  | .cmOut n c d a b => Sys2Proof.Machine.execCmOut n c d a b s
  | .lease n c a b slot => Sys2Proof.Machine.execLease n c a b slot s
  | .qend n c => Sys2Proof.Machine.execQend n c s
  | .cruEnd n c => Sys2Proof.Machine.execCruEnd n c s
  | .busPut n c d a b => Sys2Proof.Machine.execBusPut n c d a b s
  | .busLineReceive n c => Sys2Proof.Machine.execBusLineReceive n c s
  | .busWait n c a => Sys2Proof.Machine.execBusWait n c a s
  | .cdSet n c acc wfmt ifmt => Sys2Proof.Machine.execCdSet n c acc wfmt ifmt s
  | .cdStep n c acc a b => Sys2Proof.Machine.execCdStep n c acc a b s
  | .cdFin n c acc a b d init => Sys2Proof.Machine.execCdFin n c acc a b d init s
  | .cvArith n c op fd fa fb fc => Sys2Proof.Machine.execCvArith n c op fd fa fb fc s
  | .cvExp2 n c fd fa => Sys2Proof.Machine.execCvExp2 n c fd fa s
  | .cvRmax n c fd fa => Sys2Proof.Machine.execCvRmax n c fd fa s
  | .cvBcast n c fd fa lane => Sys2Proof.Machine.execCvBcast n c fd fa lane s
  | .cvSum n c fd a b => Sys2Proof.Machine.execCvSum n c fd a b s
  | .cvCvt n c d a b fmt h => Sys2Proof.Machine.execCvCvt n c d a b fmt h s
  | .cvUnpk n c d a b fmt h => Sys2Proof.Machine.execCvUnpk n c d a b fmt h s
  | .collInit c p => Sys2Proof.Machine.execCollInit c p s
  | .collPush c p x ext => Sys2Proof.Machine.execCollPush c p x ext s
  | .collRecv c p => Sys2Proof.Machine.execCollRecv c p s
  | .collSend c p x ext => Sys2Proof.Machine.execCollSend c p x ext s
  | .collFin c p => Sys2Proof.Machine.execCollFin c p s
  | .collRecvw c p => Sys2Proof.Machine.execCollRecvw c p s
  | .collSignal c p => Sys2Proof.Machine.execCollSignal c p s
  | .collWait c p => Sys2Proof.Machine.execCollWait c p s
  | .rd port k x => Sys2Proof.Machine.execRd port k x s
  | .wr port k => Sys2Proof.Machine.execWr port k s
  | .atomPkt port k x => Sys2Proof.Machine.execAtomPkt port k x s
  | .sig port k => Sys2Proof.Machine.execSig port k s
  | .rdRsp port k => Sys2Proof.Machine.execRdRsp port k s
  | .wrAck port k => Sys2Proof.Machine.execWrAck port k s
  | .atomRsp port k => Sys2Proof.Machine.execAtomRsp port k s
  | .sigAck port k => Sys2Proof.Machine.execSigAck port k s
  | .cts port k => Sys2Proof.Machine.execCts port k s
  | .cdata port k => Sys2Proof.Machine.execCdata port k s
  | .cack port k => Sys2Proof.Machine.execCack port k s
  | .transportResendTimeout dst vc seq => Sys2Proof.Machine.execTransportResendTimeout dst vc seq s
  | .flitReceive port f => Sys2Proof.Machine.execFlitReceive port f s
  | .retryRequest port seq => Sys2Proof.Machine.execRetryRequest port seq s
  | .laneLockLoss port lane => Sys2Proof.Machine.execLaneLockLoss port lane s
  | .portTrainingDone port lanes => Sys2Proof.Machine.execPortTrainingDone port lanes s
  | .portDown port => Sys2Proof.Machine.execPortDown port s
  | .portRetrain path port => Sys2Proof.Machine.execPortRetrain path port s
  | .portTakeDown path port => Sys2Proof.Machine.execPortTakeDown path port s
  | .hello port k => Sys2Proof.Machine.execHello port k s
  | .depart port k => Sys2Proof.Machine.execDepart port k s
  | .probeTimer => Sys2Proof.Machine.execProbeTimer s
  | .probe port k turnaround => Sys2Proof.Machine.execProbe port k turnaround s
  | .probeRsp port k rtt => Sys2Proof.Machine.execProbeRsp port k rtt s
  | .tickAnnounce => Sys2Proof.Machine.execTickAnnounce s
  | .tick port k => Sys2Proof.Machine.execTick port k s
  | .readyCheck => Sys2Proof.Machine.execReadyCheck s
  | .notReady port k => Sys2Proof.Machine.execNotReady port k s
  | .slipDecision => Sys2Proof.Machine.execSlipDecision s
  | .slip port k => Sys2Proof.Machine.execSlip port k s
  | .backupMasterTakeover => Sys2Proof.Machine.execBackupMasterTakeover s
  | .tickFire => Sys2Proof.Machine.execTickFire s
  | .recoveryPointComplete c all => Sys2Proof.Machine.execRecoveryPointComplete c all s
  | .planStep c inp => Sys2Proof.Machine.execPlanStep c inp s
  | .stallSetExchange c device seqs => Sys2Proof.Machine.execStallSetExchange c device seqs s
  | .stepRecordAppend c tokens => Sys2Proof.Machine.execStepRecordAppend c tokens s
  | .revivalRestart c => Sys2Proof.Machine.execRevivalRestart c s
  | .revivalProbe c handle => Sys2Proof.Machine.execRevivalProbe c handle s
  | .rollbackToRecoveryPoint c pages => Sys2Proof.Machine.execRollbackToRecoveryPoint c pages s
  | .engineWatchdogExpire p kind index => Sys2Proof.Machine.execEngineWatchdogExpire p kind index s
  | .engineResetComplete p kind index pass us => Sys2Proof.Machine.execEngineResetComplete p kind index pass us s
  | .partitionHeartbeatMissing p => Sys2Proof.Machine.execPartitionHeartbeatMissing p s
  | .deviceHeartbeatMissing => Sys2Proof.Machine.execDeviceHeartbeatMissing s
  | .resetDeadlineExpire level p kind index => Sys2Proof.Machine.execResetDeadlineExpire level p kind index s
  | .partitionResetPhaseEnd p fails us => Sys2Proof.Machine.execPartitionResetPhaseEnd p fails us s
  | .chipResetPhaseEnd us => Sys2Proof.Machine.execChipResetPhaseEnd us s
  | .teardownComplete c => Sys2Proof.Machine.execTeardownComplete c s
  | .teardownDeadline c => Sys2Proof.Machine.execTeardownDeadline c s
  | .loadComplete c => Sys2Proof.Machine.execLoadComplete c s
  | .peerLossLimit c device => Sys2Proof.Machine.execPeerLossLimit c device s
  | .neighbourPortsDown device => Sys2Proof.Machine.execNeighbourPortsDown device s
  | .debugUnlockFailure => Sys2Proof.Machine.execDebugUnlockFailure s
  | .lidTamper => Sys2Proof.Machine.execLidTamper s
  | .d2dFlitReceive edge module ok resent laneErrors marked => Sys2Proof.Machine.execD2dFlitReceive edge module ok resent laneErrors marked s
  | .sensorSample samples => Sys2Proof.Machine.execSensorSample samples s
  | .refreshRateLower u => Sys2Proof.Machine.execRefreshRateLower u s
  | .sensorStuckCheck ix moved nbrMoved => Sys2Proof.Machine.execSensorStuckCheck ix moved nbrMoved s
  | .pairDisagreement ix => Sys2Proof.Machine.execPairDisagreement ix s
  | .thermalGapStep t => Sys2Proof.Machine.execThermalGapStep t s
  | .dieFrequencyStep p => Sys2Proof.Machine.execDieFrequencyStep p s
  | .quiesceCoolantTimeout addr => Sys2Proof.Machine.execQuiesceCoolantTimeout addr s
  | .limiterWindow inputW inputV other parts => Sys2Proof.Machine.execLimiterWindow inputW inputV other parts s
  | .flowFaultAssert => Sys2Proof.Machine.execFlowFaultAssert s
  | .inputUndervoltage v => Sys2Proof.Machine.execInputUndervoltage v s
  | .undervoltageRecover => Sys2Proof.Machine.execUndervoltageRecover s
  | .flowRecovery => Sys2Proof.Machine.execFlowRecovery s
  | .flowStopTimeout => Sys2Proof.Machine.execFlowStopTimeout s
  | .regulatorFault rail amps => Sys2Proof.Machine.execRegulatorFault rail amps s
  | .coolantReport c w seq => Sys2Proof.Machine.execCoolantReport c w seq s
  | .coolantReportStale => Sys2Proof.Machine.execCoolantReportStale s
  | .thmSubstWrite path ix x => Sys2Proof.Machine.execThmSubstWrite path ix x s
  | .patrolScrubStart r => Sys2Proof.Machine.execPatrolScrubStart r s
  | .scrubPassEnd r => Sys2Proof.Machine.execScrubPassEnd r s
  | .clearAccept p => Sys2Proof.Machine.execClearAccept p s
  | .regionRetire path p op r => Sys2Proof.Machine.execRegionRetire path p op r s
  | .wayWritebackDone p w => Sys2Proof.Machine.execWayWritebackDone p w s
  | .synObjWrite p ix x => Sys2Proof.Machine.execSynObjWrite p ix x s
  | .synSigWrite p ix x => Sys2Proof.Machine.execSynSigWrite p ix x s
  | .devCommit x => Sys2Proof.Machine.execDevCommit x s
  | .secAlarmpolWrite path x => Sys2Proof.Machine.execSecAlarmpolWrite path x s
  | .hifRqProdWrite path c prod => Sys2Proof.Machine.execHifRqProdWrite path c prod s
  | .hifCqConsWrite c cons => Sys2Proof.Machine.execHifCqConsWrite c cons s
  | .partJtailWrite path p tail => Sys2Proof.Machine.execPartJtailWrite path p tail s
  | .clkMeterStart path x => Sys2Proof.Machine.execClkMeterStart path x s
  | .meterComplete count => Sys2Proof.Machine.execMeterComplete count s
  | .mxaBistStart path t pattern => Sys2Proof.Machine.execMxaBistStart path t pattern s
  | .bistComplete t x => Sys2Proof.Machine.execBistComplete t x s
  | .registerWrite path off size v => Sys2Proof.Machine.execRegisterWrite path off size v s
  | .bar2Read off n x => Sys2Proof.Machine.execBar2Read off n x s
  | .bar2Write off bytes => Sys2Proof.Machine.execBar2Write off bytes s
  | .hostReadTimeout x => Sys2Proof.Machine.execHostReadTimeout x s
  | .hostLinkChange width rate => Sys2Proof.Machine.execHostLinkChange width rate s
  | .perstAssert => Sys2Proof.Machine.execPerstAssert s
  | .perstDeassert => Sys2Proof.Machine.execPerstDeassert s
  | .entdaa addr dup => Sys2Proof.Machine.execEntdaa addr dup s
  | .getInventory c => Sys2Proof.Machine.execGetInventory c s
  | .setHostRegion c region value => Sys2Proof.Machine.execSetHostRegion c region value s
  | .confirmUpdate c => Sys2Proof.Machine.execConfirmUpdate c s
  | .getFirmwareStatus c => Sys2Proof.Machine.execGetFirmwareStatus c s
  | .setPowerLimit c items => Sys2Proof.Machine.execSetPowerLimit c items s
  | .setStepPolicy c items => Sys2Proof.Machine.execSetStepPolicy c items s
  | .runArrayTest c pattern => Sys2Proof.Machine.execRunArrayTest c pattern s
  | .setArraySmoothing c items => Sys2Proof.Machine.execSetArraySmoothing c items s
  | .getArithCounters c => Sys2Proof.Machine.execGetArithCounters c s
  | .setKvPolicy c items => Sys2Proof.Machine.execSetKvPolicy c items s
  | .setMemoryPolicy c items => Sys2Proof.Machine.execSetMemoryPolicy c items s
  | .setScrubPolicy c items => Sys2Proof.Machine.execSetScrubPolicy c items s
  | .clearMemory c region count => Sys2Proof.Machine.execClearMemory c region count s
  | .retireMemory c u => Sys2Proof.Machine.execRetireMemory c u s
  | .setNearMemoryPolicy c items => Sys2Proof.Machine.execSetNearMemoryPolicy c items s
  | .setBulkPolicy c items => Sys2Proof.Machine.execSetBulkPolicy c items s
  | .getPackageMap c => Sys2Proof.Machine.execGetPackageMap c s
  | .runInterconnectTest c => Sys2Proof.Machine.execRunInterconnectTest c s
  | .setFabricIdentity c device => Sys2Proof.Machine.execSetFabricIdentity c device s
  | .setFabricTopology c addr lat => Sys2Proof.Machine.execSetFabricTopology c addr lat s
  | .setPortPolicy c items => Sys2Proof.Machine.execSetPortPolicy c items s
  | .setTickRoles c items lat => Sys2Proof.Machine.execSetTickRoles c items lat s
  | .setTickPolicy c items => Sys2Proof.Machine.execSetTickPolicy c items s
  | .setFabricPolicy c items => Sys2Proof.Machine.execSetFabricPolicy c items s
  | .departDevice c => Sys2Proof.Machine.execDepartDevice c s
  | .declareDeviceLost c device => Sys2Proof.Machine.execDeclareDeviceLost c device s
  | .setPartitionGroups c size => Sys2Proof.Machine.execSetPartitionGroups c size s
  | .setPortOwner c part => Sys2Proof.Machine.execSetPortOwner c part s
  | .loadContext c addr k recent inbound => Sys2Proof.Machine.execLoadContext c addr k recent inbound s
  | .startContext c => Sys2Proof.Machine.execStartContext c s
  | .holdContext c => Sys2Proof.Machine.execHoldContext c s
  | .releaseContext c => Sys2Proof.Machine.execReleaseContext c s
  | .preemptContext c urgent => Sys2Proof.Machine.execPreemptContext c urgent s
  | .resumeContext c => Sys2Proof.Machine.execResumeContext c s
  | .tearDownContext c => Sys2Proof.Machine.execTearDownContext c s
  | .updateContextWindows c addr => Sys2Proof.Machine.execUpdateContextWindows c addr s
  | .setContextShare c items => Sys2Proof.Machine.execSetContextShare c items s
  | .loadModelKey c slot counter ct wrapped => Sys2Proof.Machine.execLoadModelKey c slot counter ct wrapped s
  | .unloadModelKey c slot => Sys2Proof.Machine.execUnloadModelKey c slot s
  | .loadModelImage c slot img len dst ext => Sys2Proof.Machine.execLoadModelImage c slot img len dst ext s
  | .setAlarmPolicy c items => Sys2Proof.Machine.execSetAlarmPolicy c items s
  | .clearFence c => Sys2Proof.Machine.execClearFence c s
  | .getWrapKey c => Sys2Proof.Machine.execGetWrapKey c s
  | .setTickPeriod c items => Sys2Proof.Machine.execSetTickPeriod c items s
  | .setJournal c items => Sys2Proof.Machine.execSetJournal c items s
  | .regenerateSteps c first last addr => Sys2Proof.Machine.execRegenerateSteps c first last addr s
  | .reviveStep c first last => Sys2Proof.Machine.execReviveStep c first last s
  | .setErrorPolicy c items => Sys2Proof.Machine.execSetErrorPolicy c items s
  | .resetEngine c kind index => Sys2Proof.Machine.execResetEngine c kind index s
  | .resetPartition c => Sys2Proof.Machine.execResetPartition c s
  | .resetDevice c => Sys2Proof.Machine.execResetDevice c s
  | .setRecoveryPolicy c items partner => Sys2Proof.Machine.execSetRecoveryPolicy c items partner s
  | .getCertificate slot n => Sys2Proof.Machine.execGetCertificate slot n s
  | .challenge slot nonce => Sys2Proof.Machine.execChallenge slot nonce s
  | .getMeasurements index => Sys2Proof.Machine.execGetMeasurements index s
  | .firmwareChunkReceive ix bytes m => Sys2Proof.Machine.execFirmwareChunkReceive ix bytes m s
  | .activateFirmware => Sys2Proof.Machine.execActivateFirmware s
  | .processorRestartDone => Sys2Proof.Machine.execProcessorRestartDone s
  | .processorRestartTimeout => Sys2Proof.Machine.execProcessorRestartTimeout s
  | .settleCountDone glitch => Sys2Proof.Machine.execSettleCountDone glitch s
  | .startStepDone x ms => Sys2Proof.Machine.execStartStepDone x ms s
  | .startStepTimeout => Sys2Proof.Machine.execStartStepTimeout s
  | .restartSupervisionTimeout => Sys2Proof.Machine.execRestartSupervisionTimeout s
  | .crozierWave p w => Sys2Proof.Machine.execCrozierWave p w s
  | .tilePowerGoodTimeout t => Sys2Proof.Machine.execTilePowerGoodTimeout t s
  | .tileFirmwareBlock t block crcOk => Sys2Proof.Machine.execTileFirmwareBlock t block crcOk s
  | .refclkGlitch => Sys2Proof.Machine.execRefclkGlitch s
  | .refclkStop => Sys2Proof.Machine.execRefclkStop s
  | .clkOkFall => Sys2Proof.Machine.execClkOkFall s
  | .pllLockLoss x => Sys2Proof.Machine.execPllLockLoss x s
  | .pwrEnAssert slot settle => Sys2Proof.Machine.execPwrEnAssert slot settle s
  | .pwrEnDeassert => Sys2Proof.Machine.execPwrEnDeassert s
  | .efuseSwitchOff => Sys2Proof.Machine.execEfuseSwitchOff s
  | .auxPowerUp slot => Sys2Proof.Machine.execAuxPowerUp slot s
  | .surpriseRemoval => Sys2Proof.Machine.execSurpriseRemoval s
  | .registerRead path off size => Sys2Proof.Machine.execRegisterRead path off size s
  | .nop t more => Sys2Proof.Machine.execNop t more s
  | .cruNop n c => Sys2Proof.Machine.execCruNop n c s
  | .reservedOpcode x w => Sys2Proof.Machine.execReservedOpcode x w s
  | .voltageGlitch => Sys2Proof.Machine.execVoltageGlitch s
  | .p3v3AuxLoss => Sys2Proof.Machine.execP3v3AuxLoss s
  | .clkOkRise => Sys2Proof.Machine.execClkOkRise s
  | .capWindowEnd => Sys2Proof.Machine.execCapWindowEnd s
  | .smoothRampDownEnd t => Sys2Proof.Machine.execSmoothRampDownEnd t s
  | .collectiveCommandComplete c p => Sys2Proof.Machine.execCollectiveCommandComplete c p s
  | .configurationRequest => Sys2Proof.Machine.execConfigurationRequest s
  | .mctpEndpointIdAssign eid => Sys2Proof.Machine.execMctpEndpointIdAssign eid s

end Sys2Proof.Machine
end

