-- ==== Sys2Proof/Safety.lean ====
section
/-! DEFINITION. The terms in which the claims speak: a command that completes, an operation that issues, what a run must
not do, and the form that every state of a run keeps. -/

namespace Sys2Proof.Machine

/-- The step from `s` neither stops with a fault nor is refused. -/
def GoesOn (s : State) : Prop := ∃ t, step s = .next t

/-- Memory lists its bytes in rising order of address and lists no byte that reads as an unlisted one. -/
def State.memOk (s : State) : Prop := Mem.wf s.mem = true

/-- The command completes in a state with the property `P`. -/
def Runs (c : Instr) (s : State) (P : State → Prop) : Prop := ∃ t, exec c s = .next t ∧ P t

/-- A bundle that holds the operation alone meets every condition of issue: the tile takes bundles and holds no slot, and
no trap, hold, ramp or unreadable operand stands against it (R43, R49, R62, R104, R156, R159, R165, R181, R223). -/
def CanIssue (s : State) (t : TileId) (op : TileOp) : Prop :=
  let T := s.tile t.val
  issueBlocked s t.val T = false ∧ T.asm = [] ∧ op ≠ .fret ∧ op ≠ .fretReplay ∧ meets s t.val T [op] = .issue
    ∧ badSource T op = false ∧ (isTree op && T.countUe) = false

/-- The registers, accumulator rows and weights of a tile are as before. -/
def SameRegs (T T1 : Tile) : Prop :=
  T1.s = T.s ∧ T1.hs = T.hs ∧ T1.v = T.v ∧ T1.p = T.p ∧ T1.a = T.a ∧ T1.lc = T.lc ∧ T1.acc = T.acc ∧ T1.wimg = T.wimg

/-- The operation has left issue: the PC is `pc`, one operation `f` is in flight beside the earlier ones, and no register
has changed yet. -/
def InFlight (T T1 : Tile) (op : TileOp) (pc : BitVec 44) (f : Flight) : Prop :=
  SameRegs T T1 ∧ T1.pc = pc ∧ T1.asm = [] ∧ T1.held = false ∧ T1.flights = T.flights ++ [f] ∧ f.op = op

/-- The slot `c` of tile `t` issues `op`: only the tile changes, and the operation in flight will write `w`. -/
def IssuesTo (c : Instr) (s : State) (t : TileId) (op : TileOp) (pc : BitVec 44) (w : List RegWrite) : Prop :=
  CanIssue s t op → Runs c s fun u => u = s.setTile t.val (u.tile t.val)
    ∧ ∃ f, InFlight (s.tile t.val) (u.tile t.val) op pc f ∧ f.kind = .fixed ∧ f.eff.res = w ∧ f.eff.ls = []
      ∧ f.eff.rows = [] ∧ f.eff.image = none

/-- As `IssuesTo`, for an operation that writes the local store when it retires: groups of address and bytes. -/
def IssuesLs (c : Instr) (s : State) (t : TileId) (op : TileOp) (w : List RegWrite) (l : List (List (Nat × List Byte))) :
    Prop :=
  CanIssue s t op → Runs c s fun u => u = s.setTile t.val (u.tile t.val)
    ∧ ∃ f, InFlight (s.tile t.val) (u.tile t.val) op ((s.tile t.val).pc + 16) f ∧ f.kind = .fixed ∧ f.eff.res = w
      ∧ f.eff.ls = l ∧ f.eff.rows = [] ∧ f.eff.image = none

/-- The slot `c` of tile `t` issues `op` and has the effect that makes `s` into `s1`; besides that only the tile changes, in
which one operation is in flight that will write `w`. -/
def Sends (c : Instr) (s : State) (t : TileId) (op : TileOp) (s1 : State) (kind : FlightKind) (w : List RegWrite) : Prop :=
  CanIssue s t op → Runs c s fun u => u = s1.setTile t.val (u.tile t.val)
    ∧ ∃ f, InFlight (s.tile t.val) (u.tile t.val) op ((s.tile t.val).pc + 16) f ∧ f.kind = kind ∧ f.eff = Effect.regs w

/-- A request of the tile leaves. -/
def State.withReq (s : State) (q : MemReq) : State :=
  { s with reqs := s.reqs.set s.nextReq q, nextReq := s.nextReq + 1 }

/-- One more operation in LS.MEMOPS. -/
def State.countMem (s : State) (t : TileId) : State := s.bump (R.lsMemops t.val) F.lsMemops_issued 1

/-- Every tile but `t` is as before. -/
def OtherTiles (t : Nat) (s u : State) : Prop := ∀ i, i ≠ t → u.tile i = s.tile i

/-- The packet `k` of channel `vc` that arrives on a port is for this device and the next of its source, and nothing waits
behind it. -/
def NextInOrder (s : State) (port : PortId) (k : Packet) (vc : Nat) : Prop :=
  s.portUp port.val = true ∧ s.fabricOn = true ∧ k.dst.toNat = s.localDev
    ∧ k.seq.toNat = s.fab.recv.getD (k.src.toNat * 4 + vc) 0 ∧ s.fab.reorder = [] ∧ s.fab.departing = false

/-- The device keeps, for a repeat of request `k` of channel `vc`, an answer of a type with a status, an operand and a
payload (R417, R419). -/
def Answered (u : State) (k : Packet) (vc : Nat) (typ : BitVec 8) (status : Nat) (operand : W64) (payload : List Byte) :
    Prop :=
  ∃ r, u.fab.answers.head? = some (k.src.toNat * 4 + vc, k.seq.toNat, some r) ∧ r.typ = typ ∧ r.dst = k.src
    ∧ r.addr = BitVec.ofNat 44 (k.seq.toNat + status * 2 ^ 16) ∧ r.operand = operand ∧ r.payload = payload

/-- Nothing but the registers at these offsets may differ. -/
def OnlyRegs (s u : State) (l : List Nat) : Prop := u = { s with regs := u.regs } ∧ ∀ r, r ∉ l → u.reg r = s.reg r

/-- A management command is taken: its path is one that the table "Command codes" allows, no level 3 alarm restricts the device
to reports, and the device is ready or the command is one of the two that a start answers. -/
def Taken (code : Nat) (paths : Paths) (reports : Bool) (c : Cmd) (s : State) : Prop :=
  paths.allow c.path = true ∧ (s.board.restricted = false ∨ reports = true)
    ∧ (s.fld R.bootStatus F.bootStatus_ready ≠ 0 ∨ code = 0x0001 ∨ code = 0x0004)

/-- The command ends with a status and a payload, and its effect is `s1`. -/
def Replies (i : Instr) (code : Nat) (c : Cmd) (s : State) (st : Nat) (payload : List Byte) (s1 : State) : Prop :=
  Runs i s fun u => u = reply s1 code c st payload

/-- Every item names a setting of the table in the command's scope with a value in its range, and every register accepts the
items together. -/
def ItemsOk (s : State) (c : Cmd) (tab : List Setting) (l : List Item) : Prop :=
  (∀ i ∈ l, itemOk s c tab i = true) ∧ ∀ r ∈ (gatherItems l).rows, regOk s r.1 r.2.1 r.2.2 = true

/-- Every item applied at the basic level. -/
def withItems (s : State) (l : List Item) : State :=
  (gatherItems l).rows.foldl (fun s r => markLevel (applyItem s r.1 r.2.1 r.2.2) r.1 1 r.2.1) s

/-- The command applies all its items; one of which an item is not acceptable applies none, and ends with BOUND. -/
def Sets (i : Instr) (code : Nat) (paths : Paths) (tab : List Setting) (c : Cmd) (l : List Item) (s : State) : Prop :=
  Taken code paths false c s →
    (ItemsOk s c tab l → Replies i code c s St.ok [] (withItems s l))
      ∧ ∀ x, l.find? (fun y => !(itemOk s c tab y)) = some x → Replies i code c s St.bound []
          (rejectReg s .item (Item.reg x) true ((RegTab.find (Item.reg x)).bind fun d => regPart d.1.base d.2))

end Sys2Proof.Machine
end

