-- ==== Sys2Proof/Certificates/Slice0/Obligations.lean ====
section
/-! DEFINITION. The statements for the provers. `Runs c s P` says that the command completes from `s` in a state with `P`;
`IssuesTo` and `IssuesLs` say the same of the one slot of a bundle that meets every condition of issue, and what it writes
at retirement. -/

open Sys2Proof Sys2Proof.Machine

/-! ### The queue and the machine as a whole -/

/-- A step with the command `c` at the front of the queue is `exec c` on the state with the queue's rest. With nothing waiting
the block idles: the model's own choice (log entry 2). -/
def Obligations.StepRunsFront : Prop :=
  (∀ (c : Instr) (rest : List Instr) (s : State), s.pending = c :: rest → step s = exec c { s with pending := rest })
    ∧ (∀ s : State, s.pending = [] → step s = .next s)

/-- No command touches the queue: whatever a command does, the commands that wait behind it wait unchanged. Clauses that rest
on choices or readings of the model: log entry 3. -/
def Obligations.CommandsLeaveTheQueue : Prop :=
  ∀ (c : Instr) (s t : State), exec c s = .next t → t.pending = s.pending

/-- Every well-formed command completes, and an ill-formed packet is the only thing that stops one. Clauses that rest on
choices or readings of the model: log entries 3 and 4. -/
def Obligations.WellFormedCommandsComplete : Prop :=
  ∀ (c : Instr) (s : State), (c.wf = true → ∃ t, exec c s = .next t) ∧ (c.wf = false → exec c s = .fault .illFormed)

/-- Memory keeps its canonical form in every step from every state that has it. -/
def Obligations.MemoryStaysCanonical : Prop :=
  ∀ s t : State, s.memOk → step s = .next t → t.memOk

/-- The memory of the state after reset has its canonical form, and every byte of it reads 0 (log entry 6). -/
def Obligations.ResetMemoryCanonical : Prop :=
  State.reset.memOk ∧ ∀ a, State.reset.readByte a = 0

/-- What reset leaves: no context, empty queues of every engine, objects 0, tiles OFF, and the register fields of R78, R116,
R381, R447, R512 and R546 at the values their tables give. Clauses that rest on choices or readings of the model: log entries
7 and 8. -/
def Obligations.ResetState : Prop :=
  let s := State.reset
  s.pending = [] ∧ s.ctxs.rows = [] ∧ s.outbox = []
    ∧ (∀ t, (s.tile t).st = .off ∧ (s.tile t).flights = [] ∧ (s.tile t).ctxValid = false)
    ∧ (∀ k, s.obj k = 0) ∧ (∀ k, (s.queue k).st = .idle)
    ∧ s.fld (R.tileStepctl 0) F.tileStepctl_hang_periods = 2 ∧ s.fld (R.tileStepctl 0) F.tileStepctl_stall_to = 1000
    ∧ s.fld (R.mxaSmooth 0) F.mxaSmooth_enable = 1 ∧ s.fld (R.mxaSmooth 0) F.mxaSmooth_ramp_up = 64
    ∧ s.fld (R.mxaSmooth 0) F.mxaSmooth_ramp_down = 256 ∧ s.fld (R.mxaSmooth 0) F.mxaSmooth_fill_max = 64
    ∧ s.fld (R.errCtl 0) F.errCtl_alert_min = 3 ∧ s.fld (R.errBase 0) F.errBase_size = 22
    ∧ s.fld (R.partRecovctl 0) F.partRecovctl_loss_limit = 500 ∧ s.reg (R.plTicknum) = 0

/-! ### Scalar and address operations (S slot) -/

/-- Three-register scalar operations write the result of the table to sd, modulo 2^64, with shift amounts of six bits.
Immediate scalar operations: the immediate is sign-extended to 64 bits; insh replaces one 16-bit field. s0 reads as zero and
p0 as all ones, and writes to them are discarded. -/
def Obligations.ScalarOperations : Prop :=
  (∀ (s : State) (t : TileId) (sd sa sb : BitVec 5),
     let T := s.tile t.val
     let a := T.rs sa
     let b := T.rs sb
     let n := b.toNat % 64
     let w (c : Instr) (op : AluOp) (x : W64) : Prop :=
       IssuesTo c s t (.alu op sd sa sb) (T.pc + 16) [.s (T.useBank sd) sd x]
     w (.add t false sd sa sb) .add (a + b) ∧ w (.sub t false sd sa sb) .sub (a - b)
       ∧ w (.and t false sd sa sb) .and (a &&& b) ∧ w (.or t false sd sa sb) .or (a ||| b)
       ∧ w (.xor t false sd sa sb) .xor (a ^^^ b) ∧ w (.sll t false sd sa sb) .sll (a <<< n)
       ∧ w (.srl t false sd sa sb) .srl (a >>> n) ∧ w (.sra t false sd sa sb) .sra (a.sshiftRight n)
       ∧ w (.slt t false sd sa sb) .slt (if a.toInt < b.toInt then 1 else 0)
       ∧ w (.sltu t false sd sa sb) .sltu (if a.toNat < b.toNat then 1 else 0)
       ∧ w (.min t false sd sa sb) .min (BitVec.ofInt 64 (min a.toInt b.toInt))
       ∧ w (.max t false sd sa sb) .max (BitVec.ofInt 64 (max a.toInt b.toInt))
       ∧ w (.minu t false sd sa sb) .minu (BitVec.ofNat 64 (min a.toNat b.toNat))
       ∧ w (.maxu t false sd sa sb) .maxu (BitVec.ofNat 64 (max a.toNat b.toNat))
       ∧ w (.mul t false sd sa sb) .mul (BitVec.ofNat 64 (a.toNat * b.toNat))
       ∧ w (.mulh t false sd sa sb) .mulh (BitVec.ofInt 64 (a.toInt * b.toInt / 2 ^ 64))
       ∧ w (.mulhu t false sd sa sb) .mulhu (BitVec.ofNat 64 (a.toNat * b.toNat / 2 ^ 64)))
    ∧ (∀ (s : State) (t : TileId) (sd sa : BitVec 5) (imm : BitVec 15) (i20 : BitVec 20) (h : BitVec 2) (i16 : BitVec 16),
       let T := s.tile t.val
       let a := T.rs sa
       let x := imm.signExtend 64
       let n := imm.toNat % 64
       let w (c : Instr) (op : TileOp) (x : W64) : Prop := IssuesTo c s t op (T.pc + 16) [.s (T.useBank sd) sd x]
       w (.addi t false sd sa imm) (.alui .addi sd sa imm) (a + x)
         ∧ w (.andi t false sd sa imm) (.alui .andi sd sa imm) (a &&& x)
         ∧ w (.ori t false sd sa imm) (.alui .ori sd sa imm) (a ||| x)
         ∧ w (.xori t false sd sa imm) (.alui .xori sd sa imm) (a ^^^ x)
         ∧ w (.slli t false sd sa imm) (.alui .slli sd sa imm) (a <<< n)
         ∧ w (.srli t false sd sa imm) (.alui .srli sd sa imm) (a >>> n)
         ∧ w (.srai t false sd sa imm) (.alui .srai sd sa imm) (a.sshiftRight n)
         ∧ w (.slti t false sd sa imm) (.alui .slti sd sa imm) (if a.toInt < x.toInt then 1 else 0)
         ∧ w (.sltiu t false sd sa imm) (.alui .sltiu sd sa imm) (if a.toNat < x.toNat then 1 else 0)
         ∧ w (.li t false sd i20) (.li sd i20) (i20.signExtend 64)
         ∧ w (.insh t false sd h i16) (.insh sd h i16)
           ((T.rs sd &&& ~~~(0xFFFF#64 <<< (16 * h.toNat))) ||| (i16.setWidth 64 <<< (16 * h.toNat))))
    ∧ (∀ (T : Tile) (h : Bool) (x : W64), T.rs 0 = 0 ∧ T.rp 0 = BitVec.allOnes 64 ∧ T.writeReg (.s h 0 x) = T
       ∧ T.writeReg (.p 0 x) = T)

/-- Address registers: the window selector of bits [47:44] is kept by a move of the address, which wraps at 2^44; loop
counters are 32 bits wide; rdsr reads the step and the context ID. -/
def Obligations.AddressAndLoopOps : Prop :=
  ∀ (s : State) (t : TileId) (sd sa sb : BitVec 5) (ad aa : BitVec 4) (imm : BitVec 15) (lc : BitVec 2) (i23 : BitVec 23),
    let T := s.tile t.val
    let A := T.ra aa
    let go (c : Instr) (op : TileOp) (w : RegWrite) : Prop := IssuesTo c s t op (T.pc + 16) [w]
    let moved (d : Nat) : BitVec 48 := BitVec.ofNat 48 (A.toNat / 2 ^ 44 * 2 ^ 44 + (A.toNat % 2 ^ 44 + d) % 2 ^ 44)
    go (.aSet t false ad sa) (.aSet ad sa) (.a ad (BitVec.ofNat 48 (T.rs sa).toNat))
      ∧ go (.aGet t false sd aa) (.aGet sd aa) (.s (T.useBank sd) sd (BitVec.ofNat 64 A.toNat))
      ∧ go (.aAddi t false ad aa imm) (.aAddi ad aa imm) (.a ad (moved (imm.signExtend 44).toNat))
      ∧ go (.aAdd t false ad aa sb) (.aAdd ad aa sb) (.a ad (moved (T.rs sb).toNat))
      ∧ go (.loopSet t false lc sa) (.loopSet lc sa) (.lc lc (BitVec.ofNat 32 (T.rs sa).toNat))
      ∧ go (.loopSeti t false lc i23) (.loopSeti lc i23) (.lc lc (BitVec.ofNat 32 i23.toNat))
      ∧ go (.loopGet t false sd lc) (.loopGet sd lc) (.s (T.useBank sd) sd (BitVec.ofNat 64 (T.rlc lc).toNat))
      ∧ go (.rdsr t false sd 0) (.rdsr sd 0) (.s (T.useBank sd) sd T.step)
      ∧ go (.rdsr t false sd 2) (.rdsr sd 2) (.s (T.useBank sd) sd (BitVec.ofNat 64 t.val))
      ∧ go (.rdsr t false sd 3) (.rdsr sd 3)
        (.s (T.useBank sd) sd (BitVec.ofNat 64 (T.ctxIndex * 128 + T.ctxGen)))

/-- Branches: a taken branch goes to the bundle at PC + 16 × offset, an untaken one to the next bundle; jal writes the address
of the next bundle; loop.br counts down and branches while more than one pass was left. step.wait leaves issue as an operation
that ends with the step; nop only moves the PC; fret in handler mode resumes the context at TILE.RESUME_PC, and so does
fret.replay where no operation was abandoned. Clauses that rest on choices or readings of the model: log entries 5, 36, 104
and 121. -/
def Obligations.BranchesAndHandlerReturn : Prop :=
  (∀ (s : State) (t : TileId) (sd sa sb : BitVec 5) (pa : BitVec 3) (lc : BitVec 2) (o15 : BitVec 15) (o20 : BitVec 20)
     (o23 : BitVec 23) (o25 : BitVec 25),
     let T := s.tile t.val
     let a := T.rs sa
     let b := T.rs sb
     let pc (c : Prop) [Decidable c] (off : Int) : BitVec 44 := if c then T.pc + BitVec.ofInt 44 (16 * off) else T.pc + 16
     let go (c : Instr) (op : TileOp) (p : BitVec 44) : Prop := IssuesTo c s t op p []
     go (.brEq t false sa sb o15) (.br .eq sa sb o15) (pc (a = b) o15.toInt)
       ∧ go (.brNe t false sa sb o15) (.br .ne sa sb o15) (pc (a ≠ b) o15.toInt)
       ∧ go (.brLt t false sa sb o15) (.br .lt sa sb o15) (pc (a.toInt < b.toInt) o15.toInt)
       ∧ go (.brGe t false sa sb o15) (.br .ge sa sb o15) (pc (b.toInt ≤ a.toInt) o15.toInt)
       ∧ go (.brLtu t false sa sb o15) (.br .ltu sa sb o15) (pc (a.toNat < b.toNat) o15.toInt)
       ∧ go (.brGeu t false sa sb o15) (.br .geu sa sb o15) (pc (b.toNat ≤ a.toNat) o15.toInt)
       ∧ go (.brPany t false pa o15) (.brP true pa o15) (pc (T.rp pa ≠ 0) o15.toInt)
       ∧ go (.brPnone t false pa o15) (.brP false pa o15) (pc (T.rp pa = 0) o15.toInt)
       ∧ go (.jmp t false o25) (.jmp o25) (pc True o25.toInt)
       ∧ go (.jr t false sa) (.jr sa) (a.extractLsb' 0 44)
       ∧ IssuesTo (.jal t false sd o20) s t (.jal sd o20) (pc True o20.toInt)
         [.s (T.useBank sd) sd ((T.pc + 16).setWidth 64)]
       ∧ IssuesTo (.loopBr t false lc o23) s t (.loopBr lc o23) (pc (1 < (T.rlc lc).toNat) o23.toInt)
         (if T.rlc lc = 0 then [] else [.lc lc (T.rlc lc - 1)]))
    ∧ (∀ (s : State) (t : TileId) (rev : Bool),
       let T := s.tile t.val
       (CanIssue s t (.stepWait rev) → Runs (.stepWait t false rev) s fun u => u = s.setTile t.val (u.tile t.val)
           ∧ ∃ f, InFlight T (u.tile t.val) (.stepWait rev) (T.pc + 16) f ∧ f.kind = .stepWait)
         ∧ (CanIssue s t .nop → Runs (.nop t false) s fun u => u = s.setTile t.val (u.tile t.val)
           ∧ SameRegs T (u.tile t.val) ∧ (u.tile t.val).pc = T.pc + 16 ∧ (u.tile t.val).flights = T.flights)
         ∧ (issueBlocked s t.val T = false → T.asm = [] → T.st = .handler → meets s t.val T [.fret] = .issue →
           Runs (.fret t false) s fun u => u = s.setTile t.val (u.tile t.val)
             ∧ (u.tile t.val).st = .run ∧ (u.tile t.val).pc = T.resumePc ∧ SameRegs T (u.tile t.val))
         ∧ (issueBlocked s t.val T = false → T.asm = [] → T.st = .handler → T.trapOp = none →
           meets s t.val T [.fretReplay] = .issue →
           Runs (.fretReplay t false) s fun u => u = s.setTile t.val (u.tile t.val)
             ∧ (u.tile t.val).st = .run ∧ (u.tile t.val).pc = T.resumePc ∧ SameRegs T (u.tile t.val)))

/-! ### Vector operations (V slot) -/

/-- Lane-wise floating-point operations: the exact result of decoded inputs, rounded once, in FP32 for t = 0 and BF16 for t =
1; inactive lanes keep vd, or become zero with z. -/
def Obligations.VectorFloatOps : Prop :=
  ∀ (s : State) (t : TileId) (vd va vb vc : BitVec 5) (c : VCtl),
    let T := s.tile t.val
    let d (x : W32) : Fp.FV := if c.t then Fp.decB x else Fp.dec x
    let a (i : Nat) : Fp.FV := d (lane (T.rv va) i)
    let b (i : Nat) : Fp.FV := d (lane (T.rv vb) i)
    let e (i : Nat) : Fp.FV := d (lane (T.rv vc) i)
    let w (x : Instr) (op : TileOp) (f : Nat → Fp.FV) : Prop := IssuesTo x s t op (T.pc + 16)
      [.v vd (masked (T.rp c.pg) c.z (T.rv vd) fun i => (Fp.roundTo (if c.t then 8 else 24) (f i)).bits)]
    w (.vAdd t false vd va vb c) (.vArith .add vd va vb 0 c) (fun i => Fp.addX (a i) (b i))
      ∧ w (.vSub t false vd va vb c) (.vArith .sub vd va vb 0 c) (fun i => Fp.addX (a i) (Fp.negX (b i)))
      ∧ w (.vMul t false vd va vb c) (.vArith .mul vd va vb 0 c) (fun i => Fp.mulX (a i) (b i))
      ∧ w (.vFma t false vd va vb vc c) (.vArith .fma vd va vb vc c) (fun i => Fp.addX (Fp.mulX (a i) (b i)) (e i))
      ∧ w (.vFms t false vd va vb vc c) (.vArith .fms vd va vb vc c)
        (fun i => Fp.addX (Fp.mulX (a i) (b i)) (Fp.negX (e i)))
      ∧ w (.vFnma t false vd va vb vc c) (.vArith .fnma vd va vb vc c)
        (fun i => Fp.addX (Fp.mulX (Fp.negX (a i)) (b i)) (e i))
      ∧ w (.vMax t false vd va vb c) (.vArith .max vd va vb 0 c) (fun i => Fp.maxX (a i) (b i))
      ∧ w (.vMin t false vd va vb c) (.vArith .min vd va vb 0 c) (fun i => Fp.minX (a i) (b i))
      ∧ w (.vAbs t false vd va c) (.vArith .abs vd va 0 0 c) (fun i => Fp.absX (a i))
      ∧ w (.vNeg t false vd va c) (.vArith .neg vd va 0 0 c) (fun i => Fp.negX (a i))

/-- Lane-wise integer operations modulo 2^32, with shift amounts of five bits. -/
def Obligations.VectorIntegerOps : Prop :=
  ∀ (s : State) (t : TileId) (vd va vb vc : BitVec 5) (c : VCtl),
    let T := s.tile t.val
    let a (i : Nat) : W32 := lane (T.rv va) i
    let b (i : Nat) : W32 := lane (T.rv vb) i
    let e (i : Nat) : W32 := lane (T.rv vc) i
    let n (i : Nat) : Nat := (b i).toNat % 32
    let w (x : Instr) (op : TileOp) (f : Nat → W32) : Prop := IssuesTo x s t op (T.pc + 16)
      [.v vd (masked (T.rp c.pg) c.z (T.rv vd) f)]
    w (.vIadd t false vd va vb c) (.vArith .iadd vd va vb 0 c) (fun i => a i + b i)
      ∧ w (.vIsub t false vd va vb c) (.vArith .isub vd va vb 0 c) (fun i => a i - b i)
      ∧ w (.vImul t false vd va vb c) (.vArith .imul vd va vb 0 c) (fun i => a i * b i)
      ∧ w (.vImulh t false vd va vb c) (.vArith .imulh vd va vb 0 c)
        (fun i => BitVec.ofInt 32 ((a i).toInt * (b i).toInt / 2 ^ 32))
      ∧ w (.vIand t false vd va vb c) (.vArith .iand vd va vb 0 c) (fun i => a i &&& b i)
      ∧ w (.vIor t false vd va vb c) (.vArith .ior vd va vb 0 c) (fun i => a i ||| b i)
      ∧ w (.vIxor t false vd va vb c) (.vArith .ixor vd va vb 0 c) (fun i => a i ^^^ b i)
      ∧ w (.vIshl t false vd va vb c) (.vArith .ishl vd va vb 0 c) (fun i => a i <<< n i)
      ∧ w (.vIshr t false vd va vb c) (.vArith .ishr vd va vb 0 c) (fun i => a i >>> n i)
      ∧ w (.vIsar t false vd va vb c) (.vArith .isar vd va vb 0 c) (fun i => (a i).sshiftRight (n i))
      ∧ w (.vImax t false vd va vb c) (.vArith .imax vd va vb 0 c)
        (fun i => BitVec.ofInt 32 (max (a i).toInt (b i).toInt))
      ∧ w (.vImin t false vd va vb c) (.vArith .imin vd va vb 0 c)
        (fun i => BitVec.ofInt 32 (min (a i).toInt (b i).toInt))
      ∧ w (.vImac t false vd va vb vc c) (.vArith .imac vd va vb vc c) (fun i => a i * b i + e i)

/-- Comparisons write a predicate; conversions write lanes, a packed MX image or the lanes of one. -/
def Obligations.VectorCompareAndConvert : Prop :=
  ∀ (s : State) (t : TileId) (pd cnd fmt pg : BitVec 3) (vd va vb kind sc : BitVec 5) (z : Bool) (c : VCtl),
    let T := s.tile t.val
    let w (x : Instr) (op : TileOp) (r : RegWrite) : Prop := IssuesTo x s t op (T.pc + 16) [r]
    let d (x : W32) : Fp.FV := if c.t then Fp.decB x else Fp.dec x
    w (.vCmp t false pd va vb cnd c) (.vCmp false pd va vb cnd c)
        (.p pd (comparePred (T.rp c.pg) (T.rp pd) c.z fun i => fpCond cnd (d (lane (T.rv va) i)) (d (lane (T.rv vb) i))))
      ∧ w (.vIcmp t false pd va vb cnd c) (.vCmp true pd va vb cnd c)
        (.p pd (comparePred (T.rp c.pg) (T.rp pd) c.z fun i => intCond cnd (lane (T.rv va) i) (lane (T.rv vb) i)))
      ∧ w (.vCvt t false vd va kind pg z) (.vCvt vd va kind pg z)
        (.v vd (if kind.toNat ≤ 5 then masked (T.rp pg) z (T.rv vd) fun i => (cvt1 kind.toNat (lane (T.rv va) i)).bits
          else cvtAll kind.toNat (T.rp pg) (T.rv va)))
      ∧ w (.vCvtMx t false vd va fmt pg z) (.vCvtMx vd va fmt pg z) (.v vd (mxPack fmt none (T.rp pg) (T.rv va)))
      ∧ w (.vCvtMxs t false vd va fmt sc pg z) (.vCvtMxs vd va fmt sc pg z)
        (.v vd (mxPack fmt (some ((T.rs sc).toNat % 256, (T.rs sc).toNat / 256 % 256)) (T.rp pg) (T.rv va)))
      ∧ w (.vCvtMxf t false vd va fmt pg z) (.vCvtMxf vd va fmt pg z)
        (.v vd (masked (T.rp pg) z (T.rv vd) fun i => (mxUnpack1 fmt (T.rv va) i).bits))

/-- Functions, the softmax merge, reductions and scans; a sum of FP32 lanes is the canonical sum, in which an inactive lane
contributes +0. Clauses that rest on choices or readings of the model: log entries 41 and 116. -/
def Obligations.VectorFunctionsAndReductions : Prop :=
  ∀ (s : State) (t : TileId) (vd va vb vc : BitVec 5) (pg : BitVec 3) (z : Bool) (c : VCtl),
    let T := s.tile t.val
    let w (x : Instr) (op : TileOp) (r : VReg) : Prop := IssuesTo x s t op (T.pc + 16) [.v vd r]
    let f (g : W32 → Fp.Rounded) : VReg := masked (T.rp c.pg) c.z (T.rv vd) fun i => (g (lane (T.rv va) i)).bits
    let xs := (List.range 64).map fun i => if active (T.rp c.pg) i then lane (T.rv va) i else 0
    let on := ((List.range 64).filter (active (T.rp c.pg))).map fun i => Fp.dec (lane (T.rv va) i)
    let q := T.rv vc
    let m := Fp.softMerge ⟨lane q 0, lane q 1, lanes (T.rv va)⟩ ⟨lane q 2, lane q 3, lanes (T.rv vb)⟩
    w (.vExp2 t false vd va c) (.vFun .exp2 vd va c) (f Fp.exp2R)
      ∧ w (.vLog2 t false vd va c) (.vFun .log2 vd va c) (f Fp.log2R)
      ∧ w (.vRcp t false vd va c) (.vFun .rcp vd va c) (f Fp.rcpR)
      ∧ w (.vRsqrt t false vd va c) (.vFun .rsqrt vd va c) (f Fp.rsqrtR)
      ∧ w (.vOsm t false vd va vb vc pg z false) (.vOsm vd va vb vc pg z false)
        (masked (T.rp pg) z (T.rv vd) fun i => m.o.getD i 0)
      ∧ w (.vRsum t false vd va c) (.vRed .rsum vd va c) (splat (Fp.canonSum xs))
      ∧ w (.vRmax t false vd va c) (.vRed .rmax vd va c) (splat (Fp.fl (on.foldl Fp.maxX (.inf true))))
      ∧ w (.vRmin t false vd va c) (.vRed .rmin vd va c) (splat (Fp.fl (on.foldl Fp.minX (.inf false))))
      ∧ w (.vIrsum t false vd va c) (.vRed .irsum vd va c) (splat (Fp.intSum xs))
      ∧ w (.vScan t false vd va c) (.vRed .scan vd va c) (ofLanes ((List.range 64).map fun i => Fp.canonSum (xs.take (i + 1))))
      ∧ w (.vIscan t false vd va c) (.vRed .iscan vd va c) (ofLanes ((List.range 64).map fun i => Fp.intSum (xs.take (i + 1))))

/-- Lane movement, and copies between the register files. Predicate operations, and random numbers keyed by the context's
seed. -/
def Obligations.VectorLanePredicateRandomOps : Prop :=
  (∀ (s : State) (t : TileId) (vd va vb sa sd : BitVec 5) (n : BitVec 6) (c : VCtl),
     let T := s.tile t.val
     let w (x : Instr) (op : TileOp) (r : VReg) : Prop := IssuesTo x s t op (T.pc + 16) [.v vd r]
     let k (f : Nat → W32) : VReg := masked (T.rp c.pg) c.z (T.rv vd) f
     w (.vPerm t false vd va vb c) (.vLane3 .perm vd va vb c)
         (k fun i => lane (T.rv va) ((lane (T.rv vb) i).toNat % 64))
       ∧ w (.vSel t false vd va vb c) (.vLane3 .sel vd va vb c)
         (ofLanes ((List.range 64).map fun i => if active (T.rp c.pg) i then lane (T.rv va) i else lane (T.rv vb) i))
       ∧ w (.vMov t false vd va c) (.vLane3 .mov vd va 0 c) (k fun i => lane (T.rv va) i)
       ∧ w (.vRot t false vd va n c) (.vLaneI .rot vd va n c) (k fun i => lane (T.rv va) ((i + n.toNat) % 64))
       ∧ w (.vBfly t false vd va n c) (.vLaneI .bfly vd va n c) (k fun i => lane (T.rv va) (i ^^^ 2 ^ n.toNat))
       ∧ w (.vBcastl t false vd va n c) (.vLaneI .bcastl vd va n c) (k fun _ => lane (T.rv va) n.toNat)
       ∧ w (.vBcast t false vd sa c) (.vBcast vd sa c) (k fun _ => BitVec.ofNat 32 (T.rs sa).toNat)
       ∧ w (.vIns t false vd sa n c) (.vIns vd sa n c) (ofLanes ((List.range 64).map fun i =>
         if i = n.toNat then BitVec.ofNat 32 (T.rs sa).toNat else lane (T.rv vd) i))
       ∧ w (.vIota t false vd n c) (.vIota vd n c) (k fun i => BitVec.ofNat 32 (i + n.toNat))
       ∧ IssuesTo (.vExt t false sd va n c) s t (.vExt sd va n c) (T.pc + 16)
         [.s (T.useBank sd) sd (BitVec.ofNat 64 (lane (T.rv va) n.toNat).toNat)])
    ∧ (∀ (s : State) (t : TileId) (pd pa pb pg : BitVec 3) (vd sd sa sb : BitVec 5) (j : BitVec 2) (z : Bool),
       let T := s.tile t.val
       let w (x : Instr) (op : TileOp) (r : RegWrite) : Prop := IssuesTo x s t op (T.pc + 16) [r]
       let seed := ((s.ctxs.get? T.ctxIndex).map (·.seed)).getD 0
       let word (i : Nat) : W32 :=
         Fp.philox seed (BitVec.ofNat 128 ((T.rs sa).toNat * 2 ^ 64 + (T.rs sb).toNat / 64 * 64 + i)) j.toNat
       w (.vPand t false pd pa pb) (.vPred .pand pd pa pb) (.p pd (T.rp pa &&& T.rp pb))
         ∧ w (.vPor t false pd pa pb) (.vPred .por pd pa pb) (.p pd (T.rp pa ||| T.rp pb))
         ∧ w (.vPxor t false pd pa pb) (.vPred .pxor pd pa pb) (.p pd (T.rp pa ^^^ T.rp pb))
         ∧ w (.vPandn t false pd pa pb) (.vPred .pandn pd pa pb) (.p pd (T.rp pa &&& ~~~(T.rp pb)))
         ∧ w (.vPs2p t false pd sa) (.vPs2p pd sa) (.p pd (T.rs sa))
         ∧ w (.vPp2s t false sd pa) (.vPp2s sd pa) (.s (T.useBank sd) sd (T.rp pa))
         ∧ w (.vPcnt t false sd pa) (.vPcnt sd pa)
           (.s (T.useBank sd) sd (BitVec.ofNat 64 ((List.range 64).filter fun i => (T.rp pa).getLsbD i).length))
         ∧ w (.vRng t false vd sa sb j pg z) (.vRng false vd sa sb j pg z) (.v vd (masked (T.rp pg) z (T.rv vd) word))
         ∧ w (.vRngU t false vd sa sb j pg z) (.vRng true vd sa sb j pg z)
           (.v vd (masked (T.rp pg) z (T.rv vd) fun i => Fp.unitOf (word i))))

/-- The merge stack of a block: init clears its header, a push adds a level-q node with carries, fin folds and empties.
Clauses that rest on choices or readings of the model: log entries 105, 116 and 117. -/
def Obligations.MergeStackOps : Prop :=
  ∀ (s : State) (t : TileId) (va vd : BitVec 5) (aa q : BitVec 4) (i : Bool),
    let T := s.tile t.val
    let b := (T.ra aa).toNat % 2 ^ 44
    IssuesLs (.vTreeInit t ⟨false, false⟩ aa) s t (.vTreeInit aa) [] [[(b, List.replicate 256 0)]]
      ∧ IssuesLs (.vTreePush t ⟨false, false⟩ va aa q i) s t (.vTreePush va aa q i) [] [treePushBytes s b q.toNat i (T.rv va)]
      ∧ IssuesLs (.vTreeFin t ⟨false, false⟩ vd aa i) s t (.vTreeFin vd aa i) [.v vd (treeFold s b i)] [[(b, leBytes 8 0)]]

/-! ### Matrix and local-store operations (M and D slots) -/

/-- The array: a load of weights, a pass that streams vectors into accumulator rows, and transfers of rows. Clauses that rest
on choices or readings of the model: log entries 113 and 117. -/
def Obligations.MatrixOps : Prop :=
  ∀ (s : State) (t : TileId) (aa ai as : BitVec 4) (vd sr : BitVec 5) (fmt : BitVec 3) (c cs ini pub : Bool),
    let T := s.tile t.val
    let b (r : BitVec 4) : Nat := (T.ra r).toNat % 2 ^ 44
    let n := rowCount (T.rs sr)
    let r0 := rowFirst (T.rs sr)
    let rowImage (k : Nat) : List Byte := image (T.accRow (r0 + k)).cols
    let go (x : Instr) (op : TileOp) (kind : FlightKind) (e : Effect) : Prop := CanIssue s t op → Runs x s fun u =>
      u.mem = s.mem ∧ ∃ f, InFlight T (u.tile t.val) op (T.pc + 16) f ∧ f.kind = kind ∧ f.eff = e
    go (.mxaWload t false aa fmt c) (.mxaWload aa fmt c) .fixed
        { Effect.none with image := some (fmt, s.readRaw (b aa) 0x880) }
      ∧ go (.mxaPass t false ai as sr fmt ini c cs) (.mxaPass ai as sr fmt ini c cs) .pass
        { Effect.none with rows := passRows s T fmt ini (b ai) (b as) r0 n }
      ∧ go (.mxaAccMv t false vd sr) (.accMv vd sr) .fixed (Effect.regs [.v vd (T.accRow r0).cols])
      ∧ go (.mxaAccSt t false aa sr pub) (.accSt false aa sr pub) .fixed
        { Effect.none with ls := (List.range n).map fun k => [(b aa + 256 * k, rowImage k)] }
      ∧ go (.mxaAccStt t false aa sr pub) (.accSt true aa sr pub) .fixed
        { Effect.none with ls := (List.range n).map fun k => (List.range 64).map fun col =>
            (b aa + 4 * n * col + 4 * k, leBytes 4 (lane (T.accRow (r0 + k)).cols col).toNat) }
      ∧ go (.mxaAccZero t false sr) (.accZero sr) .fixed
        { Effect.none with rows := (List.range n).map fun k => (r0 + k, AccRow.zero) }

/-- Local-store operations: 8 bytes or a whole vector at the address register plus the scaled offset; tag operations move no
data; zero clears a block. -/
def Obligations.LocalStoreOps : Prop :=
  ∀ (s : State) (t : TileId) (r : BitVec 5) (aa : BitVec 4) (off : BitVec 15) (c : Bool),
    let T := s.tile t.val
    let b := (T.ra aa).toNat % 2 ^ 44
    let a (k : Nat) : Nat := (BitVec.ofNat 44 b + BitVec.ofInt 44 (off.toInt * k)).toNat
    IssuesTo (.lsLd t false r aa off c) s t (.lsLd r aa off c) (T.pc + 16)
        [.s (T.useBank r) r (BitVec.ofNat 64 (leVal (s.readRaw (a 8) 8)))]
      ∧ IssuesLs (.lsSt t false r aa off c) s t (.lsSt r aa off c) [] [[(a 8, leBytes 8 (T.rs r).toNat)]]
      ∧ IssuesTo (.lsVld t false r aa off c) s t (.lsVld r aa off c) (T.pc + 16) [.v r (ofImage (s.readRaw (a 256) 256))]
      ∧ IssuesLs (.lsVst t false r aa off c) s t (.lsVst r aa off c) [] [[(a 256, image (T.rv r))]]
      ∧ IssuesTo (.lsClaim t false aa) s t (.lsClaim aa) (T.pc + 16) []
      ∧ IssuesTo (.lsPublish t false aa) s t (.lsPublish aa) (T.pc + 16) []
      ∧ IssuesTo (.lsRelease t false aa) s t (.lsRelease aa) (T.pc + 16) []
      ∧ IssuesLs (.lsZero t false aa c) s t (.lsZero aa c) [] [[(b, List.replicate 4096 0)]]

/-! ### Memory, synchronisation and queue operations (D slot) -/

/-- A memory operation of a running tile leaves as a request that carries the address, the data of its registers and the
context ID; a fence waits without one. Clauses that rest on choices or readings of the model: log entry 42. -/
def Obligations.MemoryOperationsLeave : Prop :=
  ∀ (s : State) (t : TileId) (r sb sc : BitVec 5) (aa : BitVec 4) (off : BitVec 14) (hint : BitVec 2) (w x y : Bool)
    (o : BitVec 4), (s.tile t.val).st = .run →
    let T := s.tile t.val
    let win := winSel (T.ra aa)
    let b := (T.ra aa).toNat % 2 ^ 44
    let a := (BitVec.ofNat 44 b + BitVec.ofInt 44 (off.toInt * 8)).toNat
    let q (k : ReqKind) (a : Nat) (data cmp : W64) (h : BitVec 2) : State := (s.countMem t).withReq
      ⟨t.val, T.nextId, k, destOf s T.ctxIndex win, destAddr s T.ctxIndex win a, data, cmp, h,
        T.ctxIndex * 128 + T.ctxGen, false, false, 0, false⟩
    Sends (.memLd t false r aa off hint) s t (.memLd r aa off hint) (q .load a 0 0 hint) (.data s.nextReq) []
      ∧ Sends (.memSt t false r aa off hint) s t (.memSt r aa off hint) (q .store a (T.rs r) 0 hint) .fixed []
      ∧ Sends (.memPf t false aa off hint) s t (.memPf aa off hint) (q .prefetch a 0 0 hint) .fixed []
      ∧ Sends (.memDrop t false aa off hint) s t (.memDrop aa off hint) (q .drop a 0 0 hint) .fixed []
      ∧ Sends (.atom t false r sb sc aa w o) s t (.atom r sb sc aa w o) (q (.atomic o w) b (T.rs sb) (T.rs sc) 0)
        (.data s.nextReq) []
      ∧ Sends (.memFence t false x y) s t (.memFence x y) (s.countMem t) (.fence x y) []

/-- kv.walk answers from the entry cache with the slab address and the run of positions, or asks for the entry; kv.append
whose length fits the header, as the tile's program order gives it, leaves as a request that sets the length copy of the
step's parity; for a header of a peer or of the host the check is a free value. Clauses that rest on choices or readings of
the model: log entries 42 and 122. -/
def Obligations.PageOperations : Prop :=
  ∀ (s : State) (t : TileId) (ad aa : BitVec 4) (sb sd : BitVec 5), (s.tile t.val).st = .run →
    let T := s.tile t.val
    let win := winSel (T.ra aa)
    let b := (T.ra aa).toNat % 2 ^ 44
    let ea := walkKey (destOf s T.ctxIndex win) (b + 64 + 16 * kvEntry (T.rs sb).toNat)
    (∀ bytes x y, T.walker.get? ea = some bytes → walkResult (bytes.take 64) (bytes.drop 64) (T.rs sb).toNat = some (x, y) →
        Sends (.kvWalk t false ad aa sb sd) s t (.kvWalk ad aa sb sd) (s.countMem t) .fixed
          [.a ad x, .s (T.useBank sd) sd y])
      ∧ (T.walker.get? ea = none →
        Sends (.kvWalk t false ad aa sb sd) s t (.kvWalk ad aa sb sd)
          ((s.countMem t).bump (R.tileKvwStat t.val) F.tileKvwStat_misses 1) .walkMiss [])
      ∧ (let q : MemReq := ⟨t.val, T.nextId, .append, destOf s T.ctxIndex win, destAddr s T.ctxIndex win b, T.rs sb, T.step, 0,
          T.ctxIndex * 128 + T.ctxGen, false, false, 0, false⟩
        (q.dest = .local → appendOk (headerSeen (s.countMem t) t.val T b) (T.rs sb).toNat = true →
            Sends (.kvAppend t false aa sb) s t (.kvAppend aa sb) ((s.countMem t).withReq q) .fixed [])
          ∧ (q.dest ≠ .local → Config.lengthFits s.freeCtr = true →
            Sends (.kvAppend t false aa sb) s t (.kvAppend aa sb)
              (({ s with freeCtr := s.freeCtr + 1 }.countMem t).withReq q) .fixed []))

/-- Operations on objects and on the tile's queues: a signal with rel waits for its release; dma.post adds a chain head,
dma.stat reads the queue, and dma.cancel drops what has not started. A sy.wait whose object has reached the amount issues, and
one whose object has not is held with stall code 3. Clauses that rest on choices or readings of the model: log entries 12, 37
and 117. -/
def Obligations.SynchronisationOperations : Prop :=
  (∀ (s : State) (t : TileId) (sa sb sd : BitVec 5) (aa : BitVec 4) (q : BitVec 3) (lo : Bool),
     let T := s.tile t.val
     let h := Handle.ofBits (T.rs sa)
     let k := t.val * 8 + q.toNat
     let req (kind : ReqKind) (x : W64) : State := (s.countMem t).withReq
       ⟨t.val, T.nextId, kind, if h.remote then .peer h.device else .local, h.part * 16384 + h.index, x, 0, 0,
         T.ctxIndex * 128 + T.ctxGen, false, false, 0, false⟩
     Sends (.sySignal t false sa sb false) s t (.sySignal sa sb false) (req .signal (T.rs sb)) .fixed []
       ∧ Sends (.sySignal t false sa sb true) s t (.sySignal sa sb true) (s.countMem t) .release []
       ∧ Sends (.syWait t false sa sb false) s t (.syWait sa sb false) (s.countMem t) .fixed []
       ∧ Sends (.syArm t false sa sb) s t (.syArm sa sb) (req .arm (T.rs sb)) .fixed []
       ∧ Sends (.syRead t false sd sa) s t (.syRead sd sa) (req .readObj 0) (.data s.nextReq) []
       ∧ Sends (.dmaPost t false q aa lo) s t (.dmaPost q aa lo)
         (s.addHead k ⟨(T.ra aa).toNat % 2 ^ 44, winSel (T.ra aa), lo, T.step, T.nextId, some []⟩) .fixed []
       ∧ Sends (.dmaStat t false sd q) s t (.dmaStat sd q) s .fixed [.s (T.useBank sd) sd (s.qstat k)]
       ∧ Sends (.dmaCancel t false q) s t (.dmaCancel q) (s.startCancel k) (.cancel q.toNat) [])
    ∧ (∀ (s : State) (t : Nat) (T : Tile) (sa sb : BitVec 5) (acq : Bool), T.flights = [] →
       let h := Handle.ofBits (T.rs sa)
       let x := s.obj (h.part * 16384 + h.index)
       opHold s t T (.syWait sa sb acq)
         = if (T.rs sb).toNat ≤ x.toNat then [] else [(3, (T.rs sa).toNat % 2 ^ 30)])

/-! ### Requests where they are performed -/

/-- A request that nothing holds back takes effect when it arrives, in the order of its operation: here, as a packet to a
peer, or as an access of the host. A quiesced slice or stack keeps it waiting, a line leased to a near-memory unit holds it in
the arbiter, and the request of a context in teardown is dropped. What a request does where it is performed: a load answers
the eight bytes, a store and an atomic change the bytes they store after the line has passed the home's shared cache, a signal
adds, an arm sets, and a read of an object answers it. Atomic operations on `n`-bit words: the table of R208. Clauses that
rest on choices or readings of the model: log entries 10, 24 and 43. -/
def Obligations.RequestsPerformed : Prop :=
  (∀ (s : State) (r : BitVec 32) (q : MemReq), s.reqs.get? r.toNat = some q → q.done = false → q.arbiter = false →
     blockedByLine s r.toNat q = false → notReached s q = false → q.tile < 2048 →
     let ofMemory : Prop := q.kind = .load ∨ q.kind = .store ∨ q.kind = .append ∨ q.kind = .prefetch ∨ q.kind = .drop
       ∨ ∃ o w, q.kind = .atomic o w
     let ofObject : Prop := q.kind = .signal ∨ q.kind = .arm ∨ q.kind = .readObj
     let go (P : State → Prop) : Prop := Runs (.memRequestArrive r .none) s P
     (s.ctxSt (q.ctx / 128) = CtxSt.teardown → go fun u => u = s.dropPacket.answer r.toNat q 0 true)
       ∧ (s.ctxSt (q.ctx / 128) ≠ CtxSt.teardown → refusedByReset s q = false →
         (q.dest = .local → (ofObject ∨ ofMemory ∧ s.quiesced q.addr = false ∧ s.leaseHolds q.addr = false) →
             go fun u => u = s.performReq r.toNat)
           ∧ (q.dest = .local → ofMemory → s.quiesced q.addr = true → go fun u => u = s)
           ∧ (q.dest = .local → ofMemory → s.quiesced q.addr = false → s.leaseHolds q.addr = true → go fun u =>
             u = { s with reqs := s.reqs.set r.toNat { q with arbiter := true } }.holdAt q.addr 1 (.mem r .none))
           ∧ (∀ d, q.dest = .peer d → ofMemory ∨ ofObject → (s.fab.out.any fun f => f.who == .mem r.toNat) = false →
             go fun u => u = sendMem s r.toNat q d)
           ∧ (∀ n, q.dest = .host n → ofMemory ∨ ofObject → go fun u => u = hostMem s r.toNat q n)))
    ∧ (∀ (s : State) (i : Nat) (q : MemReq), s.reqs.get? i = some q →
       let p := q.tile / 256
       let c := q.ctx / 128
       let u := s.performReq i
       let old (n : Nat) : Nat := leVal (s.bytesAt q.addr n)
       let here (n : Nat) : Prop := s.answers c q.addr n = true ∧ s.statusAt q.addr n = .ok ∧ s.isRemote p q.addr = false
       (q.kind = .load → here 8 → u = (s.homeAccess c q.addr q.hint 0).answer i q (BitVec.ofNat 64 (old 8)) false)
         ∧ (q.kind = .store → here 8 → u = (((s.keepOld q).homeAccess c q.addr q.hint (State.byteMask q.addr 8)).writeBytes q.addr
             (leBytes 8 q.data.toNat)).answer i q 0 false)
         ∧ (∀ o w, q.kind = .atomic o w → here (if w then 4 else 8) →
           let n := if w then 4 else 8
           u = ((s.homeAccess c q.addr 0 (State.byteMask q.addr n)).writeBytes q.addr (leBytes n (State.atomicNew o (8 * n) (old n) q.data.toNat q.cmp.toNat))).answer i q
             (BitVec.ofNat 64 (old n)) false)
         ∧ (q.kind = .signal → u = (s.setObj q.addr (s.obj q.addr + q.data)).answer i q 0 false)
         ∧ (q.kind = .arm → u = (s.setObj q.addr q.data).answer i q 0 false)
         ∧ (q.kind = .readObj → u = s.answer i q (s.obj q.addr) false))
    ∧ (∀ (n : Nat) (old b c : BitVec n), n = 32 ∨ n = 64 →
       let f (o : BitVec 4) : Nat := State.atomicNew o n old.toNat b.toNat c.toNat
       f 0 = (old + b).toNat ∧ f 1 = (old &&& b).toNat ∧ f 2 = (old ||| b).toNat ∧ f 3 = (old ^^^ b).toNat
         ∧ f 4 = (if old.toInt ≤ b.toInt then old else b).toNat ∧ f 5 = (if old.toInt ≤ b.toInt then b else old).toNat
         ∧ f 6 = min old.toNat b.toNat ∧ f 7 = max old.toNat b.toNat ∧ f 8 = b.toNat
         ∧ f 9 = (if old = c then b else old).toNat)

/-- Answers return: data goes to its register with the request gone, an acknowledgement only ends the request, and one object
update of a cycle is applied. A missed walk ends with its entry, and a release or a fence ends when the earlier stores are
performed and, for a release, the context's dirty remote lines are written back. Clauses that rest on choices or readings of
the model: log entry 10. -/
def Obligations.AnswersReturn : Prop :=
  (∀ (s : State) (r : BitVec 32) (q : MemReq) (ext : W64), s.reqs.get? r.toNat = some q →
     let T := s.tile q.tile
     let left := s.reqs.erase r.toNat
     (∀ f n, (T.flights.find? fun f => f.kind == .data r.toNat) = some f → f.dsts = [.s n] → f.eff = Effect.none →
         q.done = true → q.bad = false → q.dest = .local → T.suppress = false →
         Runs (.memDataArrive r ext) s fun u => u.mem = s.mem ∧ u.reqs = left ∧ OtherTiles q.tile s u
           ∧ SameRegs (T.writeReg (f.toS n q.val)) (u.tile q.tile)
           ∧ (u.tile q.tile).flights = T.flights.filter fun g => g.id != f.id)
       ∧ (q.done = true → (T.flights.any fun f => f.kind == .data r.toNat) = false →
         Runs (.memAckReturn r) s fun u => u = { s with reqs := left })
       ∧ (q.done = false → q.dest = .local → q.kind = .signal → q.tile < 2048 →
         updateArrives s [r.toNat] r.toNat = true →
         Runs (.objectUpdateArrive [r]) s fun u => u = (s.setObj q.addr (s.obj q.addr + q.data)).answer r.toNat q 0 false))
    ∧ (∀ (s : State) (t : TileId) (id : BitVec 32) (f : Flight) (bad : List (BitVec 38)),
       (s.tile t.val).flight? id.toNat = some f → (s.tile t.val).suppress = false → f.eff = Effect.none →
       let T := s.tile t.val
       let c := T.ctxIndex
       let clean := s.releaseLines (t.val / 256) c (bad.map BitVec.toNat)
       (∀ ad aa sb sd x y, f.kind = .walkMiss → f.op = .kvWalk ad aa sb sd → destOf s c (winSel (T.ra aa)) = .local →
           let b := (T.ra aa).toNat % 2 ^ 44
           let p := (f.args.headD 0).toNat
           let ea := b + 64 + 16 * kvEntry p
           let h := s.cachedRead (t.val / 256) c b 64 1
           let e := h.2.cachedRead (t.val / 256) c ea 16 1
           s.waitsAt b 64 = false → s.waitsAt ea 16 = false → s.shutOut (t.val / 256) c ea = false → s.answers c b 64 = true → s.answers c ea 16 = true →
           s.statusAt b 64 = .ok → s.statusAt ea 16 = .ok → walkResult h.1 e.1 p = some (x, y) → h.1.length = 64 →
           Runs (.kvWalkEntryReturn t id .none []) s fun u => u.mem = e.2.mem ∧ OtherTiles t.val s u
             ∧ SameRegs (T.writeRegs [.a ad x, f.toS sd y]) (u.tile t.val)
             ∧ (u.tile t.val).walker.get? ea = some (h.1 ++ e.1))
         ∧ (∀ rel, f.kind = .fence rel false → storesDone s t.val f.id true = true →
           Runs (.releaseWritebackDone t ⟨id, bad⟩) s fun u => u.mem = (if rel then clean else s).mem ∧ OtherTiles t.val s u
             ∧ SameRegs T (u.tile t.val) ∧ (u.tile t.val).flights = T.flights.filter fun g => g.id != f.id)
         ∧ (∀ sa sb rel, f.kind = .release → f.op = .sySignal sa sb rel → storesDone s t.val f.id false = true →
           let h := Handle.ofBits (f.args.headD 0)
           Runs (.releaseWritebackDone t ⟨id, bad⟩) s fun u => u.mem = clean.mem ∧ OtherTiles t.val s u ∧ SameRegs T (u.tile t.val)
             ∧ u.reqs = s.reqs.set s.nextReq ⟨t.val, f.id, .signal, if h.remote then .peer h.device else .local,
               h.part * 16384 + h.index, f.args.getD 1 0, 0, 0, T.ctxIndex * 128 + T.ctxGen, false, false, 0, false⟩))

/-! ### Retirement, traps and preemption of a tile -/

/-- An operation that retires makes its writes, local-store bytes first and registers with them, and leaves every other tile
and byte alone; a pass commits its rows. Under a teardown nothing is written. One that meets an unreadable local-store word is
abandoned there, runs its cycles out without effect, and leaves a deferred LSERR. step.wait ends with the tile in STEPWAIT
when it is the only operation left and the step's stores have arrived. The array's density is held through a fill of fill_max
cycles, falls through a ramp, and rises through one, from quiet or from where the ramp down had come to; the cycles with a
dummy are counted. Without smoothing the array falls quiet at once. Clauses that rest on choices or readings of the model: log
entries 12, 40, 118 and 120. -/
def Obligations.RetirementAndSmoothing : Prop :=
  (∀ (s : State) (t : TileId) (id : BitVec 32) (f : Flight), (s.tile t.val).flight? id.toNat = some f → f.dead = false →
     let T := s.tile t.val
     let gone (u : State) : Prop := OtherTiles t.val s u
       ∧ (u.tile t.val).flights.map (·.id) = (T.flights.map (·.id)).filter (· != f.id)
       ∧ (f.eff.ls.flatten = [] → (u.tile t.val).flights = T.flights.filter fun g => g.id != f.id)
     (f.kind = .fixed → T.suppress = false → Runs (.opRetire t id .ok) s fun u => gone u
         ∧ u.mem = (f.eff.ls.flatten.foldl (fun (v : State) w => v.writeRaw w.1 w.2) s).mem
         ∧ SameRegs (T.applyEffect f.eff) (u.tile t.val))
       ∧ (f.kind = .fixed → T.suppress = true → Runs (.opRetire t id .ok) s fun u => gone u ∧ u.mem = s.mem
         ∧ SameRegs T (u.tile t.val))
       ∧ (f.kind = .pass → T.suppress = false → Runs (.passVerdict t id .good) s fun u => gone u
         ∧ u.mem = (f.eff.ls.flatten.foldl (fun (v : State) w => v.writeRaw w.1 w.2) s).mem
         ∧ SameRegs (T.applyEffect f.eff) (u.tile t.val))
       ∧ (∀ a n, f.kind = .fixed → faultFits f (.lsUe a n) = true → T.suppress = false → T.st = .run → T.drain = none →
         Runs (.opRetire t id (.lsUe a n)) s fun u => OtherTiles t.val s u ∧ u.mem = (countFault s t.val f.op (.lsUe a n)).mem
           ∧ SameRegs (T.lostWeights f.op) (u.tile t.val)
           ∧ (u.tile t.val).flights = (T.flights.map fun g => if g.id = f.id then { g with dead := true, eff := Effect.none } else g)
           ∧ (u.tile t.val).drain = some ⟨Cause.lserr, BitVec.ofNat 56 (s.globalHere a.toNat), f.op.slot, some f.op, f.pc⟩))
    ∧ (∀ (s : State) (t : TileId) (f : Flight), (s.tile t.val).flights = [f] → f.kind = .stepWait → f.dead = false →
       f.op ≠ .stepWait true → stepDone s t.val (s.tile t.val) = true → (s.tile t.val).suppress = false → (s.tile t.val).st = .run →
       Runs (.stepWaitRetire t) s fun u => u.mem = s.mem ∧ OtherTiles t.val s u ∧ SameRegs (s.tile t.val) (u.tile t.val)
         ∧ (u.tile t.val).st = .stepwait ∧ (u.tile t.val).flights = [])
    ∧ (∀ (s : State) (t : TileId) (x : BitVec 13),
       let T := s.tile t.val
       let on := s.fld (R.mxaSmooth t.val) F.mxaSmooth_enable = 1
       let up := s.fld (R.mxaSmooth t.val) F.mxaSmooth_ramp_up
       let down := s.fld (R.mxaSmooth t.val) F.mxaSmooth_ramp_down
       let k := min x.toNat down
       let moved (x : BitVec 2) (k : Nat) : State :=
         (s.setTile t.val { T with smooth := x }).bump (R.mxaBusycnt t.val) F.mxaBusycnt_dummy k
       (T.smooth = 1 → loadingWeights T = false →
           (on → Runs (.smoothFillEnd t) s fun u => u = moved 2 (s.fld (R.mxaSmooth t.val) F.mxaSmooth_fill_max))
             ∧ (¬ on → Runs (.smoothFillEnd t) s fun u => u = s.setTile t.val { T with smooth := 0 }))
         ∧ (T.smooth = 2 → Runs (.smoothRampDownEnd t) s fun u => u = moved 0 (down / 2))
         ∧ (T.smooth = 3 → T.held = false →
           let full (k : Nat) : State :=
             (s.setTile t.val { T with smooth := 1, noIdle := false }).bump (R.mxaBusycnt t.val) F.mxaBusycnt_dummy k
           (T.rampQuiet = true → Runs (.smoothRampUpEnd t x) s fun u => u = full (upDummies up down down))
             ∧ (T.rampQuiet = false → Runs (.smoothRampUpEnd t x) s fun u =>
               u = full (downDummies down k + upDummies up down k))))

/-- Taking a trap (R61, R62, R66): the trap registers record cause, address, slot and bundle, the handler starts at
TILE.FH_BASE with its bank clear; a second trap in the handler halts the tile, resets it, and revives the step with the cause
of the trap that the handler served. Events that take a trap: the drain of a deferred trap ends, a wait exceeds stall_to, or
the line to issue from is unreadable; a line that arrives is held and one with a parity error is asked for again. Clauses that
rest on choices or readings of the model: log entries 11, 35, 36, 38, 106, 119 and 126. -/
def Obligations.TrapEntry : Prop :=
  (∀ (s : State) (t : Nat) (tr : TrapRec) (resume : BitVec 44) (deferred : Bool),
     let T := s.tile t
     let U := (enterHandler s t tr resume deferred).tile t
     (T.st ≠ .handler → tr.cause ≠ Cause.bound →
         U.st = .handler ∧ U.pc = BitVec.ofNat 44 (s.fld (R.tileFhBase t) F.tileFhBase_base * 0x1000)
           ∧ U.trapCause = BitVec.ofNat 3 tr.cause ∧ U.trapPc = tr.pc ∧ U.trapAddr = tr.addr ∧ U.resumePc = resume
           ∧ U.trapSlot = tr.slot.code ∧ U.trapValid = true ∧ U.trapOp = (if deferred then tr.op else none)
           ∧ U.s = T.s ∧ U.v = T.v ∧ U.p = T.p ∧ U.a = T.a ∧ U.lc = T.lc ∧ U.acc = T.acc ∧ U.hs = SMap.empty)
       ∧ (T.st = .handler →
         let H := { T with st := .halted, trapDouble := true, asm := [], held := false, stall := 0, drain := none, drainMore := [] }
         let s1 := (trapRecord (s.setTile t H) t H tr 3).startEngineReset (t / 256) 1 t 3
         enterHandler s t tr resume deferred = if T.ctxValid then s1.startRevival T.ctxIndex T.trapCause.toNat else s1))
    ∧ (∀ (s : State) (t : TileId) (tr : TrapRec) (line : BitVec 38) (op : TileOp) (on : Nat),
       let T := s.tile t.val
       let wait (code : BitVec 2) : Prop := T.held = true ∧ T.st = .run ∧ issueBlocked s t.val T = false
         ∧ (bundleHolds s t.val T T.asm).find? (fun h => h.2.1 == code) = some (op, code, on)
       let sync : TrapRec := ⟨Cause.syncto, BitVec.ofNat 56 on, op.slot, some op, T.pc⟩
       let line0 : Nat := T.pc.toNat / 64 * 64
       (T.drain = some tr → T.flights = [] → T.drainMore = [] →
           Runs (.deferredTrapTaken ⟨t, 0, 0⟩) s (fun u =>
             u = enterHandler (s.setTile t.val { T with trapPending := pendingBeside T tr [tr] }) t.val tr T.pc true)
           ∧ Runs (.deferredTrapTaken ⟨t, 0, 1⟩) s (fun u =>
             u = enterHandler (s.setTile t.val { T with trapPending := T.trapPending ||| causeBits [tr] }) t.val
               ⟨Cause.iferr, BitVec.ofNat 56 (s.globalHere line0), .s, none, T.pc⟩ T.pc false))
         ∧ (wait 1 → Runs (.tagStallTimeout t) s fun u => u = enterHandler (s.setTile t.val T) t.val sync T.pc false)
         ∧ (wait 3 → Runs (.syncWaitTimeout t) s fun u => u = enterHandler (s.setTile t.val T) t.val sync T.pc false)
         ∧ Runs (.ibufLineArrive t line .ok) s (fun u =>
           u = s.setTile t.val (nextLine { T with ibuf := T.ibuf.set line.toNat true }))
         ∧ Runs (.ibufLineArrive t line .parity) s (fun u =>
           u = (s.setTile t.val (askLine { T with ibuf := T.ibuf.erase line.toNat } line.toNat)).bump (R.tileIbuf t.val) F.tileIbuf_refetch 1)
         ∧ (T.pc.toNat / 64 = line.toNat → issueBlocked s t.val T = false → Runs (.ibufLineArrive t line .bad) s fun u =>
           u = enterHandler (s.setTile t.val (nextLine { T with ibuf := T.ibuf.erase line.toNat })) t.val
             ⟨Cause.iferr, BitVec.ofNat 56 (s.globalHere (64 * line.toNat)), .s, none, T.pc⟩ T.pc false))

/-- Preemption: a request stops the queues' fetching, an idle tile starts a restore, a drained tile starts its save, and an
urgent save that has not begun falls back to the step boundary. A save ends with the tile IDLE and cleared, a restore with the
registers, tags, weights and accumulator of the save area. Clauses that rest on choices or readings of the model: log entries
39, 107, 108 and 127. -/
def Obligations.PreemptionSaveAndRestore : Prop :=
  (∀ (s : State) (t : TileId),
     let T := s.tile t.val
     let noDma (u : State) : Prop := OtherTiles t.val s u ∧ u.mem = s.mem ∧ SameRegs T (u.tile t.val)
     (T.preempt = none → (T.st = .run ∨ T.st = .stepwait ∨ T.st = .handler) →
         (Runs (.stepSaveRequest t) s fun u => noDma u ∧ (u.tile t.val).preempt = some .step)
           ∧ (Runs (.urgentSaveRequest t) s fun u => noDma u ∧ (u.tile t.val).preempt = some .urgent
             ∧ ∀ k ∈ State.tileQueues t.val, (u.queue k).st ≠ .run))
       ∧ (T.preempt = none → T.st = .idle → Runs (.restoreRequest t) s fun u =>
         u = s.setTile t.val { T with st := .restore, preempt := some .restore, preemptResult := 0 })
       ∧ (T.flights = [] → T.drain = none → (∀ r ∈ s.reqs.vals, r.tile ≠ t.val) →
         (∀ k ∈ State.tileQueues t.val, (s.queue k).active = []) → s.reviving T.ctxIndex = false →
         (T.preempt = some .urgent ∧ T.st = .run ∨ T.preempt = some .step ∧ T.st = .stepwait) →
         Runs (.preemptDrainDone t) s fun u => noDma u ∧ (u.tile t.val).st = .save ∧ (u.tile t.val).saving = true
           ∧ ((u.tile t.val).savedRun = true ↔ T.st = .run))
       ∧ (T.preempt = some .urgent → T.saving = false → Runs (.preemptDefer t) s fun u => noDma u
         ∧ (u.tile t.val).preempt = some .step ∧ (u.tile t.val).preemptResult = 2))
    ∧ (∀ (s : State) (t : TileId) (n : BitVec 19) (bad : List (BitVec 44)),
       let T := s.tile t.val
       let base := s.fld (R.tileSaveBase t.val) F.tileSaveBase_base * 0x10000
       (T.st = .save → resetWaits s t.val = false → Runs (.saveComplete ⟨t, n, bad⟩) s fun u => (u.tile t.val).st = .idle ∧ (u.tile t.val).preemptResult = 1
           ∧ (u.tile t.val).preempt = none ∧ (u.tile t.val).step = T.step ∧ (u.tile t.val).flights = []
           ∧ OtherTiles t.val s u ∧ ∀ k ∈ State.tileQueues t.val, u.queue k = Queue.reset)
         ∧ (T.st = .restore → Runs (.restoreComplete t) s fun u => OtherTiles t.val s u
           ∧ SameRegs (loadTile s t.val base) (u.tile t.val)
           ∧ (u.tile t.val).pc = BitVec.ofNat 44 (s.load (base + 0x18) 8)
           ∧ (u.tile t.val).step = BitVec.ofNat 64 (s.load (base + 0x10) 8)
           ∧ ((u.tile t.val).st = .run ∨ (u.tile t.val).st = .stepwait) ∧ (u.tile t.val).preempt = none))

/-! ### Data movement queues -/

/-- A fetched descriptor that passes the checks joins the queue's fetched descriptors, and the fetch goes on at its next
pointer; one that fails them halts the queue with BOUND, and a failed window check of a secure context raises its alarm. A
fetch from a leased or quiesced line waits. The first fetched descriptor starts when its tags allow it, one of a bulk queue
when an engine is free; a fence or a bulk queue waits for the one before. Clauses that rest on choices or readings of the
model: log entries 52 and 54. -/
def Obligations.DescriptorFetchAndStart : Prop :=
  (∀ (s : State) (q : QId) (h : ChainHead) (a : Nat),
     let k := queueKey q
     let Q := s.queue k
     let g := s.placeIn (s.qCtx k) h.win h.addr
     let bs := fetchView s k h a 64
     let d := parseDesc h h.addr (bs.take 64)
     let out (P : State → Prop) : Prop := Runs (.descriptorFetchReturn q .none []) s P
     Q.st = .run → Q.chain = some h → s.queueOff k = false → fetchOrdered s k h = true →
     s.qResolve k h.win g 64 .rd = some (.here a) →
     (s.waitsAt a 64 = true → out fun u => u = s.holdAt a 64 (.fetch q .none []))
       ∧ (s.waitsAt a 64 = false → s.shutOut (qPart k) (s.qTag k) a = false → s.tableOk k h.win g 64 .rd = true →
         h.addr % 64 = 0 → leVal (fetchView s k h (a + 56) 1) % 16 = 0 → leVal ((bs.drop 56).take 8) % 16 = 0 →
         s.lineSt (h.addr / 64) = .ok → Q.fetched.length < 16 →
         (s.descOk k d = true → out fun u => u = s.setQueue k (u.queue k) ∧ (u.queue k).fetched = Q.fetched ++ [d]
             ∧ (u.queue k).active = Q.active ∧ (d.next ≠ 0 → (u.queue k).chain = some { h with addr := d.next, kept := none }))
           ∧ (s.descOk k d = false → out fun u => ∃ v, u = queueViolation v (s.qCtx k) (inWindows s k d)
             ∧ (v.queue k).st = .halted ∧ (v.queue k).lastStatus = St.bound ∧ (v.queue k).fetched = Q.fetched)))
    ∧ (∀ (s : State) (q : QId) (d : Desc) (rest : List Desc),
       let k := queueKey q
       let Q := s.queue k
       Q.st = .run → Q.fetched = d :: rest → s.descOk k d = true → s.tagWait k d 0 [] = 0 → yields s k d 0 = false →
       (isBulk k = true → engineFree s k = true) →
       (((d.fence = false ∧ isBulk k = false) ∨ Q.active = []) → Runs (.descriptorStart q) s fun u =>
           u.mem = s.mem ∧ u.regs = s.regs ∧ (u.queue k).fetched = rest
             ∧ ∃ a, (u.queue k).active = Q.active ++ [a] ∧ a.d = d ∧ a.pos = 0 ∧ a.status = 0)
         ∧ ((d.fence = true ∨ isBulk k = true) → Q.active ≠ [] → Runs (.descriptorStart q) s fun u => u = s))

/-- The next chunk of a started descriptor that has its turn is taken from memory here, is zeros, or is asked of a peer, and
lands; one whose tags, limit, routes or quiesced units do not let it go waits, as does one without its turn. A leased line
keeps it to the next boundary, and a cap to the next window. Bytes that land go, byte by byte, to the destination addresses of
the descriptor's stream: here to memory through the home's shared cache, to a peer as one WR that awaits its acknowledgement,
to the host as a posted write. Clauses that rest on choices or readings of the model: log entries 52 and 53. -/
def Obligations.ChunksMoveAndLand : Prop :=
  (∀ (s z : State) (q : QId) (i : BitVec 5) (a : Active) (c : SMap Nat),
     let k := queueKey q
     let n := chunkLen a.d a.pos
     let w := takeTags { z with capUsed := c } k a a.pos
     let v := setActive w.1 k i.toNat w.2
     let out (P : State → Prop) : Prop := Runs (.dmaLineReturn q i .none []) s P
     activeAt s k i.toNat = some a → ((s.queue k).st = .run ∨ (s.queue k).st = .stopped) →
     ((chunkFree s k a = false ∨ yields s k a.d a.pos = true) → out fun u => u = s)
       ∧ (chunkFree s k a = true → yields s k a.d a.pos = false →
         (∀ y, chunkLeased s k a.d a.pos n = some y → out fun u => u = s.holdAt y 1 (.line q i .none []))
           ∧ (chunkLeased s k a.d a.pos n = none →
             (useCaps s k a.d a.pos n = none → out fun u => u = heldByCap s k)
               ∧ (useCaps s k a.d a.pos n = some c → takeTurns s k i.toNat a = none → out fun u => u = s)
               ∧ (useCaps s k a.d a.pos n = some c → takeTurns s k i.toNat a = some (z, false) → out fun u => u = z)
               ∧ (useCaps s k a.d a.pos n = some c → takeTurns s k i.toNat a = some (z, true) →
                 dstReset v k a.d a.pos n = false → dstGone v k a.d a.pos n = false →
                 (a.d.zeroOp = true → out fun u => u = landBytes v k i.toNat (List.replicate n 0))
                   ∧ (∀ y, a.d.zeroOp = false → v.qResolve k a.d.swin (a.d.srcAt a.pos) n .rd = some (.here y) →
                     v.resetHome (qPart k) y = false → v.answers (v.qTag k) y n = true → v.statusAt y n = .ok →
                     out fun u => u = landBytes (v.homeAccess (v.qTag k) y (a.d.hint false) 0) k i.toNat (chunkBytes v y n))
                   ∧ (∀ d y, a.d.zeroOp = false → v.qResolve k a.d.swin (a.d.srcAt a.pos) n .rd = some (.peer d y) →
                     out fun u => u = v.sendRequest (qPart k) (v.qTag k) d Pk.rd y n 0 0 [] (.dmaRead k a.d.addr))))))
    ∧ (∀ (s : State) (k : Nat) (a : Active) (g : Nat) (bs : List Byte),
       let u := dmaWrite s k a (g, bs)
       (∀ x, s.qResolve k a.d.dwin g bs.length .wr = some (.here x) → lsBlock? x = none →
           u = ((s.homeAccess (s.qTag k) x (a.d.hint true) (State.byteMask x bs.length)).writeBytes x bs, a))
         ∧ (∀ x b, s.qResolve k a.d.dwin g bs.length .wr = some (.here x) → lsBlock? x = some b →
           u.1.mem = (s.writeRaw x bs).mem ∧ u.2.pos = a.pos ∧ u.2.acks = a.acks)
         ∧ (∀ d x, s.qResolve k a.d.dwin g bs.length .wr = some (.peer d x) → u.2.acks = a.acks + 1 ∧ u.1.mem = s.mem)
         ∧ (∀ x, s.qResolve k a.d.dwin g bs.length .wr = some (.host x) → u = (s.emit (.hostWrite x bs), a)))

/-- The oldest descriptor completes when all its bytes have landed and are acknowledged; with a completion flag its record
takes the next ring entry, and with sig its object is signalled. One that completes late counts in its group. Clauses that
rest on choices or readings of the model: log entry 52. -/
def Obligations.DescriptorCompletes : Prop :=
  ∀ (s : State) (q : QId) (late : Bool) (a : Active) (rest : List Active),
    let k := queueKey q
    let Q := s.queue k
    Q.active = a :: rest → a.status = 0 → a.pos = a.d.total → a.acks = 0 → owing s k = none →
    Q.st ≠ .cancelling →
    (a.d.cf = false → a.d.sig = false → Runs (.descriptorComplete ⟨q, late⟩) s fun u =>
        u = (countLate s k late).setQueue k (u.queue k) ∧ (u.queue k).active = rest ∧ (u.queue k).done = min (Q.done + 1) 65535)
      ∧ (a.d.cf = true → s.ringOk k = true → s.ringFull k = false → s.ringWaits k = false → Runs (.descriptorComplete ⟨q, late⟩) s fun u =>
        (u.queue k).active = rest
          ∧ u.fld (qProd k) F.dmaQprod_prod = (s.fld (qProd k) F.dmaQprod_prod + 1) % 2 ^ 32)
      ∧ (a.d.cf = false → a.d.sig = true → (Handle.ofBits a.d.handle).remote = false →
        Runs (.descriptorComplete ⟨q, late⟩) s fun u => (u.queue k).active = rest ∧ u.nextReq = s.nextReq + 1
          ∧ ((u.reqs.get? s.nextReq).map fun r => (r.kind, r.addr, r.data)) = some (.signal,
            (Handle.ofBits a.d.handle).part * 16384 + (Handle.ofBits a.d.handle).index, BitVec.ofNat 64 a.d.amount))

/-- A wait of a tile queue that exceeds stall_to halts it with TIMEOUT. Control of queues: a halted queue resumes, a queue
with work is cancelled and drops what has not started, a cancellation ends, once the reads in flight have returned, with the
queue IDLE, and a window of the caps ends. Heads posted to a bulk queue, by the register and by a context's post ring. Clauses
that rest on choices or readings of the model: log entry 54. -/
def Obligations.QueueTimeoutsAndControl : Prop :=
  (∀ (s : State) (q : QId) (a : Active) (rest : List Active),
     let k := queueKey q
     let halted (u : State) : Prop := (u.queue k).st = .halted ∧ (u.queue k).lastStatus = St.timeout
     (s.queue k).st = .run → (s.queue k).active = a :: rest → a.status = 0 → owing s k = none →
     (a.pos < a.d.total → s.tagWait k a.d a.pos a.rd ≠ 0 → Runs (.dmaTagWaitTimeout q) s halted)
       ∧ (isBulk k = false → a.pos = a.d.total → a.acks = 0 → a.d.cf = true → s.ringOk k = true → s.ringFull k = true →
         Runs (.ringFullTimeout q) s halted))
    ∧ (∀ (s : State) (t : TileId) (p : PartId) (i : Fin 8) (j : Fin 80) (q : QId),
       let kt := queueKey (.tile t i)
       let kb := queueKey (.bulk p j)
       let running (k : Nat) (u : State) : Prop := u = s.setQueue k (u.queue k) ∧ (u.queue k).st = .run
         ∧ (∀ a ∈ (u.queue k).active, a.status = 0)
       let dropped (k : Nat) (u : State) : Prop := u = s.setQueue k (u.queue k) ∧ (u.queue k).st = .cancelling
         ∧ (u.queue k).heads = [] ∧ (u.queue k).chain = none ∧ (u.queue k).fetched = []
         ∧ (u.queue k).active = (s.queue k).active
       let busy (k : Nat) : Prop := (s.queue k).st = .run ∨ (s.queue k).st = .halted ∨ (s.queue k).st = .stopped
       let paid (k : Nat) : Prop := ∀ a ∈ (s.queue k).active, a.owes = none
       ((s.queue kt).st = .halted → paid kt → Runs (.dmaQueueResume t i) s (running kt))
         ∧ ((s.queue kb).st = .halted → paid kb → Runs (.bulkQueueResume p j) s (running kb))
         ∧ (busy kt → Runs (.dmaQueueCancel t i) s (dropped kt))
         ∧ (busy kb → Runs (.bulkQueueCancel p j) s (dropped kb))
         ∧ ((s.queue (queueKey q)).st = .cancelling → (∀ f ∈ s.fab.out, ∀ x, f.who ≠ .dmaRead (queueKey q) x) → Runs (.cancelComplete q) s fun u =>
           (u.queue (queueKey q)).st = .idle ∧ (u.queue (queueKey q)).active = [])
         ∧ Runs .capWindowEnd s (fun u => u = { s with capUsed := SMap.empty }))
    ∧ (∀ (s : State) (path : RegPath) (p : PartId) (j : Fin 80) (x : BitVec 64) (c : CtxId) (cx : Ctx) (r : CtxRings) (d : RingDef),
       let k := queueKey (.bulk p j)
       let kd := queueKey (.bulk p (Fin.ofNat 80 d.queue))
       ((s.queue k).heads.length < 4 → (s.qCtx k).isSome = true → Runs (.bulkQpost path p j x) s fun u =>
           u = s.addHead k (bulkHead s k (x.toNat / 64 % 2 ^ 38 * 64)))
         ∧ (s.ctxs.get? c.val = some cx → cx.rings.get? p.val = some r → r.post = some d →
           r.posted < (s.obj (p.val * 16384 + d.doorbell)).toNat → (s.queue kd).heads.length < 4 →
           s.issueStopped c.val = false → ((s.queue kd).st = .idle ∨ (s.queue kd).st = .run) →
           s.statusAt (d.base + 8 * (r.posted % 2 ^ d.k)) 8 = .ok → Runs (.bulkPostFetch c p) s fun u => u.mem = s.mem
             ∧ ((u.ctxs.get? c.val).bind fun y => y.rings.get? p.val) = some { r with posted := r.posted + 1 }))

/-! ### Near-memory units -/

/-- Register instructions of a running unit: 32-bit arithmetic modulo 2^32 with shift amounts of five bits, the immediates,
branches that count instructions from the branching one, and bus.wait. g0 discards what is written. A failed check aborts the
program, and a parity error of the instruction memory reloads the line first. Lane instructions of a running unit: FP32 in
each of the sixteen lanes. -/
def Obligations.UnitRegisterInstructions : Prop :=
  (∀ (s : State) (n : StackId) (c : Fin 32) (d a b : BitVec 4) (imm : BitVec 18),
     let k := n.val * 32 + c.val
     let ui : UnitAt := ⟨c, .none⟩
     let u := s.unit k
     let x := u.rg a
     let y := u.rg b
     let w (i : Instr) (r : W32) : Prop := Runs i s fun v => v = s.setUnit k { u.wg d r with pc := u.pc + 1 }
     let go (i : Instr) (pc : Nat) : Prop := Runs i s fun v => v = s.setUnit k { u with pc := pc }
     let dest : Nat := (((u.pc : Int) + imm.toInt) % 4096).toNat
     u.st = .run →
     w (.cruAlu n ui .add d a b) (x + y) ∧ w (.cruAlu n ui .sub d a b) (x - y) ∧ w (.cruAlu n ui .and d a b) (x &&& y)
       ∧ w (.cruAlu n ui .or d a b) (x ||| y) ∧ w (.cruAlu n ui .xor d a b) (x ^^^ y)
       ∧ w (.cruAlu n ui .shl d a b) (x <<< (y.toNat % 32)) ∧ w (.cruAlu n ui .shr d a b) (x >>> (y.toNat % 32))
       ∧ w (.cruAlu n ui .mul d a b) (x * y) ∧ w (.cruAddi n ui d a imm) (x + imm.signExtend 32)
       ∧ w (.cruLi n ui d imm) (imm.signExtend 32) ∧ w (.cruLui n ui d imm) (imm.setWidth 32 <<< 14)
       ∧ go (.cruNop n ui) (u.pc + 1) ∧ go (.cruJmp n ui imm) dest
       ∧ go (.cruBranch n ui .eq a b imm) (if x = y then dest else u.pc + 1)
       ∧ go (.cruBranch n ui .ne a b imm) (if x ≠ y then dest else u.pc + 1)
       ∧ go (.cruBranch n ui .lt a b imm) (if x.toInt < y.toInt then dest else u.pc + 1)
       ∧ go (.cruBranch n ui .ltu a b imm) (if x.toNat < y.toNat then dest else u.pc + 1)
       ∧ (x.toNat ≤ u.received → go (.busWait n ui a) (u.pc + 1))
       ∧ (u.wg 0 x = u ∧ u.rg 0 = 0)
       ∧ Runs (.cruNop n ⟨c, .failed⟩) s (fun v => v = abortHere s k St.poison true)
       ∧ Runs (.cruNop n ⟨c, .parity⟩) s (fun v =>
         let r := parityRecord (reloadLine s k) k
         v = r.setUnit k { r.unit k with pc := (r.unit k).pc + 1 }))
    ∧ (∀ (s : State) (n : StackId) (c : Fin 32) (fd fa fb fc : BitVec 4),
       let k := n.val * 32 + c.val
       let ui : UnitAt := ⟨c, .none⟩
       let u := s.unit k
       let l (r : BitVec 4) (i : Nat) : W32 := (u.rf r).extractLsb' (32 * i) 32
       let w (i : Instr) (f : Nat → W32) : Prop := Runs i s fun v => v = s.setUnit k { u.wf fd (flanes f) with pc := u.pc + 1 }
       u.st = .run →
       w (.cvArith n ui .add fd fa fb fc) (fun i => Fp.fadd (l fa i) (l fb i))
         ∧ w (.cvArith n ui .sub fd fa fb fc) (fun i => Fp.fsub (l fa i) (l fb i))
         ∧ w (.cvArith n ui .mul fd fa fb fc) (fun i => Fp.fmul (l fa i) (l fb i))
         ∧ w (.cvArith n ui .fma fd fa fb fc) (fun i => Fp.fma (l fa i) (l fb i) (l fc i))
         ∧ w (.cvArith n ui .max fd fa fb fc) (fun i => Fp.fmax (l fa i) (l fb i))
         ∧ w (.cvExp2 n ui fd fa) (fun i => Fp.exp2 (l fa i))
         ∧ w (.cvRmax n ui fd fa) (fun _ => (List.range 15).foldl (fun m i => Fp.fmax m (l fa (i + 1))) (l fa 0))
         ∧ w (.cvBcast n ui fd fa fb) (fun _ => l fa fb.toNat))

/-- Store instructions of a running unit whose operands lie in the store, those of ld.s and fld aligned, and that no cm.in in
flight writes; an operand outside the store aborts the program. Dot products and block conversions of a running unit. Clauses
that rest on choices or readings of the model: log entries 48 and 49. -/
def Obligations.UnitStoreAndDotInstructions : Prop :=
  (∀ (s : State) (n : StackId) (c : Fin 32) (d a b : BitVec 4) (imm : BitVec 18) (acc : BitVec 3),
     let k := n.val * 32 + c.val
     let ui : UnitAt := ⟨c, .none⟩
     let u := s.unit k
     let e := (u.rg a + imm.signExtend 32).toNat
     let A := (u.rg a).toNat
     let B := (u.rg b).toNat
     let ok (x n align : Nat) : Prop := x + n ≤ 0x10000 ∧ x % align = 0
     let w (i : Instr) (v : CruUnit) : Prop := Runs i s fun t => t = s.setUnit k { v with pc := u.pc + 1 }
     u.st = .run → u.reads = [] →
     (ok e 4 4 → w (.ldS n ui d a imm) (u.wg d (BitVec.ofNat 32 (leVal (u.readStore e 4)))))
       ∧ (ok e 4 1 → w (.stS n ui d a imm) (u.writeStore e (leBytes 4 (u.rg d).toNat)))
       ∧ (ok e 64 64 → w (.fld n ui d a imm) (u.wf d (BitVec.ofNat 512 (leVal (u.readStore e 64)))))
       ∧ (ok e 64 1 → w (.fst n ui d a imm) (u.writeStore e (leBytes 64 (u.rf d).toNat)))
       ∧ (ok A 64 1 → B < 0x10000 → w (.cdStep n ui acc a b) (let y := { accOf u acc with steps := (u.readStore A 64, u.readByte B) :: (accOf u acc).steps }
         { u with accs := u.accs.set acc.toNat y }))
       ∧ (1 ≤ B → B ≤ 4096 → ok A (4 * B) 1 → w (.cvSum n ui d a b)
         (u.wf d (flanes fun _ => Fp.canonSum ((List.range B).map fun i =>
           BitVec.ofNat 32 (leVal (u.readStore (A + 4 * i) 4))))))
       ∧ (¬ ok e 4 4 → Runs (.ldS n ui d a imm) s fun t => t = abortHere s k St.bound false))
    ∧ (∀ (s : State) (n : StackId) (c : Fin 32) (a b d : BitVec 4) (acc wf xf fmt : BitVec 3) (init h : Bool),
       let k := n.val * 32 + c.val
       let ui : UnitAt := ⟨c, .none⟩
       let u := s.unit k
       let A := (u.rg a).toNat
       let B := (u.rg b).toNat
       let D := (u.rg d).toNat
       let x := accOf u acc
       let w (i : Instr) (v : CruUnit) : Prop := Runs i s fun t => t = s.setUnit k { v with pc := u.pc + 1 }
       u.st = .run → u.reads = [] →
       (dotFmtOk wf xf = true → w (.cdSet n ui acc wf xf) { u with accs := u.accs.set acc.toNat ⟨wf, xf, []⟩ })
         ∧ (dotFmtOk wf xf = false → Runs (.cdSet n ui acc wf xf) s fun t => t = abortHere s k St.bound false)
         ∧ (x.steps.length = 32 → A + 256 ≤ 0x10000 → B + 128 ≤ 0x10000 → D + 2 ≤ 0x10000 →
           let col (i : Nat) : W32 :=
             dotColumn x init (BitVec.ofNat 32 (leVal (u.readStore (A + 4 * i) 4))) i
               ((u.readByte D).toNat, (u.readByte (D + 1)).toNat)
               ((u.readByte (B + i)).toNat, (u.readByte (B + 64 + i)).toNat)
           let v := u.writeStore A ((List.range 64).flatMap fun i => leBytes 4 (col i).toNat)
           w (.cdFin n ui acc a b d init) { v with accs := v.accs.set acc.toNat { x with steps := [] } })
         ∧ (x.steps.length ≠ 32 → Runs (.cdFin n ui acc a b d init) s fun t => t = abortHere s k St.bound false)
         ∧ (blockFmtOk fmt = true → A + 128 ≤ 0x10000 → D + 32 ≤ 0x10000 → B < 0x10000 →
           let r := Fp.cvtBlock fmt none ((List.range 32).map fun i => BitVec.ofNat 32 (leVal (u.readStore (A + 4 * i) 4)))
           w (.cvCvt n ui d a b fmt h) ((putCodes u D fmt h r.2).writeByte B (BitVec.ofNat 8 r.1)))
         ∧ (blockFmtOk fmt = true → fmt ≠ 6 → A + 32 ≤ 0x10000 → D + 128 ≤ 0x10000 → B < 0x10000 →
           w (.cvUnpk n ui d a b fmt h) (u.writeStore D ((u.readStore A 32).flatMap fun e =>
             leBytes 4 (Fp.mxToF32 fmt e.toNat (u.readByte B).toNat).bits.toNat))))

/-- Memory, lease and bus instructions of a running unit, the boundaries of its quanta, and the arrival of what it asked for.
At a boundary, and when leases end, the accesses that waited are performed; a unit whose lease limit has passed, or whose key
was erased, aborts at its boundary. Clauses that rest on choices or readings of the model: log entries 48 and 50. -/
def Obligations.UnitMemoryInstructions : Prop :=
  ∀ (s : State) (n : StackId) (c : Fin 32) (d a b : BitVec 4) (slot : BitVec 2) (x : BusLine) (rest : List BusLine)
    (r : CmIn) (l : Launch),
    let k := n.val * 32 + c.val
    let ui : UnitAt := ⟨c, .none⟩
    let u := s.unit k
    let A := (u.rg a).toNat
    let B := (u.rg b).toNat
    let D := (u.rg d).toNat
    let cx := (unitLaunch s k).elim 0 (·.ctx)
    let line (l i : Nat) : Nat := deviceAddr n.val c.val (l + 64 * i)
    let key : Bool := (s.fld R.secKeystat F.secKeystat_mem_valid).testBit (n.val / 4)
    let bound (P : State → Prop) : Prop := Runs (.quantumBoundary n c) s P
    let noneHeld : Prop := ∀ h ∈ s.held, h.1 ≠ k
    (u.st = .run → u.reads = [] → 1 ≤ B → B ≤ 256 → D + 64 * B ≤ 0x10000 → D % 64 = 0 → A % 64 = 0 →
        channelOk s n.val c.val A B cx .rd = true →
        Runs (.cmIn n ui d a b) s fun t => t = s.setUnit k { u with reads := [⟨D, A, B⟩], pc := u.pc + 1 })
      ∧ (u.reads = [r] → s.quiesced (capBase n.val) = false →
        (∀ i < r.count, unitHole s (line r.addr i) = false ∧ unitLineSt s (line r.addr i / 64) = .ok) →
        Runs (.cmInData n c []) s fun t => t = s.setUnit k ((List.range r.count).foldl (fun v i =>
          v.writeStore (r.store + 64 * i) (unitLineData s (line r.addr i / 64))) { u with reads := [] }))
      ∧ (u.reads ≠ [] → s.quiesced (capBase n.val) = true → Runs (.cmInData n c []) s fun t => t = s)
      ∧ (u.st = .run → u.reads = [] → B = 1 → A + 64 ≤ 0x10000 → D % 64 = 0 → leasedLine u D = true →
        channelOk s n.val c.val D 1 cx .wr = true → s.quiesced (capBase n.val) = false → unitHole s (line D 0) = false →
        Runs (.cmOut n ui d a b) s fun t => t.mem = (s.writeBytes (line D 0) (u.readStore A 64)).mem
          ∧ t.unit k = { u with pc := u.pc + 1 })
      ∧ (u.st = .run → A % 0x1000 = 0 → 1 ≤ B → B ≤ 8192 → A + 0x1000 * B ≤ 0x80000000 → u.leaseExpired = false →
        hostInFlight s n.val c.val (A / 0x1000) B = false →
        Runs (.lease n ui a b slot) s fun t => t.mem = (flushGranules s n.val c.val (A / 0x1000) B).mem
          ∧ t.unit k = { u with leases := u.leases.set slot.toNat (A / 0x1000, B), pc := u.pc + 1 })
      ∧ (u.st = .run → Runs (.qend n ui) s fun t => t = s.setUnit k { u with st := .boundary, pc := u.pc + 1 })
      ∧ (s.quiesced (capBase n.val) = true → bound fun t => t = s)
      ∧ (s.quiesced (capBase n.val) = false → (u.st = .run ∨ u.st = .boundary) →
        (u.reads ≠ [] → bound fun t => t = s.setUnit k { u with st := .boundary })
          ∧ (u.reads = [] → u.leaseExpired = true → bound fun t => t = abortHere s k St.timeout false)
          ∧ (u.reads = [] → u.leaseExpired = false → key = false → bound fun t => t = abortHere s k St.cancelled false)
          ∧ (u.reads = [] → u.leaseExpired = false → key = true →
            (noneHeld → bound fun t => t = s.setUnit k { u with st := .run, pass := false })
              ∧ (let v := performHeld s k
                (v.unit k).st = .run ∨ (v.unit k).st = .boundary → bound fun t => t = v.setUnit k { v.unit k with st := .run })))
      ∧ ((u.st = .run ∨ u.st = .boundary) → u.leases.rows ≠ [] →
        Runs (.leaseLimitExpire n c) s fun t =>
          t = performHeld ((s.setUnit k { u with leaseExpired := true, leases := SMap.empty }).showUnit k) k)
      ∧ (u.st = .run → u.reads = [] → u.bus = [] → Runs (.cruEnd n ui) s fun t =>
        t = performHeld ((s.setUnit k { u with st := .ended, leases := SMap.empty }).showUnit k) k
          ∧ (noneHeld → t.mem = s.mem ∧ t.unit k = { u with st := .ended, leases := SMap.empty, pass := false }))
      ∧ (u.st = .run → u.reads = [] → B = 1 → A + 64 ≤ 0x10000 → D % 65536 + 64 ≤ 0x10000 →
        (unitLaunch s k).any (fun l => l.mask.testBit (D / 65536 % 32)) = true →
        Runs (.busPut n ui d a b) s fun t => t = s.setUnit k
          { u with pc := u.pc + 1, bus := u.bus ++ [⟨D / 65536 % 32, D % 65536, u.readStore A 64⟩] })
      ∧ (u.bus = x :: rest → unitLaunch s k = some l →
        (busServes s l c.val = false → Runs (.busLineReceive n c) s fun t => t = s)
          ∧ (busServes s l c.val = true → x.unit ≠ c.val →
            let kt := n.val * 32 + x.unit
            Runs (.busLineReceive n c) s fun t => t.unit k = { u with bus := rest }
              ∧ t.unit kt = { (s.unit kt).writeStore x.store x.bytes with received := (s.unit kt).received + 1 }
              ∧ t.launches = s.launches.set u.launch { l with busTurn := c.val }))

/-- Launches: a good record of a context's launch ring becomes a waiting launch; in its turn its units start at instruction 0
with their arguments; when each has ended the status is OK, the completion is signalled and the launch is gone; units that
outlive the budget abort. A reserved opcode is ILLOP in a tile slot and aborts the program of a unit; an abort ends the unit's
leases. Any other word is the operation that it encodes. Clauses that rest on choices or readings of the model: log entries
49, 50, 51 and 125. -/
def Obligations.LaunchesAndReservedOpcodes : Prop :=
  (∀ (s : State) (c : CtxId) (p : PartId) (l : BitVec 32) (cx : Ctx) (r : CtxRings) (d : RingDef) (x : Launch) (i : Nat),
     let y := readLaunch s c.val p.val (d.base + 64 * (r.launched % 2 ^ d.k))
     let k := x.stack * 32 + i
     let clean := s.cleanStack x.ctx x.stack
     (s.ctxs.get? c.val = some cx → cx.rings.get? p.val = some r → r.launch = some d →
         r.launched < (s.obj (p.val * 16384 + d.doorbell)).toNat → s.issueStopped c.val = false →
         (launchOk s y = true → Runs (.launchRecordRead c p) s fun t => t.launches.get? s.nextLaunch = some y
           ∧ t.nextLaunch = s.nextLaunch + 1 ∧ t.mem = s.mem
           ∧ ((t.ctxs.get? c.val).bind fun z => z.rings.get? p.val) = some { r with launched := r.launched + 1 })
         ∧ (launchOk s y = false → Runs (.launchRecordRead c p) s fun t => t = refuseLaunch
           (s.updCtx c.val fun z => { z with rings := z.rings.set p.val { r with launched := r.launched + 1 } }) y))
       ∧ (s.launches.get? l.toNat = some x → startable s l.toNat x = true → launchServes s x = true → x.mask = 2 ^ i → i < 32 →
         (s.unit k).disabled = false →
         Runs (.launchStart l) s fun t => t.mem = clean.mem ∧ t.launches = s.launches.set l.toNat { x with started := true }
           ∧ t.launchTurn = s.launchTurn.set x.part x.ctx
           ∧ (t.unit k).st = .run ∧ (t.unit k).pc = 0 ∧ (t.unit k).launch = l.toNat
           ∧ (t.unit k).rg 1 = BitVec.ofNat 32 (k % 32) ∧ (t.unit k).rg 2 = x.param.extractLsb' 0 32
           ∧ (t.unit k).rg 3 = x.param.extractLsb' 32 32
           ∧ (t.unit k).imem = (if (s.unit k).image = (x.image, x.count) then (s.unit k).imem
             else (List.range x.count).map fun j => BitVec.ofNat 32 (clean.load (x.image + 4 * j) 4)))
       ∧ (s.launches.rows = [(l.toNat, x)] → x.mask = 2 ^ i → i < 32 → x.started = false → (s.unit k).st = .idle →
         s.issueStopped x.ctx = false → (s.fld R.secKeystat F.secKeystat_mem_valid).testBit x.part = true →
         startable s l.toNat x = true ∧ launchServes s x = true)
       ∧ (s.launches.get? l.toNat = some x → x.mask = 2 ^ i → i < 32 → x.started = true → (s.unit k).st = .ended →
         Runs (.launchEnd l 0) s fun t => (t.unit k).st = .idle ∧ t.launches = s.launches.erase l.toNat
           ∧ ((Handle.ofBits x.handle).remote = false → t.mem = (s.store (x.record + 0x30) 8 (x.failures * 2 ^ 8)).mem
             ∧ t.nextReq = s.nextReq + 1 ∧ ((t.reqs.get? s.nextReq).map fun q => (q.kind, q.data))
               = some (.signal, BitVec.ofNat 64 x.amount)))
       ∧ (s.launches.get? l.toNat = some x → x.mask = 2 ^ i → i < 32 → x.started = true →
         ((s.unit k).st = .run ∨ (s.unit k).st = .boundary) →
         Runs (.launchBudgetExpire l) s fun t => t = abortHere s k St.timeout false))
    ∧ (∀ (s : State) (t : TileId) (sl : Slot) (w : BitVec 32) (n : StackId) (c : Fin 32),
       let k := n.val * 32 + c.val
       let T := s.tile t.val
       let op := decodeSlot sl w
       let unit : OpTarget := .unit n ⟨c, .none⟩
       (wordReserved sl w = true → issueBlocked s t.val T = false → T.asm = [] → T.st = .run → stepWaiting T = false →
           fetchHits s t.val T = [] → lineHeld T = true → bundleBusy t.val T [op] = false →
           Runs (.reservedOpcode (.tile t false sl) w) s fun u => (u.tile t.val).st = .handler
             ∧ (u.tile t.val).trapCause = 4 ∧ (u.tile t.val).trapPc = T.pc ∧ (u.tile t.val).trapSlot = sl.code)
         ∧ (T.asm = [] → Runs (.reservedOpcode (.tile t false sl) w) s fun u => u = slotStep t.val false op s)
         ∧ ((s.unit k).st = .run → 0x33 ≤ w.toNat / 2 ^ 26 → (∀ h ∈ s.held, h.1 ≠ k) →
           Runs (.reservedOpcode unit w) s fun u => (u.unit k).st = .aborted St.bound false ∧ (u.unit k).leases = SMap.empty)
         ∧ (∀ v, (s.unit k).st = .run → unitWordBad w = false → unitWord n ⟨c, .none⟩ w s = .next v →
           Runs (.reservedOpcode unit w) s fun u => u = v))

/-! ### Collectives -/

/-- The commands of a collective ring that are taken: INIT empties a stack and reserves its store, PUSH reads its node, RECV
and RECVW take the landed message, SEND streams once the peer's clear-to-send has come, FIN folds the stack, SIGNAL signals
after what was written before, WAIT holds the ring until its object is reached. A taken command completes: a node is pushed on
its stack with carries, a result is written at its address, a message to a partition of the device has been handed over; and
the ring moves on. Clauses that rest on choices or readings of the model: log entries 55, 56 and 58. -/
def Obligations.CollectiveCommands : Prop :=
  (∀ (s : State) (c : CtxId) (p : PartId) (w : List W64) (a : Nat),
     let k := c.val * 8 + p.val
     let v := s.collLook c.val p.val
     let x := CollOp.ofWords w
     let g := v.collRing k
     let h := Handle.ofBits x.handle
     let taken (parts : List Byte) : Option CollCmd := some ⟨w, SMap.empty.set 0 parts, false, 0⟩
     let readable : Prop := v.resolve c.val x.win x.addr x.len .rd = some (.here a) ∧ v.answers c.val a x.len = true
       ∧ v.waitsAt a x.len = false ∧ v.statusAt a x.len = .ok
     let read := v.homeRange c.val a x.len 1 false
     v.nextColl c.val p.val = some (w, x) → x.clean = true →
     (x.code = 1 → State.mergeUse { g with merge := g.merge.erase x.stack } + 15 * x.len ≤ 0x800000 →
         Runs (.collInit c p) s fun u => u.mem = v.mem ∧ (u.collRing k).pos = g.pos + 1 ∧ (u.collRing k).cur = none
           ∧ (u.collRing k).merge.get? x.stack = some ⟨x.kind, x.len, x.dim, 0, SMap.empty⟩)
       ∧ (x.code = 2 → State.pushOk g x = true → readable → Runs (.collPush c p .none []) s fun u =>
         u = read.setColl k { g with cur := taken (v.bytesAt a x.len) })
       ∧ (∀ l, x.code = 3 → State.pushOk g x = true → x.len ≤ 0x200000 → State.landed g x = some l →
         Runs (.collRecv c p) s fun u => u.mem = v.mem ∧ (u.collRing k).cur = taken l.bytes
           ∧ (u.collRing k).landing = g.landing.filter (· != l))
       ∧ (∀ l, x.code = 6 → (v.resolve c.val x.win x.addr x.len .wr).isSome = true → x.len ≤ 0x200000 →
         State.landed g x = some l → Runs (.collRecvw c p) s fun u => u.mem = v.mem ∧ (u.collRing k).cur = taken l.bytes
           ∧ (u.collRing k).landing = g.landing.filter (· != l))
       ∧ (x.code = 4 → readable → v.collWaits c.val p.val = false → g.cts.contains (State.peerKey h, x.tag) = false →
         Runs (.collSend c p .none []) s fun u => u = read.setColl k { g with cur := taken (v.bytesAt a x.len) })
       ∧ (x.code = 4 → readable → v.collWaits c.val p.val = false → g.cts.contains (State.peerKey h, x.tag) = true →
         Runs (.collSend c p .none []) s fun u => u.mem = read.mem ∧ ((u.collRing k).cur.map (·.sent)) = some true)
       ∧ (∀ st, x.code = 5 → g.merge.get? x.stack = some st → st.kind = x.kind → st.len = x.len → st.dim = x.dim →
         (v.resolve c.val x.win x.addr x.len .wr).isSome = true → Runs (.collFin c p) s fun u =>
         u = v.setColl k { g with cur := taken (State.foldStack st) })
       ∧ (x.code = 7 → v.handleOk c.val x.handle = true → h.remote = false →
         Runs (.collSignal c p) s fun u => u.mem = (v.releaseLines p.val c.val []).mem ∧ (u.collRing k).pos = g.pos + 1 ∧ u.nextReq = v.nextReq + 1
           ∧ ((u.reqs.get? v.nextReq).map fun r => (r.kind, r.addr, r.data))
             = some (.signal, h.part * 16384 + h.index, BitVec.ofNat 64 x.amount))
       ∧ (x.code = 8 → v.handleOk c.val x.handle = true → h.remote = false → Runs (.collWait c p) s fun u =>
         u = if x.amount ≤ (v.obj (h.part * 16384 + h.index)).toNat then v.collAdvance c.val p.val else v))
    ∧ (∀ (s : State) (c : CtxId) (p : PartId) (m : CollCmd) (st : MergeStack) (a : Nat),
       let k := c.val * 8 + p.val
       let g := s.collRing k
       let x := CollOp.ofWords m.words
       let bs := m.parts.vals.flatten
       g.cur = some m → s.collWaits c.val p.val = false →
       ((x.code = 2 ∨ x.code = 3) → g.merge.get? x.stack = some st → Runs (.collectiveCommandComplete c p) s fun u =>
           u.mem = s.mem ∧ (u.collRing k).pos = g.pos + 1 ∧ (u.collRing k).cur = none
             ∧ (u.collRing k).merge.get? x.stack = some (State.pushStack st x.q bs))
         ∧ ((x.code = 5 ∨ x.code = 6) → m.sent = false → s.resolve c.val x.win x.addr x.len .wr = some (.here a) →
           s.answers c.val a x.len = true → s.waitsAt a x.len = false → Runs (.collectiveCommandComplete c p) s fun u =>
           u.mem = ((s.homeRange c.val a bs.length 1 true).writeBytes a bs).mem ∧ (u.collRing k).pos = g.pos + 1 ∧ (u.collRing k).cur = none)
         ∧ (x.code = 4 → m.sent = true → (Handle.ofBits x.handle).remote = false →
           Runs (.collectiveCommandComplete c p) s fun u => u = s.collAdvance c.val p.val))

/-! ### The fabric -/

/-- Requests of a peer that pass the gate: a read answers the bytes, a write and an atomic change only the bytes they store, a
signal adds to its object; each is answered, and the sequence moves on. A request that fails the gate changes no memory and no
object: a fenced or closed context answers BOUND, and a stale context ID is dropped and counted. Clauses that rest on choices
or readings of the model: log entries 50, 59, 60 and 63. -/
def Obligations.FabricRequests : Prop :=
  (∀ (s : State) (port : PortId) (k : Packet),
     let a := k.addr.toNat
     let c := k.ctx.toNat / 128
     let as (typ : BitVec 8) : Packet := { k with typ := typ }
     let next (u : State) : Prop := u.fab.recv.getD (k.src.toNat * 4) 0 = (k.seq.toNat + 1) % 65536
     let free (n : Nat) (typ : BitVec 8) : Prop := s.answers c a n = true ∧ s.statusAt a n = .ok ∧ pktLeased s (as typ) n = false
     let reach (n : Nat) (hint : BitVec 2) (write : Bool) : State := s.homeRange c a n hint write
     NextInOrder s port k 0 →
     (∀ n, n = k.len.toNat + 1 → k.payload = [] → gate s (as 0x01) n .rd false = .pass → free n 0x01 →
         Runs (.rd port k .none) s fun u => u.mem = (reach n (k.op.extractLsb' 0 2) false).mem
           ∧ next u ∧ Answered u k 0 0x02 1 0 (s.bytesAt a n))
       ∧ (1 ≤ k.payload.length → k.payload.length ≤ 4096 → gate s (as 0x03) k.payload.length .wr false = .pass →
         free k.payload.length 0x03 → Runs (.wr port k) s fun u =>
         u.mem = ((reach k.payload.length (k.op.extractLsb' 0 2) true).writeBytes a k.payload).mem ∧ next u ∧ Answered u k 0 0x04 1 0 [])
       ∧ (∀ n, n = (if k.op.getLsbD 4 then 4 else 8) → k.payload.length = 0 ∨ k.payload.length = 8 →
         gate s (as 0x05) n .rw false = .pass → free n 0x05 →
         let old := s.load a n
         Runs (.atomPkt port k .none) s fun u =>
           u.mem = ((reach n 0 true).store a n (State.atomicNew (k.op.extractLsb' 0 4) (8 * n) old k.operand.toNat (leVal k.payload))).mem
             ∧ next u ∧ Answered u k 0 0x06 1 (BitVec.ofNat 64 old) [])
       ∧ (k.payload = [] → gate s (as 0x07) 0 .wr true = .pass → Runs (.sig port k) s fun u =>
         u.objs = s.objs.set a (s.obj a + k.operand) ∧ u.mem = s.mem ∧ next u ∧ Answered u k 0 0x08 1 0 []))
    ∧ (∀ (s : State) (k : Packet) (n : Nat) (p : Perm),
       let c := k.ctx.toNat / 128
       (s.fenced (c / 64 % 8) = true → gate s k n p false = .bound 1)
         ∧ (s.fenced (c / 64 % 8) = false → s.ctxId c ≠ k.ctx.toNat → gate s k n p false = .stale)
         ∧ (gate s k n p false = .pass → s.ctxId c = k.ctx.toNat ∧ fabricWindow s c k.addr.toNat n p = true
           ∧ (s.peerOf c k.src.toNat).isSome = true)
         ∧ (dropStale s k).objs = s.objs ∧ (dropStale s k).fab.drops = s.fab.drops + 1)

/-- Answers of a peer with status OK end the request that waits for them. A CACK with status OK completes the SEND that waits
for it. Messages of collectives: a clear-to-send reaches its ring, and the last packet of a message with the right CRC
completes its landing and is acknowledged. Clauses that rest on choices or readings of the model: log entries 56, 57 and 60.
-/
def Obligations.FabricAnswersAndMessages : Prop :=
  (∀ (s : State) (port : PortId) (k : Packet) (f : FabReq) (i : Nat) (q : MemReq),
     let waits (vc : Nat) : Prop := (s.fab.out.find? fun f => f.pkt.dst == k.src && f.vc == vc
       && f.pkt.seq.toNat == k.addr.toNat % 2 ^ 16 && f.sent) = some f
     let ends (u : State) (x : W64) : Prop := u.mem = s.mem
       ∧ u.reqs.get? i = some { q with done := true, arbiter := false, val := x, bad := false }
     NextInOrder s port k 1 → k.addr.toNat / 2 ^ 16 % 8 = 1 → f.who = .mem i → s.reqs.get? i = some q →
     waits 0 →
     (q.kind = .load → k.payload.length ≤ 4096 →
         Runs (.rdRsp port k) s fun u => ends u (BitVec.ofNat 64 (leVal k.payload)))
       ∧ (q.kind = .store → k.payload = [] → Runs (.wrAck port k) s fun u => ends u 0)
       ∧ (∀ o w, q.kind = .atomic o w → k.payload = [] → Runs (.atomRsp port k) s fun u => ends u k.operand)
       ∧ (q.kind = .signal → k.payload = [] → Runs (.sigAck port k) s fun u => ends u 0))
    ∧ (∀ (s : State) (port : PortId) (k : Packet) (f : FabReq) (c p off : Nat) (m : CollCmd),
       NextInOrder s port k 1 → k.payload = [] → k.addr.toNat / 2 ^ 16 % 8 = 1 → f.who = .coll c p off → f.vc = 2 →
       (s.fab.out.find? fun f => f.pkt.dst == k.src && f.vc == 2 && f.pkt.seq.toNat == k.addr.toNat % 2 ^ 16 && f.sent)
         = some f → p < 8 →
       (s.collRing (c * 8 + p)).cur = some m → (CollOp.ofWords m.words).code = 4 →
       Runs (.cack port k) s fun u => u.mem = s.mem ∧ (u.collRing (c * 8 + p)).cur = none
         ∧ (u.collRing (c * 8 + p)).pos = (s.collRing (c * 8 + p)).pos + 1)
    ∧ (∀ (s : State) (port : PortId) (k : Packet) (l : Landing),
       let c := k.ctx.toNat / 128
       let a := k.addr.toNat
       let rk := c * 8 + a / 2 ^ 16 % 8
       let peer := (k.src.toNat + 1) * 8 + a / 2 ^ 19 % 8
       let g := s.collRing rk
       let bs := l.bytes ++ k.payload
       NextInOrder s port k 2 → s.fenced (c / 64 % 8) = false → s.ctxId c = k.ctx.toNat → (s.ctxs.get? c).isSome = true →
       s.ctxSt c ≠ CtxSt.teardown → (s.peerOf c k.src.toNat).isSome = true →
       (k.payload = [] → Runs (.cts port k) s fun u => u.mem = s.mem
           ∧ u.collRing rk = { g with cts := g.cts ++ [(peer, a % 2 ^ 16)] })
         ∧ ((g.landing.find? fun x => x.peer == peer && x.tag == a % 2 ^ 16 && !x.complete) = some l →
           bs.length = l.len → crc64 bs = k.operand → 1 ≤ k.payload.length → k.payload.length ≤ 4096 →
           Runs (.cdata port k) s fun u => u.mem = s.mem ∧ Answered u k 2 0x12 1 0 []
             ∧ ({ l with bytes := bs, complete := true } : Landing) ∈ (u.collRing rk).landing))

/-- An unanswered packet is sent again and counted, and after the last retry its request ends with an error. A flit whose CRC
holds and whose turn it is is taken, and its acknowledgement frees the retry buffer; any other is discarded, a damaged one
asks for a retry, also when it is the resent one. A retry request sends again from the named flit. Ports: training ends up at
the widest aligned group of good lanes within the limit, or down; the loss of a lane that carries traffic retrains; and a port
that goes down discards its retry buffer. Other states of a port stay as they are. Neighbours and probes: HELLO records the
neighbour, and a neighbour of the same set ID stops transactions; DEPART routes around its sender; a PROBE is answered with
the turnaround time, and its answer gives half of the rest of the round trip, at most 2,047 ns, as the link's latency; the
probe timer asks the parent. Clauses that rest on choices or readings of the model: log entries 59, 61 and 62. -/
def Obligations.FabricLinksAndPorts : Prop :=
  (∀ (s : State) (dst : BitVec 12) (vc : BitVec 2) (q : BitVec 16) (port : PortId) (x : Flit) (seq : BitVec 12),
     let l := s.link port.val
     let mine := s.fab.out.find? fun g => g.pkt.dst == dst && g.vc == vc.toNat && g.pkt.seq == q && g.sent
     let counted := (s.bump (R.plPerr port.val) F.plPerr_fec_corr x.corrected.toNat).bump (R.plPerr port.val)
       F.plPerr_fec_uncorr x.uncorrected.toNat
     (mine = none → Runs (.transportResendTimeout dst vc q) s fun u => u = s)
       ∧ (∀ f, mine = some f → s.fab.lost.contains dst.toNat = false → f.tries < s.fld R.plCtl F.plCtl_retries →
         let again : State := { s with fab :=
           { s.fab with out := s.fab.out.map fun g => if g = f then { g with tries := g.tries + 1 } else g } }
         Runs (.transportResendTimeout dst vc q) s fun u => u = again.sendPacket f.part f.pkt)
       ∧ (∀ f, mine = some f → s.fab.lost.contains dst.toNat = true ∨ s.fld R.plCtl F.plCtl_retries ≤ f.tries →
         Runs (.transportResendTimeout dst vc q) s fun u => u = timeoutRequest s f ∧ ∀ i r, f.who = .mem i → s.reqs.get? i = some r →
           u.reqs.get? i = some { r with done := true, arbiter := false, val := 0, bad := true })
       ∧ (s.portUp port.val = false → x.body.length = 244 → Runs (.flitReceive port x) s fun u => u = s)
       ∧ (s.portUp port.val = true → x.body.length = 244 →
         (flitGood x = true → flitBits x 11 0 = l.rx → Runs (.flitReceive port x) s fun u => u.mem = s.mem
             ∧ (u.link port.val).rx = (l.rx + 1) % 4096 ∧ (u.link port.val).waiting = false
             ∧ (l.queue = [] → (u.link port.val).retry = (takeAck l x).retry))
           ∧ (flitGood x = true → flitBits x 11 0 ≠ l.rx → Runs (.flitReceive port x) s fun u => u = counted)
           ∧ (flitGood x = false → l.waiting = true → flitBits x 11 0 ≠ l.rx →
             Runs (.flitReceive port x) s fun u => u = counted)
           ∧ (flitGood x = false → (l.waiting = false ∨ flitBits x 11 0 = l.rx) →
             Runs (.flitReceive port x) s fun u => (u.link port.val).waiting = true ∧ (u.link port.val).rx = l.rx
               ∧ u.mem = s.mem ∧ u.outbox = s.outbox ++ [.retryRequest port.val l.rx]))
       ∧ (∀ i, l.retry.findIdx? (· == seq.toNat) = some i → Runs (.retryRequest port seq) s fun u =>
         u = (s.bump (R.plPerr port.val) F.plPerr_retries (l.retry.length - i)).emit (.resend port.val seq.toNat))
       ∧ (l.retry.contains seq.toNat = false → Runs (.retryRequest port seq) s fun u => u = s))
    ∧ (∀ (s : State) (path : RegPath) (port : PortId) (lane : Fin 8) (lanes : BitVec 8),
       let k := port.val
       let st (u : State) : Nat := u.fld (R.plPstat k) F.plPstat_state
       let good := s.fld (R.plPstat k) F.plPstat_lanes_good
       let active := activeLanes good (s.fld (R.plPstat k) F.plPstat_width)
       k < s.ports →
       ((st s = 2 ∨ st s = 4) →
           (∀ w, trainedWidth lanes.toNat (s.fld (R.plPctl k) F.plPctl_width_max) = some w →
             Runs (.portTrainingDone port lanes) s fun u => st u = 3 ∧ u.fld (R.plPstat k) F.plPstat_lanes_good = lanes.toNat
               ∧ u.fld (R.plPstat k) F.plPstat_width = w)
             ∧ (trainedWidth lanes.toNat (s.fld (R.plPctl k) F.plPctl_width_max) = none →
               Runs (.portTrainingDone port lanes) s fun u => st u = 1 ∧ u.link k = Link.reset))
         ∧ (st s ≠ 2 → st s ≠ 4 → Runs (.portTrainingDone port lanes) s fun u => u = s)
         ∧ (st s = 3 → active.testBit lane.val = true → Runs (.laneLockLoss port lane) s fun u => st u = 4 ∧ u.mem = s.mem
           ∧ u.fld (R.plPstat k) F.plPstat_lanes_good = setBitsOf good lane.val lane.val 0)
         ∧ (st s ≠ 3 ∨ active.testBit lane.val = false → Runs (.laneLockLoss port lane) s fun u => u = s)
         ∧ (2 ≤ st s → (Runs (.portDown port) s fun u => st u = 1 ∧ u.link k = Link.reset)
           ∧ (Runs (.portTakeDown path port) s fun u => st u = 1 ∧ u.link k = Link.reset)
           ∧ (Runs (.portRetrain path port) s fun u => st u = 2 ∧ u.link k = Link.reset))
         ∧ (st s ≤ 1 → Runs (.portDown port) s (fun u => u = s) ∧ Runs (.portTakeDown path port) s (fun u => u = s)
           ∧ Runs (.portRetrain path port) s fun u => u = s.setFld (R.plPstat k) F.plPstat_state 2))
    ∧ (∀ (s : State) (port : PortId) (k : Packet) (t r : BitVec 32),
       let i := port.val
       let same : Prop := s.fld R.plId F.plId_valid = 1 ∧ k.operand.getLsbD 5 = true ∧ k.src.toNat = s.localDev
       let probing : State := { s with ticks := { s.ticks with probing := true } }
       let child : State := { s with ticks := { s.ticks with children := setBitsOf s.ticks.children i i 1 } }
       (s.portUp i = true → k.payload = [] →
           Runs (.hello port k) s (fun u => u.mem = s.mem
               ∧ u.fld (R.plPstat i) F.plPstat_nbr_dev = k.src.toNat
               ∧ u.fld (R.plPstat i) F.plPstat_nbr_port = k.operand.toNat % 32
               ∧ (same → u.fld R.plCtl F.plCtl_enable = 0 ∧ u.fab.dupId = some s.localDev ∧ u.fabricOn = false)
               ∧ (¬ same → u.fab = s.fab))
             ∧ (s.hasId = true → s.fab.departed.contains i = false →
               Runs (.depart port k) s fun u => u.fab.departed = s.fab.departed ++ [i] ∧ u.mem = s.mem)
             ∧ (s.hasId = false ∨ s.fab.departed.contains i = true → Runs (.depart port k) s fun u => u = s)
             ∧ Runs (.probe port k t) s (fun u => u = child.emitPacket i (linkPacket s Pk.probeRsp (t.setWidth 64) []))
             ∧ (s.ticks.probing = true → tickParent s = some i → Runs (.probeRsp port k r) s fun u => u.ticks.probing = false
               ∧ u.fld (R.plPstat i) F.plPstat_latency = min 2047 ((r.toNat - k.operand.toNat) / 2))
             ∧ (s.ticks.probing = false ∨ tickParent s ≠ some i → Runs (.probeRsp port k r) s fun u => u = s))
         ∧ (s.portUp i = false → k.payload = [] → Runs (.hello port k) s (fun u => u = s) ∧ Runs (.depart port k) s (fun u => u = s)
           ∧ Runs (.probe port k t) s (fun u => u = s) ∧ Runs (.probeRsp port k r) s fun u => u = s)
         ∧ (∀ j, tickParent s = some j → Runs .probeTimer s fun u => u = probing.emitPacket j (linkPacket s Pk.probe 0 []))
         ∧ (tickParent s = none → Runs .probeTimer s fun u => u = s))

/-! ### Management commands -/

/-- The response to a command: on the tray's path one message; on the host's path the mailbox is not busy, done is set and
vector 512 is sent. A command on the other path than its own ends with BOUND and does nothing. Clauses that rest on choices or
readings of the model: log entries 64 and 65. -/
def Obligations.ManagementResponses : Prop :=
  (∀ (s : State) (code st : Nat) (c : Cmd) (pl : List Byte), let u := reply s code c st pl
    (c.path = .tray → u = s.emit (.response c.tag.toNat st pl))
      ∧ (c.path = .host → u.outbox = s.outbox ++ [.response c.tag.toNat st pl, .msix 512]
          ∧ u.fld R.mgtMbstat F.mgtMbstat_busy = 0 ∧ u.fld R.mgtMbstat F.mgtMbstat_done = 1 ∧ u.mem = s.mem ∧ u.ctxs = s.ctxs
          ∧ u.tiles = s.tiles ∧ u.board = s.board))
    ∧ ∀ (s : State) (c : Cmd) (l : List Item) (a : BitVec 64) (k : BitVec 8) (w : BitVec 64) (n : BitVec 32),
      (c.path = .host → Replies (.setPowerLimit c l) 0x0007 c s St.bound [] s
        ∧ Replies (.coolantReport c w n) 0x0005 c s St.bound [] s ∧ Replies (.setAlarmPolicy c l) 0x040F c s St.bound [] s
        ∧ Replies (.clearFence c) 0x0410 c s St.bound [] s)
      ∧ (c.path = .tray → Replies (.loadContext c a k [] []) 0x0403 c s St.bound [] s
        ∧ Replies (.startContext c) 0x0404 c s St.bound [] s ∧ Replies (.setContextShare c l) 0x040B c s St.bound [] s
        ∧ Replies (.getWrapKey c) 0x0411 c s St.bound [] s)

/-- Commands of settings: which fields, and which values of each, the basic level lets them set. All items of a command apply
together or none does; a tick period must leave room for the ready check, far shares sum to at most 16, the power limit is a
multiple of 25 W, and a change of tick roles sets D, C and L again. Clauses that rest on choices or readings of the model: log
entries 18, 64 and 65. -/
def Obligations.SettingsCommands : Prop :=
  ∀ (s : State) (c : Cmd) (l : List Item) (lat : BitVec 22),
    Sets (.setStepPolicy c l) 0x0101 .both [⟨R.tileStepctl 0, F.tileStepctl_hang_periods, 1, 15⟩] c l s
      ∧ Sets (.setArraySmoothing c l) 0x0103 .both [⟨R.mxaSmooth 0, F.mxaSmooth_fill_max, 16, 256⟩,
          ⟨R.mxaSmooth 0, F.mxaSmooth_ramp_down, 64, 4096⟩, ⟨R.mxaSmooth 0, F.mxaSmooth_ramp_up, 16, 256⟩] c l s
      ∧ Sets (.setKvPolicy c l) 0x0201 .both [⟨R.partKvctl 0, F.partKvctl_cold_wm, 0, 50⟩] c l s
      ∧ Sets (.setScrubPolicy c l) 0x0203 .both [⟨R.capScrub 0, F.capScrub_period, 1, 168⟩] c l s
      ∧ Sets (.setNearMemoryPolicy c l) 0x0206 .both [⟨R.cruCtl 0 0, F.cruCtl_quantum, 50, 350⟩,
          ⟨R.cruCtl 0 0, F.cruCtl_lease_max, 100, 1000⟩] c l s
      ∧ Sets (.setBulkPolicy c l) 0x0207 .both [⟨R.bulkCtl 0, F.bulkCtl_mode, 0, 1⟩, ⟨R.bulkQctl 0 0, F.bulkQctl_rd, 1, 100⟩,
          ⟨R.bulkQctl 0 0, F.bulkQctl_wr, 1, 100⟩, ⟨R.bulkQctl 0 0, F.bulkQctl_rm, 1, 100⟩] c l s
      ∧ Sets (.setPortPolicy c l) 0x0305 .both [⟨R.plPctl 0, F.plPctl_width_max, 0, 3⟩, ⟨R.plPctl 0, F.plPctl_reach, 0, 1⟩,
          ⟨R.plPctl 0, F.plPctl_full_train, 0, 1⟩] c l s
      ∧ Sets (.setTickPolicy c l) 0x0307 .both [⟨R.plTickctl, F.plTickctl_slip_q, 1, 1000⟩] c l s
      ∧ Sets (.setFabricPolicy c l) 0x0308 .both [⟨R.plCtl, F.plCtl_rto, 10, 10000⟩, ⟨R.plCtl, F.plCtl_retries, 1, 15⟩] c l s
      ∧ Sets (.setContextShare c l) 0x040B .hostOnly [⟨R.ctxShare 0, F.ctxShare_share, 1, 64⟩,
          ⟨R.ctxShare 0, F.ctxShare_cap, 0, 1⟩] c l s
      ∧ Sets (.setJournal c l) 0x0502 .both [⟨R.partJbase 0, F.partJbase_size, 20, 36⟩,
          ⟨R.partJbase 0, F.partJbase_base, 0, 0xFFFFFF⟩, ⟨R.partJstat 0, F.partJstat_policy, 0, 1⟩] c l s
      ∧ Sets (.setErrorPolicy c l) 0x0505 .both [⟨R.errBase 0, F.errBase_size, 16, 30⟩,
          ⟨R.errBase 0, F.errBase_base, 0, 0xFFFFFFF⟩, ⟨R.errCtl 0, F.errCtl_eng_to, 1, 255⟩,
          ⟨R.errCtl 0, F.errCtl_alert_min, 1, 5⟩, ⟨R.errThresh 0, F.errThresh_region_ue, 1, 255⟩,
          ⟨R.errThresh 0, F.errThresh_window, 1, 168⟩, ⟨R.errThresh 0, F.errThresh_bank_ue, 1, 255⟩,
          ⟨R.errThresh 0, F.errThresh_row_ue, 1, 255⟩, ⟨R.errThresh 0, F.errThresh_row_ce, 1, 255⟩] c l s
      ∧ Sets (.setRecoveryPolicy c l none) 0x0509 .both [⟨R.partRecovctl 0, F.partRecovctl_rp_interval, 1, 65535⟩,
          ⟨R.partRecovctl 0, F.partRecovctl_loss_limit, 100, 6000⟩] c l s
      ∧ (Taken 0x0501 .both false c s → ∀ m x, (gatherItems l).get? R.devTickper = some (m, x) →
          ItemsOk s c [⟨R.devTickper, F.devTickper_period, 2000, 400000000⟩] l →
          Replies (.setTickPeriod c l) 0x0501 c s
            (if s.fld R.plTickctl F.plTickctl_check * 2000 ≤ 3 * bitsOf x.toNat 28 0 then St.ok else St.bound) []
            (if s.fld R.plTickctl F.plTickctl_check * 2000 ≤ 3 * bitsOf x.toNat 28 0 then withItems s l else s))
      ∧ (Taken 0x0202 .both false c s → farSumOk s (gatherItems l) = true →
          ItemsOk s c [⟨R.scaCtl 0, F.scaCtl_remote_max, 0, 4⟩, ⟨R.capFarctl 0, F.capFarctl_share, 1, 15⟩,
            ⟨R.capOrphan 0, F.capOrphan_reserve, 0, 8⟩] l →
          Replies (.setMemoryPolicy c l) 0x0202 c s St.ok [] (withItems s l))
      ∧ (Taken 0x0007 .trayOnly false c s → ∀ m x, (gatherItems l).get? R.pwrLimit = some (m, x) →
          ItemsOk s c [⟨R.pwrLimit, F.pwrLimit_tray, 800, s.part.maxPower⟩, ⟨R.pwrPctl 0, F.pwrPctl_fmax, 20, 60⟩] l →
          Replies (.setPowerLimit c l) 0x0007 c s (if bitsOf x.toNat 11 0 % 25 = 0 then St.ok else St.bound) []
            (if bitsOf x.toNat 11 0 % 25 = 0 then withItems s l else s))
      ∧ (Taken 0x0306 .both false c s → ∀ m x, (gatherItems l).get? R.plTickctl = some (m, x) →
          (∀ f ∈ [F.plTickctl_parent, F.plTickctl_alt_parent], m.getLsbD f.lo = true →
            bitsOf x.toNat f.hi f.lo < 24 ∨ bitsOf x.toNat f.hi f.lo = 31) →
          ItemsOk s c [⟨R.plTickctl, F.plTickctl_role, 0, 2⟩, ⟨R.plTickctl, F.plTickctl_parent, 0, 31⟩,
            ⟨R.plTickctl, F.plTickctl_alt_parent, 0, 31⟩] l →
          Replies (.setTickRoles c l lat) 0x0306 c s St.ok [] (setTickTimes (withItems s l) lat.toNat))

/-- Reports: their contents, and that they change nothing; and the answers of attestation, which a level 3 alarm stops.
Clauses that rest on choices or readings of the model: log entries 64, 66, 89 and 92. -/
def Obligations.ReportsAndAttestation : Prop :=
  ∀ (s : State) (c : Cmd) (n : BitVec 16) (nonce : List Byte) (i : BitVec 8) (w : Nat),
    let reads (m : Instr) (code : Nat) (pl : List Byte) : Prop := Taken code .both true c s → Replies m code c s St.ok pl s
    reads (.getInventory c) 0x0001 ((inventory s).take 4080)
      ∧ reads (.getPackageMap c) 0x0301 ((packageMap s).take 4080)
      ∧ reads (.getFirmwareStatus c) 0x0004
          (leBytes 8 (s.reg R.mgtFwstat).toNat ++ ([1, 2, 3, 4].map (firmwareEntry s)).flatten)
      ∧ (c.scope.kind = 2 → c.scope.index.toNat < 2048 → c.scope.index.toNat % 256 < s.part.tilesPerPart →
          reads (.getArithCounters c) 0x0104 (leBytes 8 (s.reg (R.vxuResidue c.scope.index.toNat)).toNat
            ++ leBytes 8 (s.reg (R.vxuSpecial c.scope.index.toNat)).toNat))
      ∧ (Taken 0x0411 .hostOnly false c s → s.board.wrapKey = some w → ∃ sig : List Byte, sig.length = 96
          ∧ Replies (.getWrapKey c) 0x0411 c s St.ok
              (leBytes 8 s.board.wrapCount ++ MlKem.encapsulationKey (wrapSeed w) ++ sig) (s.draw).2)
      ∧ (s.board.restricted = false → Runs (.getCertificate 0 n) s fun u =>
          u = s.emit (.spdm true ((List.range n.toNat).map Config.certByte)))
      ∧ (s.board.restricted = false → nonce.length = 32 → Runs (.challenge 0 nonce) s fun u =>
          ∃ sig : List Byte, sig.length = 96 ∧ u = (s.draw).2.emit (.spdm true (nonce ++ sig)))
      ∧ (let f := s.board.flash
        let k := i.toNat
        let measured (bs : List Byte) : Prop := s.board.restricted = false → Runs (.getMeasurements i) s fun u => u = s.emit (.spdm true bs)
        (1 ≤ k → k ≤ 4 → measured ((List.range 48).map (Config.imageDigest k (f.version.getD (k * 2 + f.bank.getD k 0) 0))))
          ∧ (k = 5 → measured (digest (packageMap s))) ∧ (k = 6 → measured (digest (leBytes 8 (s.reg R.secAlarmpol).toNat)))
          ∧ (k = 7 → measured (digest (secureList s).flatten)))
      ∧ (s.board.restricted = true → Runs (.getCertificate 0 n) s fun u => u = s.emit (.spdm false []))

/-- The lifecycle of a context by command: a load is accepted and answers its ID; a start, hold, release, preemption, resume,
teardown and window update, each in the states that allow it; what each does to anything but the context named is nothing.
Clauses that rest on choices or readings of the model: log entries 64, 78 and 79. -/
def Obligations.ContextCommands : Prop :=
  ∀ (s : State) (c : Cmd) (k : Nat) (x : Ctx),
    let cmd (m : Instr) (code : Nat) (s1 : State) : Prop :=
      Taken code .hostOnly false c s → scopeCtx c = some k → s.ctxs.get? k = some x → Replies m code c s St.ok [] s1
    (∀ (a : BitVec 64) (o : BitVec 8) (recent : List CtxId) (inb : List (BitVec 17 × Bool)) (r : List Byte) (i : Nat),
        Taken 0x0403 .hostOnly false c s → recordAt s a.toNat = (St.ok, r) → orderOk o.toNat = true →
        maskOk s (recMask r) = true → freeSlot s (recMask r) recent = some i → ∃ s1 : State,
          Replies (.loadContext c a o recent inb) 0x0403 c s St.ok (leBytes 2 (i * 128 + s.ctxId i % 128)) s1
            ∧ s1.ctxSt i = CtxSt.loading ∧ s1.mem = s.mem
            ∧ s1.ctxs = s.ctxs.set i (Ctx.loading r o.toNat ((s.ctxs.vals.map (·.loadNo)).foldl max 0 + 1)
                (inb.map fun y => (y.1.toNat, y.2))))
      ∧ (s.ctxSt k = CtxSt.ready → cmd (.startContext c) 0x0404 (s.setCtx k { x with startNext := true }))
      ∧ (c.path = .host → scopeCtx c = some k → s.ctxs.get? k = some x → s.ctxSt k = CtxSt.loading →
          s.board.restricted = false → Runs (.startContext c) s fun u => u = s.setCtx k { x with startCmds := x.startCmds ++ [c] })
      ∧ (s.ctxSt k = CtxSt.running ∨ s.ctxSt k = CtxSt.held → cmd (.holdContext c) 0x0405 ((s.hold k .driver).settleHold k))
      ∧ (s.ctxSt k = CtxSt.held → s.fld R.hifLink F.hifLink_width ≠ 0 → cmd (.releaseContext c) 0x0406
          (s.setCtx k { x with holds := x.holds.filter fun h =>
            h != .driver && h != .peerLost && h != .depart && h != .hostLink }))
      ∧ (∀ urgent, s.ctxSt k = CtxSt.running ∨ s.ctxSt k = CtxSt.held → cmd (.preemptContext c urgent) 0x0407
          ((x.tiles.foldl (fun s t => requestSave s t (if urgent then .urgent else .step)) s).updCtx k fun y =>
            { y with preempting := if urgent then 2 else 1 }))
      ∧ (s.ctxSt k = CtxSt.saved → cmd (.resumeContext c) 0x0408 (x.tiles.foldl restoreTile s))
      ∧ (s.ctxSt k = CtxSt.ready ∨ s.ctxSt k = CtxSt.running ∨ s.ctxSt k = CtxSt.held ∨ s.ctxSt k = CtxSt.saved →
          cmd (.tearDownContext c) 0x0409 (s.startTeardown k St.cancelled))
      ∧ (∀ a : BitVec 64, let b (w : Nat) := s.bytesAt (a.toNat + 32 * w) 32
          s.ctxSt k = CtxSt.ready ∨ s.ctxSt k = CtxSt.running ∨ s.ctxSt k = CtxSt.held ∨ s.ctxSt k = CtxSt.saved →
          s.statusAt a.toNat 512 = .ok →
          windowsOk s k x.mask x.tiles b = true →
          cmd (.updateContextWindows c a) 0x040A (s.setCtx k { x with nextWindows := some (windowsOf b) }))

/-- The end of a load and of a teardown. A load waits until what its windows open has been cleared; one that passes every
check leaves the context READY with its commit register one below the start step, and a kept StartContext takes effect at the
next tick; one that fails leaves nothing of it and ends a kept StartContext with BOUND. A teardown is complete when nothing
carries the context's tag, and then the index is free under the next generation; at its deadline every engine that holds work
of the context is reset. Clauses that rest on choices or readings of the model: log entries 45, 47, 78 and 79. -/
def Obligations.ContextEvents : Prop :=
  ∀ (s : State) (c : CtxId) (x : Ctx), let k := c.val
    let cleared : Prop := (windowsOf (entryBytes x.record)).vals.all (clearedFor s k) = true
    s.ctxs.get? k = some x →
      (s.ctxSt k = CtxSt.loading → cleared → loadChecks s k x = true → x.startCmds = [] → s.board.flowStop = false →
        Runs (.loadComplete c) s fun u => ∃ t, u = startRecord t k ∧ t.ctxSt k = CtxSt.ready
          ∧ t.reg (R.ctxCommit k) = x.startStep - 1 ∧ t.reg (R.ctxRpoint k) = BitVec.allOnes 64)
      ∧ (s.ctxSt k = CtxSt.loading → cleared → loadChecks s k x = true → x.startCmds ≠ [] →
        Runs (.loadComplete c) s fun u => (u.ctxs.get? k).map (·.startNext) = some true)
      ∧ (s.ctxSt k = CtxSt.loading → ¬ cleared → Runs (.loadComplete c) s fun u => u = s)
      ∧ (s.ctxSt k = CtxSt.loading → cleared → loadChecks s k x = false → Runs (.loadComplete c) s fun u => ∃ t : State,
          u = x.startCmds.foldl (fun s cmd => reply s 0x0404 cmd St.bound []) t
            ∧ t.ctxs = s.ctxs.erase k ∧ t.ctxSt k = CtxSt.free ∧ t.mem = s.mem ∧ t.tiles = s.tiles)
      ∧ (s.ctxSt k = CtxSt.teardown → ctxInflight s k = 0 → fabricHeld s k = false → s.engResets = [] →
          (s.ctxParts k).any s.inReset = false →
          Runs (.teardownComplete c) s fun u => u.ctxs.get? k = none ∧ u.ctxSt k = CtxSt.free
            ∧ u.ctxId k = (k * 128 + (s.ctxId k + 1) % 128) % 65536)
      ∧ (s.ctxSt k = CtxSt.teardown → 0 < ctxInflight s k → Runs (.teardownComplete c) s fun u => u = s)
      ∧ (s.ctxSt k = CtxSt.teardown → Runs (.teardownDeadline c) s fun u =>
          u = (holders s k).foldl (fun s h => s.startEngineReset h.1 h.2.1 h.2.2 2) s)

/-- Keys, images, the alarm policy and fences: a wrapped key fills a slot, an image is decrypted where it is written, a lock
lets no level fall, a fence is lifted partition by partition, and each alarm source acts at its level. Clauses that rest on
choices or readings of the model: log entries 15, 18, 89 and 90. -/
def Obligations.KeysAndAlarms : Prop :=
  ∀ (s : State) (c : Cmd) (p : Nat),
    (∀ (slot : BitVec 8) (n : BitVec 64) (ct wr : List Byte) (w : Nat), let key := unwrapModelKey w ct wr
        Taken 0x040C .hostOnly false c s → scopePart c = some p →
        s.board.wrapKey = some w → n.toNat = s.board.wrapCount → slot.toNat < 16 → ct.length = 1568 → wr.length = 40 →
        s.board.wrapUses < 65535 → ∃ s1 : State,
          Replies (.loadModelKey c slot n ct wr) 0x040C c s (if key.isSome then St.ok else St.bound) [] s1
            ∧ (key = none → s1 = s)
            ∧ (∀ x, key = some x → s1.board.modelKeys = s.board.modelKeys.set (p * 16 + slot.toNat) x
                ∧ s1.board.wrapUses = s.board.wrapUses + 1 ∧ (s1.fld R.secKeystat F.secKeystat_model_any).testBit p = true))
      ∧ (∀ slot : BitVec 8, Taken 0x040D .hostOnly false c s → scopePart c = some p → slot.toNat < 16 → ∃ s1 : State,
          Replies (.unloadModelKey c slot) 0x040D c s St.ok [] s1
            ∧ s1.board.modelKeys = s.board.modelKeys.erase (p * 16 + slot.toNat))
      ∧ (∀ (slot : BitVec 8) (img len dst : BitVec 64) (k a d : Nat) (key : List Byte), Taken 0x040E .hostOnly false c s →
          scopeCtx c = some k → slot.toNat < 16 → len ≠ 0 →
          s.board.modelKeys.get? (k / 64 * 16 + slot.toNat) = some key →
          ((s.window k (bitsOf img.toNat 47 44)).map fun w => w.kind) = some 1 →
          s.resolve k (bitsOf img.toNat 47 44) (s.localDev * 2 ^ 44 + bitsOf img.toNat 43 0) len.toNat .rd = some (.here a) →
          s.resolve k (bitsOf dst.toNat 47 44) (s.localDev * 2 ^ 44 + bitsOf dst.toNat 43 0) len.toNat .wr = some (.here d) →
          s.answers k d len.toNat = true → s.statusAt a len.toNat = .ok → Replies (.loadModelImage c slot img len dst []) 0x040E c s St.ok []
            ((s.homeRange 512 d len.toNat 1 true).writeBytes d (decryptImage key (s.bytesAt a len.toNat))))
      ∧ (∀ (path : RegPath) (x : BitVec 64), levelsOk s (bitsOf x.toNat 9 0) = true → Runs (.secAlarmpolWrite path x) s fun u =>
          u.fld R.secAlarmpol F.secAlarmpol_levels = bitsOf x.toNat 9 0
            ∧ u.fld R.secAlarmpol F.secAlarmpol_lock = max (s.fld R.secAlarmpol F.secAlarmpol_lock) (bitsOf x.toNat 16 16)
            ∧ OnlyRegs { s with board := u.board } u [R.secAlarmpol]
            ∧ u.board = (markLevel s R.secAlarmpol (pathLevel path) (BitVec.allOnes 64)).board)
      ∧ (∀ (path : RegPath) (x : BitVec 64), levelsOk s (bitsOf x.toNat 9 0) = false → Runs (.secAlarmpolWrite path x) s fun u =>
          u = rejectReg s path R.secAlarmpol true none)
      ∧ (∀ m x l, Taken 0x040F .trayOnly false c s → (gatherItems l).rows = [(R.secAlarmpol, m, x)] →
          l.all (itemOk s c [⟨R.secAlarmpol, F.secAlarmpol_levels, 0, 0x3FF⟩, ⟨R.secAlarmpol, F.secAlarmpol_lock, 0, 1⟩]) = true →
          levelsOk s (bitsOf ((s.reg R.secAlarmpol &&& ~~~m) ||| (x &&& m)).toNat 9 0) = true →
          Replies (.setAlarmPolicy c l) 0x040F c s St.ok [] (writeAlarmPolicy s .item x m))
      ∧ (Taken 0x0410 .trayOnly false c s → scopePart c = some p → s.members p = [p] → s.fenced p = true → ∃ s1 : State,
          Replies (.clearFence c) 0x0410 c s St.ok [] s1 ∧ s1.fenced p = false
            ∧ s1.fld (R.partFence p) F.partFence_keys_erased = 0)
      ∧ Runs .debugUnlockFailure s (fun u => u = s.raiseAlarm 3 0 none)
      ∧ Runs .lidTamper s (fun u => u = s.raiseAlarm 4 0 none)
      ∧ Runs .voltageGlitch s (fun u => u = s.raiseAlarm 2 0 none)
      ∧ (∀ source, 2 ≤ source → source ≤ 4 → s.fld R.secAlarmpol F.secAlarmpol_levels / 4 ^ source % 4 = 0 → ∃ t : State,
          s.raiseAlarm source 0 none = t.recordAll (ErrRec.mk0 0x10 1 0 0x0C 0 source)
            ∧ t.fld R.secAlarmstat F.secAlarmstat_last_source = source ∧ t.ctxs = s.ctxs ∧ t.board = s.board)

/-- Commands about the fabric and the partitions. Clauses that rest on choices or readings of the model: log entries 64 and
67. -/
def Obligations.FabricAndGroupCommands : Prop :=
  ∀ (s : State) (c : Cmd),
    (∀ d : BitVec 12, Taken 0x0303 .both false c s → s.fld R.plCtl F.plCtl_enable = 0 → ∃ s1 : State,
        Replies (.setFabricIdentity c d) 0x0303 c s St.ok [] s1 ∧ s1.fld R.plId F.plId_device = d.toNat
          ∧ s1.fld R.plId F.plId_valid = 1 ∧ s1.mem = s.mem ∧ s1.ctxs = s.ctxs)
      ∧ (∀ d : BitVec 12, Taken 0x0303 .both false c s → s.fld R.plCtl F.plCtl_enable = 1 →
        Replies (.setFabricIdentity c d) 0x0303 c s St.bound [] (rejectReg s .item R.plId true none))
      ∧ (∀ (a : BitVec 44) (lat : BitVec 22), let img (i : Nat) := s.load (a.toNat + 8 * i) 8
        Taken 0x0304 .both false c s → s.statusAt a.toNat (8 * 4097) = .ok →
        (∀ d, d < 4096 → bitsOf (img d) 62 56 = 0) →
        (let m : BitVec 64 := BitVec.ofNat 64 (2 ^ 64 - 2 ^ 36)
         regOk s R.plTickctl m (BitVec.ofNat 64 (img 4096) &&& m) = true) →
        ∃ s1 : State, Replies (.setFabricTopology c a lat) 0x0304 c s St.ok [] (setTickTimes s1 lat.toNat)
          ∧ (∀ f ∈ [F.plTickctl_role, F.plTickctl_parent, F.plTickctl_alt_parent, F.plTickctl_slip_q],
              s1.fld R.plTickctl f = bitsOf (img 4096) f.hi f.lo)
          ∧ (∀ d, d < 4096 → ∀ f ∈ [F.plRt_valid, F.plRt_hops, F.plRt_alt, F.plRt_primary],
              s1.fld (R.plRt d) f = bitsOf (img d) f.hi f.lo)
          ∧ s1.mem = s.mem ∧ s1.ctxs = s.ctxs)
      ∧ (Taken 0x0309 .both false c s → ∃ s1 : State, Replies (.departDevice c) 0x0309 c s St.ok [] (settleDepart s1)
          ∧ s1.fab.departing = true ∧ s1.mem = s.mem ∧ s1.ctxs = (s.ctxs.keys.foldl (fun s k => s.hold k .depart) s).ctxs)
      ∧ (∀ d : BitVec 12, Taken 0x030A .both false c s → s.fab.out = [] → s.ctxs = SMap.empty → ∃ s1 : State,
        Replies (.declareDeviceLost c d) 0x030A c s St.ok []
          (s1.recordAll (ErrRec.mk0 0x14 5 0 0x0C 0 (d.toNat + 2 * 2 ^ 12)))
          ∧ s1.fab.lost = (d.toNat :: s.fab.lost).dedup ∧ s1.mem = s.mem)
      ∧ (∀ (p : Nat) (z : BitVec 2), Taken 0x0401 .hostOnly false c s → scopePart c = some p → s.ctxs = SMap.empty → ∃ s1 : State,
        Replies (.setPartitionGroups c z) 0x0401 c s St.ok [] s1 ∧ s1.regs = s.regs
          ∧ s1.board.groupNext.get? (p / 2 ^ z.toNat * 2 ^ z.toNat) ≠ none)
      ∧ (∀ (k : Nat) (q : Fin 8), Taken 0x0402 .hostOnly false c s → scopePort s c = some k → s.ports = 24 →
        ∃ s1 : State, Replies (.setPortOwner c q) 0x0402 c s St.ok [] (setPortState s1 k 2)
          ∧ s1.fld (R.plPctl k) F.plPctl_part = q.val)
      ∧ (∀ (k : Nat) (x : Ctx) (d : BitVec 12), Taken 0x0509 .both false c s → scopeCtx c = some k → s.ctxs.get? k = some x →
        Replies (.setRecoveryPolicy c [] (some d)) 0x0509 c s St.ok [] (s.setCtx k { x with partner := some d.toNat }))
      ∧ (∀ (r : Fin 64) (v : BitVec 64), Taken 0x0002 .hostOnly false c s → regOk s (R.hifHreg r.val) (BitVec.allOnes 64) v = true →
        Replies (.setHostRegion c (BitVec.ofNat 8 r.val) v) 0x0002 c s St.ok []
          (markLevel (applyItem s (R.hifHreg r.val) (BitVec.allOnes 64) v) (R.hifHreg r.val) 1 (BitVec.allOnes 64)))
      ∧ (∀ pat : BitVec 4, Taken 0x0102 .both false c s → c.scope.kind = 2 → c.scope.index.toNat < 2048 →
        c.scope.index.toNat % 256 < s.part.tilesPerPart → pat.toNat ≤ 2 → Replies (.runArrayTest c pat) 0x0102 c s St.ok []
          { s with board := { s.board with arrayTests :=
              (s.board.arrayTests.filter fun y => !([c.scope.index.toNat].contains y.1)) ++ [(c.scope.index.toNat, pat.toNat)] } })
      ∧ (Taken 0x0302 .both false c s → Replies (.runInterconnectTest c) 0x0302 c s St.ok []
          (markLevel (s.setFld R.bootCtl F.bootCtl_full_next 1) R.bootCtl 1 1))

/-! ### Memory upkeep, ticks and steps -/

/-- Clears by generation, scrub passes, retirement and way changes. A clear moves a region to the next generation and waits
while that would reach the floor, or to a boundary of a unit that leases a line of it; a scrub pass that meets no error
changes no byte that a read delivers, and moves the floor to the generation of its start unless a clear was accepted
meanwhile; an urgent pass of a leased region waits to the boundary. A retired region is a hole, and the package map records it
once no window covers it; a way whose lines have been written back holds none and changes at the next tick. Clauses that rest
on choices or readings of the model: log entries 32, 50, 70, 71 and 136. -/
def Obligations.MemoryUpkeep : Prop :=
  ∀ (s : State) (c : Cmd) (p : PartId) (r : BitVec 23) (path : RegPath), let i := r.toNat; let q := p.val
    let accepted (u : State) : Prop := u.gen i = (((s.gen i).1 + 1) % 16, (s.gen i).2) ∧ u.mem = s.mem
    let asked : Prop := Taken 0x0204 .both false c s ∧ scopePart c = some q ∧ regionOf s q i = true
      ∧ s.fld (R.capGenstat q) F.capGenstat_busy = 0 ∧ ∀ e ∈ s.board.clearWait, e.1 ≠ q
    (asked → canClear s i = true → regionLeased s i = false → ∃ s1 : State,
          Replies (.clearMemory c r 0) 0x0204 c s St.ok [] s1 ∧ accepted s1
            ∧ s1.fld (R.capGenstat q) F.capGenstat_busy = 0 ∧ s1.fld (R.capGenstat q) F.capGenstat_result = 1
            ∧ s1.fld (R.capGenstat q) F.capGenstat_done = 1)
      ∧ (asked → canClear s i = false ∨ regionLeased s i = true → ∃ s1 : State,
          Replies (.clearMemory c r 0) 0x0204 c s St.ok [] s1 ∧ s1.gens = s.gens ∧ s1.mem = s.mem
            ∧ s1.fld (R.capGenstat q) F.capGenstat_busy = 1 ∧ (q, i, true) ∈ s1.board.clearWait
            ∧ (canClear s i = false → s1.board.scrubs.has i = true)
            ∧ s1.fld (R.capGenstat q) F.capGenstat_scrub_wait = if canClear s i then 0 else 1)
      ∧ (s.board.clearWait.filter (·.1 == q) = [(q, i, true)] → canClear s i = true → regionLeased s i = false →
          Runs (.clearAccept p) s fun u => accepted u ∧ u.fld (R.capGenstat q) F.capGenstat_scrub_wait = 0
            ∧ u.fld (R.capGenstat q) F.capGenstat_busy = 0)
      ∧ (s.isDram (i * 0x200000) = true → regionLeased s i = false → s.board.scrubs.has i = false →
          Runs (.patrolScrubStart r) s fun u =>
            u = { s with board := { s.board with scrubs := s.board.scrubs.set i ((s.gen i).1, false) } })
      ∧ (∀ g0 cleared, s.board.scrubs.get? i = some (g0, cleared) → regionLeased s i = false →
          (∀ l ∈ scrubbed s i, s.lineSt l = .ok) → Runs (.scrubPassEnd ⟨r, []⟩) s fun u =>
          (∀ a, u.byteAt a = s.byteAt a) ∧ u.gen i = ((s.gen i).1, if cleared then (s.gen i).2 else g0))
      ∧ (∀ k, s.board.scrubs.has i = true → regionHolder s i [] = some k → Runs (.scrubPassEnd ⟨r, []⟩) s fun u =>
          u = if urgentPass s i then holdIn s k (.scrub ⟨r, []⟩ []) else s)
      ∧ (∀ u s1, Taken 0x0205 .both false c s → retireUnit s u = some s1 → Replies (.retireMemory c u) 0x0205 c s St.ok [] s1)
      ∧ (s.isDram (i * 0x200000) = true → retireUnit s (.region r) = some (retireRegion s i))
      ∧ (let a := i * 0x200000;
          (unwindowed s a (a + 0x1FFFFF) = true → s.board.flash.mapRecs.length < 8190 → ∃ t : State,
            retireRegion s i = repairRecord t (homeOfRetired s a) (s.memUnit a).1 (s.memUnit a).2 9 true
              ∧ t.region a = .hole ∧ t.mem = s.mem
              ∧ t.board.flash.mapRecs = s.board.flash.mapRecs ++ [MapRec.field 9 a 0])
            ∧ (unwindowed s a (a + 0x1FFFFF) = false → (retireRegion s i).region a = .hole ∧ (retireRegion s i).mem = s.mem
              ∧ (retireRegion s i).board.flash = s.board.flash
              ∧ MapRec.field 9 a ((s.memUnit a).1 * 2 ^ 24 + (s.memUnit a).2) ∈ (retireRegion s i).board.repairs))
      ∧ (regionOf s q i = true → Runs (.regionRetire path p 1 r) s fun u => u = retireRegion s i)
      ∧ (∀ op : BitVec 2, op ≠ 1 → Runs (.regionRetire path p op r) s fun u => u = rejectReg s path (R.capRetire q) true (some q))
      ∧ (∀ (w : Fin 16) (bad : List (BitVec 38)), let j := q * 16 + w.val
        s.board.wayWait.contains j = true → Runs (.wayWritebackDone p ⟨w, bad⟩) s fun u =>
          u.mem = (s.flushWay q w.val (bad.map BitVec.toNat)).mem ∧ (∀ l ∈ u.cache, ¬(l.die = q ∧ l.way = w.val))
            ∧ j ∉ u.board.wayWait ∧ j ∈ u.board.wayReady)

/-- A tick is announced by the master, or by the backup in its place until it receives one again, and passed down the tree;
the ready check reports a device that is not ready up the tree, once for each tick; and the master slips the tick when a
report has come. Clauses that rest on choices or readings of the model: log entries 59 and 62. -/
def Obligations.TickMessages : Prop :=
  ∀ (s : State) (port : PortId) (k : Packet) (n : Nat),
    let role := s.fld R.plTickctl F.plTickctl_role
    let w (i m : Nat) : Nat := leVal ((k.payload.drop i).take m)
    let next := ((s.reg R.plTicknum).toNat + 1) % 2 ^ 64
    let follows : State := { s with ticks := { s.ticks with acting := false } }
    let sent (t : Nat) (op : Nat) (pl : List Byte) : List Out := ((childPorts s).foldl (fun v q =>
      v.emitLink q (linkPacket v (BitVec.ofNat 8 t) (BitVec.ofNat 64 op) pl)) s).outbox
    let slips (u : State) : Prop := u.ticks.announced = s.ticks.announced ∧ u.tiles = s.tiles ∧ u.mem = s.mem ∧ u.objs = s.objs
      ∧ u.fld R.plTickstat F.plTickstat_slips = satAdd 32 (s.fld R.plTickstat F.plTickstat_slips) 1
    (role = 1 → s.ticks.announced = none → Runs .tickAnnounce s fun u => u.ticks.announced = some next
        ∧ u.fld R.devTickper F.devTickper_active = nextPeriod s % 2 ^ 29
        ∧ u.outbox = sent 0x20 (s.fld R.plTickctl F.plTickctl_lead * 1000) (tickPayload next (nextPeriod s) s.localDev))
      ∧ (role = 2 → s.ticks.acting = true → s.ticks.announced = none → Runs .tickAnnounce s fun u => u.ticks.announced = some next
        ∧ u.fld R.devTickper F.devTickper_active = s.fld R.devTickper F.devTickper_active)
      ∧ (role = 2 → s.ticks.announced = none → Runs .backupMasterTakeover s fun u => u.ticks.announced = some next
        ∧ u.ticks.acting = true ∧ isMaster u = true
        ∧ u.fld R.plTickstat F.plTickstat_slips = satAdd 32 (s.fld R.plTickstat F.plTickstat_slips) 1)
      ∧ (k.fits 0x20 = true → tickParent s = some port.val → s.hasId = true → Runs (.tick port k) s fun u =>
        u.ticks.announced = some (w 0 8) ∧ u.ticks.acting = false
          ∧ u.fld R.devTickper F.devTickper_active = w 8 4 % 2 ^ 29
          ∧ u.outbox = ((childPorts follows).foldl (fun v q => v.emitLink q (linkPacket v 0x20
              (BitVec.ofNat 64 (k.operand.toNat - s.fld (R.plPstat port.val) F.plPstat_latency))
              (tickPayload (w 0 8) (w 8 4 % 2 ^ 29) (w 12 4 % 4096)))) follows).outbox)
      ∧ (s.ticks.announced = some n → deviceReady s = true → Runs .readyCheck s fun u => u.ticks = s.ticks ∧ u.outbox = s.outbox)
      ∧ (s.ticks.announced = some n → deviceReady s = false → isMaster s = true → Runs .readyCheck s fun u =>
        u.ticks.notReady = true ∧ u.ticks.missed = true ∧ u.outbox = s.outbox)
      ∧ (∀ q, s.ticks.announced = some n → deviceReady s = false → isMaster s = false → s.ticks.sentNotReady = false →
        tickParent s = some q → Runs .readyCheck s fun u => u.ticks.missed = true ∧ u.ticks.sentNotReady = true
          ∧ u.outbox = (s.emitLink q (linkPacket s 0x22 0 (leBytes 8 n))).outbox)
      ∧ (k.fits 0x22 = true → s.portUp port.val = true → s.hasId = true → s.ticks.announced = some (leVal k.payload) →
        isMaster s = true → Runs (.notReady port k) s fun u =>
          (s.ticks.decided = false → u = { s with ticks := { s.ticks with notReady := true } })
            ∧ (s.ticks.decided = true → u = s.bump R.plTickstat F.plTickstat_late 1))
      ∧ (k.fits 0x22 = true → s.portUp port.val = true → s.ticks.announced = some (leVal k.payload) → isMaster s = false →
        s.ticks.sentNotReady = true → Runs (.notReady port k) s fun u => u = s)
      ∧ (s.ticks.announced = some n → isMaster s = true → s.ticks.notReady = false → Runs .slipDecision s fun u =>
        u = { s with ticks := { s.ticks with decided := true } })
      ∧ (s.ticks.announced = some n → isMaster s = true → s.ticks.notReady = true → Runs .slipDecision s fun u => slips u
        ∧ u.outbox = sent 0x21 ((s.fld R.plTickctl F.plTickctl_decide
            + max (s.fld R.plTickctl F.plTickctl_slip_q) (s.fld R.plTickctl F.plTickctl_check)) * 1000) (leBytes 8 n))
      ∧ (isMaster s = false → Runs .slipDecision s fun u => u = s)
      ∧ (k.fits 0x21 = true → tickParent s = some port.val → s.hasId = true → s.ticks.announced = some (leVal k.payload) →
        Runs (.slip port k) s fun u => slips u)

/-- What a tick does on a device with at most one context. Without one it sets PL.TICKNUM and waits for the next announcement.
With one whose tiles all wait in STEPWAIT, whose record is appended and which nothing holds, the step commits: CTX.COMMIT is
the step, and every tile runs the next one. Clauses that rest on choices or readings of the model: log entries 44 and 45. -/
def Obligations.TickCommits : Prop :=
  ∀ (s : State) (n : Nat), s.ticks.announced = some n → s.shadow = SMap.empty → s.board.wayReady = [] →
    (Runs .tickFire s fun u => u.ticks.announced = none ∧ u.poisonSeen = []
        ∧ ∀ q, (q < 16384 → withheld u (qTile q) = false) → (u.queue q).done = 0)
      ∧ (s.ctxs = SMap.empty → Runs .tickFire s fun u => u.reg R.plTicknum = BitVec.ofNat 64 n
        ∧ u.mem = (trimAll (s.setReg R.plTicknum (BitVec.ofNat 64 n))).mem ∧ u.objs = s.objs)
      ∧ ∀ (c : CtxId) (x : Ctx), let k := c.val
        s.ctxs = SMap.empty.set k x → s.ticks.missed = false → s.ctxSt k = CtxSt.running → s.reviving k = false →
          x.deferred = none → x.waiting = none → x.appended.isSome = true → (∀ t ∈ x.tiles, (s.tile t).st = .stepwait) →
          Runs .tickFire s fun u => u.reg (R.ctxCommit k) = s.stepOf k
            ∧ ∀ t ∈ x.tiles, (u.tile t).st = .run ∧ (u.tile t).step = s.stepOf k + 1

/-- Plans and the journal. A planner folds the lengths of the last commit, plans its next step from the host's requests, and
holds its context where the journal or the completion ring has no room; in a context with peers the plan waits for every
peer's stall set. The record of a step is appended once every tile is in STEPWAIT, without moving the head. Clauses that rest
on choices or readings of the model: log entries 72, 73 and 76. -/
def Obligations.PlansAndJournal : Prop :=
  ∀ (s : State) (c : CtxId) (x : Ctx) (inp : PlanIn), let k := c.val
    let first := nextPlan s k x
    let v := foldLengths s k
    let y : Ctx := { x with folds := [] }
    let step := nextPlan v k y
    let w := runPlan v y step inp (hostAsk v k y step inp).1
    s.ctxs.get? k = some x →
      (mayPlan v k y = true → x.regen = none → planRoom v k y w = (true, true) → peersOf v k = [] →
        Runs (.planStep c inp) s fun u => ∃ t, u = State.showKv t (v.leadOf k)
          ∧ ((t.ctxs.get? k).bind fun z => z.planner.planned) = some w.step)
      ∧ (∀ b, mayPlan v k y = true → x.regen = none → planRoom v k y w = (false, b) → Runs (.planStep c inp) s fun u =>
        u = holdJournal v k)
      ∧ (mayPlan v k y = true → x.regen = none → planRoom v k y w = (true, false) → Runs (.planStep c inp) s fun u =>
        u = v.hold k .queueRoom)
      ∧ (mayPlan v k y = true → x.regen = none → planRoom v k y w = (true, true) → peersOf v k ≠ [] →
        Runs (.planStep c inp) s fun u => u.outbox = v.outbox ++ (peersOf v k).map (fun d => .stallSet d step w.stalls)
          ∧ ((u.ctxs.get? k).bind fun z => z.planner.waiting) = some inp ∧ u.mem = v.mem ∧ u.regs = v.regs)
      ∧ (mayPlan v k y = false → Runs (.planStep c inp) s fun u => u = v)
      ∧ (∀ (d : BitVec 12) (l : List (BitVec 24)), (peersOf s k).contains d.toNat = true → x.planner.waiting = none →
        Runs (.stallSetExchange c d l) s fun u => u.mem = s.mem ∧ u.regs = s.regs
          ∧ ((u.ctxs.get? k).map fun y => (y.planner.union, y.planner.heard))
            = some ((x.planner.union ++ l.map (·.toNat)).dedup, (d.toNat :: x.planner.heard).dedup))
      ∧ (∀ toks, s.ctxSt k = CtxSt.running → s.reviving k = false → x.appended = none →
        (∀ t ∈ x.tiles, (s.tile t).st = .stepwait) → Runs (.stepRecordAppend c toks) s fun u => u.regs = s.regs ∧ u.tiles = s.tiles
          ∧ ((u.ctxs.get? k).map fun y => y.appended.isSome) = some true)
      ∧ (∀ (path : RegPath) (p : PartId) (tail : BitVec 64), (jHead s p.val < tail.toNat ∨ tail.toNat < jTail s p.val) →
        Runs (.partJtailWrite path p tail) s fun u => u = rejectReg s path (R.partJtail p.val) true (some p.val))
      ∧ (∀ (path : RegPath) (p : PartId) (tail : BitVec 64), tail.toNat ≤ jHead s p.val → jTail s p.val ≤ tail.toNat →
        Runs (.partJtailWrite path p tail) s fun u => u = freeJournal (s.setReg (R.partJtail p.val) tail) p.val)
      ∧ (∀ (m : Cmd) (last addr : BitVec 64), Taken 0x0503 .both false m s → scopeCtx m = some k → s.ctxSt k = CtxSt.ready →
        first.toNat ≤ last.toNat → x.regen = none → inCapacity s k addr.toNat 256 = true → ∃ s1 : State,
          Replies (.regenerateSteps m first last addr) 0x0503 m s St.ok [] s1 ∧ s1.reg (R.partReplaystep (s.leadOf k)) = first
            ∧ s1.ctxs = s.ctxs.set k { x with regen := some ⟨first, last, addr.toNat, []⟩ } ∧ s1.mem = s.mem)

/-- Revivals, recovery points and lost peers. A revival ends with every tile of the context at the step's entry; a rollback
returns the context to the step after its last complete recovery point. Clauses that rest on choices or readings of the model:
log entries 37, 44, 46 and 124. -/
def Obligations.RevivalsAndRecovery : Prop :=
  ∀ (s : State) (c : CtxId) (x : Ctx), let k := c.val
    s.ctxs.get? k = some x →
      (s.reviving k = true → stageOneDone s k = true → engineBusy s k = false → (s.ctxParts k).any s.inReset = false →
        Runs (.revivalRestart c) s fun u => u.fld (R.ctxRevive k) F.ctxRevive_state = 2
          ∧ ∀ t ∈ x.tiles, (u.tile t).st = .run ∧ (u.tile t).pc = BitVec.ofNat 44 x.entry)
      ∧ (s.reviving k = true → stageOneDone s k = false → Runs (.revivalRestart c) s fun u => u = s)
      ∧ (∀ (h : BitVec 64) (d : Nat), let g := Handle.ofBits h
        x.deferred = some d → s.fab.out = [] → g.device = d → g.remote = true → Runs (.revivalProbe c h) s fun u =>
          u = s.sendRequest (s.leadOf k) k d Pk.sig (g.part * 16384 + g.index) 1 0 0 [] (.probe k))
      ∧ (∀ r, x.recPoint = some r → Runs (.recoveryPointComplete c false) s fun u =>
        u = s.setCtx k { x with recPoint := some { r with parityDone := true } })
      ∧ (∀ r, x.recPoint = some r → Runs (.recoveryPointComplete c true) s fun u => u.reg (R.ctxRpoint k) = r.step
        ∧ ((u.ctxs.get? k).map fun y => (y.recPoint, y.lastPoint)) = some (none, some { r with parityDone := true }))
      ∧ (∀ r pages, x.lastPoint = some r → s.ctxSt k = CtxSt.running → Runs (.rollbackToRecoveryPoint c pages) s fun u =>
        u.reg (R.ctxCommit k) = r.step ∧ ∀ t ∈ x.tiles, (u.tile t).st = .run ∧ (u.tile t).step = r.step + 1)
      ∧ (∀ m : Cmd, Taken 0x0504 .both false m s → scopeCtx m = some k → s.ctxSt k = CtxSt.running →
        Replies (.reviveStep m (s.stepOf k) (s.stepOf k)) 0x0504 m s St.ok [] (s.startRevival k 0xE))
      ∧ (∀ d : BitVec 12, x.planner.waiting.isSome = true → (peersOf s k).contains d.toNat = true →
        x.planner.heard.contains d.toNat = false → Runs (.peerLossLimit c d) s fun u =>
          u = lossAlert (s.record (s.leadOf k) (s.nameCtx (ErrRec.mk0 0x14 2 (s.leadOf k) 0x0B 0 (d.toNat + 2 ^ 12)) (some k)))
            (s.leadOf k))
      ∧ (∀ (d : BitVec 12) (i : Nat) (l : List Nat),
        (List.range s.ports).filter (fun j => s.fld (R.plPstat j) F.plPstat_nbr_dev == d.toNat) = i :: l →
        (∀ j ∈ i :: l, s.portUp j = false) → Runs (.neighbourPortsDown d) s fun u =>
          let p := s.fld (R.plPctl i) F.plPctl_part
          u = lossAlert (s.record p (ErrRec.mk0 0x14 2 p 0x0A i (d.toNat + 2 ^ 12))) p)

/-! ### Resets -/

/-- Engine, partition and chip resets: what starts them, what a start leaves, and how each phase and each level ends. Clauses
that rest on choices or readings of the model: log entries 81, 82, 83, 93 and 132. -/
def Obligations.Resets : Prop :=
  ∀ (s : State) (p : PartId) (kind : BitVec 8) (index : BitVec 24) (us : BitVec 32), let q := p.val; let k := kind.toNat
    let i := index.toNat
    let phase := s.fld (R.partRststat q) F.partRststat_phase
    (∀ cause, s.inReset q = false → cause < 256 → (s.startPartitionReset q cause).fld (R.partRststat q) F.partRststat_phase = 1
        ∧ (s.startPartitionReset q cause).fld (R.partRststat q) F.partRststat_last_cause = cause)
      ∧ (∀ t : TileId, (s.tile t.val).st = .run → 0 < (s.tile t.val).notReady → (s.tile t.val).ctxValid = false →
        Runs (.tileHang t) s fun u => u = (s.record (t.val / 256) (ErrRec.mk0 0x0C 3 (t.val / 256) 1 t.val 0x101)).startEngineReset
          (t.val / 256) 1 t.val 4)
      ∧ (engineOf s q k i = true → engineHolds s q k i = true → onlyQuiesced s q k i = false →
        Runs (.engineWatchdogExpire p kind index) s fun u =>
          u = ((timeoutEngine s q k i).record q (ErrRec.mk0 0x0C 3 q k i 0x102)).startEngineReset q k i 4)
      ∧ (∀ (e : EngRst) (pass : Bool), kind = 1 → (s.engResets.find? fun y => y.part == q && y.kind == 1 && y.index == i) = some e →
        let good : Bool := pass && s.fld (R.mxaBist i) F.mxaBist_result != 3
        let ends (P : State → Prop) : Prop := Runs (.engineResetComplete p kind index pass us) s P
        ((s.tile i).st = .save → ends fun u => u = s)
          ∧ (∀ s0, (s.tile i).st ≠ .save → resetTest s 1 i = some s0 → ends fun u => u = s0)
          ∧ ((s.tile i).st ≠ .save → resetTest s 1 i = none → good = true → ends fun u =>
            (u.tile i).st = (if (s.tile i).st = .off then .off else .idle)
              ∧ u.engResets = s.engResets.filter (· != e) ∧ u.fld (R.errEngstat q) F.errEngstat_result = 2)
          ∧ ((s.tile i).st ≠ .save → resetTest s 1 i = none → good = false → ends fun u =>
            ∃ t : State, u = t.startPartitionReset q 8
              ∧ i ∈ t.board.retireTiles ∧ t.fld (R.errEngstat q) F.errEngstat_result = 3))
      ∧ (Runs (.partitionHeartbeatMissing p) s fun u =>
          u = (s.record q (ErrRec.mk0 0x0C 3 q 0x0B 0 0x203)).startPartitionReset q 6)
      ∧ (Runs .deviceHeartbeatMissing s fun u => u = (s.recordAll (ErrRec.mk0 0x0C 3 0 0x0C 0 0x303)).startChipReset 6)
      ∧ (s.engResets.any (fun e => e.part == q && e.kind == k && e.index == i) = true →
        Runs (.resetDeadlineExpire 1 p kind index) s fun u => u = ((s.record q (ErrRec.mk0 0x0C 3 q k i 0x204)).setFld
          (R.errEngstat q) F.errEngstat_result 4).startPartitionReset q 2)
      ∧ (phase ≠ 0 → Runs (.resetDeadlineExpire 2 p kind index) s fun u =>
        u = (s.record q (ErrRec.mk0 0x0C 3 q 0x0B 0 0x304)).startChipReset 2)
      ∧ (s.fld R.devRststat F.devRststat_phase = 1 → Runs (.resetDeadlineExpire 3 p kind index) s fun u => u.board.lost = true
        ∧ u.board.powerCycleRequest = true)
      ∧ (∀ fails, phase = 1 → Runs (.partitionResetPhaseEnd p fails us) s fun u =>
        u = s.setFld (R.partRststat q) F.partRststat_phase 2)
      ∧ (∀ fails, phase = 4 → Runs (.partitionResetPhaseEnd p fails us) s fun u => u.fld (R.partRststat q) F.partRststat_phase = 5
        ∧ u.mem = s.mem ∧ ∀ t ∈ s.tiles.keys, t / 256 = q → (s.tile t).st = .reset ∨ (s.tile t).st = .idle → (u.tile t).st = .off)
      ∧ (∀ fails, phase = 2 → Runs (.partitionResetPhaseEnd p fails us) s fun u => u.mem = (flushDie s q).mem ∧ (∀ l ∈ u.cache, l.die ≠ q)
        ∧ u.fld (R.partRststat q) F.partRststat_phase = 3)
      ∧ (∀ fails, phase = 3 → Runs (.partitionResetPhaseEnd p fails us) s fun u =>
        u.fld (R.partRststat q) F.partRststat_phase = 4 ∧ u.fld (R.errEngstat q) F.errEngstat_resets = 0)
      ∧ (∀ fails t, phase = 5 → t / 256 = q → t % 256 < s.part.tilesPerPart → (s.tile t).bist = true →
        Runs (.partitionResetPhaseEnd p fails us) s fun u => u = s)
      ∧ (∀ fails, phase = 6 → s.board.repairs = [] → s.board.retireTiles = [] → Runs (.partitionResetPhaseEnd p fails us) s fun u =>
        u = s.setFld (R.partRststat q) F.partRststat_phase 7)
      ∧ (∀ fails, phase = 7 → s.ctxs = SMap.empty → Runs (.partitionResetPhaseEnd p fails us) s fun u =>
        u.fld (R.partRststat q) F.partRststat_phase = 0 ∧ u.fld (R.partRststat q) F.partRststat_last_us = us.toNat)
      ∧ (s.fld R.devRststat F.devRststat_phase = 1 → Runs (.chipResetPhaseEnd us) s fun u =>
        u.fld R.devRststat F.devRststat_phase = 2 ∧ u.board.restart = true ∧ u.reqs = SMap.empty)
      ∧ (s.fld R.devRststat F.devRststat_phase = 2 → s.fld R.bootStatus F.bootStatus_ready = 0 → Runs (.chipResetPhaseEnd us) s fun u =>
        u = s)
      ∧ (s.fld R.devRststat F.devRststat_phase = 2 → s.fld R.bootStatus F.bootStatus_ready = 1 → Runs (.chipResetPhaseEnd us) s fun u =>
        u = s.setFld R.devRststat F.devRststat_phase 3)
      ∧ (∀ c : Cmd, Taken 0x0506 .both false c s → scopePart c = some q → engineOf s q k i = true →
        s.fld (R.errEngstat q) F.errEngstat_result ≠ 1 → engineCtxs s q k i = [] →
        Replies (.resetEngine c kind index) 0x0506 c s St.ok [] (s.startEngineReset q k i 1))
      ∧ (∀ c : Cmd, Taken 0x0507 .both false c s → scopePart c = some q →
        Replies (.resetPartition c) 0x0507 c s St.ok [] (s.startPartitionReset q 1))
      ∧ (∀ c : Cmd, Taken 0x0508 .both false c s → Replies (.resetDevice c) 0x0508 c s St.ok [] (s.startChipReset 1))

/-! ### Temperatures and power -/

/-- Sensors, refresh rates and thermal gaps: a third sample in a row at 115 °C trips the module; a good sample shows its
reading; a rate falls one level, a gap 16 cycles; a substitute stands in only where it may. Clauses that rest on choices or
readings of the model: log entries 85 and 87. -/
def Obligations.SensorsAndHeat : Prop :=
  ∀ (s : State) (i : BitVec 12) (x : BitVec 16) (j : Fin 3344) (t : TileId) (p : PartId) (n : StackId), let k := i.toNat
    (s.board.hot.getD k 0 = 2 → tripSensor k = true → 460 ≤ x.toInt → k < 3344 → Runs (.sensorSample [(i, x, true)]) s fun u =>
        u.board.tripped = true ∧ u.part.trip = true ∧ u.tiles = SMap.empty ∧ u.mem = [] ∧ u.pending = s.pending)
      ∧ (k < 2176 → -160 ≤ x.toInt → x.toInt < 460 → s.board.stuck.contains k = false →
        (∀ e, e < 64 → s.fld (R.thmSubst e) F.thmSubst_valid = 0) → Runs (.sensorSample [(i, x, true)]) s fun u =>
          ∃ v, u = showThermal v ∧ v.reg (R.thmSens k) = BitVec.ofNat 64 (2 ^ 31 + x.toNat) ∧ v.mem = s.mem)
      ∧ (let r := R.capStatus (n.val / 4) (n.val % 4)
        let v := s.fld r F.capStatus_rate
        v ≠ 0 → stackDead s n.val = false → s.anyAbove (stackSensors n.val) (if v = 2 then 372 else 332) = false →
        Runs (.refreshRateLower (.stack n)) s fun u => u.fld r F.capStatus_rate = v - 1 ∧ u.fld r F.capStatus_capped = 0
          ∧ OnlyRegs s u [r])
      ∧ (∀ l : Fin 4, let r := R.slcStatus t.val
        let v := bitsOf (s.fld r F.slcStatus_rate) (2 * l.val + 1) (2 * l.val)
        v ≠ 0 → mayFall s [(s.layersOf t.val).getD l.val 0] v = true → Runs (.refreshRateLower (.layer t l)) s fun u =>
          bitsOf (u.fld r F.slcStatus_rate) (2 * l.val + 1) (2 * l.val) = v - 1 ∧ OnlyRegs s u [r])
      ∧ (2 ≤ ((neighbours j.val).filter s.sensUsable).length → s.board.stuck.contains j.val = false →
        Runs (.sensorStuckCheck j false true) s fun u =>
          let s1 := { s with board := { s.board with stuck := s.board.stuck ++ [j.val] } }
          u = showThermal (followSensor (showSensor s1 j.val (s1.sensValid j.val)) j.val))
      ∧ (paired j.val = true → s.sensUsable j.val = true → s.sensUsable (partnerOf j.val) = true →
        12 < s.reading j.val - s.reading (partnerOf j.val) → 
          Runs (.pairDisagreement ⟨j, false⟩) s (fun u => u = (sensorRecord s j.val 4 (s.reading j.val)
            (some (partnerOf j.val, s.reading (partnerOf j.val)))).bump R.thmStat F.thmStat_disagree 1)
          ∧ Runs (.pairDisagreement ⟨j, true⟩) s fun u => u = s.bump R.thmStat F.thmStat_disagree 1)
      ∧ (s.tileCool t.val = true → Runs (.thermalGapStep t) s fun u => u.thermalGap t.val = s.thermalGap t.val - 16 ∧ u.regs = s.regs)
      ∧ ((tilesOf s p.val).any (fun y => s.heldGap y == 1023 && s.tileHot y) = true → Runs (.dieFrequencyStep p) s fun u =>
        u.fld (R.pwrPctl p.val) F.pwrPctl_freq = max 20 (s.fld (R.pwrPctl p.val) F.pwrPctl_freq - 1) ∧ u.mem = s.mem)
      ∧ (∀ a : BitVec 44, s.region a.toNat = .capacity n.val → s.quiesced a.toNat = true →
        Runs (.quiesceCoolantTimeout a) s fun u => let h := hottest s (stackSensors n.val)
          u = stopFlow (sensorRecord s h.1 10 h.2 none))
      ∧ (∀ (path : RegPath) (e : Fin 64) (y : BitVec 64), y.getLsbD 63 = true →
        (neighbours (bitsOf y.toNat 43 32)).contains (bitsOf y.toNat 55 44) = false → Runs (.thmSubstWrite path e y) s fun u =>
          u = rejectReg s path (R.thmSubst e.val) true none)
      ∧ (∀ (path : RegPath) (e : Fin 64) (y : BitVec 64), y.getLsbD 63 = false → s.fld (R.thmSubst e.val) F.thmSubst_valid = 0 →
        Runs (.thmSubstWrite path e y) s fun u => u = markLevel (s.setReg (R.thmSubst e.val) (y &&& 0x80FFFFFF0000003F))
          (R.thmSubst e.val) (pathLevel path) (BitVec.allOnes 64))

/-- Power: the effective limit is the smallest of the rating, the tray's limit and the coolant limit, and 400 W under a clamp
(R612); the budget of a window without a clamp, the clamp of a flow stop and of an undervoltage and their ends, a regulator
that fails, and the tray's coolant report. Clauses that rest on choices or readings of the model: log entries 84, 85, 86 and
88. -/
def Obligations.PowerAndCoolant : Prop :=
  ∀ (s : State) (w v other : BitVec 16) (parts : List (BitVec 16 × BitVec 16 × BitVec 16)),
    let l := limitL s
    let b := s.fld R.pwrLimit F.pwrLimit_budget
    let rise : Prop := b < l ∧ (w.toNat + 50 ≤ l ∧ 10 ≤ s.board.calm + 1) ∧ 10 ≤ s.board.sinceRise + 1
    let down : Prop := s.board.outletHot = true ∨ l < w.toNat ∨ l < b
    (clampOn s = false → l = min s.part.maxPower (min (s.fld R.pwrLimit F.pwrLimit_tray) (s.fld R.pwrLimit F.pwrLimit_coolant)))
      ∧ (clampOn s = true → l = 400) ∧ (showLimit s).fld R.pwrLimit F.pwrLimit_effective = l
      ∧ (clampOn s = false → Runs (.limiterWindow w v other parts) s fun u => ∃ (t : State) (sh : List Nat),
        u = (List.range 8).foldl (fun a p => ladderWindow a p (sh.getD p 0) (parts.getD p (0, 0, 0)) w.toNat) t
          ∧ t.fld R.pwrStat F.pwrStat_input_w = w.toNat ∧ t.fld R.pwrStat F.pwrStat_over = (if l < w.toNat then 1 else 0)
          ∧ (down → t.fld R.pwrLimit F.pwrLimit_budget = max 400 (b - 25))
          ∧ (¬ down → rise → t.fld R.pwrLimit F.pwrLimit_budget = min l (b + 25))
          ∧ (¬ down → ¬ rise → t.fld R.pwrLimit F.pwrLimit_budget = b))
      ∧ (s.board.pwrEn = true → Runs .flowFaultAssert s fun u => u = stopFlow (s.setFld R.mgtPins F.mgtPins_flow_fault 1))
      ∧ (s.board.lost = false → (stopFlow s).board.flowStop = true)
      ∧ (s.board.flowStop = true → s.board.lost = false → 2 ≤ s.board.goodReports → Runs .flowRecovery s fun u =>
        u = resumeFlow (s.setFld R.mgtPins F.mgtPins_flow_fault 0))
      ∧ ((s.board.flowStop = false ∨ s.board.goodReports < 2) → Runs .flowRecovery s fun u =>
        u = s.setFld R.mgtPins F.mgtPins_flow_fault 0)
      ∧ (s.board.flowStop = true → s.board.lost = false → Runs .flowStopTimeout s fun u => u.board.lost = true
        ∧ u.board.powerCycleRequest = true
        ∧ ∀ t, (s.tile t).st = .run ∨ (s.tile t).st = .stepwait → (u.tile t).st = .halted)
      ∧ (s.board.undervolt = false → Runs (.inputUndervoltage v) s fun u => ∃ t : State, u = powerRecord t 5 0 v.toNat
        ∧ t.board.undervolt = true ∧ t.fld R.pwrLimit F.pwrLimit_effective = 400 ∧ t.fld R.pwrLimit F.pwrLimit_budget = 400
        ∧ t.fld R.pwrStat F.pwrStat_clamp = 1)
      ∧ (s.board.undervolt = true → Runs .undervoltageRecover s fun u => u.board.undervolt = false
        ∧ (s.board.flowStop = false → u.fld R.pwrStat F.pwrStat_clamp = 0))
      ∧ (Runs (.regulatorFault 0 w) s fun u => u = (powerRecord s 4 0 w.toNat).startChipReset 0xA)
      ∧ (∀ rail : BitVec 8, 0 < rail.toNat → rail.toNat < 33 → Runs (.regulatorFault rail w) s fun u =>
        u = (powerRecordAt s ((rail.toNat - 1) % 8) 4 rail.toNat w.toNat).startPartitionReset ((rail.toNat - 1) % 8) 0xA)
      ∧ (∀ rail : BitVec 8, 33 ≤ rail.toNat → rail.toNat < 65 → Runs (.regulatorFault rail w) s fun u =>
        u = (powerRecordAt s ((rail.toNat - 33) / 4) 4 rail.toNat w.toNat).startPartitionReset ((rail.toNat - 33) / 4) 0xA)
      ∧ (∀ rail : BitVec 8, 65 ≤ rail.toNat → Runs (.regulatorFault rail w) s fun u => u = powerRecord s 4 rail.toNat w.toNat)
      ∧ (Runs .coolantReportStale s fun u => u.board.goodReports = 0)
      ∧ (∀ (c : Cmd) (y : BitVec 64) (n : BitVec 32), Taken 0x0005 .trayOnly false c s → bitsOf y.toNat 63 51 ≠ 0 →
        Replies (.coolantReport c y n) 0x0005 c s St.bound [] s)
      ∧ (∀ (c : Cmd) (y : BitVec 64) (n : BitVec 32), let flow := bitsOf y.toNat 47 32
        Taken 0x0005 .trayOnly false c s → bitsOf y.toNat 63 48 = 5 → 136 ≤ (y.extractLsb' 0 16).toInt → 500 ≤ flow → ∃ s1 : State,
          Replies (.coolantReport c y n) 0x0005 c s St.ok [] (showLimit s1)
            ∧ s1.fld R.pwrLimit F.pwrLimit_coolant = coolantLimit s.part (y.extractLsb' 0 16).toInt flow
            ∧ s1.fld R.mgtCoolant F.mgtCoolant_stale = 0 ∧ s1.board.goodReports = s.board.goodReports + 1)

/-! ### Registers, the host link and firmware -/

/-- Register accesses. A read of an unused offset gives ones and no record; a read shows the register without its write-only
fields; a write of an absent unit, of a value out of range, or of a keyed register without its key is rejected whole; any
other acts by access code and is marked with the level of its path. Writes of objects go to the object's base die; a commit
applies shadow copies; and the registers with an effect of their own. Clauses that rest on choices or readings of the model:
log entries 3, 13, 14, 18, 20, 21, 110 and 114. -/
def Obligations.RegisterAccesses : Prop :=
  ∀ (s : State) (path : RegPath) (off : BitVec 28) (v : BitVec 64), let o := off.toNat
    (o % 8 = 0 → RegTab.find o = none → plainWord o = false → pendingWord o = false → Runs (.registerRead path off 8) s fun u =>
        u = s.emit (.regValue (BitVec.allOnes 64)))
      ∧ (∀ d idx, o % 8 = 0 → RegTab.find o = some (d, idx) → plainWord o = false → pendingWord o = false → absentUnit s d.base idx = false →
        accMask d.fields (· == .rc) = 0 → Runs (.registerRead path off 8) s fun u =>
          u = (s.draw).2.emit (.regValue (regView s o d.base idx &&& ~~~(accMask d.fields (· == .wo)))))
      ∧ (∀ d idx, o % 8 = 0 → RegTab.find o = some (d, idx) → absentUnit s d.base idx = true →
        Runs (.registerWrite path off 8 v) s fun u => u = rejectReg s path o true (regPart d.base idx))
      ∧ (∀ d idx, o % 8 = 0 → RegTab.find o = some (d, idx) → absentUnit s d.base idx = false →
        specialWrite s path o d idx v (BitVec.allOnes 64) = none →
        d.fields.any (fieldBad v (BitVec.allOnes 64)) = true ∨ valueBad s path d.base idx (s.reg o) v = true → Runs (.registerWrite path off 8 v) s fun u => u = rejectReg s path o true (regPart d.base idx))
      ∧ (∀ d idx, o % 8 = 0 → RegTab.find o = some (d, idx) → absentUnit s d.base idx = false →
        specialWrite s path o d idx v (BitVec.allOnes 64) = none → d.fields.any (fieldBad v (BitVec.allOnes 64)) = false →
        valueBad s path d.base idx (s.reg o) v = false → Runs (.registerWrite path off 8 v) s fun u =>
          u = markLevel (afterWrite (applyFields s o d v (BitVec.allOnes 64)) d.base idx v (BitVec.allOnes 64)) o (pathLevel path)
            (BitVec.allOnes 64))
      ∧ (off = BitVec.ofNat 28 R.devReset → bitsOf v.toNat 15 8 ≠ 0xC5 → Runs (.registerWrite path off 8 v) s fun u =>
        u = rejectReg s path R.devReset true none)
      ∧ (off = BitVec.ofNat 28 R.devReset → bitsOf v.toNat 15 8 = 0xC5 → bitsOf v.toNat 1 0 = 1 →
        Runs (.registerWrite path off 8 v) s fun u => u = s.startChipReset 1)
      ∧ (∀ (p : PartId) (i : BitVec 14), Runs (.synObjWrite p i v) s fun u => u.nextReq = s.nextReq + 1 ∧ u.objs = s.objs
        ∧ (u.reqs.get? s.nextReq).map (fun r => (r.kind, r.addr, r.data)) = some (.arm, p.val * 16384 + i.toNat, v))
      ∧ (∀ (p : PartId) (i : BitVec 14), Runs (.synSigWrite p i v) s fun u => u.nextReq = s.nextReq + 1 ∧ u.objs = s.objs
        ∧ (u.reqs.get? s.nextReq).map (fun r => (r.kind, r.addr, r.data)) = some (.signal, p.val * 16384 + i.toNat, v))
      ∧ (Runs (.devCommit v) s fun u => u = applySettings s fun r => commitSelects v r && !(isWay r))
      ∧ (∀ (c : CtxId) (n : BitVec 32),
        let ahead := (n.toNat + 2 ^ 32 - s.fld (R.hifRq c.val) F.hifRq_cons) % 2 ^ 32
        Runs (.hifRqProdWrite path c n) s fun u =>
          (2 ^ s.fld (R.hifQbase c.val) F.hifQbase_k < ahead → u = rejectReg s path (R.hifRq c.val) true none)
            ∧ (ahead ≤ 2 ^ s.fld (R.hifQbase c.val) F.hifQbase_k → u = s.setFld (R.hifRq c.val) F.hifRq_prod n.toNat))
      ∧ (∀ (c : CtxId) (n : BitVec 32), Runs (.hifCqConsWrite c n) s fun u => u.fld (R.hifCq c.val) F.hifCq_cons = n.toNat
        ∧ u.mem = s.mem)
      ∧ (meterOk s (v ||| 1) = true → Runs (.clkMeterStart path v) s fun u => u.fld R.clkMeter F.clkMeter_busy = 1
        ∧ u.fld R.clkMetercnt F.clkMetercnt_valid = 0 ∧ OnlyRegs s u [R.clkMeter, R.clkMetercnt])
      ∧ (meterOk s (v ||| 1) = false → Runs (.clkMeterStart path v) s fun u => u = rejectReg s path R.clkMeter true none)
      ∧ (∀ n : BitVec 40, s.fld R.clkMeter F.clkMeter_busy = 1 → Runs (.meterComplete n) s fun u =>
        u.fld R.clkMeter F.clkMeter_busy = 0 ∧ u.fld R.clkMetercnt F.clkMetercnt_count = n.toNat
          ∧ u.fld R.clkMetercnt F.clkMetercnt_valid = 1 ∧ OnlyRegs s u [R.clkMeter, R.clkMetercnt])
      ∧ (∀ (t : TileId) (q : BitVec 4), ((s.tile t.val).st = .reset ∨ (s.tile t.val).st = .idle) → q.toNat ≤ 2 →
        t.val % 256 < s.part.tilesPerPart → Runs (.mxaBistStart path t q) s fun u => (u.tile t.val).bist = true
          ∧ u.fld (R.mxaBist t.val) F.mxaBist_busy = 1 ∧ u.fld (R.mxaBist t.val) F.mxaBist_pattern = q.toNat)
      ∧ (∀ (t : TileId) (q : BitVec 4), (s.tile t.val).st = .run → Runs (.mxaBistStart path t q) s fun u =>
        u = rejectReg s path (R.mxaBist t.val) true (some (t.val / 256)))
      ∧ (∀ t : TileId, (s.tile t.val).bist = true → Runs (.bistComplete t .pass) s fun u => (u.tile t.val).bist = false
        ∧ (u.tile t.val).wvalid = false ∧ (u.tile t.val).acc = SMap.empty ∧ u.fld (R.mxaBist t.val) F.mxaBist_busy = 0
        ∧ u.fld (R.mxaBist t.val) F.mxaBist_result = 1)

/-- The host link, BAR2 and the management bus. A rejected BAR2 read gives ones, one that reads good lines gives their bytes;
a write stores its bytes; both wait where a line is leased; the link's width and rate follow the link, and PERST# and the bus
addresses are as they are set. Clauses that rest on choices or readings of the model: log entries 13, 88 and 89. -/
def Obligations.HostAccesses : Prop :=
  ∀ (s : State) (off : BitVec 36) (n : BitVec 12) (bs : List Byte),
    (∀ a ch y, hostReach s = true → bar2Place s off.toNat (n.toNat + 1) false = (a, some (ch, y)) →
        Runs (.bar2Read off n .none) s fun u =>
          u = (bar2Record s off.toNat ch y).emit (.bar2Value (List.replicate (n.toNat + 1) 0xFF) false))
      ∧ (∀ a, hostReach s = true → bar2Place s off.toNat (n.toNat + 1) false = (a, none) → bar2Leased s a (n.toNat + 1) = false →
        s.statusAt a (n.toNat + 1) = .ok → Runs (.bar2Read off n .none) s fun u =>
          u = (s.homeRange 512 a (n.toNat + 1) 1 false).emit (.bar2Value (s.bytesAt a (n.toNat + 1)) false))
      ∧ (∀ a x, hostReach s = true → bar2Place s off.toNat (n.toNat + 1) false = (a, none) → bar2Leased s a (n.toNat + 1) = true →
        Runs (.bar2Read off n x) s fun u => u = s.holdAt a (n.toNat + 1) (.hostRead off n x))
      ∧ (∀ a, hostReach s = true → bs ≠ [] → bar2Place s off.toNat bs.length true = (a, none) → bar2Leased s a bs.length = true →
        Runs (.bar2Write off bs) s fun u => u = s.holdAt a bs.length (.hostWrite off bs))
      ∧ (∀ a, hostReach s = true → bs ≠ [] → bar2Place s off.toNat bs.length true = (a, none) → bar2Leased s a bs.length = false →
        Runs (.bar2Write off bs) s fun u => u = (s.homeRange 512 a bs.length 1 true).writeBytes a bs)
      ∧ (∀ a ch y, hostReach s = true → bs ≠ [] → bar2Place s off.toNat bs.length true = (a, some (ch, y)) →
        Runs (.bar2Write off bs) s fun u => u = bar2Record s off.toNat ch y)
      ∧ (∀ (r : BitVec 32) (q : MemReq) (m : Nat), s.reqs.get? r.toNat = some q → q.dest = .host m → q.kind = .load →
        Runs (.hostReadTimeout (.mem r)) s fun u =>
          u = (loadTimeoutRecord s q).answer r.toNat q 0 true)
      ∧ (∀ rate, s.fld R.hifLink F.hifLink_width ≠ 0 → s.ctxs = SMap.empty → s.queues = SMap.empty →
        Runs (.hostLinkChange 0 rate) s fun u => ∃ t : State, u = (t.recordAll (ErrRec.mk0 0x0A 1 0 0x0F 0 1)).emit (.msix 513)
          ∧ t.fld R.hifLink F.hifLink_width = 0 ∧ t.mem = s.mem)
      ∧ (∀ (width : BitVec 5) (rate : BitVec 3), width ≠ 0 → s.board.perst = false → s.fld R.hifLink F.hifLink_width = 0 →
        Runs (.hostLinkChange width rate) s fun u => u.fld R.hifLink F.hifLink_width = width.toNat
          ∧ u.fld R.hifLink F.hifLink_rate = rate.toNat ∧ OnlyRegs s u [R.hifLink])
      ∧ (Runs .perstAssert s fun u => u.board.perst = true ∧ u.fld R.mgtPins F.mgtPins_perst = 1)
      ∧ (Runs .perstDeassert s fun u => u.board.perst = false ∧ u.fld R.mgtPins F.mgtPins_perst = 0 ∧ u.mem = s.mem)
      ∧ (Runs .configurationRequest s fun u => u = s.emit (.config (s.fld R.hifLink F.hifLink_ready == 0)))
      ∧ (∀ (a : BitVec 7) (dup : Bool), s.board.aux = true → Runs (.entdaa a dup) s fun u => u.board.i3cAddr = a.toNat
        ∧ u.fld R.mgtPins F.mgtPins_slot_dup = (if dup then 1 else 0))
      ∧ (∀ e : BitVec 8, s.board.aux = true → Runs (.mctpEndpointIdAssign e) s fun u => u = s.setFld R.mgtId F.mgtId_mctp_eid e.toNat)

/-- Firmware delivery and activation. A signed manifest starts a delivery, a chunk with its digest is stored and any other
asked for again; an activation that a forbidden combination would meet activates nothing; a processor that restarts runs its
staged bank, and one that does not sends every bank back. Clauses that rest on choices or readings of the model: log entries
89, 90 and 91. -/
def Obligations.FirmwareUpdates : Prop :=
  ∀ (s : State) (bs : List Byte) (m : Manifest) (i : BitVec 16) (c : Cmd), let f := s.board.flash
    (fwState s ≠ 3 → fwState s ≠ 4 → Runs (.firmwareChunkReceive 0 bs (some m)) s fun u =>
        if manifestAccepted bs m then u.board.flash.manifest = digest bs ∧ u.board.flash.digests = m.digests
          ∧ u.board.flash.chunks.get? 0 = some bs ∧ u.mem = s.mem
        else u = s.setFld R.mgtFwstat F.mgtFwstat_state 5)
      ∧ (fwState s = 1 → 0 < i.toNat → f.digests[i.toNat - 1]? = some (digest bs) → Runs (.firmwareChunkReceive i bs none) s fun u =>
        u.board.flash.chunks = f.chunks.set i.toNat bs ∧ u.mem = s.mem)
      ∧ (fwState s = 1 → 0 < i.toNat → i.toNat ≤ f.digests.length → f.digests[i.toNat - 1]? ≠ some (digest bs) →
        Runs (.firmwareChunkReceive i bs none) s fun u => u = s.emit (.chunkRequest i.toNat))
      ∧ ((fwState s = 3 ∨ fwState s = 4) → Runs (.firmwareChunkReceive i bs (some m)) s fun u => u = s)
      ∧ ((fwState s ≠ 2 ∨ (combinations f).all (allowed f) = false) → Runs .activateFirmware s fun u =>
        u = s.emit (.activation false))
      ∧ (fwState s = 2 → (combinations f).all (allowed f) = true → f.order ≠ [] →
        Runs .activateFirmware s fun u => u.board.activating = f.order ∧ u.board.activated = [] ∧ u.board.previous = f.bank)
      ∧ (∀ q, s.board.activating = [q] → (servedBy s q).any (fun k => s.ctxSt k == CtxSt.running) = false →
        Runs .processorRestartDone s fun u => u.board.activating = [] ∧ u.fld R.mgtFwstat F.mgtFwstat_state = 4
          ∧ u.board.flash.bothFormats = true)
      ∧ (∀ q l, s.board.activating = q :: l → (servedBy s q).any (fun k => s.ctxSt k == CtxSt.running) = true →
        Runs .processorRestartDone s fun u => u = s)
      ∧ (∀ q l, s.board.activating = q :: l → Runs .processorRestartTimeout s fun u => u.board.activating = []
        ∧ u.fld R.mgtFwstat F.mgtFwstat_state = 5 ∧ (s.board.activated = [] → u.board.flash.bank = f.bank))
      ∧ (Taken 0x0003 .both false c s → fwState s = 4 → ∃ s1 : State, Replies (.confirmUpdate c) 0x0003 c s St.ok [] s1
        ∧ s1.board.flash.bothFormats = false ∧ s1.fld R.mgtFwstat F.mgtFwstat_state = 0)

/-! ### Starts, clocks and supplies -/

/-- The start sequence: the settle count begins it; each step that finds nothing wrong goes to the next, the last makes the
device ready; a step that runs too long starts again once with full training; and tiles are powered in waves. Clauses that
rest on choices or readings of the model: log entries 80, 83 and 99. -/
def Obligations.Starts : Prop :=
  ∀ (s : State) (ms : BitVec 32) (t : TileId) (blk : BitVec 16), let b := R.bootStatus
    let at' (n : Nat) : Prop := s.starting = true ∧ s.fld b F.bootStatus_step = n
    (s.board.settling = true → s.part.trip = false → Runs (.settleCountDone false) s fun u => u.board.settled = true
        ∧ u.fld b F.bootStatus_step = 1 ∧ u.fld b F.bootStatus_ready = 0 ∧ u.fld R.clkStatus F.clkStatus_refclk_ok = 1)
      ∧ (s.board.settling = true → s.part.trip = false → Runs (.settleCountDone true) s fun u =>
        u.fld b F.bootStatus_failed = 1 ∧ u.fld b F.bootStatus_fail_code = 1 ∧ u.fld R.mgtPins F.mgtPins_alert = 1)
      ∧ (at' 1 → Runs (.startStepDone .plain ms) s fun u => u = s.setFld b F.bootStatus_step 2)
      ∧ (at' 2 → s.board.flash.matrix = [] ∨ allowed s.board.flash ([1, 2, 3, 4].map (activeVersion s.board.flash)) = true → Runs (.startStepDone (.banks 0xF 0xF) ms) s fun u => u = s.setFld b F.bootStatus_step 3)
      ∧ (at' 3 → Runs (.startStepDone (.straps []) ms) s fun u => u.fld b F.bootStatus_step = 4
        ∧ ∀ (p : PartId) (j : Fin 11), u.reg (R.nocDieid p.val j.val) = resetReg s.part (R.nocDieid p.val j.val))
      ∧ (∀ (p : PartId) (j : Fin 11), at' 3 → s.part.dieSite p.val j.val = true → (j.val < 6 ∨ (j.val = 10 ∧ p.val = 0)) →
        Runs (.startStepDone (.straps [(p, j, none)]) ms) s fun u => u.fld b F.bootStatus_failed = 1
          ∧ u.fld b F.bootStatus_fail_code = 3)
      ∧ (at' 4 → s.board.restart = true → s.board.flash.mapValid = true → Runs (.startStepDone .plain ms) s fun u =>
        u = (retireAbsent ((List.range 8).foldl (fun s p => (List.range 11).foldl (fun s j => showMismatch s p j) s) s)).setFld b
          F.bootStatus_step 5)
      ∧ (∀ x y full, at' 4 → (readCopy s s.board.flash.mapA x).valid = false → (readCopy s s.board.flash.mapB y).valid = false →
        Runs (.startStepDone (.flash x y full) ms) s fun u => u.fld b F.bootStatus_step = 5 ∧ u.fld b F.bootStatus_map_lost = 1
          ∧ u.board.trainedFull = true)
      ∧ (at' 5 → Runs (.startStepDone (.bases []) ms) s fun u => u.fld b F.bootStatus_step = 6
        ∧ u.fld R.clkStatus F.clkStatus_noc_lock = 0xFF ∧ (s.board.restart = false → u.fld R.secKeystat F.secKeystat_mem_valid = 0xFF))
      ∧ (∀ p, at' 5 → Runs (.startStepDone (.bases [p]) ms) s fun u => u.fld b F.bootStatus_failed = 1
        ∧ u.fld b F.bootStatus_fail_code = 4)
      ∧ (at' 6 → s.board.lanes = [] → (∀ r ∈ s.board.flash.mapRecs, r.typ ≠ 3) → Runs (.startStepDone (.edges [] [] false) ms) s fun u =>
        u.fld b F.bootStatus_step = 7 ∧ ∀ e, e < 11 → u.fld (R.nocEdge e) F.nocEdge_state = 2
          ∧ u.fld (R.nocEdge e) F.nocEdge_module_good = 0xFFFF)
      ∧ (at' 7 → s.board.restart = false → Runs (.startStepDone (.memory [] [] false) ms) s fun u => u.fld b F.bootStatus_step = 8
        ∧ u.board.wave = 0 ∧ u.gens = SMap.empty ∧ u.baseGens = SMap.empty ∧ ∀ a, a < 0x40000000000 → u.readByte a = 0)
      ∧ (at' 8 → s.board.wave = 8 → Runs (.startStepDone .plain ms) s fun u => u.fld b F.bootStatus_step = 9
        ∧ u.fld R.clkStatus F.clkStatus_tile_lock = 0xFF)
      ∧ (at' 8 → s.board.wave < 8 → Runs (.startStepDone .plain ms) s fun u => u = s)
      ∧ (at' 9 → Runs (.startStepDone .plain ms) s fun u => u = s.setFld b F.bootStatus_step 10)
      ∧ (∀ x r e p l, at' 10 → s.tiles.vals.any (·.bist) = false → Runs (.startStepDone (.tests x r e p l) ms) s fun u =>
        u.fld b F.bootStatus_step = 11)
      ∧ (at' 11 → Runs (.startStepDone (.ports false) ms) s fun u => u = s.setFld b F.bootStatus_step 12)
      ∧ (at' 12 → Runs (.startStepDone .plain ms) s fun u => ∃ v : State,
        u = ((List.range 8).foldl State.flushRing v).emit (.bootEvent true) ∧ v.fld b F.bootStatus_ready = 1
          ∧ v.fld R.hifLink F.hifLink_ready = 1)
      ∧ (s.starting = true → s.board.retry = false → Runs .startStepTimeout s fun u => u.board.retry = true
        ∧ u.fld b F.bootStatus_step = 1 ∧ u.board.trainedFull = true)
      ∧ (s.starting = true → s.board.retry = true → Runs .startStepTimeout s fun u => u.fld b F.bootStatus_failed = 1
        ∧ u.fld b F.bootStatus_fail_code = 6)
      ∧ (s.fld R.devRststat F.devRststat_phase = 2 → s.fld b F.bootStatus_ready = 0 → Runs .restartSupervisionTimeout s fun u =>
        u.board.lost = true ∧ u.board.powerCycleRequest = true)
      ∧ (∀ w : Fin 8, at' 8 → s.board.wave = w.val → s.board.arrayTests = [] → Runs (.crozierWave none w) s fun u =>
        u.board.wave = w.val + 1)
      ∧ ((s.tile t.val).st = .reset → Runs (.tilePowerGoodTimeout t) s fun u => (u.tile t.val).st = .off
        ∧ t.val ∈ u.board.startFail)
      ∧ (at' 9 → s.board.fwResend.getD t.val 0 < 3 → Runs (.tileFirmwareBlock t blk false) s fun u =>
        u.outbox = s.outbox ++ [.fwBlock t.val blk.toNat]
          ∧ u.board.fwResend.getD t.val 0 = s.board.fwResend.getD t.val 0 + 1)
      ∧ (at' 9 → 3 ≤ s.board.fwResend.getD t.val 0 → Runs (.tileFirmwareBlock t blk false) s fun u => t.val ∈ u.board.startFail)

/-- Clocks, supplies and links of the package. Clauses that rest on choices or readings of the model: log entries 81, 94 and
137. -/
def Obligations.ClocksAndSupplies : Prop :=
  ∀ (s : State) (slot : BitVec 6) (settle : BitVec 3) (e : Fin 12) (m : Fin 16) (r : BitVec 8) (le : BitVec 16),
    let on : Prop := s.board.settled = true ∧ s.board.pwrEn = true
    let ready : Prop := s.fld R.bootStatus F.bootStatus_ready ≠ 0
    (s.board.aux = true → s.board.pwrEn = false → s.board.powerFault = false → s.fld R.mgtPins F.mgtPins_flow_fault = 0 →
        Runs (.pwrEnAssert slot settle) s fun u => u.board.pwrEn = true ∧ u.board.input = true ∧ u.part.settle = settle
          ∧ u.fld R.mgtPins F.mgtPins_slot_id = slot.toNat ∧ u.board.settling = (s.board.clkOk && !s.board.settled))
      ∧ (s.board.pwrEn = true → Runs .pwrEnDeassert s fun u => u.board.pwrEn = false ∧ u.board.input = false ∧ u.mem = []
        ∧ u.tiles = SMap.empty ∧ u.ctxs = SMap.empty ∧ u.pending = s.pending
        ∧ (s.board.activating = [] → u.board.flash = s.board.flash))
      ∧ (s.board.input = true → Runs .efuseSwitchOff s fun u => u.board.input = false ∧ u.board.powerFault = true
        ∧ u.tiles = SMap.empty ∧ u.board.pwrEn = s.board.pwrEn)
      ∧ (Runs .p3v3AuxLoss s fun u => u.board.aux = false ∧ u.part.trip = false ∧ u.board.i3cAddr = 0
        ∧ u.fld R.mgtId F.mgtId_mctp_eid = 0)
      ∧ (s.board.aux = false → Runs (.auxPowerUp slot) s fun u => u.board.aux = true
        ∧ u.fld R.mgtPins F.mgtPins_slot_id = slot.toNat
        ∧ u.fld R.mgtPins F.mgtPins_trip_prev = (if s.part.trip then 1 else 0))
      ∧ (Runs .surpriseRemoval s fun u => u.board.pwrEn = false ∧ u.board.aux = false ∧ u.tiles = SMap.empty ∧ u.mem = [])
      ∧ (Runs .clkOkRise s fun u => u.board.clkOk = true ∧ u.fld R.mgtPins F.mgtPins_clk_ok = 1
        ∧ u.board.settling = (s.board.input && !s.board.settled && !s.board.lost))
      ∧ (s.board.settled = false → Runs .clkOkFall s fun u => u.board.clkOk = false ∧ u.board.settling = false
        ∧ u.fld R.mgtPins F.mgtPins_clk_ok = 0)
      ∧ (on → Runs .clkOkFall s fun u => ∃ t : State, u = powerRecord t 6 0 0 ∧ t.board.clkOk = false ∧ t.tiles = s.tiles)
      ∧ (on → Runs .refclkGlitch s fun u => u = (s.bump R.clkStatus F.clkStatus_glitches 1).raiseAlarm 2 0 none)
      ∧ (on → Runs .refclkStop s fun u => u.board.lost = true ∧ u.fld R.mgtPins F.mgtPins_power_cycle_req = 1
        ∧ u.fld R.clkStatus F.clkStatus_refclk_ok = 0 ∧ u.outbox = s.outbox ∧ u.tiles = s.tiles ∧ u.mem = s.mem)
      ∧ (∀ p : PartId, ready → Runs (.pllLockLoss (.network p)) s fun u => ∃ t : State,
        u = t.startPartitionResetOf p.val 8 (8 + p.val) ∧ t.mem = s.mem
          ∧ (t.fld R.clkStatus F.clkStatus_noc_lock).testBit p.val = false)
      ∧ (∀ p : PartId, ready → Runs (.pllLockLoss (.tile p)) s fun u => ∃ t : State,
        u = t.startPartitionResetOf p.val 8 (0x10 + p.val) ∧ (t.fld R.clkStatus F.clkStatus_tile_lock).testBit p.val = false)
      ∧ (ready → Runs (.pllLockLoss (.timing 0)) s fun u => ∃ t : State, u = t.startChipResetOf 8 0x18 ∧ t.mem = s.mem)
      ∧ (∀ n : StackId, ready → s.stackOn n.val = true → Runs (.pllLockLoss (.hbm n)) s fun u => u = retireStack s n.val)
      ∧ (∀ d : Fin 2, ready → Runs (.pllLockLoss (.serdes d)) s fun u =>
        u = ((List.range 12).map (12 * d.val + ·)).foldl portDown s)
      ∧ ((s.fld (R.nocEdge e.val) F.nocEdge_module_good).testBit m.val = true →
        Runs (.d2dFlitReceive e m true r le none) s fun u =>
          u.fld (R.nocEdgeerr e.val) F.nocEdgeerr_lane_errors = min (s.fld (R.nocEdgeerr e.val) F.nocEdgeerr_lane_errors + le.toNat)
              (2 ^ (F.nocEdgeerr_lane_errors.hi + 1 - F.nocEdgeerr_lane_errors.lo) - 1)
            ∧ u.board.d2dFails = s.board.d2dFails.erase (e.val * 16 + m.val) ∧ u.mem = s.mem)
      ∧ ((s.fld (R.nocEdge e.val) F.nocEdge_module_good).testBit m.val = true →
        s.board.d2dFails.getD (e.val * 16 + m.val) 0 < 16 → Runs (.d2dFlitReceive e m false r le none) s fun u => u.mem = s.mem
          ∧ u.board.d2dFails.getD (e.val * 16 + m.val) 0 = s.board.d2dFails.getD (e.val * 16 + m.val) 0 + 1)
      ∧ ((s.fld (R.nocEdge e.val) F.nocEdge_module_good).testBit m.val = true →
        16 ≤ s.board.d2dFails.getD (e.val * 16 + m.val) 0 → Runs (.d2dFlitReceive e m false r le none) s fun u =>
          ∃ t : State, u = moduleOut t e.val m.val)

/-! ### Functions that many commands share -/

/-- Maximum and minimum (R122): the canonical NaN if either input is NaN; the maximum of -0 and +0 is +0 and the minimum -0;
otherwise one of the inputs, unrounded, and not below (above) either. -/
def Obligations.MaximaAndMinima : Prop :=
  ∀ a b : W32,
    let x := Fp.dec a
    let y := Fp.dec b
    let hi := Fp.fmax a b
    let lo := Fp.fmin a b
    (x = .nan ∨ y = .nan → hi = Fp.qnan ∧ lo = Fp.qnan)
      ∧ (a = 0 ∧ b = 0x80000000 ∨ a = 0x80000000 ∧ b = 0 → hi = 0 ∧ lo = 0x80000000)
      ∧ (x ≠ .nan → y ≠ .nan → (hi = Fp.fl x ∨ hi = Fp.fl y) ∧ (lo = Fp.fl x ∨ lo = Fp.fl y)
        ∧ Fp.cmpX (Fp.dec hi) x ≠ some .lt ∧ Fp.cmpX (Fp.dec hi) y ≠ some .lt
        ∧ Fp.cmpX (Fp.dec lo) x ≠ some .gt ∧ Fp.cmpX (Fp.dec lo) y ≠ some .gt)
      ∧ (x ≠ .nan → a.extractLsb' 23 8 ≠ 0 → Fp.fl x = a)

/-- Channel-local addresses (R324): stack offset and channel-local address map to each other, and an address of unit `c` lies
in pseudo-channel `c` of its stack. -/
def Obligations.ChannelLocalAddresses : Prop :=
  ∀ (n : StackId) (c : Fin 32) (l o : Nat),
    (l < 2 ^ 31 → ∃ x, deviceAddr n.val c.val l = capBase n.val + x ∧ x < 2 ^ 36 ∧ x / 2 ^ 12 % 32 = c.val
        ∧ x = l / 2 ^ 12 * 2 ^ 17 + c.val * 2 ^ 12 + l % 2 ^ 12 ∧ l = x / 2 ^ 17 * 2 ^ 12 + x % 2 ^ 12)
      ∧ (o < 2 ^ 36 → o / 2 ^ 12 % 32 = c.val → deviceAddr n.val c.val (o / 2 ^ 17 * 2 ^ 12 + o % 2 ^ 12) = capBase n.val + o)

/-- Repeated records (R516): a record equal in class, unit, address and syndrome to the last of its ring, less than 1 ms after
it, is not written: the ring's head and sequence stay, and the repeats field of the last record goes up by one, at most to
0xFFFF. Whether 1 ms has passed is a free value. Any other record takes the next sequence number, and the next 64 bytes of the
ring where the ring can take it. Clauses that rest on choices or readings of the model: log entry 30. -/
def Obligations.RepeatedRecords : Prop :=
  ∀ (s : State) (p : PartId) (r : ErrRec),
    let g := s.ring p.val
    let u := s.record p.val r
    let same : Prop := g.last = some r.key ∧ Config.withinMs s.freeCtr = true
    let repeats (s : State) : Nat := leVal (s.bytesAt (g.lastAt + 52) 2)
    let head (s : State) : BitVec 64 := s.reg (R.errHead p.val)
    g.waiting = [] →
      ((¬ same) ∨ (u.regs = s.regs ∧ u.rings = s.rings ∧ u.outbox = s.outbox ∧ repeats u = min 0xFFFF (repeats s + 1)
          ∧ ∀ a, a < g.lastAt ∨ g.lastAt + 60 ≤ a → u.byteAt a = s.byteAt a))
        ∧ (same ∨ ((u.ring p.val).seq = g.seq + 1
          ∧ head u = if s.ringUp p.val then BitVec.ofNat 64 ((head s).toNat + 64) else head s))
end

