-- ==== Sys2Proof/Laws/Map.lean ====
section
/-! SUPPORT. Laws of the sparse tables. -/

namespace Sys2Proof.SMap

variable {α : Type}

theorem insertRows_insertRows (l : List (Nat × α)) (i : Nat) (x y : α) :
    insertRows (insertRows l i x) i y = insertRows l i y := by
  induction l with
  | nil => simp [insertRows]
  | cons a l ih =>
    simp only [insertRows]
    split
    · simp [insertRows]
    · split
      · simp [insertRows]
      · next h1 h2 => simp [insertRows, h1, h2, ih]

theorem lookupRows_insertRows (l : List (Nat × α)) (i j : Nat) (x : α) :
    lookupRows (insertRows l i x) j = if j = i then some x else lookupRows l j := by
  induction l with
  | nil => simp [insertRows, lookupRows, eq_comm]
  | cons a l ih =>
    obtain ⟨k, v⟩ := a
    simp only [insertRows]
    split
    · simp [lookupRows, eq_comm]
    · split
      · next h => subst h; simp only [lookupRows, eq_comm]; split <;> simp_all
      · next h1 h2 =>
        simp only [lookupRows, ih]
        split
        · next h => subst h; simp [Ne.symm h2]
        · rfl

@[simp] theorem set_set (m : SMap α) (i : Nat) (x y : α) : (m.set i x).set i y = m.set i y := by
  simp [set, insertRows_insertRows]

theorem get?_set (m : SMap α) (i j : Nat) (x : α) : (m.set i x).get? j = if j = i then some x else m.get? j := by
  simp [get?, set, lookupRows_insertRows]

@[simp] theorem get?_set_self (m : SMap α) (i : Nat) (x : α) : (m.set i x).get? i = some x := by simp [get?_set]

theorem getD_set (m : SMap α) (i j : Nat) (x d : α) : (m.set i x).getD j d = if j = i then x else m.getD j d := by
  simp only [getD, get?_set]; split <;> rfl

@[simp] theorem getD_set_self (m : SMap α) (i : Nat) (x d : α) : (m.set i x).getD i d = x := by simp [getD_set]

@[simp] theorem get?_empty (i : Nat) : (empty : SMap α).get? i = none := rfl

@[simp] theorem getD_empty (i : Nat) (d : α) : (empty : SMap α).getD i d = d := rfl

theorem has_set (m : SMap α) (i j : Nat) (x : α) : (m.set i x).has j = (decide (j = i) || m.has j) := by
  simp only [has, get?_set]; split <;> simp_all

end Sys2Proof.SMap
end

