-- ==== Sys2Proof/Laws/State.lean ====
section
/-! SUPPORT. What each named update of the state leaves alone: one lemma for each field, and what it reads back as. -/

namespace Sys2Proof.Machine.State

variable (s : State)

/-! ### setReg -/

@[simp] theorem setReg_pending (off : Nat) (x : W64) : (s.setReg off x).pending = s.pending := rfl
@[simp] theorem setReg_part (off : Nat) (x : W64) : (s.setReg off x).part = s.part := rfl
@[simp] theorem setReg_shadow (off : Nat) (x : W64) : (s.setReg off x).shadow = s.shadow := rfl
@[simp] theorem setReg_mem (off : Nat) (x : W64) : (s.setReg off x).mem = s.mem := rfl
@[simp] theorem setReg_lines (off : Nat) (x : W64) : (s.setReg off x).lines = s.lines := rfl
@[simp] theorem setReg_gens (off : Nat) (x : W64) : (s.setReg off x).gens = s.gens := rfl
@[simp] theorem setReg_genBad (off : Nat) (x : W64) : (s.setReg off x).genBad = s.genBad := rfl
@[simp] theorem setReg_holes (off : Nat) (x : W64) : (s.setReg off x).holes = s.holes := rfl
@[simp] theorem setReg_cache (off : Nat) (x : W64) : (s.setReg off x).cache = s.cache := rfl
@[simp] theorem setReg_cacheTree (off : Nat) (x : W64) : (s.setReg off x).cacheTree = s.cacheTree := rfl
@[simp] theorem setReg_wayOff (off : Nat) (x : W64) : (s.setReg off x).wayOff = s.wayOff := rfl
@[simp] theorem setReg_mirror (off : Nat) (x : W64) : (s.setReg off x).mirror = s.mirror := rfl
@[simp] theorem setReg_poisonSeen (off : Nat) (x : W64) : (s.setReg off x).poisonSeen = s.poisonSeen := rfl
@[simp] theorem setReg_tiles (off : Nat) (x : W64) : (s.setReg off x).tiles = s.tiles := rfl
@[simp] theorem setReg_ctxs (off : Nat) (x : W64) : (s.setReg off x).ctxs = s.ctxs := rfl
@[simp] theorem setReg_objs (off : Nat) (x : W64) : (s.setReg off x).objs = s.objs := rfl
@[simp] theorem setReg_reqs (off : Nat) (x : W64) : (s.setReg off x).reqs = s.reqs := rfl
@[simp] theorem setReg_nextReq (off : Nat) (x : W64) : (s.setReg off x).nextReq = s.nextReq := rfl
@[simp] theorem setReg_rings (off : Nat) (x : W64) : (s.setReg off x).rings = s.rings := rfl
@[simp] theorem setReg_engResets (off : Nat) (x : W64) : (s.setReg off x).engResets = s.engResets := rfl
@[simp] theorem setReg_offEngines (off : Nat) (x : W64) : (s.setReg off x).offEngines = s.offEngines := rfl
@[simp] theorem setReg_queues (off : Nat) (x : W64) : (s.setReg off x).queues = s.queues := rfl
@[simp] theorem setReg_capUsed (off : Nat) (x : W64) : (s.setReg off x).capUsed = s.capUsed := rfl
@[simp] theorem setReg_dmaTurn (off : Nat) (x : W64) : (s.setReg off x).dmaTurn = s.dmaTurn := rfl
@[simp] theorem setReg_dmaLast (off : Nat) (x : W64) : (s.setReg off x).dmaLast = s.dmaLast := rfl
@[simp] theorem setReg_units (off : Nat) (x : W64) : (s.setReg off x).units = s.units := rfl
@[simp] theorem setReg_launches (off : Nat) (x : W64) : (s.setReg off x).launches = s.launches := rfl
@[simp] theorem setReg_nextLaunch (off : Nat) (x : W64) : (s.setReg off x).nextLaunch = s.nextLaunch := rfl
@[simp] theorem setReg_imageLines (off : Nat) (x : W64) : (s.setReg off x).imageLines = s.imageLines := rfl
@[simp] theorem setReg_baseGens (off : Nat) (x : W64) : (s.setReg off x).baseGens = s.baseGens := rfl
@[simp] theorem setReg_launchTurn (off : Nat) (x : W64) : (s.setReg off x).launchTurn = s.launchTurn := rfl
@[simp] theorem setReg_held (off : Nat) (x : W64) : (s.setReg off x).held = s.held := rfl
@[simp] theorem setReg_coll (off : Nat) (x : W64) : (s.setReg off x).coll = s.coll := rfl
@[simp] theorem setReg_fab (off : Nat) (x : W64) : (s.setReg off x).fab = s.fab := rfl
@[simp] theorem setReg_ticks (off : Nat) (x : W64) : (s.setReg off x).ticks = s.ticks := rfl
@[simp] theorem setReg_board (off : Nat) (x : W64) : (s.setReg off x).board = s.board := rfl
@[simp] theorem setReg_outbox (off : Nat) (x : W64) : (s.setReg off x).outbox = s.outbox := rfl
@[simp] theorem setReg_freeCtr (off : Nat) (x : W64) : (s.setReg off x).freeCtr = s.freeCtr := rfl

/-! ### setFld -/

@[simp] theorem setFld_pending (off : Nat) (f : Fld) (v : Nat) : (s.setFld off f v).pending = s.pending := rfl
@[simp] theorem setFld_part (off : Nat) (f : Fld) (v : Nat) : (s.setFld off f v).part = s.part := rfl
@[simp] theorem setFld_shadow (off : Nat) (f : Fld) (v : Nat) : (s.setFld off f v).shadow = s.shadow := rfl
@[simp] theorem setFld_mem (off : Nat) (f : Fld) (v : Nat) : (s.setFld off f v).mem = s.mem := rfl
@[simp] theorem setFld_lines (off : Nat) (f : Fld) (v : Nat) : (s.setFld off f v).lines = s.lines := rfl
@[simp] theorem setFld_gens (off : Nat) (f : Fld) (v : Nat) : (s.setFld off f v).gens = s.gens := rfl
@[simp] theorem setFld_genBad (off : Nat) (f : Fld) (v : Nat) : (s.setFld off f v).genBad = s.genBad := rfl
@[simp] theorem setFld_holes (off : Nat) (f : Fld) (v : Nat) : (s.setFld off f v).holes = s.holes := rfl
@[simp] theorem setFld_cache (off : Nat) (f : Fld) (v : Nat) : (s.setFld off f v).cache = s.cache := rfl
@[simp] theorem setFld_cacheTree (off : Nat) (f : Fld) (v : Nat) : (s.setFld off f v).cacheTree = s.cacheTree := rfl
@[simp] theorem setFld_wayOff (off : Nat) (f : Fld) (v : Nat) : (s.setFld off f v).wayOff = s.wayOff := rfl
@[simp] theorem setFld_mirror (off : Nat) (f : Fld) (v : Nat) : (s.setFld off f v).mirror = s.mirror := rfl
@[simp] theorem setFld_poisonSeen (off : Nat) (f : Fld) (v : Nat) : (s.setFld off f v).poisonSeen = s.poisonSeen := rfl
@[simp] theorem setFld_tiles (off : Nat) (f : Fld) (v : Nat) : (s.setFld off f v).tiles = s.tiles := rfl
@[simp] theorem setFld_ctxs (off : Nat) (f : Fld) (v : Nat) : (s.setFld off f v).ctxs = s.ctxs := rfl
@[simp] theorem setFld_objs (off : Nat) (f : Fld) (v : Nat) : (s.setFld off f v).objs = s.objs := rfl
@[simp] theorem setFld_reqs (off : Nat) (f : Fld) (v : Nat) : (s.setFld off f v).reqs = s.reqs := rfl
@[simp] theorem setFld_nextReq (off : Nat) (f : Fld) (v : Nat) : (s.setFld off f v).nextReq = s.nextReq := rfl
@[simp] theorem setFld_rings (off : Nat) (f : Fld) (v : Nat) : (s.setFld off f v).rings = s.rings := rfl
@[simp] theorem setFld_engResets (off : Nat) (f : Fld) (v : Nat) : (s.setFld off f v).engResets = s.engResets := rfl
@[simp] theorem setFld_offEngines (off : Nat) (f : Fld) (v : Nat) : (s.setFld off f v).offEngines = s.offEngines := rfl
@[simp] theorem setFld_queues (off : Nat) (f : Fld) (v : Nat) : (s.setFld off f v).queues = s.queues := rfl
@[simp] theorem setFld_capUsed (off : Nat) (f : Fld) (v : Nat) : (s.setFld off f v).capUsed = s.capUsed := rfl
@[simp] theorem setFld_dmaTurn (off : Nat) (f : Fld) (v : Nat) : (s.setFld off f v).dmaTurn = s.dmaTurn := rfl
@[simp] theorem setFld_dmaLast (off : Nat) (f : Fld) (v : Nat) : (s.setFld off f v).dmaLast = s.dmaLast := rfl
@[simp] theorem setFld_units (off : Nat) (f : Fld) (v : Nat) : (s.setFld off f v).units = s.units := rfl
@[simp] theorem setFld_launches (off : Nat) (f : Fld) (v : Nat) : (s.setFld off f v).launches = s.launches := rfl
@[simp] theorem setFld_nextLaunch (off : Nat) (f : Fld) (v : Nat) : (s.setFld off f v).nextLaunch = s.nextLaunch := rfl
@[simp] theorem setFld_imageLines (off : Nat) (f : Fld) (v : Nat) : (s.setFld off f v).imageLines = s.imageLines := rfl
@[simp] theorem setFld_baseGens (off : Nat) (f : Fld) (v : Nat) : (s.setFld off f v).baseGens = s.baseGens := rfl
@[simp] theorem setFld_launchTurn (off : Nat) (f : Fld) (v : Nat) : (s.setFld off f v).launchTurn = s.launchTurn := rfl
@[simp] theorem setFld_held (off : Nat) (f : Fld) (v : Nat) : (s.setFld off f v).held = s.held := rfl
@[simp] theorem setFld_coll (off : Nat) (f : Fld) (v : Nat) : (s.setFld off f v).coll = s.coll := rfl
@[simp] theorem setFld_fab (off : Nat) (f : Fld) (v : Nat) : (s.setFld off f v).fab = s.fab := rfl
@[simp] theorem setFld_ticks (off : Nat) (f : Fld) (v : Nat) : (s.setFld off f v).ticks = s.ticks := rfl
@[simp] theorem setFld_board (off : Nat) (f : Fld) (v : Nat) : (s.setFld off f v).board = s.board := rfl
@[simp] theorem setFld_outbox (off : Nat) (f : Fld) (v : Nat) : (s.setFld off f v).outbox = s.outbox := rfl
@[simp] theorem setFld_freeCtr (off : Nat) (f : Fld) (v : Nat) : (s.setFld off f v).freeCtr = s.freeCtr := rfl

/-! ### bump -/

@[simp] theorem bump_pending (off : Nat) (f : Fld) (n : Nat) : (s.bump off f n).pending = s.pending := rfl
@[simp] theorem bump_part (off : Nat) (f : Fld) (n : Nat) : (s.bump off f n).part = s.part := rfl
@[simp] theorem bump_shadow (off : Nat) (f : Fld) (n : Nat) : (s.bump off f n).shadow = s.shadow := rfl
@[simp] theorem bump_mem (off : Nat) (f : Fld) (n : Nat) : (s.bump off f n).mem = s.mem := rfl
@[simp] theorem bump_lines (off : Nat) (f : Fld) (n : Nat) : (s.bump off f n).lines = s.lines := rfl
@[simp] theorem bump_gens (off : Nat) (f : Fld) (n : Nat) : (s.bump off f n).gens = s.gens := rfl
@[simp] theorem bump_genBad (off : Nat) (f : Fld) (n : Nat) : (s.bump off f n).genBad = s.genBad := rfl
@[simp] theorem bump_holes (off : Nat) (f : Fld) (n : Nat) : (s.bump off f n).holes = s.holes := rfl
@[simp] theorem bump_cache (off : Nat) (f : Fld) (n : Nat) : (s.bump off f n).cache = s.cache := rfl
@[simp] theorem bump_cacheTree (off : Nat) (f : Fld) (n : Nat) : (s.bump off f n).cacheTree = s.cacheTree := rfl
@[simp] theorem bump_wayOff (off : Nat) (f : Fld) (n : Nat) : (s.bump off f n).wayOff = s.wayOff := rfl
@[simp] theorem bump_mirror (off : Nat) (f : Fld) (n : Nat) : (s.bump off f n).mirror = s.mirror := rfl
@[simp] theorem bump_poisonSeen (off : Nat) (f : Fld) (n : Nat) : (s.bump off f n).poisonSeen = s.poisonSeen := rfl
@[simp] theorem bump_tiles (off : Nat) (f : Fld) (n : Nat) : (s.bump off f n).tiles = s.tiles := rfl
@[simp] theorem bump_ctxs (off : Nat) (f : Fld) (n : Nat) : (s.bump off f n).ctxs = s.ctxs := rfl
@[simp] theorem bump_objs (off : Nat) (f : Fld) (n : Nat) : (s.bump off f n).objs = s.objs := rfl
@[simp] theorem bump_reqs (off : Nat) (f : Fld) (n : Nat) : (s.bump off f n).reqs = s.reqs := rfl
@[simp] theorem bump_nextReq (off : Nat) (f : Fld) (n : Nat) : (s.bump off f n).nextReq = s.nextReq := rfl
@[simp] theorem bump_rings (off : Nat) (f : Fld) (n : Nat) : (s.bump off f n).rings = s.rings := rfl
@[simp] theorem bump_engResets (off : Nat) (f : Fld) (n : Nat) : (s.bump off f n).engResets = s.engResets := rfl
@[simp] theorem bump_offEngines (off : Nat) (f : Fld) (n : Nat) : (s.bump off f n).offEngines = s.offEngines := rfl
@[simp] theorem bump_queues (off : Nat) (f : Fld) (n : Nat) : (s.bump off f n).queues = s.queues := rfl
@[simp] theorem bump_capUsed (off : Nat) (f : Fld) (n : Nat) : (s.bump off f n).capUsed = s.capUsed := rfl
@[simp] theorem bump_dmaTurn (off : Nat) (f : Fld) (n : Nat) : (s.bump off f n).dmaTurn = s.dmaTurn := rfl
@[simp] theorem bump_dmaLast (off : Nat) (f : Fld) (n : Nat) : (s.bump off f n).dmaLast = s.dmaLast := rfl
@[simp] theorem bump_units (off : Nat) (f : Fld) (n : Nat) : (s.bump off f n).units = s.units := rfl
@[simp] theorem bump_launches (off : Nat) (f : Fld) (n : Nat) : (s.bump off f n).launches = s.launches := rfl
@[simp] theorem bump_nextLaunch (off : Nat) (f : Fld) (n : Nat) : (s.bump off f n).nextLaunch = s.nextLaunch := rfl
@[simp] theorem bump_imageLines (off : Nat) (f : Fld) (n : Nat) : (s.bump off f n).imageLines = s.imageLines := rfl
@[simp] theorem bump_baseGens (off : Nat) (f : Fld) (n : Nat) : (s.bump off f n).baseGens = s.baseGens := rfl
@[simp] theorem bump_launchTurn (off : Nat) (f : Fld) (n : Nat) : (s.bump off f n).launchTurn = s.launchTurn := rfl
@[simp] theorem bump_held (off : Nat) (f : Fld) (n : Nat) : (s.bump off f n).held = s.held := rfl
@[simp] theorem bump_coll (off : Nat) (f : Fld) (n : Nat) : (s.bump off f n).coll = s.coll := rfl
@[simp] theorem bump_fab (off : Nat) (f : Fld) (n : Nat) : (s.bump off f n).fab = s.fab := rfl
@[simp] theorem bump_ticks (off : Nat) (f : Fld) (n : Nat) : (s.bump off f n).ticks = s.ticks := rfl
@[simp] theorem bump_board (off : Nat) (f : Fld) (n : Nat) : (s.bump off f n).board = s.board := rfl
@[simp] theorem bump_outbox (off : Nat) (f : Fld) (n : Nat) : (s.bump off f n).outbox = s.outbox := rfl
@[simp] theorem bump_freeCtr (off : Nat) (f : Fld) (n : Nat) : (s.bump off f n).freeCtr = s.freeCtr := rfl

/-! ### setTile -/

@[simp] theorem setTile_pending (i : Nat) (T : Tile) : (s.setTile i T).pending = s.pending := rfl
@[simp] theorem setTile_part (i : Nat) (T : Tile) : (s.setTile i T).part = s.part := rfl
@[simp] theorem setTile_regs (i : Nat) (T : Tile) : (s.setTile i T).regs = s.regs := rfl
@[simp] theorem setTile_shadow (i : Nat) (T : Tile) : (s.setTile i T).shadow = s.shadow := rfl
@[simp] theorem setTile_mem (i : Nat) (T : Tile) : (s.setTile i T).mem = s.mem := rfl
@[simp] theorem setTile_lines (i : Nat) (T : Tile) : (s.setTile i T).lines = s.lines := rfl
@[simp] theorem setTile_gens (i : Nat) (T : Tile) : (s.setTile i T).gens = s.gens := rfl
@[simp] theorem setTile_genBad (i : Nat) (T : Tile) : (s.setTile i T).genBad = s.genBad := rfl
@[simp] theorem setTile_holes (i : Nat) (T : Tile) : (s.setTile i T).holes = s.holes := rfl
@[simp] theorem setTile_cache (i : Nat) (T : Tile) : (s.setTile i T).cache = s.cache := rfl
@[simp] theorem setTile_cacheTree (i : Nat) (T : Tile) : (s.setTile i T).cacheTree = s.cacheTree := rfl
@[simp] theorem setTile_wayOff (i : Nat) (T : Tile) : (s.setTile i T).wayOff = s.wayOff := rfl
@[simp] theorem setTile_mirror (i : Nat) (T : Tile) : (s.setTile i T).mirror = s.mirror := rfl
@[simp] theorem setTile_poisonSeen (i : Nat) (T : Tile) : (s.setTile i T).poisonSeen = s.poisonSeen := rfl
@[simp] theorem setTile_ctxs (i : Nat) (T : Tile) : (s.setTile i T).ctxs = s.ctxs := rfl
@[simp] theorem setTile_objs (i : Nat) (T : Tile) : (s.setTile i T).objs = s.objs := rfl
@[simp] theorem setTile_reqs (i : Nat) (T : Tile) : (s.setTile i T).reqs = s.reqs := rfl
@[simp] theorem setTile_nextReq (i : Nat) (T : Tile) : (s.setTile i T).nextReq = s.nextReq := rfl
@[simp] theorem setTile_rings (i : Nat) (T : Tile) : (s.setTile i T).rings = s.rings := rfl
@[simp] theorem setTile_engResets (i : Nat) (T : Tile) : (s.setTile i T).engResets = s.engResets := rfl
@[simp] theorem setTile_offEngines (i : Nat) (T : Tile) : (s.setTile i T).offEngines = s.offEngines := rfl
@[simp] theorem setTile_queues (i : Nat) (T : Tile) : (s.setTile i T).queues = s.queues := rfl
@[simp] theorem setTile_capUsed (i : Nat) (T : Tile) : (s.setTile i T).capUsed = s.capUsed := rfl
@[simp] theorem setTile_dmaTurn (i : Nat) (T : Tile) : (s.setTile i T).dmaTurn = s.dmaTurn := rfl
@[simp] theorem setTile_dmaLast (i : Nat) (T : Tile) : (s.setTile i T).dmaLast = s.dmaLast := rfl
@[simp] theorem setTile_units (i : Nat) (T : Tile) : (s.setTile i T).units = s.units := rfl
@[simp] theorem setTile_launches (i : Nat) (T : Tile) : (s.setTile i T).launches = s.launches := rfl
@[simp] theorem setTile_nextLaunch (i : Nat) (T : Tile) : (s.setTile i T).nextLaunch = s.nextLaunch := rfl
@[simp] theorem setTile_imageLines (i : Nat) (T : Tile) : (s.setTile i T).imageLines = s.imageLines := rfl
@[simp] theorem setTile_baseGens (i : Nat) (T : Tile) : (s.setTile i T).baseGens = s.baseGens := rfl
@[simp] theorem setTile_launchTurn (i : Nat) (T : Tile) : (s.setTile i T).launchTurn = s.launchTurn := rfl
@[simp] theorem setTile_held (i : Nat) (T : Tile) : (s.setTile i T).held = s.held := rfl
@[simp] theorem setTile_coll (i : Nat) (T : Tile) : (s.setTile i T).coll = s.coll := rfl
@[simp] theorem setTile_fab (i : Nat) (T : Tile) : (s.setTile i T).fab = s.fab := rfl
@[simp] theorem setTile_ticks (i : Nat) (T : Tile) : (s.setTile i T).ticks = s.ticks := rfl
@[simp] theorem setTile_board (i : Nat) (T : Tile) : (s.setTile i T).board = s.board := rfl
@[simp] theorem setTile_outbox (i : Nat) (T : Tile) : (s.setTile i T).outbox = s.outbox := rfl
@[simp] theorem setTile_freeCtr (i : Nat) (T : Tile) : (s.setTile i T).freeCtr = s.freeCtr := rfl

/-! ### setObj -/

@[simp] theorem setObj_pending (k : Nat) (x : W64) : (s.setObj k x).pending = s.pending := rfl
@[simp] theorem setObj_part (k : Nat) (x : W64) : (s.setObj k x).part = s.part := rfl
@[simp] theorem setObj_regs (k : Nat) (x : W64) : (s.setObj k x).regs = s.regs := rfl
@[simp] theorem setObj_shadow (k : Nat) (x : W64) : (s.setObj k x).shadow = s.shadow := rfl
@[simp] theorem setObj_mem (k : Nat) (x : W64) : (s.setObj k x).mem = s.mem := rfl
@[simp] theorem setObj_lines (k : Nat) (x : W64) : (s.setObj k x).lines = s.lines := rfl
@[simp] theorem setObj_gens (k : Nat) (x : W64) : (s.setObj k x).gens = s.gens := rfl
@[simp] theorem setObj_genBad (k : Nat) (x : W64) : (s.setObj k x).genBad = s.genBad := rfl
@[simp] theorem setObj_holes (k : Nat) (x : W64) : (s.setObj k x).holes = s.holes := rfl
@[simp] theorem setObj_cache (k : Nat) (x : W64) : (s.setObj k x).cache = s.cache := rfl
@[simp] theorem setObj_cacheTree (k : Nat) (x : W64) : (s.setObj k x).cacheTree = s.cacheTree := rfl
@[simp] theorem setObj_wayOff (k : Nat) (x : W64) : (s.setObj k x).wayOff = s.wayOff := rfl
@[simp] theorem setObj_mirror (k : Nat) (x : W64) : (s.setObj k x).mirror = s.mirror := rfl
@[simp] theorem setObj_poisonSeen (k : Nat) (x : W64) : (s.setObj k x).poisonSeen = s.poisonSeen := rfl
@[simp] theorem setObj_tiles (k : Nat) (x : W64) : (s.setObj k x).tiles = s.tiles := rfl
@[simp] theorem setObj_ctxs (k : Nat) (x : W64) : (s.setObj k x).ctxs = s.ctxs := rfl
@[simp] theorem setObj_reqs (k : Nat) (x : W64) : (s.setObj k x).reqs = s.reqs := rfl
@[simp] theorem setObj_nextReq (k : Nat) (x : W64) : (s.setObj k x).nextReq = s.nextReq := rfl
@[simp] theorem setObj_rings (k : Nat) (x : W64) : (s.setObj k x).rings = s.rings := rfl
@[simp] theorem setObj_engResets (k : Nat) (x : W64) : (s.setObj k x).engResets = s.engResets := rfl
@[simp] theorem setObj_offEngines (k : Nat) (x : W64) : (s.setObj k x).offEngines = s.offEngines := rfl
@[simp] theorem setObj_queues (k : Nat) (x : W64) : (s.setObj k x).queues = s.queues := rfl
@[simp] theorem setObj_capUsed (k : Nat) (x : W64) : (s.setObj k x).capUsed = s.capUsed := rfl
@[simp] theorem setObj_dmaTurn (k : Nat) (x : W64) : (s.setObj k x).dmaTurn = s.dmaTurn := rfl
@[simp] theorem setObj_dmaLast (k : Nat) (x : W64) : (s.setObj k x).dmaLast = s.dmaLast := rfl
@[simp] theorem setObj_units (k : Nat) (x : W64) : (s.setObj k x).units = s.units := rfl
@[simp] theorem setObj_launches (k : Nat) (x : W64) : (s.setObj k x).launches = s.launches := rfl
@[simp] theorem setObj_nextLaunch (k : Nat) (x : W64) : (s.setObj k x).nextLaunch = s.nextLaunch := rfl
@[simp] theorem setObj_imageLines (k : Nat) (x : W64) : (s.setObj k x).imageLines = s.imageLines := rfl
@[simp] theorem setObj_baseGens (k : Nat) (x : W64) : (s.setObj k x).baseGens = s.baseGens := rfl
@[simp] theorem setObj_launchTurn (k : Nat) (x : W64) : (s.setObj k x).launchTurn = s.launchTurn := rfl
@[simp] theorem setObj_held (k : Nat) (x : W64) : (s.setObj k x).held = s.held := rfl
@[simp] theorem setObj_coll (k : Nat) (x : W64) : (s.setObj k x).coll = s.coll := rfl
@[simp] theorem setObj_fab (k : Nat) (x : W64) : (s.setObj k x).fab = s.fab := rfl
@[simp] theorem setObj_ticks (k : Nat) (x : W64) : (s.setObj k x).ticks = s.ticks := rfl
@[simp] theorem setObj_board (k : Nat) (x : W64) : (s.setObj k x).board = s.board := rfl
@[simp] theorem setObj_outbox (k : Nat) (x : W64) : (s.setObj k x).outbox = s.outbox := rfl
@[simp] theorem setObj_freeCtr (k : Nat) (x : W64) : (s.setObj k x).freeCtr = s.freeCtr := rfl

/-! ### emit -/

@[simp] theorem emit_pending (o : Out) : (s.emit o).pending = s.pending := rfl
@[simp] theorem emit_part (o : Out) : (s.emit o).part = s.part := rfl
@[simp] theorem emit_regs (o : Out) : (s.emit o).regs = s.regs := rfl
@[simp] theorem emit_shadow (o : Out) : (s.emit o).shadow = s.shadow := rfl
@[simp] theorem emit_mem (o : Out) : (s.emit o).mem = s.mem := rfl
@[simp] theorem emit_lines (o : Out) : (s.emit o).lines = s.lines := rfl
@[simp] theorem emit_gens (o : Out) : (s.emit o).gens = s.gens := rfl
@[simp] theorem emit_genBad (o : Out) : (s.emit o).genBad = s.genBad := rfl
@[simp] theorem emit_holes (o : Out) : (s.emit o).holes = s.holes := rfl
@[simp] theorem emit_cache (o : Out) : (s.emit o).cache = s.cache := rfl
@[simp] theorem emit_cacheTree (o : Out) : (s.emit o).cacheTree = s.cacheTree := rfl
@[simp] theorem emit_wayOff (o : Out) : (s.emit o).wayOff = s.wayOff := rfl
@[simp] theorem emit_mirror (o : Out) : (s.emit o).mirror = s.mirror := rfl
@[simp] theorem emit_poisonSeen (o : Out) : (s.emit o).poisonSeen = s.poisonSeen := rfl
@[simp] theorem emit_tiles (o : Out) : (s.emit o).tiles = s.tiles := rfl
@[simp] theorem emit_ctxs (o : Out) : (s.emit o).ctxs = s.ctxs := rfl
@[simp] theorem emit_objs (o : Out) : (s.emit o).objs = s.objs := rfl
@[simp] theorem emit_reqs (o : Out) : (s.emit o).reqs = s.reqs := rfl
@[simp] theorem emit_nextReq (o : Out) : (s.emit o).nextReq = s.nextReq := rfl
@[simp] theorem emit_rings (o : Out) : (s.emit o).rings = s.rings := rfl
@[simp] theorem emit_engResets (o : Out) : (s.emit o).engResets = s.engResets := rfl
@[simp] theorem emit_offEngines (o : Out) : (s.emit o).offEngines = s.offEngines := rfl
@[simp] theorem emit_queues (o : Out) : (s.emit o).queues = s.queues := rfl
@[simp] theorem emit_capUsed (o : Out) : (s.emit o).capUsed = s.capUsed := rfl
@[simp] theorem emit_dmaTurn (o : Out) : (s.emit o).dmaTurn = s.dmaTurn := rfl
@[simp] theorem emit_dmaLast (o : Out) : (s.emit o).dmaLast = s.dmaLast := rfl
@[simp] theorem emit_units (o : Out) : (s.emit o).units = s.units := rfl
@[simp] theorem emit_launches (o : Out) : (s.emit o).launches = s.launches := rfl
@[simp] theorem emit_nextLaunch (o : Out) : (s.emit o).nextLaunch = s.nextLaunch := rfl
@[simp] theorem emit_imageLines (o : Out) : (s.emit o).imageLines = s.imageLines := rfl
@[simp] theorem emit_baseGens (o : Out) : (s.emit o).baseGens = s.baseGens := rfl
@[simp] theorem emit_launchTurn (o : Out) : (s.emit o).launchTurn = s.launchTurn := rfl
@[simp] theorem emit_held (o : Out) : (s.emit o).held = s.held := rfl
@[simp] theorem emit_coll (o : Out) : (s.emit o).coll = s.coll := rfl
@[simp] theorem emit_fab (o : Out) : (s.emit o).fab = s.fab := rfl
@[simp] theorem emit_ticks (o : Out) : (s.emit o).ticks = s.ticks := rfl
@[simp] theorem emit_board (o : Out) : (s.emit o).board = s.board := rfl
@[simp] theorem emit_freeCtr (o : Out) : (s.emit o).freeCtr = s.freeCtr := rfl

/-! ### writeRaw -/

@[simp] theorem writeRaw_pending (a : Nat) (bs : List Byte) : (s.writeRaw a bs).pending = s.pending := rfl
@[simp] theorem writeRaw_part (a : Nat) (bs : List Byte) : (s.writeRaw a bs).part = s.part := rfl
@[simp] theorem writeRaw_regs (a : Nat) (bs : List Byte) : (s.writeRaw a bs).regs = s.regs := rfl
@[simp] theorem writeRaw_shadow (a : Nat) (bs : List Byte) : (s.writeRaw a bs).shadow = s.shadow := rfl
@[simp] theorem writeRaw_lines (a : Nat) (bs : List Byte) : (s.writeRaw a bs).lines = s.lines := rfl
@[simp] theorem writeRaw_gens (a : Nat) (bs : List Byte) : (s.writeRaw a bs).gens = s.gens := rfl
@[simp] theorem writeRaw_genBad (a : Nat) (bs : List Byte) : (s.writeRaw a bs).genBad = s.genBad := rfl
@[simp] theorem writeRaw_holes (a : Nat) (bs : List Byte) : (s.writeRaw a bs).holes = s.holes := rfl
@[simp] theorem writeRaw_cache (a : Nat) (bs : List Byte) : (s.writeRaw a bs).cache = s.cache := rfl
@[simp] theorem writeRaw_cacheTree (a : Nat) (bs : List Byte) : (s.writeRaw a bs).cacheTree = s.cacheTree := rfl
@[simp] theorem writeRaw_wayOff (a : Nat) (bs : List Byte) : (s.writeRaw a bs).wayOff = s.wayOff := rfl
@[simp] theorem writeRaw_mirror (a : Nat) (bs : List Byte) : (s.writeRaw a bs).mirror = s.mirror := rfl
@[simp] theorem writeRaw_poisonSeen (a : Nat) (bs : List Byte) : (s.writeRaw a bs).poisonSeen = s.poisonSeen := rfl
@[simp] theorem writeRaw_tiles (a : Nat) (bs : List Byte) : (s.writeRaw a bs).tiles = s.tiles := rfl
@[simp] theorem writeRaw_ctxs (a : Nat) (bs : List Byte) : (s.writeRaw a bs).ctxs = s.ctxs := rfl
@[simp] theorem writeRaw_objs (a : Nat) (bs : List Byte) : (s.writeRaw a bs).objs = s.objs := rfl
@[simp] theorem writeRaw_reqs (a : Nat) (bs : List Byte) : (s.writeRaw a bs).reqs = s.reqs := rfl
@[simp] theorem writeRaw_nextReq (a : Nat) (bs : List Byte) : (s.writeRaw a bs).nextReq = s.nextReq := rfl
@[simp] theorem writeRaw_rings (a : Nat) (bs : List Byte) : (s.writeRaw a bs).rings = s.rings := rfl
@[simp] theorem writeRaw_engResets (a : Nat) (bs : List Byte) : (s.writeRaw a bs).engResets = s.engResets := rfl
@[simp] theorem writeRaw_offEngines (a : Nat) (bs : List Byte) : (s.writeRaw a bs).offEngines = s.offEngines := rfl
@[simp] theorem writeRaw_queues (a : Nat) (bs : List Byte) : (s.writeRaw a bs).queues = s.queues := rfl
@[simp] theorem writeRaw_capUsed (a : Nat) (bs : List Byte) : (s.writeRaw a bs).capUsed = s.capUsed := rfl
@[simp] theorem writeRaw_dmaTurn (a : Nat) (bs : List Byte) : (s.writeRaw a bs).dmaTurn = s.dmaTurn := rfl
@[simp] theorem writeRaw_dmaLast (a : Nat) (bs : List Byte) : (s.writeRaw a bs).dmaLast = s.dmaLast := rfl
@[simp] theorem writeRaw_units (a : Nat) (bs : List Byte) : (s.writeRaw a bs).units = s.units := rfl
@[simp] theorem writeRaw_launches (a : Nat) (bs : List Byte) : (s.writeRaw a bs).launches = s.launches := rfl
@[simp] theorem writeRaw_nextLaunch (a : Nat) (bs : List Byte) : (s.writeRaw a bs).nextLaunch = s.nextLaunch := rfl
@[simp] theorem writeRaw_imageLines (a : Nat) (bs : List Byte) : (s.writeRaw a bs).imageLines = s.imageLines := rfl
@[simp] theorem writeRaw_baseGens (a : Nat) (bs : List Byte) : (s.writeRaw a bs).baseGens = s.baseGens := rfl
@[simp] theorem writeRaw_launchTurn (a : Nat) (bs : List Byte) : (s.writeRaw a bs).launchTurn = s.launchTurn := rfl
@[simp] theorem writeRaw_held (a : Nat) (bs : List Byte) : (s.writeRaw a bs).held = s.held := rfl
@[simp] theorem writeRaw_coll (a : Nat) (bs : List Byte) : (s.writeRaw a bs).coll = s.coll := rfl
@[simp] theorem writeRaw_fab (a : Nat) (bs : List Byte) : (s.writeRaw a bs).fab = s.fab := rfl
@[simp] theorem writeRaw_ticks (a : Nat) (bs : List Byte) : (s.writeRaw a bs).ticks = s.ticks := rfl
@[simp] theorem writeRaw_board (a : Nat) (bs : List Byte) : (s.writeRaw a bs).board = s.board := rfl
@[simp] theorem writeRaw_outbox (a : Nat) (bs : List Byte) : (s.writeRaw a bs).outbox = s.outbox := rfl
@[simp] theorem writeRaw_freeCtr (a : Nat) (bs : List Byte) : (s.writeRaw a bs).freeCtr = s.freeCtr := rfl

/-! ### setRing -/

@[simp] theorem setRing_pending (p : Nat) (r : ErrRing) : (s.setRing p r).pending = s.pending := rfl
@[simp] theorem setRing_part (p : Nat) (r : ErrRing) : (s.setRing p r).part = s.part := rfl
@[simp] theorem setRing_regs (p : Nat) (r : ErrRing) : (s.setRing p r).regs = s.regs := rfl
@[simp] theorem setRing_shadow (p : Nat) (r : ErrRing) : (s.setRing p r).shadow = s.shadow := rfl
@[simp] theorem setRing_mem (p : Nat) (r : ErrRing) : (s.setRing p r).mem = s.mem := rfl
@[simp] theorem setRing_lines (p : Nat) (r : ErrRing) : (s.setRing p r).lines = s.lines := rfl
@[simp] theorem setRing_gens (p : Nat) (r : ErrRing) : (s.setRing p r).gens = s.gens := rfl
@[simp] theorem setRing_genBad (p : Nat) (r : ErrRing) : (s.setRing p r).genBad = s.genBad := rfl
@[simp] theorem setRing_holes (p : Nat) (r : ErrRing) : (s.setRing p r).holes = s.holes := rfl
@[simp] theorem setRing_cache (p : Nat) (r : ErrRing) : (s.setRing p r).cache = s.cache := rfl
@[simp] theorem setRing_cacheTree (p : Nat) (r : ErrRing) : (s.setRing p r).cacheTree = s.cacheTree := rfl
@[simp] theorem setRing_wayOff (p : Nat) (r : ErrRing) : (s.setRing p r).wayOff = s.wayOff := rfl
@[simp] theorem setRing_mirror (p : Nat) (r : ErrRing) : (s.setRing p r).mirror = s.mirror := rfl
@[simp] theorem setRing_poisonSeen (p : Nat) (r : ErrRing) : (s.setRing p r).poisonSeen = s.poisonSeen := rfl
@[simp] theorem setRing_tiles (p : Nat) (r : ErrRing) : (s.setRing p r).tiles = s.tiles := rfl
@[simp] theorem setRing_ctxs (p : Nat) (r : ErrRing) : (s.setRing p r).ctxs = s.ctxs := rfl
@[simp] theorem setRing_objs (p : Nat) (r : ErrRing) : (s.setRing p r).objs = s.objs := rfl
@[simp] theorem setRing_reqs (p : Nat) (r : ErrRing) : (s.setRing p r).reqs = s.reqs := rfl
@[simp] theorem setRing_nextReq (p : Nat) (r : ErrRing) : (s.setRing p r).nextReq = s.nextReq := rfl
@[simp] theorem setRing_engResets (p : Nat) (r : ErrRing) : (s.setRing p r).engResets = s.engResets := rfl
@[simp] theorem setRing_offEngines (p : Nat) (r : ErrRing) : (s.setRing p r).offEngines = s.offEngines := rfl
@[simp] theorem setRing_queues (p : Nat) (r : ErrRing) : (s.setRing p r).queues = s.queues := rfl
@[simp] theorem setRing_capUsed (p : Nat) (r : ErrRing) : (s.setRing p r).capUsed = s.capUsed := rfl
@[simp] theorem setRing_dmaTurn (p : Nat) (r : ErrRing) : (s.setRing p r).dmaTurn = s.dmaTurn := rfl
@[simp] theorem setRing_dmaLast (p : Nat) (r : ErrRing) : (s.setRing p r).dmaLast = s.dmaLast := rfl
@[simp] theorem setRing_units (p : Nat) (r : ErrRing) : (s.setRing p r).units = s.units := rfl
@[simp] theorem setRing_launches (p : Nat) (r : ErrRing) : (s.setRing p r).launches = s.launches := rfl
@[simp] theorem setRing_nextLaunch (p : Nat) (r : ErrRing) : (s.setRing p r).nextLaunch = s.nextLaunch := rfl
@[simp] theorem setRing_imageLines (p : Nat) (r : ErrRing) : (s.setRing p r).imageLines = s.imageLines := rfl
@[simp] theorem setRing_baseGens (p : Nat) (r : ErrRing) : (s.setRing p r).baseGens = s.baseGens := rfl
@[simp] theorem setRing_launchTurn (p : Nat) (r : ErrRing) : (s.setRing p r).launchTurn = s.launchTurn := rfl
@[simp] theorem setRing_held (p : Nat) (r : ErrRing) : (s.setRing p r).held = s.held := rfl
@[simp] theorem setRing_coll (p : Nat) (r : ErrRing) : (s.setRing p r).coll = s.coll := rfl
@[simp] theorem setRing_fab (p : Nat) (r : ErrRing) : (s.setRing p r).fab = s.fab := rfl
@[simp] theorem setRing_ticks (p : Nat) (r : ErrRing) : (s.setRing p r).ticks = s.ticks := rfl
@[simp] theorem setRing_board (p : Nat) (r : ErrRing) : (s.setRing p r).board = s.board := rfl
@[simp] theorem setRing_outbox (p : Nat) (r : ErrRing) : (s.setRing p r).outbox = s.outbox := rfl
@[simp] theorem setRing_freeCtr (p : Nat) (r : ErrRing) : (s.setRing p r).freeCtr = s.freeCtr := rfl

/-! ### setQueue -/

@[simp] theorem setQueue_pending (k : Nat) (q : Queue) : (s.setQueue k q).pending = s.pending := rfl
@[simp] theorem setQueue_part (k : Nat) (q : Queue) : (s.setQueue k q).part = s.part := rfl
@[simp] theorem setQueue_regs (k : Nat) (q : Queue) : (s.setQueue k q).regs = s.regs := rfl
@[simp] theorem setQueue_shadow (k : Nat) (q : Queue) : (s.setQueue k q).shadow = s.shadow := rfl
@[simp] theorem setQueue_mem (k : Nat) (q : Queue) : (s.setQueue k q).mem = s.mem := rfl
@[simp] theorem setQueue_lines (k : Nat) (q : Queue) : (s.setQueue k q).lines = s.lines := rfl
@[simp] theorem setQueue_gens (k : Nat) (q : Queue) : (s.setQueue k q).gens = s.gens := rfl
@[simp] theorem setQueue_genBad (k : Nat) (q : Queue) : (s.setQueue k q).genBad = s.genBad := rfl
@[simp] theorem setQueue_holes (k : Nat) (q : Queue) : (s.setQueue k q).holes = s.holes := rfl
@[simp] theorem setQueue_cache (k : Nat) (q : Queue) : (s.setQueue k q).cache = s.cache := rfl
@[simp] theorem setQueue_cacheTree (k : Nat) (q : Queue) : (s.setQueue k q).cacheTree = s.cacheTree := rfl
@[simp] theorem setQueue_wayOff (k : Nat) (q : Queue) : (s.setQueue k q).wayOff = s.wayOff := rfl
@[simp] theorem setQueue_mirror (k : Nat) (q : Queue) : (s.setQueue k q).mirror = s.mirror := rfl
@[simp] theorem setQueue_poisonSeen (k : Nat) (q : Queue) : (s.setQueue k q).poisonSeen = s.poisonSeen := rfl
@[simp] theorem setQueue_tiles (k : Nat) (q : Queue) : (s.setQueue k q).tiles = s.tiles := rfl
@[simp] theorem setQueue_ctxs (k : Nat) (q : Queue) : (s.setQueue k q).ctxs = s.ctxs := rfl
@[simp] theorem setQueue_objs (k : Nat) (q : Queue) : (s.setQueue k q).objs = s.objs := rfl
@[simp] theorem setQueue_reqs (k : Nat) (q : Queue) : (s.setQueue k q).reqs = s.reqs := rfl
@[simp] theorem setQueue_nextReq (k : Nat) (q : Queue) : (s.setQueue k q).nextReq = s.nextReq := rfl
@[simp] theorem setQueue_rings (k : Nat) (q : Queue) : (s.setQueue k q).rings = s.rings := rfl
@[simp] theorem setQueue_engResets (k : Nat) (q : Queue) : (s.setQueue k q).engResets = s.engResets := rfl
@[simp] theorem setQueue_offEngines (k : Nat) (q : Queue) : (s.setQueue k q).offEngines = s.offEngines := rfl
@[simp] theorem setQueue_capUsed (k : Nat) (q : Queue) : (s.setQueue k q).capUsed = s.capUsed := rfl
@[simp] theorem setQueue_dmaTurn (k : Nat) (q : Queue) : (s.setQueue k q).dmaTurn = s.dmaTurn := rfl
@[simp] theorem setQueue_dmaLast (k : Nat) (q : Queue) : (s.setQueue k q).dmaLast = s.dmaLast := rfl
@[simp] theorem setQueue_units (k : Nat) (q : Queue) : (s.setQueue k q).units = s.units := rfl
@[simp] theorem setQueue_launches (k : Nat) (q : Queue) : (s.setQueue k q).launches = s.launches := rfl
@[simp] theorem setQueue_nextLaunch (k : Nat) (q : Queue) : (s.setQueue k q).nextLaunch = s.nextLaunch := rfl
@[simp] theorem setQueue_imageLines (k : Nat) (q : Queue) : (s.setQueue k q).imageLines = s.imageLines := rfl
@[simp] theorem setQueue_baseGens (k : Nat) (q : Queue) : (s.setQueue k q).baseGens = s.baseGens := rfl
@[simp] theorem setQueue_launchTurn (k : Nat) (q : Queue) : (s.setQueue k q).launchTurn = s.launchTurn := rfl
@[simp] theorem setQueue_held (k : Nat) (q : Queue) : (s.setQueue k q).held = s.held := rfl
@[simp] theorem setQueue_coll (k : Nat) (q : Queue) : (s.setQueue k q).coll = s.coll := rfl
@[simp] theorem setQueue_fab (k : Nat) (q : Queue) : (s.setQueue k q).fab = s.fab := rfl
@[simp] theorem setQueue_ticks (k : Nat) (q : Queue) : (s.setQueue k q).ticks = s.ticks := rfl
@[simp] theorem setQueue_board (k : Nat) (q : Queue) : (s.setQueue k q).board = s.board := rfl
@[simp] theorem setQueue_outbox (k : Nat) (q : Queue) : (s.setQueue k q).outbox = s.outbox := rfl
@[simp] theorem setQueue_freeCtr (k : Nat) (q : Queue) : (s.setQueue k q).freeCtr = s.freeCtr := rfl

/-! ### setCtx -/

@[simp] theorem setCtx_pending (c : Nat) (x : Ctx) : (s.setCtx c x).pending = s.pending := rfl
@[simp] theorem setCtx_part (c : Nat) (x : Ctx) : (s.setCtx c x).part = s.part := rfl
@[simp] theorem setCtx_regs (c : Nat) (x : Ctx) : (s.setCtx c x).regs = s.regs := rfl
@[simp] theorem setCtx_shadow (c : Nat) (x : Ctx) : (s.setCtx c x).shadow = s.shadow := rfl
@[simp] theorem setCtx_mem (c : Nat) (x : Ctx) : (s.setCtx c x).mem = s.mem := rfl
@[simp] theorem setCtx_lines (c : Nat) (x : Ctx) : (s.setCtx c x).lines = s.lines := rfl
@[simp] theorem setCtx_gens (c : Nat) (x : Ctx) : (s.setCtx c x).gens = s.gens := rfl
@[simp] theorem setCtx_genBad (c : Nat) (x : Ctx) : (s.setCtx c x).genBad = s.genBad := rfl
@[simp] theorem setCtx_holes (c : Nat) (x : Ctx) : (s.setCtx c x).holes = s.holes := rfl
@[simp] theorem setCtx_cache (c : Nat) (x : Ctx) : (s.setCtx c x).cache = s.cache := rfl
@[simp] theorem setCtx_cacheTree (c : Nat) (x : Ctx) : (s.setCtx c x).cacheTree = s.cacheTree := rfl
@[simp] theorem setCtx_wayOff (c : Nat) (x : Ctx) : (s.setCtx c x).wayOff = s.wayOff := rfl
@[simp] theorem setCtx_mirror (c : Nat) (x : Ctx) : (s.setCtx c x).mirror = s.mirror := rfl
@[simp] theorem setCtx_poisonSeen (c : Nat) (x : Ctx) : (s.setCtx c x).poisonSeen = s.poisonSeen := rfl
@[simp] theorem setCtx_tiles (c : Nat) (x : Ctx) : (s.setCtx c x).tiles = s.tiles := rfl
@[simp] theorem setCtx_objs (c : Nat) (x : Ctx) : (s.setCtx c x).objs = s.objs := rfl
@[simp] theorem setCtx_reqs (c : Nat) (x : Ctx) : (s.setCtx c x).reqs = s.reqs := rfl
@[simp] theorem setCtx_nextReq (c : Nat) (x : Ctx) : (s.setCtx c x).nextReq = s.nextReq := rfl
@[simp] theorem setCtx_rings (c : Nat) (x : Ctx) : (s.setCtx c x).rings = s.rings := rfl
@[simp] theorem setCtx_engResets (c : Nat) (x : Ctx) : (s.setCtx c x).engResets = s.engResets := rfl
@[simp] theorem setCtx_offEngines (c : Nat) (x : Ctx) : (s.setCtx c x).offEngines = s.offEngines := rfl
@[simp] theorem setCtx_queues (c : Nat) (x : Ctx) : (s.setCtx c x).queues = s.queues := rfl
@[simp] theorem setCtx_capUsed (c : Nat) (x : Ctx) : (s.setCtx c x).capUsed = s.capUsed := rfl
@[simp] theorem setCtx_dmaTurn (c : Nat) (x : Ctx) : (s.setCtx c x).dmaTurn = s.dmaTurn := rfl
@[simp] theorem setCtx_dmaLast (c : Nat) (x : Ctx) : (s.setCtx c x).dmaLast = s.dmaLast := rfl
@[simp] theorem setCtx_units (c : Nat) (x : Ctx) : (s.setCtx c x).units = s.units := rfl
@[simp] theorem setCtx_launches (c : Nat) (x : Ctx) : (s.setCtx c x).launches = s.launches := rfl
@[simp] theorem setCtx_nextLaunch (c : Nat) (x : Ctx) : (s.setCtx c x).nextLaunch = s.nextLaunch := rfl
@[simp] theorem setCtx_imageLines (c : Nat) (x : Ctx) : (s.setCtx c x).imageLines = s.imageLines := rfl
@[simp] theorem setCtx_baseGens (c : Nat) (x : Ctx) : (s.setCtx c x).baseGens = s.baseGens := rfl
@[simp] theorem setCtx_launchTurn (c : Nat) (x : Ctx) : (s.setCtx c x).launchTurn = s.launchTurn := rfl
@[simp] theorem setCtx_held (c : Nat) (x : Ctx) : (s.setCtx c x).held = s.held := rfl
@[simp] theorem setCtx_coll (c : Nat) (x : Ctx) : (s.setCtx c x).coll = s.coll := rfl
@[simp] theorem setCtx_fab (c : Nat) (x : Ctx) : (s.setCtx c x).fab = s.fab := rfl
@[simp] theorem setCtx_ticks (c : Nat) (x : Ctx) : (s.setCtx c x).ticks = s.ticks := rfl
@[simp] theorem setCtx_board (c : Nat) (x : Ctx) : (s.setCtx c x).board = s.board := rfl
@[simp] theorem setCtx_outbox (c : Nat) (x : Ctx) : (s.setCtx c x).outbox = s.outbox := rfl
@[simp] theorem setCtx_freeCtr (c : Nat) (x : Ctx) : (s.setCtx c x).freeCtr = s.freeCtr := rfl

/-! ### setUnit -/

@[simp] theorem setUnit_pending (k : Nat) (u : CruUnit) : (s.setUnit k u).pending = s.pending := rfl
@[simp] theorem setUnit_part (k : Nat) (u : CruUnit) : (s.setUnit k u).part = s.part := rfl
@[simp] theorem setUnit_regs (k : Nat) (u : CruUnit) : (s.setUnit k u).regs = s.regs := rfl
@[simp] theorem setUnit_shadow (k : Nat) (u : CruUnit) : (s.setUnit k u).shadow = s.shadow := rfl
@[simp] theorem setUnit_mem (k : Nat) (u : CruUnit) : (s.setUnit k u).mem = s.mem := rfl
@[simp] theorem setUnit_lines (k : Nat) (u : CruUnit) : (s.setUnit k u).lines = s.lines := rfl
@[simp] theorem setUnit_gens (k : Nat) (u : CruUnit) : (s.setUnit k u).gens = s.gens := rfl
@[simp] theorem setUnit_genBad (k : Nat) (u : CruUnit) : (s.setUnit k u).genBad = s.genBad := rfl
@[simp] theorem setUnit_holes (k : Nat) (u : CruUnit) : (s.setUnit k u).holes = s.holes := rfl
@[simp] theorem setUnit_cache (k : Nat) (u : CruUnit) : (s.setUnit k u).cache = s.cache := rfl
@[simp] theorem setUnit_cacheTree (k : Nat) (u : CruUnit) : (s.setUnit k u).cacheTree = s.cacheTree := rfl
@[simp] theorem setUnit_wayOff (k : Nat) (u : CruUnit) : (s.setUnit k u).wayOff = s.wayOff := rfl
@[simp] theorem setUnit_mirror (k : Nat) (u : CruUnit) : (s.setUnit k u).mirror = s.mirror := rfl
@[simp] theorem setUnit_poisonSeen (k : Nat) (u : CruUnit) : (s.setUnit k u).poisonSeen = s.poisonSeen := rfl
@[simp] theorem setUnit_tiles (k : Nat) (u : CruUnit) : (s.setUnit k u).tiles = s.tiles := rfl
@[simp] theorem setUnit_ctxs (k : Nat) (u : CruUnit) : (s.setUnit k u).ctxs = s.ctxs := rfl
@[simp] theorem setUnit_objs (k : Nat) (u : CruUnit) : (s.setUnit k u).objs = s.objs := rfl
@[simp] theorem setUnit_reqs (k : Nat) (u : CruUnit) : (s.setUnit k u).reqs = s.reqs := rfl
@[simp] theorem setUnit_nextReq (k : Nat) (u : CruUnit) : (s.setUnit k u).nextReq = s.nextReq := rfl
@[simp] theorem setUnit_rings (k : Nat) (u : CruUnit) : (s.setUnit k u).rings = s.rings := rfl
@[simp] theorem setUnit_engResets (k : Nat) (u : CruUnit) : (s.setUnit k u).engResets = s.engResets := rfl
@[simp] theorem setUnit_offEngines (k : Nat) (u : CruUnit) : (s.setUnit k u).offEngines = s.offEngines := rfl
@[simp] theorem setUnit_queues (k : Nat) (u : CruUnit) : (s.setUnit k u).queues = s.queues := rfl
@[simp] theorem setUnit_capUsed (k : Nat) (u : CruUnit) : (s.setUnit k u).capUsed = s.capUsed := rfl
@[simp] theorem setUnit_dmaTurn (k : Nat) (u : CruUnit) : (s.setUnit k u).dmaTurn = s.dmaTurn := rfl
@[simp] theorem setUnit_dmaLast (k : Nat) (u : CruUnit) : (s.setUnit k u).dmaLast = s.dmaLast := rfl
@[simp] theorem setUnit_launches (k : Nat) (u : CruUnit) : (s.setUnit k u).launches = s.launches := rfl
@[simp] theorem setUnit_nextLaunch (k : Nat) (u : CruUnit) : (s.setUnit k u).nextLaunch = s.nextLaunch := rfl
@[simp] theorem setUnit_imageLines (k : Nat) (u : CruUnit) : (s.setUnit k u).imageLines = s.imageLines := rfl
@[simp] theorem setUnit_baseGens (k : Nat) (u : CruUnit) : (s.setUnit k u).baseGens = s.baseGens := rfl
@[simp] theorem setUnit_launchTurn (k : Nat) (u : CruUnit) : (s.setUnit k u).launchTurn = s.launchTurn := rfl
@[simp] theorem setUnit_held (k : Nat) (u : CruUnit) : (s.setUnit k u).held = s.held := rfl
@[simp] theorem setUnit_coll (k : Nat) (u : CruUnit) : (s.setUnit k u).coll = s.coll := rfl
@[simp] theorem setUnit_fab (k : Nat) (u : CruUnit) : (s.setUnit k u).fab = s.fab := rfl
@[simp] theorem setUnit_ticks (k : Nat) (u : CruUnit) : (s.setUnit k u).ticks = s.ticks := rfl
@[simp] theorem setUnit_board (k : Nat) (u : CruUnit) : (s.setUnit k u).board = s.board := rfl
@[simp] theorem setUnit_outbox (k : Nat) (u : CruUnit) : (s.setUnit k u).outbox = s.outbox := rfl
@[simp] theorem setUnit_freeCtr (k : Nat) (u : CruUnit) : (s.setUnit k u).freeCtr = s.freeCtr := rfl

/-! ### setColl -/

@[simp] theorem setColl_pending (k : Nat) (r : CollRing) : (s.setColl k r).pending = s.pending := rfl
@[simp] theorem setColl_part (k : Nat) (r : CollRing) : (s.setColl k r).part = s.part := rfl
@[simp] theorem setColl_regs (k : Nat) (r : CollRing) : (s.setColl k r).regs = s.regs := rfl
@[simp] theorem setColl_shadow (k : Nat) (r : CollRing) : (s.setColl k r).shadow = s.shadow := rfl
@[simp] theorem setColl_mem (k : Nat) (r : CollRing) : (s.setColl k r).mem = s.mem := rfl
@[simp] theorem setColl_lines (k : Nat) (r : CollRing) : (s.setColl k r).lines = s.lines := rfl
@[simp] theorem setColl_gens (k : Nat) (r : CollRing) : (s.setColl k r).gens = s.gens := rfl
@[simp] theorem setColl_genBad (k : Nat) (r : CollRing) : (s.setColl k r).genBad = s.genBad := rfl
@[simp] theorem setColl_holes (k : Nat) (r : CollRing) : (s.setColl k r).holes = s.holes := rfl
@[simp] theorem setColl_cache (k : Nat) (r : CollRing) : (s.setColl k r).cache = s.cache := rfl
@[simp] theorem setColl_cacheTree (k : Nat) (r : CollRing) : (s.setColl k r).cacheTree = s.cacheTree := rfl
@[simp] theorem setColl_wayOff (k : Nat) (r : CollRing) : (s.setColl k r).wayOff = s.wayOff := rfl
@[simp] theorem setColl_mirror (k : Nat) (r : CollRing) : (s.setColl k r).mirror = s.mirror := rfl
@[simp] theorem setColl_poisonSeen (k : Nat) (r : CollRing) : (s.setColl k r).poisonSeen = s.poisonSeen := rfl
@[simp] theorem setColl_tiles (k : Nat) (r : CollRing) : (s.setColl k r).tiles = s.tiles := rfl
@[simp] theorem setColl_ctxs (k : Nat) (r : CollRing) : (s.setColl k r).ctxs = s.ctxs := rfl
@[simp] theorem setColl_objs (k : Nat) (r : CollRing) : (s.setColl k r).objs = s.objs := rfl
@[simp] theorem setColl_reqs (k : Nat) (r : CollRing) : (s.setColl k r).reqs = s.reqs := rfl
@[simp] theorem setColl_nextReq (k : Nat) (r : CollRing) : (s.setColl k r).nextReq = s.nextReq := rfl
@[simp] theorem setColl_rings (k : Nat) (r : CollRing) : (s.setColl k r).rings = s.rings := rfl
@[simp] theorem setColl_engResets (k : Nat) (r : CollRing) : (s.setColl k r).engResets = s.engResets := rfl
@[simp] theorem setColl_offEngines (k : Nat) (r : CollRing) : (s.setColl k r).offEngines = s.offEngines := rfl
@[simp] theorem setColl_queues (k : Nat) (r : CollRing) : (s.setColl k r).queues = s.queues := rfl
@[simp] theorem setColl_capUsed (k : Nat) (r : CollRing) : (s.setColl k r).capUsed = s.capUsed := rfl
@[simp] theorem setColl_dmaTurn (k : Nat) (r : CollRing) : (s.setColl k r).dmaTurn = s.dmaTurn := rfl
@[simp] theorem setColl_dmaLast (k : Nat) (r : CollRing) : (s.setColl k r).dmaLast = s.dmaLast := rfl
@[simp] theorem setColl_units (k : Nat) (r : CollRing) : (s.setColl k r).units = s.units := rfl
@[simp] theorem setColl_launches (k : Nat) (r : CollRing) : (s.setColl k r).launches = s.launches := rfl
@[simp] theorem setColl_nextLaunch (k : Nat) (r : CollRing) : (s.setColl k r).nextLaunch = s.nextLaunch := rfl
@[simp] theorem setColl_imageLines (k : Nat) (r : CollRing) : (s.setColl k r).imageLines = s.imageLines := rfl
@[simp] theorem setColl_baseGens (k : Nat) (r : CollRing) : (s.setColl k r).baseGens = s.baseGens := rfl
@[simp] theorem setColl_launchTurn (k : Nat) (r : CollRing) : (s.setColl k r).launchTurn = s.launchTurn := rfl
@[simp] theorem setColl_held (k : Nat) (r : CollRing) : (s.setColl k r).held = s.held := rfl
@[simp] theorem setColl_fab (k : Nat) (r : CollRing) : (s.setColl k r).fab = s.fab := rfl
@[simp] theorem setColl_ticks (k : Nat) (r : CollRing) : (s.setColl k r).ticks = s.ticks := rfl
@[simp] theorem setColl_board (k : Nat) (r : CollRing) : (s.setColl k r).board = s.board := rfl
@[simp] theorem setColl_outbox (k : Nat) (r : CollRing) : (s.setColl k r).outbox = s.outbox := rfl
@[simp] theorem setColl_freeCtr (k : Nat) (r : CollRing) : (s.setColl k r).freeCtr = s.freeCtr := rfl

/-! ### Reading back -/

@[simp] theorem tile_setTile (i : Nat) (T : Tile) : (s.setTile i T).tile i = T := by simp [setTile, tile]

theorem tile_setTile_ne (i j : Nat) (T : Tile) (h : j ≠ i) : (s.setTile i T).tile j = s.tile j := by
  simp [setTile, tile, SMap.getD_set, h]

@[simp] theorem setTile_setTile (i : Nat) (T U : Tile) : (s.setTile i T).setTile i U = s.setTile i U := by simp [setTile]

@[simp] theorem reg_setReg (r : Nat) (x : W64) : (s.setReg r x).reg r = x := by simp [setReg, reg]

theorem reg_setReg_ne (r q : Nat) (x : W64) (h : q ≠ r) : (s.setReg r x).reg q = s.reg q := by
  simp [setReg, reg, SMap.get?_set, h]

@[simp] theorem obj_setObj (k : Nat) (x : W64) : (s.setObj k x).obj k = x := by simp [setObj, obj]

theorem obj_setObj_ne (k j : Nat) (x : W64) (h : j ≠ k) : (s.setObj k x).obj j = s.obj j := by
  simp [setObj, obj, SMap.getD_set, h]

@[simp] theorem queue_setQueue (k : Nat) (q : Queue) : (s.setQueue k q).queue k = q := by simp [setQueue, queue]

@[simp] theorem tile_setReg (r : Nat) (x : W64) (t : Nat) : (s.setReg r x).tile t = s.tile t := rfl
@[simp] theorem tile_setFld (r : Nat) (f : Fld) (v t : Nat) : (s.setFld r f v).tile t = s.tile t := rfl
@[simp] theorem tile_bump (r : Nat) (f : Fld) (n t : Nat) : (s.bump r f n).tile t = s.tile t := rfl
@[simp] theorem reg_setTile (i : Nat) (T : Tile) (r : Nat) : (s.setTile i T).reg r = s.reg r := rfl
@[simp] theorem fld_setTile (i : Nat) (T : Tile) (r : Nat) (f : Fld) : (s.setTile i T).fld r f = s.fld r f := rfl

/-- A field written reads back its low bits. -/
theorem bitsOf_setBitsOf (x hi lo v : Nat) : bitsOf (setBitsOf x hi lo v) hi lo = v % 2 ^ (hi + 1 - lo) := by
  unfold bitsOf setBitsOf
  rcases Nat.lt_or_ge (hi + 1) lo with h | h
  · simp [Nat.sub_eq_zero_of_le h.le, Nat.mod_one]
  · obtain ⟨w, hw⟩ : ∃ w, hi + 1 = lo + w := ⟨hi + 1 - lo, by omega⟩
    have e : x % 2 ^ lo + v % 2 ^ w * 2 ^ lo + x / 2 ^ (lo + w) * 2 ^ (lo + w)
        = x % 2 ^ lo + 2 ^ lo * (v % 2 ^ w + 2 ^ w * (x / 2 ^ (lo + w))) := by rw [pow_add]; ring
    rw [hw, Nat.add_sub_cancel_left, e, Nat.add_mul_div_left _ _ (Nat.two_pow_pos lo),
      Nat.div_eq_of_lt (Nat.mod_lt _ (Nat.two_pow_pos lo)), Nat.zero_add, Nat.add_mul_mod_self_left, Nat.mod_mod]

/-- A register value with a field replaced still has 64 bits. -/
theorem setBitsOf_lt (x hi lo v : Nat) (hx : x < 2 ^ 64) (h : lo ≤ hi ∧ hi < 64) : setBitsOf x hi lo v < 2 ^ 64 := by
  unfold setBitsOf
  obtain ⟨w, hw⟩ : ∃ w, hi + 1 = lo + w := ⟨hi + 1 - lo, by omega⟩
  obtain ⟨u, hu⟩ : ∃ u, 64 = lo + w + u := ⟨64 - (hi + 1), by omega⟩
  rw [hw, Nat.add_sub_cancel_left]
  rw [hu] at hx ⊢
  have h1 : x % 2 ^ lo < 2 ^ lo := Nat.mod_lt _ (Nat.two_pow_pos lo)
  have h2 : v % 2 ^ w < 2 ^ w := Nat.mod_lt _ (Nat.two_pow_pos w)
  have h3 : x / 2 ^ (lo + w) < 2 ^ u := by
    rw [Nat.div_lt_iff_lt_mul (Nat.two_pow_pos _)]; rw [pow_add _ (lo + w) u, Nat.mul_comm] at hx; exact hx
  have h4 : x % 2 ^ lo + v % 2 ^ w * 2 ^ lo < 2 ^ (lo + w) := by
    rw [pow_add]; nlinarith [Nat.two_pow_pos lo]
  rw [pow_add _ (lo + w) u]
  nlinarith [Nat.two_pow_pos (lo + w)]

theorem fld_setFld (r : Nat) (f : Fld) (v : Nat) (h : f.lo ≤ f.hi ∧ f.hi < 64) :
    (s.setFld r f v).fld r f = v % 2 ^ (f.hi + 1 - f.lo) := by
  simp only [setFld, fld, reg_setReg, BitVec.toNat_ofNat]
  rw [Nat.mod_eq_of_lt (setBitsOf_lt _ _ _ _ (s.reg r).isLt h), bitsOf_setBitsOf]

theorem fld_setFld_ne (r q : Nat) (f g : Fld) (v : Nat) (h : q ≠ r) : (s.setFld r f v).fld q g = s.fld q g := by
  simp [setFld, fld, reg_setReg_ne, h]

end Sys2Proof.Machine.State
end

