-- ==== Sys2Proof/Laws/Memory.lean ====
section
/-! SUPPORT. Laws of memory: a read after a write, and the canonical form that every operation keeps. -/

namespace Sys2Proof.Machine

namespace Mem

/-- Every listed address of `m` lies above `a`. -/
def Above (a : Nat) (m : List Host.Cell) : Prop := ∀ c ∈ m, a < c.1

theorem wf_cons (c : Host.Cell) (m : List Host.Cell) : wf (c :: m) = true ↔ c.2 ≠ 0 ∧ Above c.1 m ∧ wf m = true := by
  induction m generalizing c with
  | nil => obtain ⟨a, b⟩ := c; simp [wf, Above]
  | cons d m ih =>
    obtain ⟨a, b⟩ := c
    obtain ⟨a', b'⟩ := d
    simp only [wf, Bool.and_eq_true, decide_eq_true_eq, bne_iff_ne, ne_eq]
    rw [ih]
    simp only [Above, List.mem_cons, forall_eq_or_imp]
    constructor
    · rintro ⟨⟨h1, h2⟩, h3, h4, h5⟩
      exact ⟨h2, ⟨h1, fun c hc => h1.trans (h4 c hc)⟩, h3, h4, h5⟩
    · rintro ⟨h2, ⟨h1, -⟩, h3, h4, h5⟩
      exact ⟨⟨h1, h2⟩, h3, h4, h5⟩

theorem read_above (m : List Host.Cell) (a : Nat) (h : Above a m) : read m a = 0 := by
  induction m with
  | nil => rfl
  | cons c m ih =>
    have h1 := h c (by simp)
    simp only [read]
    rw [if_neg (by omega), ih fun d hd => h d (by simp [hd])]

theorem above_write (m : List Host.Cell) (k a : Nat) (b : Byte) (h : Above k m) (hk : k < a) : Above k (write m a b) := by
  induction m with
  | nil => unfold write; split <;> simp [Above, hk]
  | cons c m ih =>
    obtain ⟨x, y⟩ := c
    have hx := h (x, y) (by simp)
    have ht : Above k m := fun d hd => h d (by simp [hd])
    unfold write
    split
    · split
      · exact h
      · intro d hd; simp only [List.mem_cons] at hd; rcases hd with rfl | rfl | hd <;> [exact hk; exact hx; exact ht d hd]
    · split
      · split
        · exact ht
        · intro d hd; simp only [List.mem_cons] at hd; rcases hd with rfl | hd <;> [exact hk; exact ht d hd]
      · intro d hd; simp only [List.mem_cons] at hd; rcases hd with rfl | hd <;> [exact hx; exact ih ht d hd]

/-- A write keeps the canonical form. -/
theorem wf_write (m : List Host.Cell) (a : Nat) (b : Byte) (h : wf m = true) : wf (write m a b) = true := by
  induction m with
  | nil => unfold write; split <;> simp_all [wf]
  | cons c m ih =>
    obtain ⟨x, y⟩ := c
    obtain ⟨h1, h2, h3⟩ := (wf_cons _ _).1 h
    unfold write
    split
    · split
      · exact h
      · next ha hb =>
        refine (wf_cons _ _).2 ⟨hb, ?_, h⟩
        intro d hd
        simp only [List.mem_cons] at hd
        rcases hd with rfl | hd
        · exact ha
        · exact ha.trans (h2 d hd)
    · split
      · next hx =>
        subst hx
        split
        · exact h3
        · next hb => exact (wf_cons _ _).2 ⟨hb, h2, h3⟩
      · exact (wf_cons _ _).2 ⟨h1, above_write m x a b h2 (by omega), ih h3⟩

theorem wf_writeN (bs : List Byte) : ∀ (m : List Host.Cell) (a : Nat), wf m = true → wf (writeN m a bs) = true := by
  induction bs with
  | nil => intro m a h; exact h
  | cons b t ih => intro m a h; exact ih _ _ (wf_write m a b h)

theorem wf_filter (p : Host.Cell → Bool) (m : List Host.Cell) (h : wf m = true) : wf (m.filter p) = true := by
  induction m with
  | nil => rfl
  | cons c m ih =>
    obtain ⟨h1, h2, h3⟩ := (wf_cons _ _).1 h
    simp only [List.filter_cons]
    split
    · exact (wf_cons _ _).2 ⟨h1, fun d hd => h2 d (List.mem_of_mem_filter hd), ih h3⟩
    · exact ih h3

/-- A read after a write, in a memory of canonical form. -/
theorem read_write (m : List Host.Cell) (a i : Nat) (b : Byte) (h : wf m = true) :
    read (write m a b) i = if i = a then b else read m i := by
  induction m with
  | nil =>
    unfold write
    split
    · next hb => subst hb; simp [read]
    · simp only [read]; exact ite_congr (propext eq_comm) (fun _ => rfl) fun _ => rfl
  | cons c m ih =>
    obtain ⟨x, y⟩ := c
    obtain ⟨h1, h2, h3⟩ := (wf_cons _ _).1 h
    unfold write
    split
    · next ha =>
      have h0 : read ((x, y) :: m) a = 0 := read_above _ _ (by
        intro d hd; simp only [List.mem_cons] at hd; rcases hd with rfl | hd
        · exact ha
        · exact ha.trans (h2 d hd))
      split
      · next hb => subst hb; split
                   · next hi => subst hi; exact h0
                   · rfl
      · simp only [read]; exact ite_congr (propext eq_comm) (fun _ => rfl) fun _ => rfl
    · split
      · next ha hx =>
        subst hx
        have h0 := read_above m a h2
        split
        · next hb =>
          subst hb
          by_cases hi : i = a
          · subst hi; simp [h0]
          · simp [read, hi, Ne.symm hi]
        · by_cases hi : i = a
          · subst hi; simp [read]
          · simp [read, hi, Ne.symm hi]
      · next ha hx =>
        simp only [read, ih h3]
        by_cases hi : x = i
        · subst hi; simp [Ne.symm hx]
        · simp [hi]

/-- A read after a write of several bytes. -/
theorem read_writeN (bs : List Byte) : ∀ (m : List Host.Cell) (a i : Nat), wf m = true →
    read (writeN m a bs) i = if a ≤ i ∧ i < a + bs.length then bs.getD (i - a) 0 else read m i := by
  induction bs with
  | nil => intro m a i _; simp [writeN]
  | cons b t ih =>
    intro m a i h
    simp only [writeN, ih _ (a + 1) i (wf_write m a b h), read_write m a i b h, List.length_cons]
    by_cases h1 : i = a
    · subst h1; simp
    · by_cases h2 : a + 1 ≤ i ∧ i < a + 1 + t.length
      · rw [if_pos h2, if_pos (by omega), show i - a = (i - (a + 1)) + 1 by omega, List.getD_cons_succ]
      · rw [if_neg h2, if_neg h1, if_neg (by omega)]

end Mem

/-- Raw bytes written read back, and every other byte is as before. -/
theorem readByte_writeRaw (s : State) (a i : Nat) (bs : List Byte) (h : Mem.wf s.mem = true) :
    (s.writeRaw a bs).readByte i = if a ≤ i ∧ i < a + bs.length then bs.getD (i - a) 0 else s.readByte i :=
  Mem.read_writeN bs s.mem a i h

theorem wf_writeRaw (s : State) (a : Nat) (bs : List Byte) (h : Mem.wf s.mem = true) :
    Mem.wf (s.writeRaw a bs).mem = true := Mem.wf_writeN bs s.mem a h

theorem wf_clearRange (s : State) (a n : Nat) (h : Mem.wf s.mem = true) : Mem.wf (s.clearRange a n).mem = true :=
  Mem.wf_filter _ s.mem h

end Sys2Proof.Machine
end

