-- ==== Sys2Proof/Laws/Issue.lean ====
section
/-! SUPPORT. The issue of a bundle of one operation whose conditions are met: everything it can do, said once. -/

namespace Sys2Proof.Machine

/-- Reads taken on blocks change the tags only. -/
theorem foldl_tagRead (l : List Nat) (T : Tile) : ∃ g, l.foldl tagRead T = { T with tags := g } := by
  induction l generalizing T with
  | nil => exact ⟨_, rfl⟩
  | cons b l ih => obtain ⟨g, hg⟩ := ih (tagRead T b); exact ⟨g, by rw [List.foldl_cons, hg]; rfl⟩

theorem foldl_tagWrite (l : List Nat) (T : Tile) : ∃ g, l.foldl tagWrite T = { T with tags := g } := by
  induction l generalizing T with
  | nil => exact ⟨_, rfl⟩
  | cons b l ih =>
    obtain ⟨g, hg⟩ := ih (tagWrite T b)
    refine ⟨g, ?_⟩
    rw [List.foldl_cons, hg, tagWrite]
    split <;> rfl

/-- What an operation put in flight changes in its tile. -/
theorem addFlight_eq (s : State) (t : Nat) (op : TileOp) (k : FlightKind) (lat : Nat) (e : Effect) :
    ∃ g, addFlight s t op k lat e = s.setTile t { s.tile t with
      tags := g, nextId := (s.tile t).nextId + 1,
      flights := (s.tile t).flights ++ [⟨(s.tile t).nextId, op, (s.tile t).pc, k, lat, op.srcs, op.dsts,
        blockUse t (s.tile t) op, halvesUsed (s.tile t) op, e, (s.tile t).st == .handler, opArgs (s.tile t) op, false⟩] } := by
  obtain ⟨g, hg⟩ := foldl_tagRead (blockUse t (s.tile t) op).rd (s.tile t)
  obtain ⟨g', hg'⟩ := foldl_tagWrite (blockUse t (s.tile t) op).wr { s.tile t with tags := g }
  refine ⟨g', ?_⟩
  rw [addFlight, addFlightAs]
  simp only [hg, hg']

/-- The slots received do not enter the checks of a bundle. -/
theorem meets_asm (s : State) (t : Nat) (T U : Tile) (a ops : List TileOp) :
    meets (s.setTile t U) t { T with asm := a } ops = meets s t T ops := by
  have h1 : firstHold (s.setTile t U) t { T with asm := a } ops = firstHold s t T ops := rfl
  have h2 : fetchHits (s.setTile t U) t { T with asm := a } = fetchHits s t T := rfl
  have h3 : bundleBusy t { T with asm := a } ops = bundleBusy t T ops := rfl
  have h4 : rampNeeded (s.setTile t U) t { T with asm := a } = rampNeeded s t T := rfl
  have h5 : dynamicHits (s.setTile t U) t { T with asm := a } ops = dynamicHits s t T ops := rfl
  have h6 : stepWaiting { T with asm := a } = stepWaiting T := rfl
  have h7 : lineHeld { T with asm := a } = lineHeld T := rfl
  have h8 : staticHits { T with asm := a } ops = staticHits T ops := rfl
  rw [meets, meets, h1, h2, h3, h4, h5, h6, h7, h8]

/-- Lines asked for change the buffer and its waiting lines only. -/
theorem askLines_eq (s : State) (t : Nat) (T : Tile) (l : List Nat) :
    ∃ b q, askLines s t T l = { T with ibuf := b, lineQ := q } := by
  have h : ∀ (l : List Nat) (T : Tile), ∃ b q, l.foldl askLine T = { T with ibuf := b, lineQ := q } := by
    intro l
    induction l with
    | nil => exact fun T => ⟨_, _, rfl⟩
    | cons n l ih =>
      intro T
      obtain ⟨b, q, hb⟩ := ih (askLine T n)
      have hn : ∃ b q, askLine T n = { T with ibuf := b, lineQ := q } := by
        unfold askLine
        split
        · exact ⟨_, _, rfl⟩
        · split <;> exact ⟨_, _, rfl⟩
      obtain ⟨b1, q1, h1⟩ := hn
      exact ⟨b, q, by rw [List.foldl_cons, hb, h1]⟩
  exact h _ T

theorem fetchAhead_eq (s : State) (t : Nat) (T : Tile) (next : BitVec 44) (taken : Bool) :
    ∃ b q, fetchAhead s t T next taken = { T with ibuf := b, lineQ := q } := askLines_eq _ _ _ _

/-- The state in which the one operation of a bundle issues. -/
def loaded (s : State) (t : Nat) (op : TileOp) : State := s.setTile t { s.tile t with asm := [op] }

/-- A bundle of one operation that meets every condition issues. -/
theorem tileSlot_issues (s : State) (t : TileId) (op : TileOp) (hc : CanIssue s t op) :
    tileSlot t false op s = .next (issueAll (loaded s t.val op) t.val [op] (nextPc (s.tile t.val) [op]).1
      (nextPc (s.tile t.val) [op]).2) := by
  obtain ⟨h1, h2, h3, h4, h5, -, -⟩ := hc
  have ha : (s.tile t.val).addSlot op = { s.tile t.val with asm := [op] } := by simp [Tile.addSlot, h2]
  have hn : nextPc { s.tile t.val with asm := [op] } [op] = nextPc (s.tile t.val) [op] := rfl
  simp only [tileSlot, slotStep, h1, ha, tryIssue, State.tile_setTile, List.cons.injEq, h3, h4, and_true, or_self,
    if_false, tryBundle, meets_asm, h5, hn, Bool.false_eq_true, loaded]

/-- A tile that takes bundles is running or in its handler. -/
theorem state_of_not_blocked (s : State) (t : Nat) (T : Tile) (h : issueBlocked s t T = false) :
    T.st = .run ∨ T.st = .handler := by
  simp only [issueBlocked, Bool.or_eq_false_iff, Bool.not_eq_false', Bool.or_eq_true, beq_iff_eq] at h
  exact h.1.1.1.1.1.1

/-- The one operation of a bundle is issued alone when none of its sources is uncorrectable. -/
theorem issueOrder_one (T : Tile) (op : TileOp) (h : badSource T op = false) : issueOrder T [op] = [op] := by
  have hf (f : TileOp → Bool) : ([op].filter f) = if f op then [op] else [] := by
    cases hx : f op <;> simp [List.filter, hx]
  simp only [issueOrder, hf, h]
  cases isTree op && T.countUe <;> rfl

/-- Issue of one operation that is no array operation and leaves its tile's state as it is. -/
theorem issueAll_one (s : State) (t : Nat) (op : TileOp) (next : BitVec 44) (taken : Bool) (ha : isArray op = false)
    (hb : badSource (s.tile t) op = false) (hs : ((issueOp s t op).tile t).st = (s.tile t).st) :
    ∃ b q, issueAll s t [op] next taken = (issueOp s t op).setTile t { (issueOp s t op).tile t with
      asm := [], held := false, stall := 0, countUe := false, ibuf := b, lineQ := q, pc := next } := by
  obtain ⟨b, q, h⟩ := fetchAhead_eq (issueOp s t op) t
    { (issueOp s t op).tile t with asm := [], held := false, stall := 0, countUe := false } next taken
  refine ⟨b, q, ?_⟩
  have he : enterArray s t [op] = s := by simp [enterArray, ha]
  have hf : issueAll s t [op] next taken = (issueOp s t op).setTile t { fetchAhead (issueOp s t op) t
      { (issueOp s t op).tile t with asm := [], held := false, stall := 0, countUe := false } next taken with pc := next } := by
    simp only [issueAll, issueOrder_one _ _ hb, he, List.foldl_cons, List.foldl_nil, if_true, hs, ne_eq, not_true, if_false]
  rw [hf, h]

/-- An operation that only goes in flight: the whole of its issue. -/
theorem issue_flight (s : State) (t : TileId) (op : TileOp) (k : FlightKind) (lat : Nat) (e : Effect)
    (ha : isArray op = false)
    (hop : issueOp (loaded s t.val op) t.val op = addFlight (loaded s t.val op) t.val op k lat e)
    (hc : CanIssue s t op) :
    ∃ u, tileSlot t false op s = .next u ∧ u = s.setTile t.val (u.tile t.val) ∧
      ∃ f, InFlight (s.tile t.val) (u.tile t.val) op (nextPc (s.tile t.val) [op]).1 f ∧ f.kind = k ∧ f.eff = e := by
  obtain ⟨g, hg⟩ := addFlight_eq (loaded s t.val op) t.val op k lat e
  have hb : badSource ((loaded s t.val op).tile t.val) op = false := by
    rw [loaded, State.tile_setTile]; exact hc.2.2.2.2.2.1
  obtain ⟨b, q, h⟩ := issueAll_one (loaded s t.val op) t.val op (nextPc (s.tile t.val) [op]).1
    (nextPc (s.tile t.val) [op]).2 ha hb (by rw [hop, hg, State.tile_setTile])
  refine ⟨_, tileSlot_issues s t op hc, ?_⟩
  rw [h, hop, hg]
  simp only [loaded, State.tile_setTile, State.setTile_setTile]
  exact ⟨trivial, _, ⟨⟨rfl, rfl, rfl, rfl, rfl, rfl, rfl, rfl⟩, rfl, rfl, rfl, rfl, rfl⟩, rfl, rfl⟩

/-- Latency and effect of an operation that its registers and the local store decide. -/
def fixedEff (s : State) (t : Nat) (T : Tile) (op : TileOp) : Option (Nat × Effect) :=
  match scalarLat op with
  | some l => some (l, Effect.regs (scalarWrites s t T op))
  | none =>
    match vectorEff s T op with
    | some x => some x
    | none => match matrixEff s T op with
      | some x => some x
      | none => localEff s T op

/-- Operations whose issue does more than put the effect of `fixedEff` in flight. -/
def hasMore : TileOp → Bool
  | .memLd .. | .memSt .. | .memPf .. | .memDrop .. | .memFence .. | .rdsr _ 1 | .atom .. | .kvWalk .. | .kvAppend ..
  | .dmaPost .. | .dmaStat .. | .dmaCancel .. | .sySignal .. | .syWait .. | .syArm .. | .syRead .. | .stepWait _
  | .br .. | .brP .. | .jmp _ | .jr _ | .mxaPass .. | .mxaWload .. => true
  | _ => false

theorem hasMore_array (op : TileOp) (h : hasMore op = false) : isArray op = false := by
  cases op <;> first | rfl | cases h

theorem fixedEff_loaded (s : State) (t : Nat) (op o : TileOp) :
    fixedEff (loaded s t o) t ((loaded s t o).tile t) op = fixedEff s t (s.tile t) op := by
  rw [loaded, State.tile_setTile]; rfl

/-- Such an operation only goes in flight. -/
theorem issueOp_fixed (s : State) (t : Nat) (op : TileOp) (l : Nat) (e : Effect) (hm : hasMore op = false)
    (hb : badSource (s.tile t) op = false) (hu : (isTree op && (s.tile t).countUe) = false) (he : fixedEff s t (s.tile t) op = some (l, e)) :
    issueOp (loaded s t op) t op = addFlight (loaded s t op) t op .fixed l e := by
  have hb' : badSource ((loaded s t op).tile t) op = false := by rw [loaded, State.tile_setTile]; exact hb
  have hu' : ¬(isTree op = true ∧ ((loaded s t op).tile t).countUe = true) := by
    rw [loaded, State.tile_setTile, ← Bool.and_eq_true]; simpa using hu
  rw [← fixedEff_loaded s t op op] at he
  have hs : isMemSync op = false := by cases op <;> first | rfl | cases hm
  have e1 : bumpIssued (loaded s t op) t op = loaded s t op := by simp [bumpIssued, hs]
  unfold issueOp
  simp only [e1, hb', if_neg hu', Bool.false_eq_true, if_false]
  split <;> first | (cases hm) | skip
  unfold fixedEff at he
  cases h1 : scalarLat op with
  | some l1 => simp_all
  | none =>
    simp only [h1] at he
    simp only [Option.map]
    cases h2 : vectorEff (loaded s t op) ((loaded s t op).tile t) op with
    | some x => simp_all
    | none =>
      simp only [h2] at he
      cases h3 : matrixEff (loaded s t op) ((loaded s t op).tile t) op with
      | some x => simp_all
      | none => simp_all

/-- The completion of such an operation. -/
theorem issuesTo_of (c : Instr) (s : State) (t : TileId) (op : TileOp) (e : Effect) (lat : Nat) (pc : BitVec 44)
    (w : List RegWrite) (hx : exec c s = tileSlot t false op s) (hpc : (nextPc (s.tile t.val) [op]).1 = pc)
    (hm : hasMore op = false) (he : fixedEff s t.val (s.tile t.val) op = some (lat, e))
    (hw : e.res = w) (hl : e.ls = []) (hr : e.rows = []) (hi : e.image = none) : IssuesTo c s t op pc w := by
  intro hc
  obtain ⟨u, hu, h1, f, h2, h3, h4⟩ := issue_flight s t op .fixed lat e
    (hasMore_array op hm) (issueOp_fixed s t.val op lat e hm hc.2.2.2.2.2.1 hc.2.2.2.2.2.2 he) hc
  exact ⟨u, hx.trans hu, h1, f, hpc ▸ h2, h3, by rw [h4, hw], by rw [h4, hl], by rw [h4, hr], by rw [h4, hi]⟩

theorem issuesLs_of (c : Instr) (s : State) (t : TileId) (op : TileOp) (e : Effect) (lat : Nat)
    (w : List RegWrite) (l : List (List (Nat × List Byte))) (hx : exec c s = tileSlot t false op s)
    (hpc : (nextPc (s.tile t.val) [op]).1 = (s.tile t.val).pc + 16) (hm : hasMore op = false)
    (he : fixedEff s t.val (s.tile t.val) op = some (lat, e))
    (hw : e.res = w) (hl : e.ls = l) (hr : e.rows = []) (hi : e.image = none) : IssuesLs c s t op w l := by
  intro hc
  obtain ⟨u, hu, h1, f, h2, h3, h4⟩ := issue_flight s t op .fixed lat e
    (hasMore_array op hm) (issueOp_fixed s t.val op lat e hm hc.2.2.2.2.2.1 hc.2.2.2.2.2.2 he) hc
  exact ⟨u, hx.trans hu, h1, f, hpc ▸ h2, h3, by rw [h4, hw], by rw [h4, hl], by rw [h4, hr], by rw [h4, hi]⟩

/-- nop changes nothing but the PC. -/
theorem issue_plain (s : State) (t : TileId) (op : TileOp) (ha : isArray op = false) (hc : CanIssue s t op)
    (h : issueOp (loaded s t.val op) t.val op = loaded s t.val op) :
    ∃ u, tileSlot t false op s = .next u ∧ u = s.setTile t.val (u.tile t.val) ∧ SameRegs (s.tile t.val) (u.tile t.val)
      ∧ (u.tile t.val).pc = (nextPc (s.tile t.val) [op]).1 ∧ (u.tile t.val).flights = (s.tile t.val).flights := by
  have hb : badSource ((loaded s t.val op).tile t.val) op = false := by
    rw [loaded, State.tile_setTile]; exact hc.2.2.2.2.2.1
  obtain ⟨b, q, h2⟩ := issueAll_one (loaded s t.val op) t.val op (nextPc (s.tile t.val) [op]).1
    (nextPc (s.tile t.val) [op]).2 ha hb (by rw [h])
  refine ⟨_, tileSlot_issues s t op hc, ?_⟩
  rw [h2, h]
  simp only [loaded, State.tile_setTile, State.setTile_setTile]
  exact ⟨trivial, ⟨rfl, rfl, rfl, rfl, rfl, rfl, rfl, rfl⟩, trivial, trivial⟩

/-- What an operation's issue is where no source holds the uncorrectable code. -/
theorem badSource_loaded (s : State) (t : Nat) (op : TileOp) (h : badSource (s.tile t) op = false) :
    badSource ((loaded s t op).tile t) op = false := by rw [loaded, State.tile_setTile]; exact h

end Sys2Proof.Machine
end

