-- ==== Sys2Proof/Tests/Slice0.lean ====
section
/-! SUPPORT. Smoke tests, words and values of the spec's worked examples, and for every obligation with hypotheses a theorem
that shows concrete states and operands that meet them. -/

namespace Sys2Proof.Tests

open Sys2Proof.Machine

set_option Elab.async false

/-! ### A small state: context 0 is RUNNING on tile 0 and owns the first 64 objects of p0 -/

def sregs (l : List (Nat × W64)) : SMap W64 := l.foldl (fun m x => m.set x.1 x.2) SMap.empty

def wWindow (kind : BitVec 3) (x w : Bool) (base limit : Nat) : Window := ⟨true, true, x, w, true, kind, base, limit, 0⟩

def wCtx : Ctx := { Ctx.loading [] 0 0 [] with
  mask := 1, tiles := [0], entry := 0x20000000000, startStep := 1
  windows := ((SMap.empty.set 0 (wWindow 4 true false 0x20000000000 0x200FFFFFFFF)).set 1
    (wWindow 1 false true 0x20100000000 0x201FFFFFFFF)).set 3 (wWindow 3 false true 0xE8000000000 0xE80001FFFFF) }

def wTile : Tile := { Tile.reset with
  smooth := 1, wvalid := true, st := .run, ctxValid := true, pc := 0x20000001000, ibuf := SMap.empty.set 0x800000040 true
  s := sregs [(2, 5), (4, 0x20000002000), (6, 0x1FF), (31, 3)]
  a := (((SMap.empty.set 1 0x3E8000000000).set 2 0x3E8000001000).set 3 0x3E8000002000).set 4 0x120100000000
  tags := (SMap.empty.set 0 (⟨.ready, 0, 0, 0⟩ : BlkTag)).set 2 ⟨.held, 0, 0, 0⟩ }

def wState : State := { State.reset with
  tiles := SMap.empty.set 0 wTile, ctxs := SMap.empty.set 0 wCtx
  regs := (SMap.empty.set (R.synOwn 0 0) 0x8000000000000000).set (R.ctxState 0) (BitVec.ofNat 64 CtxSt.running) }

def wWith (f : Tile → Tile) : State := wState.setTile 0 (f wTile)

def wPkt : Packet := ⟨0, 5, 0, 0, 0, 0x20100000000, 0, 0, 0, []⟩

/-! ### Well-formedness: an ill-formed packet of each form is refused -/

theorem test_wf_refuses : (Instr.wr 0 wPkt).wf = false ∧ (Instr.rd 0 { wPkt with payload := [1] } .none).wf = false
    ∧ (Instr.cdata 0 wPkt).wf = false ∧ (Instr.atomPkt 0 { wPkt with payload := [1] } .none).wf = false
    ∧ (Instr.tick 0 wPkt).wf = false ∧ (Instr.slip 0 wPkt).wf = false ∧ (Instr.hello 0 { wPkt with payload := [1] }).wf = false := by
  decide +kernel

theorem test_wf_refuses_long : (Instr.wr 0 { wPkt with payload := List.replicate 4097 0 }).wf = false
    ∧ (Instr.rdRsp 0 { wPkt with payload := List.replicate 4097 0 }).wf = false := by
  decide +kernel

theorem test_wf_accepts : (Instr.wr 0 { wPkt with payload := [1] }).wf = true ∧ (Instr.tickAnnounce).wf = true := by
  decide +kernel

/-! ### Slot words of the spec's examples (after R155, R181, R222 and R225) -/

theorem test_word_addi : TileOp.word (.alui .addi 5 5 1) = 0x24528001 := by decide
theorem test_word_fma : TileOp.word (.vArith .fma 3 1 2 3 ⟨0, false, false⟩) = 0x08308860 := by decide
theorem test_word_tree : TileOp.word (.vTreeInit 2) = 0x52010000 ∧ TileOp.word (.vTreePush 4 2 2 false) = 0x54411000
    ∧ TileOp.word (.vTreePush 5 2 1 false) = 0x54510800 ∧ TileOp.word (.vTreeFin 6 2 false) = 0x56610000 := by decide
theorem test_word_pass : TileOp.word (.mxaPass 1 2 10 0 true true false) = 0x0424A180 := by decide
theorem test_word_local : TileOp.word (.lsVld 7 5 0 true) = 0x06758000 ∧ TileOp.word (.lsSt 3 1 0 false) = 0x04310000 := by
  decide
theorem test_word_memory : TileOp.word (.memSt 5 6 0 0) = 0x22560000 ∧ TileOp.word (.memLd 5 6 0 0) = 0x20560000
    ∧ TileOp.word (.sySignal 8 9 true) = 0x6084C000 ∧ TileOp.word (.syWait 8 7 true) = 0x6283C000 := by decide

/-- The bundle of the example of R155 as 128 bits and as the 16 bytes in memory. -/
def wBundle : Bundle := ⟨0x24528001, 0x08308860, 0, 0⟩

theorem test_bundle_layout : wBundle.bits = 0x24528001083088600000000000000000
    ∧ wBundle.bytes = [0, 0, 0, 0, 0, 0, 0, 0, 0x60, 0x88, 0x30, 0x08, 0x01, 0x80, 0x52, 0x24]
    ∧ Bundle.ofBytes wBundle.bytes = wBundle
    ∧ decodeBundle wBundle = [.alui .addi 5 5 1, .vArith .fma 3 1 2 3 ⟨0, false, false⟩] := by decide +kernel

/-- Words of the spec's examples and tables decode to the operation they encode, and reserved ones to none. -/
theorem test_slot_decode : decodeSlot .s 0x24528001 = .alui .addi 5 5 1 ∧ decodeSlot .v 0x54411000 = .vTreePush 4 2 2 false
    ∧ decodeSlot .m 0x0424A180 = .mxaPass 1 2 10 0 true true false ∧ decodeSlot .d 0x20560000 = .memLd 5 6 0 0
    ∧ decodeSlot .d 0x6084C000 = .sySignal 8 9 true ∧ decodeSlot .s 0xFE000000 = .raw .s 0xFE000000 := by decide +kernel

/-- Every slot's decoder reads back what the field layouts of R157, R158, R190 and R201 spell. -/
theorem test_slot_round_trip : ∀ op ∈ [TileOp.alu .mulhu 31 30 29, .alui .sltiu 1 2 0x7FFF, .li 7 0x80001, .insh 5 3 0xFFFF, .aSet 15 2,
      .aAddi 6 1 0x4000, .loopSeti 3 0x7FFFFF, .br .geu 2 3 0x7FFF, .brP true 7 4, .jmp 0x1FFFFFF, .jal 1 0xFFFFF, .stepWait true, .rdsr 5 3,
      .vArith .fma 31 30 29 28 ⟨7, true, true⟩, .vCmp true 7 31 30 5 ⟨7, true, false⟩, .vCvt 1 2 5 7 true, .vCvtMxs 31 2 0 31 7 false,
      .vFun .rsqrt 31 2 ⟨7, true, false⟩, .vOsm 31 1 2 3 7 true false, .vLaneI .rot 31 2 63 ⟨7, true, false⟩, .vIota 31 63 ⟨7, true, false⟩,
      .vPred .pandn 7 2 3, .vRng true 31 2 3 3 7 true, .mxaWload 15 6 true, .mxaPass 15 1 31 6 true false true, .accMv 31 6,
      .accSt true 2 6 true, .accZero 6, .lsVst 31 2 0x4000 true, .lsZero 2 true, .memSt 31 4 0x2000 3, .memFence true false,
      .atom 31 2 3 4 true 9, .kvWalk 15 4 31 30, .kvAppend 4 31, .dmaPost 7 4 true, .dmaStat 5 7, .syWait 31 3 true],
    decodeSlot op.slot op.word = op := by decide +kernel

/-- Words of a near-memory unit after R341: addi g2, g1, -1, and cm.end. -/
theorem test_unit_word : unitWord 0 ⟨0, .none⟩ (BitVec.ofNat 32 (9 * 2 ^ 26 + 2 * 2 ^ 22 + 2 ^ 18 + 0x3FFFF)) State.reset
      = execCruAddi 0 ⟨0, .none⟩ 2 1 0x3FFFF State.reset
    ∧ unitWord 0 ⟨0, .none⟩ (BitVec.ofNat 32 (0x19 * 2 ^ 26)) State.reset = execCruEnd 0 ⟨0, .none⟩ State.reset := ⟨rfl, rfl⟩

/-! ### Values of the spec's examples -/

/-- The three placements of one reduction (after R129): six segment sums give 16,777,220. -/
theorem test_canonical_sum :
    Fp.canonSum [0x4B800000, 0x3F800000, 0x3F800000, 0x3F800000, 0x3F800000, 0x3F800000] = 0x4B800002 := by decide +kernel

/-- The conversion example of R123: 460, 300 and 0.003 in MXFP8. -/
theorem test_conversion : Fp.cvtBlock 0 none ([0x43E60000, 0x43960000, 0x3B449BA6] ++ List.replicate 29 0x3F800000)
    = (0x7F, [0x7E, 0x79, 0x02] ++ List.replicate 29 0x38) := by decide +kernel

/-- The handle of object 300 of p2 (after R465). -/
theorem test_handle : Handle.ofBits 0x812C = ⟨false, 0, 2, 300, true⟩ := by decide

/-- SYN.OWN4 of p2 and the CTX registers of index 133 (after R465). -/
theorem test_addresses : R.synOwn 2 4 = 0x3101020 ∧ R.ctxState 133 = 0x2002140 := by decide

/-- Pseudo-channel 26 of cs20 (after R287). -/
theorem test_pseudo_channel : (State.granuleOf 0x3456789ABC0).1 = 20 ∧ (State.granuleOf 0x3456789ABC0).2.1 = 26 := by decide

/-- CRC-32 of IEEE 802.3 of "123456789". -/
theorem test_crc32 : crc32 [0x31, 0x32, 0x33, 0x34, 0x35, 0x36, 0x37, 0x38, 0x39] = 0xCBF43926 := by decide +kernel

/-! ### The queue and reset -/

theorem witness_StepRunsFront : ({ State.reset with pending := [.tickFire] } : State).pending = [.tickFire]
    ∧ State.reset.pending = [] := by decide
theorem witness_CommandsLeaveTheQueue : ∃ t, exec (.nop 0 false) wState = .next t := ⟨_, rfl⟩
theorem witness_MemoryStaysCanonical : State.reset.memOk ∧ ∃ t, step State.reset = .next t := ⟨by unfold State.memOk; decide, _, rfl⟩

/-! ### Tile operations that meet every condition of issue -/

def off : VCtl := ⟨7, true, false⟩

theorem witness_ScalarOperations :
    (∀ op ∈ [AluOp.add, .sub, .and, .or, .xor, .sll, .srl, .sra, .slt, .sltu, .min, .max, .minu, .maxu, .mul, .mulh, .mulhu],
      CanIssue wState 0 (.alu op 31 2 0))
      ∧ (∀ op ∈ [AluiOp.addi, .andi, .ori, .xori, .slti, .sltiu], CanIssue wState 0 (.alui op 0 2 0x7FFF))
      ∧ (∀ op ∈ [AluiOp.slli, .srli, .srai], CanIssue wState 0 (.alui op 31 2 63))
      ∧ CanIssue wState 0 (.li 31 0x80000) ∧ CanIssue wState 0 (.insh 5 3 0xFFFF) := by
  unfold CanIssue; decide +kernel

theorem witness_AddressAndLoopOps : ∀ op ∈ [TileOp.aSet 15 2, .aGet 31 1, .aAddi 6 1 0x4000, .aAdd 6 1 2, .loopSet 3 2,
    .loopSeti 0 0x7FFFFF, .loopGet 5 0, .rdsr 5 0, .rdsr 5 2, .rdsr 5 3], CanIssue wState 0 op := by
  unfold CanIssue; decide +kernel

/-- Tile 0 in handler mode in the firmware region of p0. -/
def wHandler : State := wWith fun T => { T with st := .handler, pc := 0x20FF0000000, ibuf := SMap.empty.set 0x83FC00000 true }

theorem witness_BranchesAndHandlerReturn :
    (∀ op ∈ [TileOp.br .eq 2 3 4, .br .ne 2 3 0x7FFF, .br .lt 2 3 4, .br .ge 2 3 4, .br .ltu 2 3 4, .br .geu 2 3 4, .brP true 0 4,
      .brP false 7 4, .jmp 0x1FFFFFF, .jr 4, .jal 1 4, .loopBr 0 4, .stepWait false, .nop], CanIssue wState 0 op)
      ∧ CanIssue wHandler 0 (.stepWait true) ∧ CanIssue wHandler 0 .nop
      ∧ issueBlocked wHandler 0 (wHandler.tile 0) = false ∧ (wHandler.tile 0).asm = [] ∧ (wHandler.tile 0).st = .handler
      ∧ (wHandler.tile 0).trapOp = none ∧ meets wHandler 0 (wHandler.tile 0) [.fret] = .issue
      ∧ meets wHandler 0 (wHandler.tile 0) [.fretReplay] = .issue := by
  unfold CanIssue; decide +kernel

theorem witness_VectorFloatOps : ∀ t ∈ [false, true],
    (∀ op ∈ [VArith.add, .sub, .mul, .max, .min], CanIssue wState 0 (.vArith op 31 1 2 0 ⟨7, true, t⟩))
      ∧ (∀ op ∈ [VArith.fma, .fms, .fnma], CanIssue wState 0 (.vArith op 31 1 2 3 ⟨0, false, t⟩))
      ∧ ∀ op ∈ [VArith.abs, .neg], CanIssue wState 0 (.vArith op 31 1 0 0 ⟨0, false, t⟩) := by
  unfold CanIssue; decide +kernel

theorem witness_VectorIntegerOps :
    (∀ op ∈ [VArith.iadd, .isub, .imul, .imulh, .iand, .ior, .ixor, .ishl, .ishr, .isar, .imax, .imin],
      CanIssue wState 0 (.vArith op 31 1 2 0 off)) ∧ CanIssue wState 0 (.vArith .imac 31 1 2 3 off) := by
  unfold CanIssue; decide +kernel

theorem witness_VectorCompareAndConvert : ∀ op ∈ [TileOp.vCmp false 7 1 2 0 off, .vCmp true 7 1 2 5 off, .vCvt 1 2 5 7 true,
    .vCvt 1 2 6 7 false, .vCvtMx 31 2 0 7 false, .vCvtMxs 31 2 0 31 7 false, .vCvtMxf 31 2 0 7 true], CanIssue wState 0 op := by
  unfold CanIssue; decide +kernel

theorem witness_VectorFunctionsAndReductions :
    (∀ f ∈ [VFun.exp2, .log2, .rcp, .rsqrt], CanIssue wState 0 (.vFun f 31 2 off)) ∧ CanIssue wState 0 (.vOsm 31 1 2 3 7 true false)
      ∧ ∀ r ∈ [VRed.rsum, .rmax, .rmin, .irsum, .scan, .iscan], CanIssue wState 0 (.vRed r 31 2 ⟨7, false, false⟩) := by
  unfold CanIssue; decide +kernel

theorem witness_VectorLanePredicateRandomOps :
    (∀ op ∈ [TileOp.vLane3 .perm 31 2 3 off, .vLane3 .sel 31 2 3 ⟨7, false, false⟩, .vLane3 .mov 31 2 0 off, .vLaneI .rot 31 2 63 off,
      .vLaneI .bfly 31 2 5 off, .vLaneI .bcastl 31 2 63 off, .vBcast 31 2 off, .vIns 31 2 63 ⟨0, false, false⟩, .vIota 31 63 off,
      .vExt 31 2 63 ⟨0, false, false⟩], CanIssue wState 0 op)
      ∧ (∀ f ∈ [VPredOp.pand, .por, .pxor, .pandn], CanIssue wState 0 (.vPred f 7 2 3))
      ∧ ∀ op ∈ [TileOp.vPs2p 7 2, .vPp2s 31 2, .vPcnt 31 2, .vRng false 31 2 3 3 7 true, .vRng true 31 2 3 3 7 true],
        CanIssue wState 0 op := by
  unfold CanIssue; decide +kernel

theorem witness_MergeStackOps : ∀ op ∈ [TileOp.vTreeInit 3, .vTreePush 1 3 14 false, .vTreePush 1 3 0 true, .vTreeFin 31 3 true],
    CanIssue wState 0 op := by
  unfold CanIssue; decide +kernel

theorem witness_MatrixOps : ∀ op ∈ [TileOp.mxaWload 1 0 true, .mxaPass 1 1 6 0 true false false, .accMv 31 6, .accSt false 2 6 true,
    .accSt true 2 6 true, .accZero 6], CanIssue wState 0 op := by
  unfold CanIssue; decide +kernel

theorem witness_LocalStoreOps : ∀ op ∈ [TileOp.lsLd 31 1 511 true, .lsSt 31 2 511 true, .lsVld 31 1 15 true, .lsVst 31 2 15 true,
    .lsClaim 2, .lsPublish 3, .lsRelease 3, .lsZero 2 true], CanIssue wState 0 op := by
  unfold CanIssue; decide +kernel

theorem witness_MemoryOperationsLeave : (wState.tile 0).st = .run ∧ ∀ op ∈ [TileOp.memLd 31 4 0x1FFF 0, .memSt 31 4 0 2, .memPf 4 0 0,
    .memDrop 4 0 0, .atom 31 2 0 4 true 8, .atom 31 2 3 4 false 9, .memFence true false], CanIssue wState 0 op := by
  unfold CanIssue; decide +kernel

/-! ### Requests, answers, retirement, traps, preemption -/

/-- A page-table header with one entry, and the entry: a BF16 page of size code 0 (R241, R242). -/
def wHeader : List Byte := leBytes 8 (1 + 2 * 2 ^ 19) ++ leBytes 8 0 ++ leBytes 8 1 ++ List.replicate 40 0
def wEntry : List Byte := leBytes 8 0x20100010000 ++ leBytes 8 0x200

def wWalk : State := wWith fun T => { T with walker := SMap.empty.set 0x20100000040 (wHeader ++ wEntry) }

theorem witness_PageOperations :
    walkKey (destOf wState 0 (winSel ((wState.tile 0).ra 4))) (0x20100000000 + 64 + 16 * kvEntry 5) = 0x20100000040
      ∧ ((wWalk.tile 0).walker.get? 0x20100000040 = some (wHeader ++ wEntry)
        ∧ (walkResult ((wHeader ++ wEntry).take 64) ((wHeader ++ wEntry).drop 64) 5).isSome = true)
      ∧ (wState.tile 0).walker.get? 0x20100000040 = none ∧ CanIssue wWalk 0 (.kvWalk 6 4 2 5) ∧ CanIssue wState 0 (.kvWalk 6 4 2 5)
      ∧ (let s := { wState with mem := Mem.writeN [] 0x20100000000 wHeader };
        appendOk (headerSeen (s.countMem 0) 0 (s.tile 0) 0x20100000000) 5 = true ∧ destOf s 0 (winSel ((s.tile 0).ra 4)) = .local)
      ∧ CanIssue { wState with mem := Mem.writeN [] 0x20100000000 wHeader } 0 (.kvAppend 4 2) := by
  unfold CanIssue; decide +kernel

theorem witness_SynchronisationOperations :
    (∀ op ∈ [TileOp.sySignal 2 3 false, .sySignal 2 3 true, .syWait 0 3 false, .syArm 2 3, .syRead 5 2, .dmaPost 7 4 true,
      .dmaStat 5 7, .dmaCancel 3], CanIssue wState 0 op) ∧ (wState.tile 0).flights = [] := by
  unfold CanIssue; decide +kernel

def wReq (kind : ReqKind) (done : Bool) : MemReq := ⟨0, 0, kind, .local, 0x20100000000, 1, 0, 0, 0, done, false, 0, false⟩
def wObjReq (kind : ReqKind) : MemReq := { wReq kind false with addr := 63 }
def wAsks (q : MemReq) : State := { wState with reqs := SMap.empty.set 7 q, nextReq := 8 }

/-- Stack 0 quiesced, and its line at 0x20100000000 leased to unit 0. -/
def wQuiet (s : State) : State := s.setFld (R.capStatus 0 0) F.capStatus_quiesced 1
def wLeased (s : State) : State := { s with units := SMap.empty.set 0 { CruUnit.reset with leases := SMap.empty.set 3 (0x8000, 1) } }

def wKinds : List ReqKind := [.load, .store, .append, .prefetch, .drop, .atomic 9 true, .atomic 0 false]

theorem witness_RequestsPerformed :
    (∀ k ∈ wKinds ++ [.signal, .arm, .readObj], ∀ d ∈ [Dest.local, .peer 7, .host 0],
      let q := { wReq k false with dest := d }
      let s := wAsks q
      s.reqs.get? 7 = some q ∧ q.done = false ∧ q.arbiter = false ∧ blockedByLine s 7 q = false ∧ notReached s q = false
        ∧ q.tile < 2048 ∧ s.ctxSt (q.ctx / 128) ≠ CtxSt.teardown ∧ refusedByReset s q = false ∧ s.quiesced q.addr = false
        ∧ s.leaseHolds q.addr = false ∧ (s.fab.out.any fun f => f.who == .mem 7) = false)
      ∧ (∀ k ∈ wKinds,
        let q := wReq k false
        ∀ s ∈ [wQuiet (wAsks q), wLeased (wAsks q), (wAsks q).setReg (R.ctxState 0) (BitVec.ofNat 64 CtxSt.teardown)],
          s.reqs.get? 7 = some q ∧ blockedByLine s 7 q = false ∧ notReached s q = false
            ∧ (refusedByReset s q = false ∨ s.ctxSt 0 = CtxSt.teardown))
      ∧ (wQuiet wState).quiesced 0x20100000000 = true ∧ (wLeased wState).quiesced 0x20100000000 = false
      ∧ (wLeased wState).leaseHolds 0x20100000000 = true
      ∧ (wState.setReg (R.ctxState 0) (BitVec.ofNat 64 CtxSt.teardown)).ctxSt 0 = CtxSt.teardown
      ∧ ∀ n ∈ [4, 8], wState.answers 0 0x20100000000 n = true ∧ wState.statusAt 0x20100000000 n = .ok
        ∧ wState.isRemote 0 0x20100000000 = false := by
  decide +kernel

def wFlight (op : TileOp) (kind : FlightKind) : Flight :=
  ⟨3, op, 0x20000000FF0, kind, 2, op.srcs, op.dsts, BlockUse.none, [], Effect.none, false, [], false⟩
def wFlying (op : TileOp) (kind : FlightKind) : State := wWith fun T => { T with flights := [wFlight op kind], nextId := 4 }

def wArgs (l : List W64) (op : TileOp) (kind : FlightKind) : State :=
  wWith fun T => { T with flights := [{ wFlight op kind with args := l }], nextId := 4 }
def wFlyingWalk : State := { wArgs [5] (.kvWalk 6 4 2 5) .walkMiss with
  mem := Mem.writeN [] 0x20100000000 (wHeader ++ wEntry) }
def wLoading : State := { wFlying (.memLd 31 4 0 0) (.data 7) with reqs := SMap.empty.set 7 (wReq .load true) }

theorem witness_AnswersReturn :
    (let s := wLoading;
      s.reqs.get? 7 = some (wReq .load true) ∧ ((s.tile 0).flights.find? fun f => f.kind == .data 7) = some (wFlight (.memLd 31 4 0 0) (.data 7))
        ∧ (wFlight (.memLd 31 4 0 0) (.data 7)).dsts = [.s 31] ∧ (wFlight (.memLd 31 4 0 0) (.data 7)).eff = Effect.none
        ∧ (s.tile 0).suppress = false)
      ∧ ((wAsks (wReq .store true)).tile 0).flights = [] ∧ (wAsks (wReq .store true)).reqs.get? 7 = some (wReq .store true)
      ∧ (wAsks (wObjReq .signal)).reqs.get? 7 = some (wObjReq .signal) ∧ updateArrives (wAsks (wObjReq .signal)) [7] 7 = true := by
  decide +kernel

theorem witness_WalkAndReleaseReturn :
    (let s := wFlyingWalk;
      let f := { wFlight (.kvWalk 6 4 2 5) .walkMiss with args := [5] };
      let h := s.cachedRead 0 0 0x20100000000 64 1;
      let e := h.2.cachedRead 0 0 0x20100000040 16 1;
      (s.tile 0).flight? 3 = some f ∧ (s.tile 0).suppress = false ∧ destOf s 0 (winSel ((s.tile 0).ra 4)) = .local
        ∧ s.waitsAt 0x20100000000 64 = false ∧ s.waitsAt 0x20100000040 16 = false ∧ s.shutOut 0 0 0x20100000040 = false ∧ s.answers 0 0x20100000000 64 = true
        ∧ s.answers 0 0x20100000040 16 = true ∧ s.statusAt 0x20100000000 64 = .ok ∧ s.statusAt 0x20100000040 16 = .ok
        ∧ ((s.tile 0).ra 4).toNat % 2 ^ 44 = 0x20100000000 ∧ kvEntry 5 = 0
        ∧ (walkResult h.1 e.1 5).isSome = true ∧ h.1.length = 64)
      ∧ (∀ rel ∈ [false, true], let s := wFlying (.memFence rel false) (.fence rel false);
        (s.tile 0).flight? 3 = some (wFlight (.memFence rel false) (.fence rel false)) ∧ storesDone s 0 3 true = true)
      ∧ (let s := wArgs [5, 1] (.sySignal 2 3 true) .release;
        (s.tile 0).flight? 3 = some { wFlight (.sySignal 2 3 true) .release with args := [5, 1] } ∧ storesDone s 0 3 false = true) := by
  decide +kernel

theorem witness_RetirementAndSmoothing :
    (∀ b ∈ [false, true], let s := wWith (fun T => { T with flights := [wFlight (.lsLd 5 1 0 false) .fixed], suppress := b });
      (s.tile 0).flight? 3 = some (wFlight (.lsLd 5 1 0 false) .fixed) ∧ (s.tile 0).suppress = b)
      ∧ ((wFlying (.mxaPass 1 1 6 0 true false false) .pass).tile 0).flight? 3
        = some (wFlight (.mxaPass 1 1 6 0 true false false) .pass)
      ∧ (faultFits (wFlight (.lsLd 5 1 0 false) .fixed) (.lsUe 0xE8000000000 0) = true ∧ (wState.tile 0).drain = none ∧ (wState.tile 0).st = .run)
      ∧ (let s := wFlying (.stepWait false) .stepWait;
        (s.tile 0).flights = [wFlight (.stepWait false) .stepWait] ∧ stepDone s 0 (s.tile 0) = true ∧ (s.tile 0).st = .run)
      ∧ (∀ x ∈ [(1 : BitVec 2), 2, 3], let s := wWith (fun T => { T with smooth := x });
        (s.tile 0).smooth = x ∧ loadingWeights (s.tile 0) = false ∧ (s.tile 0).held = false)
      ∧ (wState.fld (R.mxaSmooth 0) F.mxaSmooth_enable = 1
        ∧ (wState.setFld (R.mxaSmooth 0) F.mxaSmooth_enable 0).fld (R.mxaSmooth 0) F.mxaSmooth_enable = 0)
      ∧ ∀ b ∈ [false, true], (wWith (fun T => { T with smooth := 3, rampQuiet := b })).tile 0 = { wTile with smooth := 3, rampQuiet := b } := by
  decide +kernel

def wTrap : TrapRec := ⟨Cause.illop, 0, .s, none, 0x20000001000⟩

theorem witness_TrapEntry :
    ((wState.tile 0).st ≠ .handler ∧ wTrap.cause ≠ Cause.bound) ∧ (wHandler.tile 0).st = .handler
      ∧ (let s := wWith (fun T => { T with drain := some wTrap });
        (s.tile 0).drain = some wTrap ∧ (s.tile 0).flights = [] ∧ (s.tile 0).drainMore = [])
      ∧ (let s := wWith (fun T => { T with held := true, stall := 1, asm := [.lsLd 5 2 0 false] });
        (s.tile 0).held = true ∧ (s.tile 0).stall = 1 ∧ issueBlocked s 0 (s.tile 0) = false
          ∧ (bundleHolds s 0 (s.tile 0) (s.tile 0).asm).find? (fun h => h.2.1 == 1) = some (.lsLd 5 2 0 false, 1, 0xE8000001000))
      ∧ (let s := wWith (fun T => { T with held := true, stall := 3, asm := [.syWait 3 2 false] });
        (s.tile 0).stall = 3 ∧ issueBlocked s 0 (s.tile 0) = false
          ∧ (bundleHolds s 0 (s.tile 0) (s.tile 0).asm).find? (fun h => h.2.1 == 3) = some (.syWait 3 2 false, 3, 0))
      ∧ ((wState.tile 0).pc.toNat / 64 = 0x800000040 ∧ issueBlocked wState 0 (wState.tile 0) = false) := by
  decide +kernel

theorem witness_PreemptionSaveAndRestore :
    (∀ x ∈ [TileSt.run, .stepwait, .handler], let s := wWith (fun T => { T with st := x });
      (s.tile 0).preempt = none ∧ (s.tile 0).st = x)
      ∧ (let s := wWith (fun T => { T with st := .idle });
        (s.tile 0).preempt = none ∧ (s.tile 0).st = .idle)
      ∧ (∀ x ∈ [(PreemptKind.urgent, TileSt.run), (.step, .stepwait)], let s := wWith (fun T => { T with preempt := some x.1, st := x.2 });
        (s.tile 0).flights = [] ∧ (s.tile 0).drain = none ∧ (∀ r ∈ s.reqs.vals, r.tile ≠ 0)
          ∧ (∀ k ∈ State.tileQueues 0, (s.queue k).active = []) ∧ s.reviving (s.tile 0).ctxIndex = false
          ∧ (s.tile 0).preempt = some x.1 ∧ (s.tile 0).st = x.2)
      ∧ (let s := wWith (fun T => { T with preempt := some .urgent });
        (s.tile 0).preempt = some .urgent ∧ (s.tile 0).saving = false)
      ∧ ((wWith fun T => { T with st := .save }).tile 0).st = .save ∧ resetWaits (wWith fun T => { T with st := .save }) 0 = false
      ∧ ((wWith fun T => { T with st := .restore }).tile 0).st = .restore := by
  decide +kernel
/-! ### Data movement queues -/

/-- A copy of 64 bytes from 0x20100002000 to `dst` in window `w`. -/
def wDesc (w dst : Nat) : Desc := ⟨0x20100000000, 1, false, 0, 0, [0, BitVec.ofNat 64 (2 ^ 56 + 0x20100002000), BitVec.ofNat 64 (w * 2 ^ 56 + dst), 0, 0,
  BitVec.ofNat 64 (63 * 2 ^ 40 + 63 * 2 ^ 32), 0, 0x100]⟩
def wCopy : Desc := wDesc 1 0x20100003000
/-- A copy with its completion record, and one that signals object 5 with amount 1. -/
def wFlagged (bit : Nat) : Desc := { wCopy with words := wCopy.words.set 7 (BitVec.ofNat 64 (0x100 + 2 ^ bit)) }
def wSignalling : Desc := { wCopy with words := wCopy.words.set 6 (BitVec.ofNat 64 (2 ^ 32 + 2 ^ 30 + 5)) }

def wHead : ChainHead := ⟨0x20100000000, 1, false, 0, 0, none⟩
def wAct (d : Desc) (pos : Nat) : Active := { newActive d .start with pos := pos }
def wQueue (st : QSt) (f : List Desc) (a : List Active) : Queue := ⟨st, [], none, f, a, 0, 0, 0, 0⟩
def wQ (q : Queue) : State := wState.setQueue 0 q
def wBytes (d : Desc) : List Byte := d.words.flatMap fun x => leBytes 8 x.toNat
def wFetch (d : Desc) : State := { wQ { wQueue .run [] [] with chain := some wHead } with mem := Mem.writeN [] 0x20100000000 (wBytes d) }

theorem witness_DescriptorFetchAndStart :
    (∀ x ∈ [(wCopy, true), (wDesc 2 0x20100003000, false)],
      let s := wFetch x.1;
      let bs := fetchView s 0 wHead 0x20100000000 64;
      s.placeIn (s.qCtx 0) 1 0x20100000000 = 0x20100000000 ∧ s.shutOut 0 0 0x20100000000 = false ∧ (s.queue 0).st = .run ∧ (s.queue 0).chain = some wHead ∧ s.queueOff 0 = false ∧ fetchOrdered s 0 wHead = true
        ∧ s.waitsAt wHead.addr 64 = false ∧ wHead.addr % 64 = 0
        ∧ s.tableOk 0 1 0x20100000000 64 .rd = true ∧ s.qResolve 0 1 0x20100000000 64 .rd = some (.here 0x20100000000)
        ∧ leVal (fetchView s 0 wHead 0x20100000038 1) % 16 = 0 ∧ leVal ((bs.drop 56).take 8) % 16 = 0
        ∧ s.lineSt (0x20100000000 / 64) = .ok ∧ (s.queue 0).fetched.length < 16
        ∧ s.descOk 0 (parseDesc wHead wHead.addr bs) = x.2)
      ∧ ((wQuiet (wFetch wCopy)).waitsAt 0x20100000000 64 = true ∧ fetchOrdered (wQuiet (wFetch wCopy)) 0 wHead = true
        ∧ (wQuiet (wFetch wCopy)).qResolve 0 1 0x20100000000 64 .rd = some (.here 0x20100000000))
      ∧ (∀ d ∈ [wCopy, wFlagged 5], ∀ l ∈ [[], [wAct wCopy 0]],
        let s := wQ (wQueue .run [d] l);
        (s.queue 0).st = .run ∧ s.descOk 0 d = true ∧ s.tagWait 0 d 0 [] = 0 ∧ yields s 0 d 0 = false) ∧ wCopy.fence = false ∧ (wFlagged 5).fence = true
      ∧ isBulk 0 = false
      ∧ (let s := (wState.setFld (R.bulkQctl 0 0) F.bulkQctl_valid 1).setQueue 16384 (wQueue .run [wCopy] []);
        (s.queue 16384).st = .run ∧ s.descOk 16384 wCopy = true ∧ s.tagWait 16384 wCopy 0 [] = 0 ∧ yields s 16384 wCopy 0 = false ∧ isBulk 16384 = true
          ∧ engineFree s 16384 = true) := by
  decide +kernel

def wZero : Desc := { wCopy with words := [0, 0, BitVec.ofNat 64 (2 ^ 56 + 0x20100003000), 0, 0, BitVec.ofNat 64 (63 * 2 ^ 40 + 63 * 2 ^ 32), 0, 0x140] }

/-- A remote window onto device 7 and a host window onto region 0. -/
def wPeer : State :=
  let s := (((wState.setFld (R.hifHreg 0) F.hifHreg_valid 1).setFld (R.hifHreg 0) F.hifHreg_w 1).setFld (R.hifHreg 0)
    F.hifHreg_r 1).setFld (R.hifHreg 0) F.hifHreg_size 21;
  (s.setFld (R.hifHreg 0) F.hifHreg_base 4).setCtx 0 { wCtx with
    windows := (wCtx.windows.set 5 { wWindow 5 false true 0 0xFFFFFFFFFFF with dest := 7 }).set 6
      { wWindow 6 false true 0 0xFFFF with dest := 0 } }

/-- A chunk that has both its turns at the ports, one whose turn goes to another queue, and one that has only its read's. -/
theorem witness_ChunksMoveAndLand :
    (∀ d ∈ [wZero, wCopy], let s := wQ (wQueue .run [] [wAct d 0]);
      activeAt s 0 0 = some (wAct d 0) ∧ (s.queue 0).st = .run ∧ chunkFree s 0 (wAct d 0) = true ∧ yields s 0 d 0 = false
        ∧ chunkLeased s 0 d 0 (chunkLen d 0) = none ∧ useCaps s 0 d 0 (chunkLen d 0) = some SMap.empty
        ∧ ∃ z ∈ takeTurns s 0 0 (wAct d 0), z.2 = true ∧
          let w := takeTags { z.1 with capUsed := SMap.empty } 0 (wAct d 0) 0;
          let v := setActive w.1 0 0 w.2;
          dstReset v 0 d 0 (chunkLen d 0) = false ∧ dstGone v 0 d 0 (chunkLen d 0) = false
            ∧ v.qResolve 0 wCopy.swin (wCopy.srcAt 0) (chunkLen wCopy 0) .rd = some (.here 0x20100002000)
            ∧ v.resetHome (qPart 0) 0x20100002000 = false ∧ v.answers 0 0x20100002000 64 = true ∧ v.statusAt 0x20100002000 64 = .ok)
      ∧ wZero.zeroOp = true ∧ wCopy.zeroOp = false
      ∧ (let s := wQ (wQueue .run [] [wAct (wDesc 3 0xE8000000000) 0]); chunkFree s 0 (wAct (wDesc 3 0xE8000000000) 0) = false)
      ∧ (let s := wLeased (wQ (wQueue .run [] [wAct (wDesc 1 0x20100000000) 0]));
        chunkFree s 0 (wAct (wDesc 1 0x20100000000) 0) = true ∧ chunkLeased s 0 (wDesc 1 0x20100000000) 0 64 = some 0x20100000000)
      ∧ wState.qResolve 0 1 0x20100003000 64 .wr = some (.here 0x20100003000) ∧ lsBlock? 0x20100003000 = none
      ∧ wState.qResolve 0 3 0xE8000001000 64 .wr = some (.here 0xE8000001000) ∧ lsBlock? 0xE8000001000 = some 1
      ∧ wPeer.qResolve 0 5 0x720100003000 64 .wr = some (.peer 7 0x20100003000)
      ∧ wPeer.qResolve 0 6 0x1000 64 .wr = some (.host 0x801000) := by
  decide +kernel

def wTurns : State := ((wState.setQueue 0 (wQueue .run [] [wAct wCopy 0])).setQueue 1 (wQueue .run [] [wAct wCopy 0])).setFld
  (R.dmaGctl 0 0) F.dmaGctl_mode 0

/-- Two queues of a group in FIXED mode take turns: queue 0 has the turn of its read but not of its write, and then none at all. A
cap of 0 percent on reads leaves nothing of the window. -/
theorem witness_ChunksWait :
    (let t := (takeTurns wTurns 0 0 (wAct wCopy 0)).elim wTurns (·.1);
      (takeTurns wTurns 0 0 (wAct wCopy 0)).map (·.2) = some false ∧ takeTurns t 0 0 { wAct wCopy 0 with readTurn := true } = none)
      ∧ (let s := wTurns.setFld (R.dmaGctl 0 0) F.dmaGctl_rd 0;
        chunkFree s 0 (wAct wCopy 0) = true ∧ chunkLeased s 0 wCopy 0 64 = none ∧ useCaps s 0 wCopy 0 64 = none) := by
  decide +kernel

/-- A completion ring of one entry in window 1. -/
def wRing (prod : Nat) (d : Desc) : State :=
  ((wQ (wQueue .run [] [wAct d 64])).setReg (qRing 0) (BitVec.ofNat 64 (2 ^ 48 + 0x20100004000))).setReg (qProd 0) (BitVec.ofNat 64 prod)

theorem witness_DescriptorCompletes :
    (let s := wRing 0 (wFlagged 4);
      owing s 0 = none ∧ s.ringWaits 0 = false ∧ (s.queue 0).st ≠ .cancelling ∧ (s.queue 0).active = [wAct (wFlagged 4) 64]) ∧
    (wAct wCopy 64).pos = wCopy.total ∧ wCopy.cf = false ∧ wCopy.sig = false
      ∧ (wFlagged 4).cf = true
      ∧ (wRing 0 (wFlagged 4)).ringOk 0 = true ∧ (wRing 0 (wFlagged 4)).ringFull 0 = false
      ∧ wSignalling.total = 64 ∧ wSignalling.sig = true ∧ wState.qCtx 0 = some 0 ∧ (Handle.ofBits wSignalling.handle).remote = false := by
  decide +kernel

theorem witness_QueueTimeoutsAndControl :
    (let s := wQ (wQueue .run [] [wAct (wDesc 3 0xE8000000000) 0]);
      (s.queue 0).st = .run ∧ s.tagWait 0 (wDesc 3 0xE8000000000) 0 [] ≠ 0 ∧ (wDesc 3 0xE8000000000).total = 64)
      ∧ isBulk 0 = false ∧ (wRing 1 (wFlagged 4)).ringOk 0 = true ∧ (wRing 1 (wFlagged 4)).ringFull 0 = true
      ∧ owing (wRing 1 (wFlagged 4)) 0 = none
      ∧ (∀ x ∈ [QSt.run, .halted, .stopped, .cancelling], ∀ k ∈ [0, 16384], ((wState.setQueue k (wQueue x [] [])).queue k).st = x)
      ∧ wState.fab.out = []
      ∧ (let s := wState.setFld (R.bulkQctl 0 0) F.bulkQctl_valid 1;
        (s.queue 16384).heads.length < 4 ∧ (s.qCtx 16384).isSome = true)
      ∧ (let s := (wState.setObj 3 2).setCtx 0 { wCtx with rings := SMap.empty.set 0 ⟨none, some ⟨0x20100000000, 4, 3, 0⟩, none, 1, 1⟩ };
        (∃ cx, s.ctxs.get? 0 = some cx ∧ cx.rings.get? 0 = some ⟨none, some ⟨0x20100000000, 4, 3, 0⟩, none, 1, 1⟩)
          ∧ 1 < (s.obj 3).toNat ∧ s.issueStopped 0 = false ∧ (s.queue 16384).heads.length < 4 ∧ (s.queue 16384).st = .idle
          ∧ s.statusAt (0x20100000000 + 8 * 1) 8 = .ok) := by
  refine ⟨by decide +kernel, by decide +kernel, by decide +kernel, by decide +kernel, by decide +kernel, by decide +kernel, by decide +kernel,
    by decide +kernel, ?_⟩
  exact ⟨⟨_, rfl, rfl⟩, by decide +kernel, by decide +kernel, by decide +kernel, by decide +kernel, by decide +kernel⟩

/-! ### Near-memory units -/

def wUnit : CruUnit := { CruUnit.reset with st := .run, g := ((SMap.empty.set 1 0x8000000).set 2 1).set 3 0x40 }
def wUnits (u : CruUnit) : State := { wState with units := SMap.empty.set 0 u, launches := SMap.empty.set 0 wLaunch }
where wLaunch : Launch := ⟨0, 0, 0x20100000000, 0, 1, 0x20100008000, 1, 0, 0, 5, 1, 0, true, 0, 31⟩

theorem witness_UnitRegisterInstructions : ((wUnits wUnit).unit 0).st = .run ∧ (wUnit.rg 0).toNat ≤ wUnit.received
    ∧ ∀ h ∈ (wUnits wUnit).held, h.1 ≠ 0 := by decide +kernel

theorem witness_UnitStoreAndDotInstructions :
    ((wUnits wUnit).unit 0).st = .run ∧ wUnit.reads = []
      ∧ ((wUnit.rg 3 + (0xFFBC : BitVec 18).signExtend 32).toNat + 4 ≤ 0x10000 ∧ (wUnit.rg 3 + (0xFFBC : BitVec 18).signExtend 32).toNat % 4 = 0)
      ∧ ((wUnit.rg 3 + (0 : BitVec 18).signExtend 32).toNat + 64 ≤ 0x10000 ∧ (wUnit.rg 3 + (0 : BitVec 18).signExtend 32).toNat % 64 = 0)
      ∧ ¬ (wUnit.rg 1).toNat + 4 ≤ 0x10000 ∧ (wUnit.rg 2).toNat < 0x10000 ∧ 1 ≤ (wUnit.rg 2).toNat
      ∧ (wUnit.rg 3).toNat + 4 * (wUnit.rg 2).toNat ≤ 0x10000
      ∧ dotFmtOk 6 6 = true ∧ dotFmtOk 0 4 = true ∧ dotFmtOk 6 0 = false
      ∧ (accOf { wUnit with accs := SMap.empty.set 7 ⟨0, 0, List.replicate 32 ([], 0)⟩ } 7).steps.length = 32
      ∧ (accOf wUnit 7).steps.length ≠ 32 ∧ (wUnit.rg 3).toNat + 256 ≤ 0x10000 ∧ blockFmtOk 6 = true ∧ blockFmtOk 4 = true := by
  decide +kernel

def wBootKey (s : State) : State := s.setFld R.secKeystat F.secKeystat_mem_valid 0xFF

def wBus (unit : Nat) : CruUnit := { wUnit with bus := [⟨unit, 0xFFC0, List.replicate 64 7⟩] }

theorem witness_UnitMemoryInstructions :
    (let s := wUnits { wUnit with leases := SMap.empty.set 3 (0x8000, 1) };
      (s.unit 0).st = .run ∧ (s.unit 0).reads = [] ∧ (wUnit.rg 2).toNat = 1 ∧ (wUnit.rg 3).toNat + 64 ≤ 0x10000
        ∧ (wUnit.rg 3).toNat % 64 = 0 ∧ (wUnit.rg 1).toNat % 64 = 0 ∧ (unitLaunch s 0).isSome = true
        ∧ s.quiesced (capBase 0) = false ∧ unitHole s (deviceAddr 0 0 0x8000000) = false
        ∧ hostInFlight s 0 0 (0x8000000 / 0x1000) 1 = false
        ∧ channelOk s 0 0 0x8000000 1 0 .rd = true ∧ channelOk s 0 0 0x8000000 1 0 .wr = true ∧ leasedLine (s.unit 0) 0x8000000 = true
        ∧ (s.unit 0).leases.rows ≠ [] ∧ (wUnit.rg 1).toNat % 0x1000 = 0 ∧ (wUnit.rg 1).toNat + 0x1000 ≤ 0x80000000
        ∧ (∀ h ∈ s.held, h.1 ≠ 0) ∧ (s.unit 0).bus = [] ∧ (s.unit 0).leaseExpired = false
        ∧ (unitLaunch s 0).any (fun l => l.mask.testBit ((wUnit.rg 3).toNat / 65536 % 32)) = true)
      ∧ (let s := wUnits { wUnit with reads := [⟨0, 0x8000000, 1⟩] };
        ((s.unit 0).reads = [⟨0, 0x8000000, 1⟩] ∧ s.quiesced (capBase 0) = false
          ∧ ∀ i < 1, unitHole s (deviceAddr 0 0 (0x8000000 + 64 * i)) = false
            ∧ unitLineSt s (deviceAddr 0 0 (0x8000000 + 64 * i) / 64) = .ok)
          ∧ ((wQuiet s).unit 0).reads ≠ [] ∧ (wQuiet s).quiesced (capBase 0) = true)
      ∧ ((wUnits { wUnit with leaseExpired := true, st := .boundary }).unit 0).leaseExpired = true
      ∧ (let s := wBootKey (wUnits wUnit);
        (s.fld R.secKeystat F.secKeystat_mem_valid).testBit 0 = true ∧ ((performHeld s 0).unit 0).st = .run
          ∧ ((wUnits wUnit).fld R.secKeystat F.secKeystat_mem_valid).testBit 0 = false)
      ∧ ((wUnits (wBus 31)).unit 0).bus = [⟨31, 0xFFC0, List.replicate 64 7⟩] ∧ unitLaunch (wUnits (wBus 31)) 0 = some wUnits.wLaunch
      ∧ busServes (wUnits (wBus 31)) wUnits.wLaunch 0 = true
      ∧ (let l := { wUnits.wLaunch with mask := 3, busTurn := 0 };
        let s := { wState with units := (SMap.empty.set 0 (wBus 31)).set 1 (wBus 31), launches := SMap.empty.set 0 l };
        busServes s l 0 = false ∧ busServes s l 1 = true) := by
  decide +kernel

def wRecord : List Byte := leBytes 8 (1 + 2 ^ 32) ++ leBytes 8 0x20100008000 ++ leBytes 8 0 ++ leBytes 8 5 ++ leBytes 8 (1 + 10 * 2 ^ 32)
  ++ List.replicate 24 0
def wLaunching (st : UnitSt) (started : Bool) : State :=
  wBootKey { wState with launches := SMap.empty.set 9 { wUnits.wLaunch with started := started },
                         units := SMap.empty.set 0 { wUnit with st := st } }

theorem witness_LaunchesAndReservedOpcodes :
    (let r : CtxRings := ⟨some ⟨0x20100000000, 4, 3, 0⟩, none, none, 0, 0⟩;
      let s := { ((wState.setObj 3 1).setCtx 0 { wCtx with rings := SMap.empty.set 0 r }).setFld R.secKeystat F.secKeystat_mem_valid 0xFF with
        mem := Mem.writeN [] 0x20100000000 wRecord };
      ((s.ctxs.get? 0).bind fun x => x.rings.get? 0) = some r ∧ 0 < (s.obj 3).toNat ∧ s.issueStopped 0 = false
        ∧ launchOk s (readLaunch s 0 0 0x20100000000) = true)
      ∧ (∀ x ∈ [(UnitSt.idle, false), (.ended, true), (.run, true)], let s := wLaunching x.1 x.2;
        s.launches.rows = [(9, { wUnits.wLaunch with started := x.2 })] ∧ wUnits.wLaunch.mask = 2 ^ 0 ∧ (s.unit 0).st = x.1
          ∧ s.issueStopped 0 = false ∧ (s.fld R.secKeystat F.secKeystat_mem_valid).testBit wUnits.wLaunch.part = true
          ∧ (s.unit 0).disabled = false ∧ (x.1 = .idle → startable s 9 { wUnits.wLaunch with started := x.2 } = true
            ∧ launchServes s { wUnits.wLaunch with started := x.2 } = true))
      ∧ (let r : CtxRings := ⟨some ⟨0x20100000000, 4, 3, 0⟩, none, none, 0, 0⟩;
        let s := (wState.setObj 3 1).setCtx 0 { wCtx with rings := SMap.empty.set 0 r };
        launchOk s (readLaunch s 0 0 0x20100000000) = false)
      ∧ (wordReserved .s 0xFE000000 = true ∧ issueBlocked wState 0 (wState.tile 0) = false ∧ (wState.tile 0).asm = []
        ∧ (wState.tile 0).st = .run ∧ fetchHits wState 0 (wState.tile 0) = []
        ∧ stepWaiting (wState.tile 0) = false ∧ lineHeld (wState.tile 0) = true ∧ bundleBusy 0 (wState.tile 0) [decodeSlot .s 0xFE000000] = false)
      ∧ ((wLaunching .run true).unit 0).st = .run ∧ 0x33 ≤ 0xCC000000 / 2 ^ 26
      ∧ (∀ h ∈ (wLaunching .run true).held, h.1 ≠ 0)
      ∧ unitWordBad 0x04000000 = false ∧ ∃ v, unitWord 0 ⟨0, .none⟩ 0x04000000 (wLaunching .run true) = .next v := by
  refine ⟨by decide +kernel, by decide +kernel, by decide +kernel, by decide +kernel, by decide +kernel, by decide +kernel, by decide +kernel, by decide +kernel,
    _, rfl⟩

/-! ### Collectives -/

def wWords (code len handle amount : Nat) : List W64 := [BitVec.ofNat 64 code, BitVec.ofNat 64 (2 ^ 56 + 0x20100002000), BitVec.ofNat 64 (7 * 2 ^ 32 + len),
  BitVec.ofNat 64 (amount * 2 ^ 32 + handle)]
/-- A command; the handle names the peer p1 where the command has a peer, else object 5. -/
def wCollCmd (code len : Nat) : List W64 := wWords code len (if code = 3 ∨ code = 4 ∨ code = 6 then 0x4000 else 5) 1
def wRings : CtxRings := ⟨none, none, some ⟨0x20100000000, 4, 3, 0⟩, 0, 0⟩
def wStack : MergeStack := ⟨0, 256, 0, 0, SMap.empty⟩
/-- The ring of context 0 in p0 whose next command has the words given. -/
def wColl (w : List W64) (g : CollRing) : State :=
  { (wState.setObj 3 1).setCtx 0 { wCtx with rings := SMap.empty.set 0 wRings } with
    mem := Mem.writeN [] 0x20100000000 (w.flatMap fun x => leBytes 8 x.toNat), coll := SMap.empty.set 0 g }
def wLanding : Landing := ⟨7 * 8 + 8, 7, 256, List.replicate 256 0, true, 0⟩
def wStacked : CollRing := { CollRing.reset with merge := SMap.empty.set 0 wStack }

/-- With a landed message and a clear-to-send of tag 7. -/
def wFull : CollRing := { wStacked with landing := [{ wLanding with peer := State.peerKey (Handle.ofBits 0x4000) }],
                                        cts := [(State.peerKey (Handle.ofBits 0x4000), 7)] }

theorem witness_CollectiveCommands :
    (∀ x ∈ [(1, 256), (2, 256), (3, 256), (4, 256), (5, 256), (6, 256), (7, 0), (8, 0)], let w := wCollCmd x.1 x.2;
      let v := (wColl w wStacked).collLook 0 0;
      v.nextColl 0 0 = some (w, CollOp.ofWords w) ∧ (CollOp.ofWords w).clean = true ∧ (CollOp.ofWords w).code = x.1)
      ∧ (let w := wCollCmd 2 256; let v := (wColl w wStacked).collLook 0 0; let x := CollOp.ofWords w;
        State.mergeUse { v.collRing 0 with merge := (v.collRing 0).merge.erase 0 } + 15 * 256 ≤ 0x800000 ∧ State.pushOk (v.collRing 0) x = true
          ∧ v.resolve 0 x.win x.addr x.len .rd = some (.here 0x20100002000) ∧ v.answers 0 0x20100002000 256 = true
          ∧ v.statusAt 0x20100002000 256 = .ok ∧ v.waitsAt 0x20100002000 256 = false ∧ x.len = 256 ∧ x.stack = 0
          ∧ wStack.kind = x.kind ∧ wStack.len = x.len ∧ wStack.dim = x.dim
          ∧ v.collWaits 0 0 = false ∧ (v.resolve 0 x.win x.addr x.len .wr).isSome = true
          ∧ v.handleOk 0 x.handle = true ∧ (Handle.ofBits x.handle).remote = false
          ∧ (v.collRing 0).merge.get? 0 = some wStack)
      ∧ (∀ c ∈ [3, 6], let w := wCollCmd c 256; let v := (wColl w wFull).collLook 0 0;
        v.nextColl 0 0 = some (w, CollOp.ofWords w) ∧ (State.landed (v.collRing 0) (CollOp.ofWords w)).isSome = true
          ∧ State.pushOk (v.collRing 0) (CollOp.ofWords w) = true)
      ∧ (∀ x ∈ [(wFull, true), (wStacked, false)], let w := wCollCmd 4 256; let v := (wColl w x.1).collLook 0 0;
        v.nextColl 0 0 = some (w, CollOp.ofWords w) ∧ (v.collRing 0).cts.contains (State.peerKey (Handle.ofBits 0x4000), 7) = x.2)
      ∧ ∀ x ∈ [(2, false), (3, false), (5, false), (6, false), (4, true)],
        let m : CollCmd := ⟨wCollCmd x.1 256, SMap.empty.set 0 (List.replicate 256 0), x.2, 0⟩
        let s := wColl m.words { wStacked with cur := some m }
        (s.collRing 0).cur = some m ∧ s.collWaits 0 0 = false ∧ (CollOp.ofWords m.words).code = x.1
          ∧ s.resolve 0 1 0x20100002000 256 .wr = some (.here 0x20100002000) ∧ s.answers 0 0x20100002000 256 = true
          ∧ s.waitsAt 0x20100002000 256 = false ∧ (s.collRing 0).merge.get? 0 = some wStack
          ∧ (Handle.ofBits (CollOp.ofWords m.words).handle).remote = false := by
  decide +kernel
/-! ### The fabric -/

/-- Device 3 with its ports up and a peer table that gives context 0's ID on device 5. -/
def wFabric : State :=
  let s := (((wState.setFld R.plId F.plId_valid 1).setFld R.plId F.plId_device 3).setFld R.plCtl F.plCtl_enable 1).setFld
    (R.plPstat 0) F.plPstat_state 3;
  let t := (s.setFld (R.synOwn 0 0) F.synOwn_fabric 1).setCtx 0 { wCtx with fabric := true, peerTable := 0x20100004000 };
  { t with mem := Mem.writeN [] 0x20100004014 (leBytes 4 (2 ^ 31)) }

def wIn (addr : BitVec 44) (payload : List Byte) : Packet := ⟨3, 5, 0, 0, 0, addr, 63, 0, 1, payload⟩

theorem witness_FabricRequests :
    (∀ n ∈ [0, 1, 8, 4096], NextInOrder wFabric 0 (wIn 0x20100000000 (List.replicate n 0)) 0)
      ∧ (∀ x ∈ [((0x01 : BitVec 8), 64, Perm.rd), (0x03, 4096, .wr), (0x05, 8, .rw)], let k := { wIn 0x20100000000 [] with typ := x.1 };
        gate wFabric k x.2.1 x.2.2 false = .pass ∧ wFabric.answers 0 0x20100000000 x.2.1 = true
          ∧ wFabric.statusAt 0x20100000000 x.2.1 = .ok ∧ pktLeased wFabric k x.2.1 = false)
      ∧ gate wFabric { wIn 63 [] with typ := 0x07 } 0 .wr true = .pass
      ∧ (wFabric.setFld (R.partFence 0) F.partFence_fenced 1).fenced 0 = true
      ∧ wFabric.fenced 0 = false ∧ wFabric.ctxId 0 ≠ 1 := by
  unfold NextInOrder; decide +kernel

def wSent : FabReq := ⟨{ wIn 0 [] with dst := 5, src := 3 }, 0, .mem 7, 0, 0, true⟩
def wAwaits (kind : ReqKind) : State := { wFabric with
  fab := { wFabric.fab with out := [wSent] }, reqs := SMap.empty.set 7 { wReq kind false with dest := .peer 5 } }
def wCack : FabReq := ⟨{ wIn 0 [] with dst := 5, src := 3 }, 2, .coll 0 0 0, 0, 0, true⟩
def wPart : Landing := ⟨6 * 8, 7, 4, [1, 2], false, 0⟩

theorem witness_FabricAnswersAndMessages :
    (∀ k ∈ [ReqKind.load, .store, .atomic 9 true, .signal], let s := wAwaits k; let p := wIn 0x10000 [];
      NextInOrder s 0 p 1 ∧ p.addr.toNat / 2 ^ 16 % 8 = 1 ∧ s.reqs.get? 7 = some { wReq k false with dest := .peer 5 }
        ∧ (s.fab.out.find? fun f => f.pkt.dst == p.src && f.vc == 0 && f.pkt.seq.toNat == p.addr.toNat % 2 ^ 16 && f.sent) = some wSent)
      ∧ (let s := { wFabric with fab := { wFabric.fab with out := [wCack] }, coll := SMap.empty.set 0 { wStacked with
                      cur := some ⟨wWords 4 256 5 1, SMap.empty, true, 0⟩ } };
        let p := wIn 0x10000 [];
        NextInOrder s 0 p 1 ∧ ((s.collRing 0).cur.map fun m => (CollOp.ofWords m.words).code) = some 4
          ∧ (s.fab.out.find? fun f => f.pkt.dst == p.src && f.vc == 2 && f.pkt.seq.toNat == p.addr.toNat % 2 ^ 16 && f.sent) = some wCack)
      ∧ (let s := { wFabric with coll := SMap.empty.set 0 { wStacked with landing := [wPart] } };
        let p := { wIn 7 [3, 4] with operand := crc64 [1, 2, 3, 4] };
        NextInOrder s 0 p 2 ∧ s.ctxId 0 = p.ctx.toNat ∧ (s.ctxs.get? 0).isSome = true ∧ s.ctxSt 0 ≠ CtxSt.teardown
          ∧ (s.peerOf 0 5).isSome = true
          ∧ ((s.collRing 0).landing.find? fun x => x.peer == (5 + 1) * 8 && x.tag == 7 && !x.complete) = some wPart
          ∧ ([1, 2] ++ p.payload).length = wPart.len ∧ crc64 ([1, 2] ++ p.payload) = p.operand) := by
  unfold NextInOrder; decide +kernel

/-- A flit of sequence number `n` that acknowledges none, with the CRC-32 of its bytes, or damaged. -/
def wFlit (good : Bool) (n : Nat) : Flit :=
  let body := List.replicate 244 (0 : Byte)
  let crc := crc32 (leBytes 8 (2 ^ 27 + n) ++ body)
  ⟨BitVec.ofNat 64 (2 ^ 27 + n), body, BitVec.ofNat 32 (if good then crc else crc + 1), 0, 0⟩

theorem witness_FabricLinksAndPorts :
    (let s := wAwaits .load;
      (s.fab.out.find? fun g => g.pkt.dst == 5 && g.vc == 0 && g.pkt.seq == 0 && g.sent) = some wSent
        ∧ s.fab.lost.contains 5 = false ∧ wSent.tries < s.fld R.plCtl F.plCtl_retries
        ∧ { s with fab := { s.fab with lost := [5] } }.fab.lost.contains 5 = true ∧ s.reqs.get? 7 = some { wReq .load false with dest := .peer 5 })
      ∧ (wFabric.fab.out.find? fun g => g.pkt.dst == 5 && g.vc == 0 && g.pkt.seq == 0 && g.sent) = none
      ∧ (wFabric.portUp 0 = true ∧ wFabric.portUp 1 = false ∧ (wFlit true 0).body.length = 244)
      ∧ (flitGood (wFlit true 0) = true ∧ flitBits (wFlit true 0) 11 0 = (wFabric.link 0).rx ∧ (wFabric.link 0).queue = []
        ∧ flitGood (wFlit true 1) = true ∧ flitBits (wFlit true 1) 11 0 ≠ (wFabric.link 0).rx
        ∧ flitGood (wFlit false 0) = false ∧ flitGood (wFlit false 1) = false ∧ (wFabric.link 0).waiting = false
        ∧ ((wFabric.setLink 0 { Link.reset with waiting := true }).link 0).waiting = true)
      ∧ trainedWidth 0xF0 3 = some 2 ∧ trainedWidth 0 3 = none
      ∧ ((wFabric.setLink 0 { Link.reset with retry := [4, 5] }).link 0).retry.findIdx? (· == (5 : BitVec 12).toNat) = some 1
      ∧ (∀ n ∈ [2, 3], (wFabric.setFld (R.plPstat 23) F.plPstat_state n).fld (R.plPstat 23) F.plPstat_state = n) ∧ 23 < wFabric.ports
      ∧ (let s := ((wFabric.setFld (R.plPstat 23) F.plPstat_lanes_good 0xFF).setFld (R.plPstat 23) F.plPstat_width 3).setFld
          (R.plPstat 23) F.plPstat_state 3;
        s.fld (R.plPstat 23) F.plPstat_state = 3 ∧ (activeLanes (s.fld (R.plPstat 23) F.plPstat_lanes_good) (s.fld (R.plPstat 23) F.plPstat_width)).testBit 7 = true)
      ∧ ((wFabric.setReg R.plId 0).fld R.plId F.plId_valid = 0 ∧ (wFabric.setReg R.plId 0).portUp 0 = true
        ∧ wFabric.fab.departed.contains 0 = false ∧ wFabric.hasId = true ∧ (wFabric.setReg R.plId 0).hasId = false)
      ∧ (wFabric.fld R.plId F.plId_valid = 1 ∧ (0x20 : BitVec 64).getLsbD 5 = true ∧ (3 : BitVec 12).toNat = wFabric.localDev)
      ∧ (let s := (wFabric.setFld R.plTickctl F.plTickctl_parent 0); tickParent s = some 0 ∧ tickParent (s.setReg (R.plPstat 0) 0) = none
        ∧ ({ s with ticks := { s.ticks with probing := true } } : State).ticks.probing = true) := by
  decide +kernel

/-! ### Management commands -/

def wBoot : State := wFabric.setFld R.bootStatus F.bootStatus_ready 1
def wCmd (p : Path) (kind : BitVec 8) (i : BitVec 24) : Cmd := ⟨p, ⟨kind, i⟩, 1⟩
def wItem (off : Nat) (f : Fld) (x : Nat) : Item :=
  ⟨BitVec.ofNat 32 off, BitVec.ofNat 8 f.lo, BitVec.ofNat 8 (f.hi - f.lo), BitVec.ofNat 64 x⟩

theorem witness_ManagementResponses :
    (wCmd .tray 0 0).path = .tray ∧ (wCmd .host 0 0).path = .host := by decide

theorem witness_SettingsCommands :
    (Taken 0x0101 .both false (wCmd .host 0 0) wBoot ∧ Taken 0x040B .hostOnly false (wCmd .host 3 0) wBoot
        ∧ Taken 0x0007 .trayOnly false (wCmd .tray 0 0) wBoot)
      ∧ (∀ x ∈ [(R.tileStepctl 0, F.tileStepctl_hang_periods, 1, 15), (R.mxaSmooth 0, F.mxaSmooth_fill_max, 16, 256),
          (R.mxaSmooth 0, F.mxaSmooth_ramp_down, 64, 4096), (R.partKvctl 0, F.partKvctl_cold_wm, 0, 50),
          (R.capScrub 0, F.capScrub_period, 1, 168), (R.cruCtl 0 0, F.cruCtl_quantum, 50, 350), (R.bulkCtl 0, F.bulkCtl_mode, 0, 1),
          (R.bulkQctl 0 0, F.bulkQctl_rd, 1, 100), (R.plPctl 0, F.plPctl_width_max, 0, 3), (R.plTickctl, F.plTickctl_slip_q, 1, 1000),
          (R.plCtl, F.plCtl_rto, 10, 10000), (R.ctxShare 0, F.ctxShare_share, 1, 64), (R.partJbase 0, F.partJbase_size, 20, 36),
          (R.errBase 0, F.errBase_size, 16, 30), (R.errThresh 0, F.errThresh_row_ce, 1, 255), (R.partRecovctl 0, F.partRecovctl_loss_limit, 100, 6000),
          (R.capFarctl 0, F.capFarctl_share, 1, 15), (R.pwrPctl 0, F.pwrPctl_fmax, 20, 60), (R.plTickctl, F.plTickctl_role, 0, 2)],
        ∀ v ∈ [x.2.2.1, x.2.2.2], itemOk wBoot (wCmd .host 0 0) [⟨x.1, x.2.1, x.2.2.1, x.2.2.2⟩] (wItem x.1 x.2.1 v) = true
          ∧ itemOk wBoot (wCmd .host 0 0) [⟨x.1, x.2.1, x.2.2.1, x.2.2.2⟩] (wItem x.1 x.2.1 (x.2.2.2 + 1)) = false)
      ∧ (∀ x ∈ [(R.tileStepctl 0, F.tileStepctl_hang_periods, 15), (R.plTickctl, F.plTickctl_slip_q, 1000), (R.devTickper, F.devTickper_period, 2000),
          (R.devTickper, F.devTickper_period, 400000000), (R.pwrLimit, F.pwrLimit_tray, 800), (R.plTickctl, F.plTickctl_parent, 31)],
        let l := [wItem x.1 x.2.1 x.2.2]
        ∀ r ∈ (gatherItems l).rows, r.1 = x.1 ∧ regOk wBoot r.1 r.2.1 r.2.2 = true)
      ∧ (∀ l ∈ [[wItem (R.partJbase 1) F.partJbase_size 20, wItem (R.partJbase 1) F.partJbase_base 0x240000],
          [wItem (R.errBase 1) F.errBase_size 16, wItem (R.errBase 1) F.errBase_base 0x2400000]],
        ∀ r ∈ (gatherItems l).rows, regOk wBoot r.1 r.2.1 r.2.2 = true)
      ∧ farSumOk wBoot (gatherItems [wItem (R.capFarctl 0) F.capFarctl_share 15]) = true := by
  unfold Taken; decide +kernel

theorem witness_ReportsAndAttestation :
    (Taken 0x0001 .both true (wCmd .host 0 0) State.reset ∧ Taken 0x0301 .both true (wCmd .tray 0 0) wBoot
        ∧ Taken 0x0411 .hostOnly false (wCmd .host 0 0) wBoot)
      ∧ ((wCmd .host 2 2047).scope.kind = 2 ∧ (wCmd .host 2 2047).scope.index.toNat % 256 < wBoot.part.tilesPerPart)
      ∧ ({ wBoot with board := { wBoot.board with wrapKey := some 3 } } : State).board.wrapKey = some 3
      ∧ wBoot.board.restricted = false ∧ (List.replicate 32 (0 : Byte)).length = 32
      ∧ ({ wBoot with board := { wBoot.board with restricted := true } } : State).board.restricted = true := by
  unfold Taken; decide +kernel

/-! ### Contexts -/

/-- A context record of one tile and one code window (R454, R456). -/
def wRec : List Byte :=
  let w : List (Nat × Nat) := [(0, 1), (1, 2 ^ 16), (3, 0x20000000000), (4, 0x20100004000), (7, 1), (8, 1),
    (64, 2 ^ 63 + 2 ^ 53 + 2 ^ 51 + 4 * 2 ^ 48 + 0x20000000000), (65, 0x200FFFF0000)];
  (List.range 256).flatMap fun i => leBytes 8 ((w.find? fun x => x.1 == i).elim 0 (·.2))

/-- The device ready, tile 0 IDLE and no context. -/
def wEmpty : State :=
  let s := (wBoot.setTile 0 { Tile.reset with st := .idle }).setReg (R.synOwn 0 0) 0;
  { s with ctxs := SMap.empty, mem := Mem.writeN [] 0x20100010000 wRec, regs := s.regs.erase (R.ctxState 0) }

/-- Context 0 in a state. -/
def wCtxIn (st : Nat) : State := wBoot.setCtxSt 0 st
def wHost : Cmd := wCmd .host 3 0

set_option maxRecDepth 100000 in
theorem witness_ContextCommands :
    (Taken 0x0403 .hostOnly false wHost wEmpty ∧ recordAt wEmpty 0x20100010000 = (St.ok, wRec) ∧ orderOk 6 = true ∧ orderOk 14 = true
        ∧ maskOk wEmpty (recMask wRec) = true ∧ freeSlot wEmpty (recMask wRec) [] = some 0)
      ∧ (scopeCtx wHost = some 0 ∧ wHost.path = .host ∧ (wBoot.ctxs.get? 0).isSome = true ∧ wBoot.board.restricted = false)
      ∧ (∀ st ∈ [CtxSt.loading, CtxSt.ready, CtxSt.running, CtxSt.held, CtxSt.saved],
        (wCtxIn st).ctxSt 0 = st ∧ Taken 0x0404 .hostOnly false wHost (wCtxIn st))
      ∧ (wBoot.setFld R.hifLink F.hifLink_width 16).fld R.hifLink F.hifLink_width ≠ 0
      ∧ (let s := { wCtxIn CtxSt.ready with mem := Mem.writeN [] 0x20100020000 ((wRec.drop 0x200).take 512) };
        s.statusAt 0x20100020000 512 = .ok ∧ windowsOk s 0 1 [0] (fun w => s.bytesAt (0x20100020000 + 32 * w) 32) = true) := by
  unfold Taken; decide +kernel

def wLoaded : Ctx := Ctx.loading wRec 0 0 []

set_option maxRecDepth 100000 in
theorem witness_ContextEvents :
    (let s := (wEmpty.setCtx 0 wLoaded).setCtxSt 0 CtxSt.loading;
      s.ctxs.get? 0 = some wLoaded ∧ s.ctxSt 0 = CtxSt.loading ∧ loadChecks s 0 wLoaded = true ∧ wLoaded.startCmds = []
        ∧ (windowsOf (entryBytes wLoaded.record)).vals.all (clearedFor s 0) = true ∧ s.board.flowStop = false
        ∧ (windowsOf (entryBytes wLoaded.record)).vals.all
          (clearedFor { s with board := { s.board with unclean := [(0x2000000, 1)] } } 0) = false)
      ∧ (let x := { wLoaded with startCmds := [wHost] };
        let s := (wEmpty.setCtx 0 x).setCtxSt 0 CtxSt.loading;
        s.ctxs.get? 0 = some x ∧ s.ctxSt 0 = CtxSt.loading ∧ loadChecks s 0 x = true
          ∧ (windowsOf (entryBytes x.record)).vals.all (clearedFor s 0) = true)
      ∧ loadChecks (wCtxIn CtxSt.loading) 0 wLoaded = false
      ∧ (let s := wCtxIn CtxSt.teardown;
        s.ctxSt 0 = CtxSt.teardown ∧ ctxInflight s 0 = 0 ∧ fabricHeld s 0 = false ∧ s.engResets = []
          ∧ (s.ctxParts 0).any s.inReset = false ∧ s.ctxs.get? 0 = wBoot.ctxs.get? 0)
      ∧ 0 < ctxInflight { wCtxIn CtxSt.teardown with reqs := SMap.empty.set 7 (wReq .load false) } 0 := by
  decide +kernel

theorem witness_KeysAndAlarms :
    (let s := { wBoot with board := { wBoot.board with wrapKey := some 3, modelKeys := SMap.empty.set 15 (List.replicate 32 1) } };
      Taken 0x040C .hostOnly false (wCmd .host 1 0) s ∧ scopePart (wCmd .host 1 0) = some 0 ∧ s.board.wrapKey = some 3
        ∧ (0 : BitVec 64).toNat = s.board.wrapCount ∧ (15 : BitVec 8).toNat < 16 ∧ (List.replicate 1568 (0 : Byte)).length = 1568
        ∧ s.board.wrapUses < 65535 ∧ s.board.modelKeys.get? (0 / 64 * 16 + 15) = some (List.replicate 32 1)
        ∧ ((s.window 0 1).map fun w => w.kind) = some 1
        ∧ s.resolve 0 1 (s.localDev * 2 ^ 44 + 0x20100000000) 64 .rd = some (.here 0x20100000000)
        ∧ s.resolve 0 1 (s.localDev * 2 ^ 44 + 0x20100001000) 64 .wr = some (.here 0x20100001000)
        ∧ s.statusAt 0x20100000000 64 = .ok ∧ s.answers 0 0x20100001000 64 = true)
      ∧ levelsOk wBoot 0x3FF = true
      ∧ levelsOk ((wBoot.setFld R.secAlarmpol F.secAlarmpol_lock 1).setFld R.secAlarmpol F.secAlarmpol_levels 0x3FF) 0 = false
      ∧ (let l := [wItem R.secAlarmpol F.secAlarmpol_levels 0x3FF];
        Taken 0x040F .trayOnly false (wCmd .tray 0 0) wBoot ∧ (gatherItems l).rows = [(R.secAlarmpol, 0x3FF, 0x3FF)]
          ∧ l.all (itemOk wBoot (wCmd .tray 0 0) [⟨R.secAlarmpol, F.secAlarmpol_levels, 0, 0x3FF⟩]) = true)
      ∧ (let s := wBoot.setFld (R.partFence 0) F.partFence_fenced 1;
        Taken 0x0410 .trayOnly false (wCmd .tray 1 0) s ∧ s.members 0 = [0] ∧ s.fenced 0 = true)
      ∧ ∀ source ∈ [2, 4], (wBoot.setFld R.secAlarmpol F.secAlarmpol_levels 0).fld R.secAlarmpol F.secAlarmpol_levels / 4 ^ source % 4 = 0 := by
  unfold Taken; decide +kernel

/-- A topology image whose last word gives role 0, no parents and slip_q 1. -/
def wTimes : Nat := 31 * 2 ^ 57 + 31 * 2 ^ 52 + 2 ^ 36
def wTopology : State := { wBoot with mem := Mem.writeN [] (0x20100020000 + 8 * 4096) (leBytes 8 wTimes) }

theorem topology_below : Mem.Above 0x20100027FFF wTopology.mem := by unfold Mem.Above; decide +kernel

/-- Below its last word the image is zero. -/
theorem topology_words (a : Nat) (h : a + 8 ≤ 0x20100028000) : wTopology.load a 8 = 0 := by
  have z (i : Nat) (hi : i < 8) : wTopology.byteAt (a + i) = 0 := by
    unfold State.byteAt State.readByte
    split
    · rfl
    · exact Mem.read_above _ _ fun c hc => lt_of_le_of_lt (by omega) (topology_below c hc)
  have e : wTopology.bytesAt a 8 = List.replicate 8 0 :=
    List.ext_getElem (by simp [State.bytesAt]) fun i h1 _ => by
      simp only [State.bytesAt, List.getElem_map, List.getElem_range, List.getElem_replicate]
      exact z i (by simpa [State.bytesAt] using h1)
  rw [State.load, e]; decide

theorem witness_topology_words (d : Nat) (h : d < 4096) : bitsOf (wTopology.load (0x20100020000 + 8 * d) 8) 62 56 = 0 := by
  rw [topology_words _ (by omega)]; decide

theorem witness_FabricAndGroupCommands :
    (let s := wEmpty.setFld R.plCtl F.plCtl_enable 0; Taken 0x0303 .both false (wCmd .host 0 0) s ∧ s.fld R.plCtl F.plCtl_enable = 0)
      ∧ wEmpty.fld R.plCtl F.plCtl_enable = 1
      ∧ (wEmpty.fab.out = [] ∧ wEmpty.ctxs = SMap.empty ∧ scopePart (wCmd .host 1 7) = some 7)
      ∧ (scopePort wEmpty (wCmd .host 4 23) = some 23 ∧ wEmpty.ports = 24)
      ∧ scopeCtx (wCmd .host 3 511) = some 511 ∧ regOk wBoot (R.hifHreg 63) (BitVec.allOnes 64) 0xA8001 = true
      ∧ (let m : BitVec 64 := BitVec.ofNat 64 (2 ^ 64 - 2 ^ 36);
        wTopology.statusAt 0x20100020000 (8 * 4097) = .ok ∧ wTopology.load (0x20100020000 + 8 * 4096) 8 = wTimes
          ∧ regOk wTopology R.plTickctl m (BitVec.ofNat 64 wTimes &&& m) = true) := by
  unfold Taken; decide +kernel

/-! ### The code of a DRAM line (R304, R305) -/

/-- The generator of the code is x^8 + 255 x^7 + 11 x^6 + 81 x^5 + 54 x^4 + 239 x^3 + 173 x^2 + 200 x + 24. -/
theorem test_line_check : checkSymbols (List.replicate 70 0 ++ [1]) = [255, 11, 81, 54, 239, 173, 200, 24] := by decide +kernel

def lineWord : List Nat := let m := (List.range 66).map (3 * ·) ++ [1, 2, 3, 4, 5]; m ++ checkSymbols m

theorem test_line_decode :
    decodeLine lineWord = .good ∧ decodeLine (flipSymbol lineWord 17 0x5A) = .corrected lineWord
      ∧ (match decodeLine (flipSymbol lineWord 68 1) with | .uncorrectable a _ => a | _ => false) = true
      ∧ (match decodeLine (flipSymbol (flipSymbol lineWord 3 1) 77 9) with | .uncorrectable a _ => !a | _ => false) = true := by
  decide +kernel
/-! ### Memory upkeep, ticks, plans, revivals, resets -/

def wUpkeep : State := { wBoot with
  board := { wBoot.board with clearWait := [(0, 0x100800, true)], scrubs := SMap.empty.set 0x100800 (3, false), wayWait := [15] } }

/-- Region 0x100800 lies in cs0 of p0. -/
theorem witness_MemoryUpkeep :
    (Taken 0x0204 .both false (wCmd .host 1 0) wBoot ∧ regionOf wBoot 0 0x100800 = true ∧ wBoot.fld (R.capGenstat 0) F.capGenstat_busy = 0
        ∧ canClear wBoot 0x100800 = true ∧ scopePart (wCmd .host 1 0) = some 0 ∧ regionLeased wBoot 0x100800 = false
        ∧ wBoot.board.clearWait = [])
      ∧ (canClear (wLeased wBoot) 0x100800 = true ∧ regionLeased (wLeased wBoot) 0x100800 = true)
      ∧ (let s := wLeased { wUpkeep with gens := SMap.empty.set 0x100800 (4, 5) };
        s.board.scrubs.has 0x100800 = true ∧ regionHolder s 0x100800 [] = some 0 ∧ urgentPass s 0x100800 = true
          ∧ regionHolder (wLeased wUpkeep) 0x100800 [] = some 0 ∧ urgentPass (wLeased wUpkeep) 0x100800 = false)
      ∧ (unwindowed wEmpty 0x20100000000 0x201001FFFFF = true ∧ wEmpty.board.flash.mapRecs.length < 8190
        ∧ unwindowed wBoot 0x20100000000 0x201001FFFFF = false)
      ∧ canClear { wBoot with gens := SMap.empty.set 0x100800 (4, 5) } 0x100800 = false
      ∧ (let s := wUpkeep;
        s.board.clearWait.filter (·.1 == 0) = [(0, 0x100800, true)] ∧ canClear s 0x100800 = true
          ∧ regionLeased s 0x100800 = false ∧ (∀ l ∈ scrubbed s 0x100800, s.lineSt l = .ok)
          ∧ s.board.scrubs.get? 0x100800 = some (3, false) ∧ s.board.wayWait.contains 15 = true
          ∧ s.fld (R.scaWay 0 15) F.scaWay_kind ≠ 1 ∧ (s.setFld (R.scaWay 0 15) F.scaWay_kind 1).fld (R.scaWay 0 15) F.scaWay_kind = 1)
      ∧ (wBoot.isDram (0x100800 * 0x200000) = true ∧ wBoot.board.scrubs.has 0x100800 = false)
      ∧ (retireUnit wBoot (.region 0x100800)).isSome = true := by
  unfold Taken; decide +kernel

def wTick (role : Nat) : State :=
  let s := (wBoot.setFld R.plTickctl F.plTickctl_role role).setFld R.plTickctl F.plTickctl_parent 0;
  { s with ticks := { s.ticks with announced := some 7 } }

theorem witness_TickMessages :
    (∀ r ∈ [1, 2], let s := wBoot.setFld R.plTickctl F.plTickctl_role r; s.fld R.plTickctl F.plTickctl_role = r ∧ s.ticks.announced = none)
      ∧ (let s := wBoot.setFld R.plTickctl F.plTickctl_role 2;
        { s with ticks := { s.ticks with acting := true } }.ticks.acting = true)
      ∧ ((wTick 0).hasId = true ∧ isMaster (wTick 0) = false ∧ isMaster (wTick 1) = true
        ∧ ({ wTick 1 with ticks := { (wTick 1).ticks with decided := true, notReady := true } } : State).ticks.notReady = true)
      ∧ ((wIn 0 (List.replicate 16 0)).fits 0x20 = true ∧ tickParent (wTick 0) = some 0 ∧ (wTick 0).ticks.announced = some 7)
      ∧ (deviceReady (wTick 0) = false ∧ (wTick 0).fld R.plTickctl F.plTickctl_role ≠ 1 ∧ (wTick 0).ticks.sentNotReady = false)
      ∧ (deviceReady (wTick 1) = false ∧ (wTick 1).fld R.plTickctl F.plTickctl_role = 1 ∧ (wTick 1).ticks.notReady = false ∧ (wTick 1).ticks.decided = false)
      ∧ deviceReady { wTick 0 with ctxs := SMap.empty, tiles := SMap.empty.set 0 { wTile with st := .stepwait } } = true
      ∧ ((wIn 0 (leBytes 8 7)).fits 0x22 = true ∧ (wIn 0 (leBytes 8 7)).fits 0x21 = true ∧ (wTick 1).portUp 0 = true
        ∧ (wTick 1).ticks.announced = some (leVal (leBytes 8 7))) := by
  decide +kernel

def wReadyCtx : Ctx := { wCtx with appended := some SMap.empty }
def wBoundary : State := { wTick 1 with tiles := SMap.empty.set 0 { wTile with st := .stepwait }, ctxs := SMap.empty.set 0 wReadyCtx }

theorem witness_TickCommits :
    (wTick 1).ticks.announced = some 7 ∧ (wTick 1).shadow = SMap.empty ∧ (wTick 1).board.wayReady = []
      ∧ (wBoundary.ctxs = SMap.empty.set 0 wReadyCtx ∧ wBoundary.shadow = SMap.empty ∧ wBoundary.board.wayReady = []
        ∧ wBoundary.ticks.announced = some 7 ∧ wBoundary.ticks.missed = false ∧ wBoundary.ctxSt 0 = CtxSt.running
        ∧ wBoundary.reviving 0 = false ∧ wReadyCtx.deferred = none ∧ wReadyCtx.waiting = none ∧ wReadyCtx.appended.isSome = true
        ∧ ∀ t ∈ wReadyCtx.tiles, (wBoundary.tile t).st = .stepwait)
      ∧ ({ wTick 1 with ctxs := SMap.empty } : State).ctxs = SMap.empty := by
  decide +kernel
/-! ### Plans and the journal, revivals and recovery points -/

/-- Context 0 RUNNING with an empty plan for its step and a journal of 1 MiB; `size` 0 turns the journal off. -/
def wPlan : State := { (((wBoot.setFld (R.partJbase 0) F.partJbase_size 20).setFld (R.partJbase 0) F.partJbase_base 0x240000)) with
  ctxs := SMap.empty.set 0 wCtx }
def wPlanFull : State := (wPlan.setReg (R.partJhead 0) 0x100000).setFld (R.partJstat 0) F.partJstat_policy 0
def wQueueFull : State := (((wPlan.setFld (R.hifQbase 0) F.hifQbase_valid 1).setFld (R.hifQbase 0) F.hifQbase_k 0).setFld (R.hifCq 0)
  F.hifCq_prod 2)
def wPeers : State := { wPlan with ctxs := wBoot.ctxs }
def wIn0 : PlanIn := { tables := [], data := [], spans := [], done := [] }

theorem witness_PlansAndJournal :
    (∀ x ∈ [(wPlan, (true, true), ([] : List Nat)), (wPlanFull, (false, true), []), (wQueueFull, (true, false), []), (wPeers, (true, true), [5])],
        let s := foldLengths x.1 0
        x.1.ctxs = s.ctxs ∧ ∀ y ∈ s.ctxs.get? 0, y.folds = [] ∧ mayPlan s 0 y = true ∧ y.regen = none ∧ peersOf s 0 = x.2.2
          ∧ planRoom s 0 y (runPlan s y (nextPlan s 0 y) wIn0 (hostAsk s 0 y (nextPlan s 0 y) wIn0).1) = x.2.1)
      ∧ (∀ s ∈ [wPlan, wPlanFull, wQueueFull, wPeers], (s.ctxs.get? 0).isSome = true)
      ∧ (mayPlan (wPlan.setCtxSt 0 CtxSt.ready) 0 wCtx = false ∧ wCtx.planner.waiting = none ∧ wCtx.folds = []
        ∧ (peersOf wPeers 0).contains 5 = true)
      ∧ ((wPeers.setTile 0 { wTile with st := .stepwait }).ctxSt 0 = CtxSt.running ∧ wPeers.reviving 0 = false ∧ wCtx.appended = none)
      ∧ (jHead wPlanFull 0 = 0x100000 ∧ jTail wPlanFull 0 = 0 ∧ jTail (wPlanFull.setReg (R.partJtail 0) 256) 0 = 256)
      ∧ (let s := wBoot.setCtxSt 0 CtxSt.ready
        Taken 0x0503 .both false (wCmd .host 3 0) s ∧ scopeCtx (wCmd .host 3 0) = some 0 ∧ s.ctxSt 0 = CtxSt.ready
          ∧ (nextPlan s 0 wCtx).toNat ≤ 9 ∧ inCapacity s 0 0x20100000000 256 = true ∧ (s.ctxs.get? 0).isSome = true) := by
  unfold Taken; decide +kernel

def wRevive : State := { wPlan.setFld (R.ctxRevive 0) F.ctxRevive_state 1 with reqs := SMap.empty }
def wPoint : RecPoint := ⟨9, false, Planner.reset, []⟩
def wPointed : State := wPlan.setCtx 0 { wCtx with recPoint := some wPoint, lastPoint := some wPoint }
def wDeferred : State := wFabric.setCtx 0 { wCtx with deferred := some 5 }
def wHeard : State := wPeers.updCtx 0 fun x => { x with planner := { x.planner with waiting := some wIn0 } }

theorem witness_RevivalsAndRecovery :
    (wRevive.reviving 0 = true ∧ stageOneDone wRevive 0 = true ∧ engineBusy wRevive 0 = false ∧ (wRevive.ctxParts 0).any wRevive.inReset = false)
      ∧ stageOneDone { wRevive with reqs := SMap.empty.set 7 (wReq .load false) } 0 = false
      ∧ (wDeferred.fab.out = [] ∧ (wDeferred.ctxs.get? 0).map (·.deferred) = some (some 5)
        ∧ (Handle.ofBits 0x200A00C0).remote = true ∧ (Handle.ofBits 0x200A00C0).device = 5)
      ∧ ((wPointed.ctxs.get? 0).map fun x => (x.recPoint, x.lastPoint)) = some (some wPoint, some wPoint)
      ∧ (wPointed.ctxSt 0 = CtxSt.running ∧ Taken 0x0504 .both false (wCmd .host 3 0) wPointed)
      ∧ (((wHeard.ctxs.get? 0).map fun x => (x.planner.waiting.isSome, x.planner.heard.contains 5)) = some (true, false)
        ∧ (peersOf wHeard 0).contains 5 = true)
      ∧ (let s := ((wFabric.setFld (R.plPstat 0) F.plPstat_nbr_dev 5).setFld (R.plPstat 0) F.plPstat_state 2)
        (List.range s.part.ports).filter (fun j => s.fld (R.plPstat j) F.plPstat_nbr_dev == 5) = [0] ∧ s.portUp 0 = false) := by
  unfold Taken; decide +kernel
/-! ### Resets, sensors and power -/

def wReset (phase : Nat) : State := wBoot.setFld (R.partRststat 0) F.partRststat_phase phase
def wHung : State := wBoot.setTile 0 { wTile with notReady := 3, ctxValid := false }
def wEngine : State := { wBoot with engResets := [⟨0, 1, 0, 4⟩] }
def wBusyQueue : State := { wBoot with queues := SMap.empty.set 0 { Queue.reset with st := .run, fetched := [wCopy] } }

theorem witness_Resets :
    (wBoot.inReset 0 = false ∧ (wHung.tile 0).st = .run ∧ 0 < (wHung.tile 0).notReady ∧ (wHung.tile 0).ctxValid = false)
      ∧ (engineOf wBusyQueue 0 2 0 = true ∧ engineHolds wBusyQueue 0 2 0 = true ∧ onlyQuiesced wBusyQueue 0 2 0 = false)
      ∧ ((wEngine.engResets.find? fun y => y.part == 0 && y.kind == 1 && y.index == 0) = some ⟨0, 1, 0, 4⟩
        ∧ (wEngine.tile 0).st ≠ .save ∧ resetTest wEngine 1 0 = none ∧ wEngine.fld (R.mxaBist 0) F.mxaBist_result ≠ 3
        ∧ ((wEngine.setTile 0 { wTile with st := .save }).tile 0).st = .save
        ∧ (∀ b ∈ [false, true], (resetTest (wEngine.setTile 0 { wTile with st := .reset, bist := b, bistDue := true }) 1 0).isSome = true))
      ∧ 0 ∈ wBoot.tiles.keys
      ∧ (∀ n ∈ [1, 2, 3, 4, 5, 6, 7], (wReset n).fld (R.partRststat 0) F.partRststat_phase = n)
      ∧ (((wReset 5).setTile 0 { wTile with bist := true }).tile 0).bist = true
      ∧ (wBoot.board.repairs = [] ∧ wBoot.board.retireTiles = [] ∧ ({ wReset 7 with ctxs := SMap.empty } : State).fld (R.partRststat 0) F.partRststat_phase = 7)
      ∧ (∀ n ∈ [1, 2], (wBoot.setFld R.devRststat F.devRststat_phase n).fld R.devRststat F.devRststat_phase = n)
      ∧ ((wFabric.setFld R.devRststat F.devRststat_phase 2).fld R.bootStatus F.bootStatus_ready = 0)
      ∧ (Taken 0x0506 .both false (wCmd .tray 1 0) wBoot ∧ scopePart (wCmd .tray 1 0) = some 0 ∧ engineOf wBoot 0 7 79 = true
        ∧ wBoot.fld (R.errEngstat 0) F.errEngstat_result ≠ 1 ∧ engineCtxs wBoot 0 7 79 = []) := by
  unfold Taken; decide +kernel

/-- Every sensor usable at 25 °C (a valid bit and 100 quarters of a degree). -/
def wSense (l : List (Nat × Nat)) : State := l.foldl (fun s x => s.setReg (R.thmSens x.1) (BitVec.ofNat 64 (2 ^ 31 + x.2))) wBoot

theorem witness_SensorsAndHeat :
    (({ wBoot with board := { wBoot.board with hot := SMap.empty.set 5 2 } } : State).board.hot.getD 5 0 = 2 ∧ tripSensor 5 = true
        ∧ (460 : Int) ≤ (460 : BitVec 16).toInt)
      ∧ (wBoot.board.stuck.contains 0 = false ∧ ∀ e, e < 64 → wBoot.fld (R.thmSubst e) F.thmSubst_valid = 0)
      ∧ (∀ v ∈ [1, 2], let s := (wBoot.setFld (R.capStatus 0 0) F.capStatus_rate v)
        s.fld (R.capStatus 0 0) F.capStatus_rate = v ∧ stackDead s 0 = false ∧ s.anyAbove (stackSensors 0) 332 = false
          ∧ s.anyAbove (stackSensors 0) 372 = false)
      ∧ (∀ l : Fin 4, let s := wBoot.setFld (R.slcStatus 0) F.slcStatus_rate 0xFF
        bitsOf (s.fld (R.slcStatus 0) F.slcStatus_rate) (2 * l.val + 1) (2 * l.val) = 3
          ∧ mayFall s [(s.layersOf 0).getD l.val 0] 3 = true)
      ∧ (let s := wSense ((neighbours 0).map fun i => (i, 100)); 2 ≤ ((neighbours 0).filter s.sensUsable).length)
      ∧ (let s := wSense [(2688, 200), (2689, 100)]; paired 2688 = true ∧ s.sensUsable 2688 = true
        ∧ s.sensUsable (partnerOf 2688) = true ∧ 12 < s.reading 2688 - s.reading (partnerOf 2688))
      ∧ wBoot.tileCool 0 = true
      ∧ (let s := { wSense [(wBoot.diodeOf 0, 440)] with board := { wBoot.board with thermalGap := SMap.empty.set 0 1023 } }
        s.thermalGap 0 = 1023 ∧ s.heldGap 0 = 1023 ∧ s.tileHot 0 = true ∧ 0 ∈ tilesOf s 0)
      ∧ (let s := wBoot.setFld (R.capStatus 0 0) F.capStatus_quiesced 1
        s.region 0x20000000000 = .capacity 0 ∧ s.quiesced 0x20000000000 = true)
      ∧ ((0x8000000000000000 : W64).getLsbD 63 = true ∧ (neighbours 0).contains 0 = false) := by
  decide +kernel

theorem witness_PowerAndCoolant :
    clampOn wBoot = false ∧ clampOn { wBoot with board := { wBoot.board with undervolt := true } } = true
      ∧ ({ wBoot with board := { wBoot.board with pwrEn := true } } : State).board.pwrEn = true
      ∧ (wBoot.board.lost = false ∧ wBoot.board.flowStop = false ∧ wBoot.board.undervolt = false)
      ∧ ({ wBoot with board := { wBoot.board with flowStop := true, goodReports := 2 } } : State).board.goodReports = 2
      ∧ (∀ n ∈ [1, 32], (BitVec.ofNat 8 n).toNat < 33) ∧ (∀ n ∈ [33, 64], 33 ≤ (BitVec.ofNat 8 n).toNat) ∧ 65 ≤ (65 : BitVec 8).toNat
      ∧ (Taken 0x0005 .trayOnly false (wCmd .tray 0 0) wBoot ∧ bitsOf (0x8000000000000 : W64).toNat 63 51 ≠ 0
        ∧ bitsOf (0x501F400000088 : W64).toNat 63 48 = 5 ∧ 136 ≤ ((0x501F400000088 : W64).extractLsb' 0 16).toInt
        ∧ 500 ≤ bitsOf (0x501F400000088 : W64).toNat 47 32) := by
  unfold Taken; decide +kernel

/-! ### Registers, the host link, firmware, starts, clocks -/

theorem witness_RegisterAccesses :
    (RegTab.find 0x00FFFFF8 = none ∧ plainWord 0x00FFFFF8 = false ∧ pendingWord 0x00FFFFF8 = false ∧ 0x00FFFFF8 % 8 = 0)
      ∧ ((RegTab.find R.devTickper).any (fun d => d.1.base == R.devTickper && d.2 == []
          && !absentUnit wBoot d.1.base d.2 && accMask d.1.fields (· == .rc) == 0
          && (specialWrite wBoot .controller R.devTickper d.1 d.2 4000 (BitVec.allOnes 64)).isNone
          && !(d.1.fields.any (fieldBad 4000 (BitVec.allOnes 64))) && !valueBad wBoot .controller d.1.base d.2 (wBoot.reg R.devTickper) 4000
          && d.1.fields.any (fieldBad 1 (BitVec.allOnes 64))
          && (specialWrite wBoot .controller R.devTickper d.1 d.2 1 (BitVec.allOnes 64)).isNone) = true
        ∧ R.devTickper % 8 = 0 ∧ plainWord R.devTickper = false ∧ pendingWord R.devTickper = false)
      ∧ (RegTab.find (R.plPctl 23)).any (fun d => absentUnit { wBoot with part := { wBoot.part with assembly := 2 } } d.1.base d.2) = true
      ∧ (bitsOf (0xC501 : W64).toNat 15 8 = 0xC5 ∧ bitsOf (0xC501 : W64).toNat 1 0 = 1 ∧ bitsOf (1 : W64).toNat 15 8 ≠ 0xC5)
      ∧ meterOk wBoot 0x0A000801 = true ∧ meterOk wBoot 0x09000801 = false
      ∧ (wBoot.setFld R.clkMeter F.clkMeter_busy 1).fld R.clkMeter F.clkMeter_busy = 1
      ∧ (∀ st ∈ [TileSt.reset, .idle, .run], ((wBoot.setTile 0 { wTile with st := st }).tile 0).st = st) ∧ 0 % 256 < wBoot.part.tilesPerPart
      ∧ (wBoot.tile 0).st = .run := by
  decide +kernel

theorem witness_HostAccesses :
    let s := (((wBoot.setFld R.hifLink F.hifLink_width 16).setFld (R.hifSeg 0) F.hifSeg_base (0x20100000000 / 2 ^ 26)).setFld (R.hifSeg 0)
      F.hifSeg_valid 1).setFld (R.hifSeg 0) F.hifSeg_wr 1
    (hostReach s = true ∧ bar2Place s 0 8 false = (0x20100000000, none) ∧ bar2Leased s 0x20100000000 8 = false
        ∧ s.statusAt 0x20100000000 8 = .ok ∧ bar2Place s 0 8 true = (0x20100000000, none))
      ∧ (hostReach (wLeased s) = true ∧ bar2Leased (wLeased s) 0x20100000000 8 = true
        ∧ bar2Place (wLeased s) 0 8 false = (0x20100000000, none) ∧ bar2Place (wLeased s) 0 8 true = (0x20100000000, none))
      ∧ (bar2Place (s.setFld (R.hifSeg 0) F.hifSeg_base (0x7F000000000 / 2 ^ 26)) 0 8 false).2.isSome = true
      ∧ (let q := { wReq .load false with dest := .host 0 }
        ({ s with reqs := SMap.empty.set 7 q } : State).reqs.get? 7 = some q)
      ∧ (s.fld R.hifLink F.hifLink_width ≠ 0 ∧ ({ s with ctxs := SMap.empty } : State).queues = SMap.empty)
      ∧ (let s := { wBoot with board := { wBoot.board with perst := false } }
        s.board.perst = false ∧ s.fld R.hifLink F.hifLink_width = 0 ∧ s.board.aux = true) := by
  decide +kernel
def wFirm (st : Nat) (f : Flash) : State :=
  let s := wBoot.setFld R.mgtFwstat F.mgtFwstat_state st;
  { s with board := { s.board with flash := f } }
def wOrder : Flash := { Flash.reset with order := [0x20], matrix := ([1, 2, 3, 4] : List Nat).flatMap fun j => ([1, 2, 3, 4] : List Nat).map fun k => ⟨j, 0, k, 0⟩ }
def wActive (l : List Nat) : State := { wBoot with board := { wBoot.board with activating := l } }

theorem witness_FirmwareUpdates :
    (∀ n ∈ [0, 1, 2, 3, 4, 5], fwState (wFirm n Flash.reset) = n)
      ∧ (combinations wOrder).all (allowed wOrder) = true ∧ wOrder.order ≠ []
      ∧ (combinations { wOrder with matrix := [] }).all (allowed { wOrder with matrix := [] }) = false
      ∧ ((wActive [0x20]).board.activating = [0x20] ∧ (servedBy (wActive [0x20]) 0x20).any (fun k => wBoot.ctxSt k == CtxSt.running) = true
        ∧ (servedBy { wActive [0x20] with ctxs := SMap.empty } 0x20) = [] ∧ (wActive [0x20]).board.activated = [])
      ∧ Taken 0x0003 .both false (wCmd .tray 0 0) (wFirm 4 Flash.reset) := by
  unfold Taken; decide +kernel

theorem witness_FirmwareChunks : (∀ l ∈ [[digest [1]], [[]]], fwState (wFirm 1 { Flash.reset with digests := l }) = 1) ∧ ({ Flash.reset with digests := [digest [1]] } : Flash).digests[(1 : BitVec 16).toNat - 1]? = some (digest [1])
    ∧ ({ Flash.reset with digests := [[]] } : Flash).digests[(1 : BitVec 16).toNat - 1]? ≠ some (digest [1]) :=
  ⟨by decide +kernel, rfl, by decide +kernel⟩

def wStep (n : Nat) : State := wFabric.setFld R.bootStatus F.bootStatus_step n
def wBoard (f : Board → Board) (s : State) : State := { s with board := f s.board }

theorem witness_Starts :
    ((wBoard (fun b => { b with settling := true }) State.reset).board.settling = true ∧ State.reset.part.trip = false)
      ∧ (∀ n ∈ [1, 2, 3, 4, 5, 6, 7, 8, 9, 11, 12], (wStep n).starting = true ∧ (wStep n).fld R.bootStatus F.bootStatus_step = n)
      ∧ (∀ r ∈ [true, false], let s := wBoard (fun b => { b with restart := r, retry := r }) (wStep 4)
        s.board.restart = r ∧ s.board.retry = r ∧ s.board.flash.mapValid = true ∧ s.board.flash.matrix = [] ∧ s.board.lanes = []
          ∧ (∀ x ∈ s.board.flash.mapRecs, x.typ ≠ 3) ∧ s.board.arrayTests = [])
      ∧ ((wStep 10).starting = true ∧ (wStep 10).tiles.vals.any (·.bist) = false ∧ (wStep 3).part.dieSite 7 5 = true
        ∧ (wStep 3).part.dieSite 0 10 = true ∧ allowed wOrder [0, 0, 0, 0] = true)
      ∧ (let c : MapCopy := ⟨false, 0, []⟩;
        let s := wBoard (fun b => { b with flash := { b.flash with mapA := c, mapB := c } }) (wStep 4)
        (readCopy s s.board.flash.mapA []).valid = false ∧ (readCopy s s.board.flash.mapB []).valid = false)
      ∧ (∀ w ∈ [0, 7, 8], (wBoard (fun b => { b with wave := w }) (wStep 8)).board.wave = w)
      ∧ ((wFabric.setFld R.devRststat F.devRststat_phase 2).fld R.devRststat F.devRststat_phase = 2
        ∧ (wFabric.setFld R.devRststat F.devRststat_phase 2).fld R.bootStatus F.bootStatus_ready = 0)
      ∧ ((State.reset.tile 2047).st = .reset ∨ (wFabric.setTile 2047 { wTile with st := .reset }).tile 2047 = { wTile with st := .reset })
      ∧ (∀ n ∈ [2, 3], (wBoard (fun b => { b with fwResend := SMap.empty.set 5 n }) (wStep 9)).board.fwResend.getD 5 0 = n) := by
  decide +kernel

theorem witness_ClocksAndSupplies :
    (State.reset.board.aux = true ∧ State.reset.board.pwrEn = false ∧ State.reset.board.powerFault = false
        ∧ State.reset.fld R.mgtPins F.mgtPins_flow_fault = 0 ∧ State.reset.board.settled = false)
      ∧ (let s := wBoard (fun b => { b with pwrEn := true, input := true, settled := true, aux := false }) wBoot
        s.board.pwrEn = true ∧ s.board.input = true ∧ s.board.settled = true ∧ s.board.aux = false
          ∧ s.fld R.bootStatus F.bootStatus_ready ≠ 0)
      ∧ wBoot.stackOn 0 = true
      ∧ (∀ m : Fin 16, ((wBoot.setFld (R.nocEdge 0) F.nocEdge_module_good 0xFFFF).fld (R.nocEdge 0) F.nocEdge_module_good).testBit m.val = true)
      ∧ ∀ n ∈ [15, 16], (wBoard (fun b => { b with d2dFails := SMap.empty.set 0 n }) wBoot).board.d2dFails.getD (0 * 16 + 0) 0 = n := by
  decide +kernel

/-! ### Statements over values -/

theorem witness_MaximaAndMinima :
    Fp.dec 0x7FC00000 = .nan ∧ Fp.dec 0x3F800000 ≠ .nan ∧ (0x3F800000 : W32).extractLsb' 23 8 ≠ 0
      ∧ (Fp.fmax 0 0x80000000, Fp.fmin 0 0x80000000) = (0, 0x80000000) := by decide +kernel

theorem witness_ChannelLocalAddresses :
    ∀ c : Fin 32, ∀ l ∈ [0, 4095, 4096, 2 ^ 31 - 1], let x := l / 2 ^ 12 * 2 ^ 17 + c.val * 2 ^ 12 + l % 2 ^ 12
      l < 2 ^ 31 ∧ x < 2 ^ 36 ∧ x / 2 ^ 12 % 32 = c.val ∧ deviceAddr 0 c.val l = capBase 0 + x := by decide +kernel

theorem witness_RepeatedRecords : (State.reset.ring 0).waiting = [] ∧ (State.reset.ring 0).last = none := by decide


end Sys2Proof.Tests
end

section
/-! Fields of one register beside each other, and updates that touch named registers only. -/

namespace Sys2Proof.Machine

/-- A field that lies beside the one written keeps its value. -/
theorem bitsOf_setBitsOf_beside (x hi lo v h l : Nat) (hl : lo ≤ hi) (beside : h < lo ∨ hi < l) :
    bitsOf (setBitsOf x hi lo v) h l = bitsOf x h l := by
  unfold bitsOf setBitsOf
  obtain ⟨w, hw⟩ : ∃ w, hi + 1 = lo + w := ⟨hi + 1 - lo, by omega⟩
  rw [hw, Nat.add_sub_cancel_left]
  rcases beside with below | above
  · -- both values agree modulo `2 ^ lo`, and the field lies in those bits
    have low (y : Nat) : y / 2 ^ l % 2 ^ (h + 1 - l) = y % 2 ^ lo / 2 ^ l % 2 ^ (h + 1 - l) := by
      rcases Nat.lt_or_ge (h + 1) l with none | some
      · simp [Nat.sub_eq_zero_of_le none.le, Nat.mod_one]
      · rw [← Nat.mod_mul_right_div_self, ← Nat.mod_mul_right_div_self, ← pow_add, Nat.add_sub_cancel' some,
          Nat.mod_mod_of_dvd _ (pow_dvd_pow 2 below)]
    rw [low, low x]
    congr 2
    rw [show x % 2 ^ lo + v % 2 ^ w * 2 ^ lo + x / 2 ^ (lo + w) * 2 ^ (lo + w)
        = x % 2 ^ lo + 2 ^ lo * (v % 2 ^ w + 2 ^ w * (x / 2 ^ (lo + w))) by rw [pow_add]; ring,
      Nat.add_mul_mod_self_left, Nat.mod_mod]
  · -- what lies above the field written is `x / 2 ^ (hi + 1)` in both
    obtain ⟨u, rfl⟩ : ∃ u, l = lo + w + u := ⟨l - (lo + w), by omega⟩
    have fits : x % 2 ^ lo + v % 2 ^ w * 2 ^ lo < 2 ^ (lo + w) := by
      have h1 : x % 2 ^ lo < 2 ^ lo := Nat.mod_lt _ (Nat.two_pow_pos lo)
      have h2 : v % 2 ^ w < 2 ^ w := Nat.mod_lt _ (Nat.two_pow_pos w)
      rw [pow_add]; nlinarith [Nat.two_pow_pos lo]
    rw [pow_add 2 (lo + w) u, ← Nat.div_div_eq_div_mul, ← Nat.div_div_eq_div_mul,
      Nat.add_mul_div_right _ _ (Nat.two_pow_pos _), Nat.div_eq_of_lt fits, Nat.zero_add]

namespace State

/-- A field beside the one written, in the same register. -/
theorem fld_setFld_beside (s : State) (r : Nat) (f g : Fld) (v : Nat) (hf : f.lo ≤ f.hi ∧ f.hi < 64)
    (beside : g.hi < f.lo ∨ f.hi < g.lo) : (s.setFld r f v).fld r g = s.fld r g := by
  simp only [setFld, fld, reg_setReg, BitVec.toNat_ofNat]
  rw [Nat.mod_eq_of_lt (setBitsOf_lt _ _ _ _ (s.reg r).isLt hf), bitsOf_setBitsOf_beside _ _ _ _ _ _ hf.1 beside]

theorem reg_setFld_ne (s : State) (r q : Nat) (f : Fld) (v : Nat) (h : q ≠ r) : (s.setFld r f v).reg q = s.reg q :=
  reg_setReg_ne s r q _ h

end State

theorem onlyRegs_refl (s : State) (l : List Nat) : OnlyRegs s s l := ⟨rfl, fun _ _ => rfl⟩

/-- One more field of a register of the list. -/
theorem OnlyRegs.setFld {s u : State} {l : List Nat} (h : OnlyRegs s u l) (r : Nat) (f : Fld) (v : Nat) (hr : r ∈ l) :
    OnlyRegs s (u.setFld r f v) l := by
  obtain ⟨same, regs⟩ := h
  refine ⟨?_, fun q hq => ?_⟩
  · rw [same]; rfl
  · rw [State.reg_setFld_ne _ _ _ _ _ (ne_of_mem_of_not_mem hr hq).symm, regs q hq]

end Sys2Proof.Machine
end

section
/-! O53. Whole-register accesses (8 bytes, aligned) in terms of the register found at the offset, and the registers with an effect
of their own. -/

namespace Sys2Proof.Machine

/-! ### Reads and writes of a whole register -/

section Whole

variable (s : State) (path : RegPath) (off : Nat) (v : W64)

theorem accessOk_eight (h : off % 8 = 0) : accessOk off 8 = true := by simp [accessOk, h]

theorem accessMask_eight : accessMask off 8 = BitVec.allOnes 64 := rfl

theorem base_of_aligned (h : off % 8 = 0) : off / 8 * 8 = off := by omega

theorem writeBad_whole (d : RegDef) (idx : List Nat) : writeBad s path off d idx v (BitVec.allOnes 64)
    = (absentUnit s d.base idx || d.fields.any (fieldBad v (BitVec.allOnes 64)) || valueBad s path d.base idx (s.reg off) v) := by
  simp [-BitVec.reduceAllOnes, writeBad, written]

theorem regRead_unused (h : off % 8 = 0) (unused : RegTab.find off = none) (hw : plainWord off = false)
    (hp : pendingWord off = false) : regRead s path off 8 = (BitVec.allOnes 64, s) := by
  simp [-BitVec.reduceAllOnes, regRead, readReg, accessOk_eight, base_of_aligned, h, unused, hw, hp]

/-- A read without RC fields returns what the register shows outside its write-only fields, and leaves it as it is. -/
theorem regRead_shown (d : RegDef) (idx : List Nat) (h : off % 8 = 0) (found : RegTab.find off = some (d, idx))
    (hw : plainWord off = false) (hp : pendingWord off = false) (present : absentUnit s d.base idx = false)
    (hrc : accMask d.fields (· == .rc) = 0) :
    regRead s path off 8 = (regView s off d.base idx &&& ~~~(accMask d.fields (· == .wo)), s.draw.2) := by
  simp [-BitVec.reduceAllOnes, regRead, readReg, accessOk_eight, base_of_aligned, h, found, hw, hp, present, hrc,
    accessMask_eight]

theorem regWrite_absent (d : RegDef) (idx : List Nat) (h : off % 8 = 0) (found : RegTab.find off = some (d, idx))
    (absent : absentUnit s d.base idx = true) : regWrite s path off 8 v = rejectReg s path off true (regPart d.base idx) := by
  simp [regWrite, accessOk_eight, base_of_aligned, h, found, absent]

/-- A write of a register without an effect of its own: rejected whole, or applied by access code and marked. -/
theorem regWrite_plain (d : RegDef) (idx : List Nat) (h : off % 8 = 0) (found : RegTab.find off = some (d, idx))
    (present : absentUnit s d.base idx = false) (plain : specialWrite s path off d idx v (BitVec.allOnes 64) = none) :
    regWrite s path off 8 v =
      if writeBad s path off d idx v (BitVec.allOnes 64) then rejectReg s path off true (regPart d.base idx)
      else markLevel (afterWrite (applyFields s off d v (BitVec.allOnes 64)) d.base idx v (BitVec.allOnes 64)) off
        (pathLevel path) (BitVec.allOnes 64) := by
  cases bad : writeBad s path off d idx v (BitVec.allOnes 64) <;>
    simp [-BitVec.reduceAllOnes, regWrite, writeReg, accessOk_eight, base_of_aligned, h, found, present, plain,
      accessMask_eight, bad]

/-- A write of a register with an effect of its own that is not rejected before it. -/
theorem regWrite_special (d : RegDef) (idx : List Nat) (u : State) (h : off % 8 = 0) (found : RegTab.find off = some (d, idx))
    (present : absentUnit s d.base idx = false) (special : specialWrite s path off d idx v (BitVec.allOnes 64) = some u)
    (good : specialBad s off d idx v (BitVec.allOnes 64) = false) :
    regWrite s path off 8 v = markLevel u off (pathLevel path) (BitVec.allOnes 64) := by
  simp [-BitVec.reduceAllOnes, regWrite, accessOk_eight, base_of_aligned, h, found, present, special, accessMask_eight, good]

theorem registerRead_runs (off : BitVec 28) {x : W64} {t : State} (h : regRead s path off.toNat 8 = (x, t)) :
    Runs (.registerRead path off 8) s fun u => u = t.emit (.regValue x) :=
  ⟨_, rfl, congrArg (fun y : W64 × State => y.2.emit (.regValue y.1)) h⟩

theorem registerWrite_runs (off : BitVec 28) {t : State} (h : regWrite s path off.toNat 8 v = t) :
    Runs (.registerWrite path off 8 v) s fun u => u = t :=
  ⟨_, rfl, h⟩

end Whole

/-! ### DEV.RESET (R546) -/

/-- The row of DEV.RESET in the register table. -/
def devResetDef : RegDef := ⟨"DEV.RESET", R.devReset, [], [⟨15, 8, .wo, 0, none⟩, ⟨1, 0, .wo, 0, none⟩]⟩

theorem find_devReset : RegTab.find R.devReset = some (devResetDef, []) := by decide +kernel

/-- DEV.RESET holds no setting: its fields are write-only. -/
theorem markLevel_devReset (s : State) (level : Nat) (m : W64) : markLevel s R.devReset level m = s := by
  rw [markLevel, find_devReset]
  simp [devResetDef]

theorem absentUnit_devReset (s : State) : absentUnit s devResetDef.base [] = false := rfl

theorem specialWrite_devReset (s : State) (path : RegPath) (v : W64) :
    specialWrite s path R.devReset devResetDef [] v (BitVec.allOnes 64)
      = some (keyedReset s path R.devReset none v (·.startChipReset 1)) := rfl

theorem specialBad_devReset (s : State) (v m : W64) : specialBad s R.devReset devResetDef [] v m = false := rfl

theorem regWrite_devReset (s : State) (path : RegPath) (v : W64) :
    regWrite s path R.devReset 8 v = keyedReset s path R.devReset none v (·.startChipReset 1) := by
  rw [regWrite_special s path R.devReset v devResetDef [] _ rfl find_devReset (absentUnit_devReset s)
    (specialWrite_devReset s path v) (specialBad_devReset s v _), markLevel_devReset]

/-! ### Requests to objects, and the rings of the host link -/

/-- An update of an object by the register path travels to the object's base die as a request; no object changes yet. -/
theorem pathUpdate_sends (s : State) (k : ReqKind) (p i : Nat) (x : W64) :
    (pathUpdate s k p i x).nextReq = s.nextReq + 1 ∧ (pathUpdate s k p i x).objs = s.objs
      ∧ ((pathUpdate s k p i x).reqs.get? s.nextReq).map (fun r => (r.kind, r.addr, r.data))
        = some (k, p * 16384 + i, x) := by
  refine ⟨rfl, rfl, ?_⟩
  simp [pathUpdate, State.objKey]

/-- The end of a hold changes the context and, of the registers, CTX.STATE. -/
theorem unhold_frame (s : State) (c : Nat) (why : HoldWhy) :
    (s.unhold c why).mem = s.mem ∧ ∀ r, r ≠ R.ctxState c → (s.unhold c why).reg r = s.reg r := by
  unfold State.unhold
  split
  · exact ⟨rfl, fun _ _ => rfl⟩
  · dsimp only
    split
    · exact ⟨rfl, fun r hr => State.reg_setFld_ne _ _ _ _ _ hr⟩
    · exact ⟨rfl, fun _ _ => rfl⟩

theorem fld_of_reg_eq {s u : State} {r : Nat} (h : u.reg r = s.reg r) (f : Fld) : u.fld r f = s.fld r f := by
  rw [State.fld, h, State.fld]

/-- The consumer index of a completion ring is what the driver wrote, and the end of the hold for room leaves memory. -/
theorem hifCqConsWrite_effect (s : State) (c : CtxId) (n : BitVec 32) :
    Runs (.hifCqConsWrite c n) s fun u => u.fld (R.hifCq c.val) F.hifCq_cons = n.toNat ∧ u.mem = s.mem := by
  obtain ⟨mem, regs⟩ := unhold_frame (s.setFld (R.hifCq c.val) F.hifCq_cons n.toNat) c.val .queueRoom
  have other : R.hifCq c.val ≠ R.ctxState c.val := by
    have hc := c.isLt
    simp only [R.hifCq, R.ctxState]; omega
  refine ⟨_, rfl, ?_, mem.trans rfl⟩
  rw [fld_of_reg_eq (regs _ other), State.fld_setFld _ _ _ _ (by decide)]
  exact Nat.mod_eq_of_lt n.isLt

/-- The producer index of a request ring moves when the ring has room for it, and is rejected otherwise. -/
theorem hifRqProdWrite_effect (s : State) (path : RegPath) (c : CtxId) (n : BitVec 32) :
    let ahead := (n.toNat + 2 ^ 32 - s.fld (R.hifRq c.val) F.hifRq_cons) % 2 ^ 32
    Runs (.hifRqProdWrite path c n) s fun u =>
      (2 ^ s.fld (R.hifQbase c.val) F.hifQbase_k < ahead → u = rejectReg s path (R.hifRq c.val) true none)
        ∧ (ahead ≤ 2 ^ s.fld (R.hifQbase c.val) F.hifQbase_k → u = s.setFld (R.hifRq c.val) F.hifRq_prod n.toNat) :=
  ⟨_, rfl, fun full => if_pos full, fun room => if_neg (Nat.not_lt.2 room)⟩

/-! ### The clock meter (R590) -/

theorem clkMeterStart_runs (s : State) (path : RegPath) (v : W64) (ok : meterOk s (v ||| 1) = true) :
    Runs (.clkMeterStart path v) s fun u => u.fld R.clkMeter F.clkMeter_busy = 1
      ∧ u.fld R.clkMetercnt F.clkMetercnt_valid = 0 ∧ OnlyRegs s u [R.clkMeter, R.clkMetercnt] := by
  refine ⟨_, rfl, ?_⟩
  simp only [startMeter, BitVec.not_allOnes, BitVec.and_zero, BitVec.zero_or, ok, Bool.true_eq_false, if_false]
  refine ⟨?_, ?_, ?_⟩
  · rw [State.fld_setFld_ne _ _ _ _ _ _ (by decide), State.fld_setFld _ _ _ _ (by decide)]
    rfl
  · rw [State.fld_setFld _ _ _ _ (by decide)]
    rfl
  · exact (onlyRegs_refl s _).setFld _ _ _ (by simp) |>.setFld _ _ _ (by simp) |>.setFld _ _ _ (by simp)
      |>.setFld _ _ _ (by simp) |>.setFld _ _ _ (by simp)

theorem clkMeterStart_rejected (s : State) (path : RegPath) (v : W64) (bad : meterOk s (v ||| 1) = false) :
    Runs (.clkMeterStart path v) s fun u => u = rejectReg s path R.clkMeter true none := by
  refine ⟨_, rfl, ?_⟩
  simp only [startMeter, BitVec.not_allOnes, BitVec.and_zero, BitVec.zero_or, bad, if_true]

theorem meterComplete_effect (s : State) (n : BitVec 40) (busy : s.fld R.clkMeter F.clkMeter_busy = 1) :
    Runs (.meterComplete n) s fun u => u.fld R.clkMeter F.clkMeter_busy = 0
      ∧ u.fld R.clkMetercnt F.clkMetercnt_count = n.toNat ∧ u.fld R.clkMetercnt F.clkMetercnt_valid = 1
      ∧ OnlyRegs s u [R.clkMeter, R.clkMetercnt] := by
  refine ⟨_, rfl, ?_⟩
  rw [if_pos busy]
  refine ⟨?_, ?_, ?_, ?_⟩
  · rw [State.fld_setFld_ne _ _ _ _ _ _ (by decide), State.fld_setFld_ne _ _ _ _ _ _ (by decide),
      State.fld_setFld _ _ _ _ (by decide)]
    rfl
  · rw [State.fld_setFld_beside _ _ _ _ _ (by decide) (by decide), State.fld_setFld _ _ _ _ (by decide)]
    exact Nat.mod_eq_of_lt n.isLt
  · rw [State.fld_setFld _ _ _ _ (by decide)]
    rfl
  · exact (onlyRegs_refl s _).setFld _ _ _ (by simp) |>.setFld _ _ _ (by simp) |>.setFld _ _ _ (by simp)

/-! ### The array test (R116, R117) -/

theorem startBist_eq (s : State) (t : Nat) (p : BitVec 4) : startBist s t p
    = ((s.setFld (R.mxaBist t) F.mxaBist_pattern p.toNat).setFld (R.mxaBist t) F.mxaBist_busy 1).setTile t
      { s.tile t with bist := true } := rfl

theorem startBist_effect (s : State) (t : Nat) (p : BitVec 4) : ((startBist s t p).tile t).bist = true
    ∧ (startBist s t p).fld (R.mxaBist t) F.mxaBist_busy = 1
    ∧ (startBist s t p).fld (R.mxaBist t) F.mxaBist_pattern = p.toNat := by
  rw [startBist_eq, State.tile_setTile, State.fld_setTile, State.fld_setTile, State.fld_setFld _ _ _ _ (by decide),
    State.fld_setFld_beside _ _ _ _ _ (by decide) (by decide), State.fld_setFld _ _ _ _ (by decide)]
  exact ⟨rfl, rfl, Nat.mod_eq_of_lt p.isLt⟩

theorem mxaBistStart_runs (s : State) (path : RegPath) (t : TileId) (q : BitVec 4)
    (still : (s.tile t.val).st = .reset ∨ (s.tile t.val).st = .idle) (known : q.toNat ≤ 2)
    (present : t.val % 256 < s.part.tilesPerPart) :
    Runs (.mxaBistStart path t q) s fun u => (u.tile t.val).bist = true
      ∧ u.fld (R.mxaBist t.val) F.mxaBist_busy = 1 ∧ u.fld (R.mxaBist t.val) F.mxaBist_pattern = q.toNat := by
  have allowed : ¬(((s.tile t.val).st ≠ .reset ∧ (s.tile t.val).st ≠ .idle) ∨ 2 < q.toNat
      ∨ s.part.tilesPerPart ≤ t.val % 256) := by
    rintro (⟨h1, h2⟩ | h | h)
    · exact still.elim h1 h2
    all_goals omega
  have taken : bistWrite s path t.val q.toNat = startBist s t.val q := by
    rw [bistWrite, if_neg allowed, BitVec.ofNat_toNat, BitVec.setWidth_eq]
  exact ⟨_, congrArg Host.Outcome.next taken, startBist_effect s t.val q⟩

theorem mxaBistStart_rejected (s : State) (path : RegPath) (t : TileId) (q : BitVec 4) (busy : (s.tile t.val).st = .run) :
    Runs (.mxaBistStart path t q) s fun u => u = rejectReg s path (R.mxaBist t.val) true (some (t.val / 256)) := by
  refine ⟨_, rfl, ?_⟩
  simp [bistWrite, busy]

/-- A test that passes leaves the array without weights and with every row closed. -/
theorem bistComplete_pass (s : State) (t : TileId) (testing : (s.tile t.val).bist = true) :
    Runs (.bistComplete t .pass) s fun u => (u.tile t.val).bist = false ∧ (u.tile t.val).wvalid = false
      ∧ (u.tile t.val).acc = SMap.empty ∧ u.fld (R.mxaBist t.val) F.mxaBist_busy = 0
      ∧ u.fld (R.mxaBist t.val) F.mxaBist_result = 1 := by
  refine ⟨_, rfl, ?_⟩
  rw [if_pos testing]
  simp only [State.tile_setFld, State.tile_setTile, true_and]
  rw [State.fld_setFld_beside _ _ _ _ _ (by decide) (by decide), State.fld_setFld _ _ _ _ (by decide),
    State.fld_setFld _ _ _ _ (by decide)]
  exact ⟨rfl, rfl⟩

/-! ### The obligation -/

/-- Settles O53: whole accesses by `registerRead_runs` and `registerWrite_runs` from what `regRead` and `regWrite` give, and one
lemma above for each register with an effect of its own. -/
theorem registerAccesses : Obligations.RegisterAccesses := by
  unfold Obligations.RegisterAccesses
  intro s path off v o
  have devReset (here : off = BitVec.ofNat 28 R.devReset) :
      regWrite s path off.toNat 8 v = keyedReset s path R.devReset none v (·.startChipReset 1) := by
    subst here; exact regWrite_devReset s path v
  refine ⟨?_, ?_, ?_, ?_, ?_, ?_, ?_, fun p i => ⟨_, rfl, pathUpdate_sends s .arm p.val i.toNat v⟩,
    fun p i => ⟨_, rfl, pathUpdate_sends s .signal p.val i.toNat v⟩, ⟨_, rfl, rfl⟩, hifRqProdWrite_effect s path,
    hifCqConsWrite_effect s, clkMeterStart_runs s path v, clkMeterStart_rejected s path v, meterComplete_effect s,
    mxaBistStart_runs s path, mxaBistStart_rejected s path, bistComplete_pass s⟩
  · intro aligned unused hw hp
    exact registerRead_runs s path off (regRead_unused s path o aligned unused hw hp)
  · intro d idx aligned found hw hp present hrc
    exact registerRead_runs s path off (regRead_shown s path o d idx aligned found hw hp present hrc)
  · intro d idx aligned found absent
    exact registerWrite_runs s path v off (regWrite_absent s path o v d idx aligned found absent)
  · intro d idx aligned found present plain bad
    have rejected : writeBad s path o d idx v (BitVec.allOnes 64) = true := by
      rw [writeBad_whole, present, Bool.false_or, Bool.or_eq_true]; exact bad
    exact registerWrite_runs s path v off
      ((regWrite_plain s path o v d idx aligned found present plain).trans (if_pos rejected))
  · intro d idx aligned found present plain fields value
    have accepted : ¬ writeBad s path o d idx v (BitVec.allOnes 64) = true := by
      rw [writeBad_whole, present, fields, value]; decide
    exact registerWrite_runs s path v off
      ((regWrite_plain s path o v d idx aligned found present plain).trans (if_neg accepted))
  · intro here key
    exact registerWrite_runs s path v off ((devReset here).trans (if_pos key))
  · intro here key start
    have reset : keyedReset s path R.devReset none v (·.startChipReset 1) = s.startChipReset 1 := by
      rw [keyedReset, if_neg (not_not.2 key), if_pos start]
    exact registerWrite_runs s path v off ((devReset here).trans reset)

end Sys2Proof.Machine
end

section
/-! O33. A launch whose units have all ended without an abort. -/

namespace Sys2Proof.Machine

/-- A started launch of context 0 on unit 0 of stack 0, not rerun, with its record in the capacity range. -/
def endedLaunch : Launch where
  ctx := 0
  part := 0
  record := 0x20100000000
  stack := 0
  mask := 2 ^ 0
  image := 0x20100008000
  count := 1
  args := 0
  argLines := 0
  handle := 5
  amount := 1
  param := 0
  started := true
  failures := 0
  busTurn := 31

/-- The device after reset, with that launch as number 9 and its unit at the end of its program. -/
def endedState : State := { State.reset with
  units := SMap.empty.set 0 { CruUnit.reset with st := .ended, launch := 9 }
  launches := SMap.empty.set 9 endedLaunch
  nextLaunch := 10 }

/-- The status word of R330 gives OK as 1, and that is what LAUNCH_END stores at offset 0x30 of the record. -/
theorem launchEnd_endedState_status :
    (stateOf endedState (exec (.launchEnd 9 0) endedState)).readByte (endedLaunch.record + 0x30) = 1 := by
  decide +kernel

/-- The word that the statement names leaves OK out, and so reads as pending. -/
theorem endedState_status_without_ok :
    (endedState.store (endedLaunch.record + 0x30) 8 (endedLaunch.failures * 2 ^ 8)).readByte (endedLaunch.record + 0x30) = 0 := by
  decide +kernel

/-- Refutes O33: its clause on the end of a launch gives the status word as `failures * 2 ^ 8`, without the status in bits
[2:0]. R330 and R333 make that status OK, which is 1, and the model stores it: in `endedState` the two memories differ at the
first byte of the word. -/
theorem not_launchesAndReservedOpcodes : ¬ Obligations.LaunchesAndReservedOpcodes := by
  unfold Obligations.LaunchesAndReservedOpcodes
  rintro ⟨launches, -⟩
  obtain ⟨-, -, -, ends, -⟩ := launches endedState 0 0 9 (Ctx.loading [] 0 0 []) ⟨none, none, none, 0, 0⟩
    ⟨0, 0, 0, 0⟩ endedLaunch 0
  obtain ⟨t, run, -, -, effect⟩ := ends (by decide +kernel) rfl (by decide) rfl (by decide +kernel)
  obtain ⟨stored, -⟩ := effect (by decide +kernel)
  have status : t.readByte (endedLaunch.record + 0x30) = 1 := by
    have h := launchEnd_endedState_status
    rwa [run] at h
  rw [State.readByte, stored] at status
  exact absurd (status.symm.trans endedState_status_without_ok) (by decide)

end Sys2Proof.Machine
end

section
/-! What the operations that write memory, registers and records leave alone, as relations between the state before and the state
after. -/

namespace Sys2Proof.Machine

/-- What each step of a fold keeps, the fold keeps. -/
theorem foldl_keeps {α β : Type} (π : State → β) {f : State → α → State} (h : ∀ s a, π (f s a) = π s) (l : List α)
    (s : State) : π (l.foldl f s) = π s :=
  List.foldlRecOn l f (motive := fun u => π u = π s) rfl fun u kept a _ => (h u a).trans kept

/-- From `s` to `u` only registers in `W` have changed, and no tile, context, queue, unit or launch, no request or object, no engine
reset and nothing of the board; memory, error rings and what is sent may have. -/
structure Writes (W : Nat → Prop) (s u : State) : Prop where
  regs : ∀ r, ¬ W r → u.reg r = s.reg r
  part : u.part = s.part
  tiles : u.tiles = s.tiles
  ctxs : u.ctxs = s.ctxs
  objs : u.objs = s.objs
  reqs : u.reqs = s.reqs
  queues : u.queues = s.queues
  units : u.units = s.units
  launches : u.launches = s.launches
  engResets : u.engResets = s.engResets
  board : u.board = s.board

/-- Registers of units, links, error rings and management: those of the device, the partitions, the contexts and the
synchronization blocks lie below. -/
def UnitReg (r : Nat) : Prop := 0x04000000 ≤ r

namespace Writes

variable {W V : Nat → Prop} {s u v : State}

theorem refl (s : State) : Writes W s s := by constructor <;> intros <;> rfl

theorem trans (h : Writes W s u) (g : Writes W u v) : Writes W s v :=
  ⟨fun r out => (g.regs r out).trans (h.regs r out), g.part.trans h.part, g.tiles.trans h.tiles, g.ctxs.trans h.ctxs,
    g.objs.trans h.objs, g.reqs.trans h.reqs, g.queues.trans h.queues, g.units.trans h.units, g.launches.trans h.launches,
    g.engResets.trans h.engResets, g.board.trans h.board⟩

theorem mono (wider : ∀ r, W r → V r) (h : Writes W s u) : Writes V s u :=
  { h with regs := fun r out => h.regs r fun inside => out (wider r inside) }

theorem tile (h : Writes W s u) (t : Nat) : u.tile t = s.tile t := by rw [State.tile, h.tiles, State.tile]
theorem queue (h : Writes W s u) (k : Nat) : u.queue k = s.queue k := by rw [State.queue, h.queues, State.queue]

theorem foldl {α : Type} {f : State → α → State} (h : ∀ s a, Writes W s (f s a)) (l : List α) (s : State) :
    Writes W s (l.foldl f s) :=
  List.foldlRecOn l f (refl s) fun _ g a _ => g.trans (h _ a)

theorem setReg {r : Nat} (inside : W r) (s : State) (x : W64) : Writes W s (s.setReg r x) := by
  constructor
  case regs => exact fun q out => State.reg_setReg_ne s r q x fun same => out (same ▸ inside)
  all_goals rfl

theorem setFld {r : Nat} (inside : W r) (s : State) (f : Fld) (x : Nat) : Writes W s (s.setFld r f x) := setReg inside s _
theorem bump {r : Nat} (inside : W r) (s : State) (f : Fld) (n : Nat) : Writes W s (s.bump r f n) := setFld inside s f _

theorem draw (s : State) : Writes W s s.draw.2 := by constructor <;> intros <;> rfl
theorem emit (s : State) (o : Out) : Writes W s (s.emit o) := by constructor <;> intros <;> rfl
theorem setRing (s : State) (p : Nat) (g : ErrRing) : Writes W s (s.setRing p g) := by constructor <;> intros <;> rfl
theorem setLines (s : State) (l : SMap LineMeta) : Writes W s { s with lines := l } := by constructor <;> intros <;> rfl
theorem writeRaw (s : State) (a : Nat) (bs : List Byte) : Writes W s (s.writeRaw a bs) := by constructor <;> intros <;> rfl
theorem clearRange (s : State) (a n : Nat) : Writes W s (s.clearRange a n) := by constructor <;> intros <;> rfl

/-- A line that holds nothing of the current generation merges as zeros, and then the bytes are written. -/
theorem writeLine (s : State) (a : Nat) (bs : List Byte) : Writes W s (s.writeLine a bs) := by
  have merged (c : Prop) [Decidable c] (z : List Byte) : Writes W s (if c then s.writeRaw (64 * (a / 64)) z else s) := by
    split
    · exact writeRaw s _ _
    · exact refl s
  unfold State.writeLine
  dsimp only
  split
  · exact (merged _ _).trans ((writeRaw _ a bs).trans (setLines _ _))
  · split
    · exact (writeRaw s a bs).trans (setLines _ _)
    · exact writeRaw s a bs

theorem writeLines (n : Nat) (s : State) (a : Nat) (bs : List Byte) : Writes W s (State.writeLines n s a bs) := by
  induction n generalizing s a bs with
  | zero => exact refl s
  | succ n ih =>
    unfold State.writeLines
    split
    · exact refl s
    · exact (writeLine s _ _).trans (ih _ _ _)

theorem writeBytes (s : State) (a : Nat) (bs : List Byte) : Writes W s (s.writeBytes a bs) := writeLines _ s a bs

/-! Error rings: what is written are ERR.STAT and ERR.HEAD of a partition and MGT.PINS. -/

theorem unitReg_err (base p : Nat) (high : 0x0C000000 ≤ base) : UnitReg (base + 0x1000 * p) := by
  unfold UnitReg
  omega

theorem unitReg_errStat (p : Nat) : UnitReg (R.errStat p) := unitReg_err _ p (by decide)
theorem unitReg_errHead (p : Nat) : UnitReg (R.errHead p) := unitReg_err _ p (by decide)
theorem unitReg_mgtPins : UnitReg R.mgtPins := by unfold UnitReg; decide

theorem ringPut (s : State) (p : Nat) (bs : List Byte) : Writes UnitReg s (s.ringPut p bs) := by
  unfold State.ringPut
  dsimp only
  split
  · exact (bump (unitReg_errStat p) s _ _).trans ((writeBytes _ _ _).trans (setReg (unitReg_errHead p) _ _))
  · exact (writeBytes _ _ _).trans (setReg (unitReg_errHead p) _ _)

theorem raiseAlert (s : State) (p sev : Nat) : Writes UnitReg s (s.raiseAlert p sev) := by
  unfold State.raiseAlert State.updateAlert
  split
  · exact (setFld (unitReg_errStat p) s _ _).trans ((setFld unitReg_mgtPins _ _ _).trans ((emit _ _).trans (emit _ _)))
  · exact refl s

/-- A record is merged into the last one, put into the ring, buffered, or lost. -/
theorem record (s : State) (p : Nat) (r : ErrRec) : Writes UnitReg s (s.record p r) := by
  have stat := unitReg_errStat p
  unfold State.record
  dsimp only
  split
  · split
    · exact (draw s).trans (setRing _ _ _)
    · exact (draw s).trans (writeBytes _ _ _)
  · split
    · exact (draw s).trans ((setRing _ _ _).trans ((ringPut _ _ _).trans (raiseAlert _ _ _)))
    · split
      · exact (draw s).trans ((setRing _ _ _).trans ((setFld stat _ _ _).trans (raiseAlert _ _ _)))
      · exact (draw s).trans ((setRing _ _ _).trans (bump stat _ _ _))

theorem flushRing (s : State) (p : Nat) : Writes UnitReg s (s.flushRing p) := by
  unfold State.flushRing
  dsimp only
  split
  · exact (foldl (fun s _ => ringPut s p _) _ s).trans ((setRing _ _ _).trans (setFld (unitReg_errStat p) _ _ _))
  · exact refl s

end Writes

/-- `Writes` where any register may have changed. -/
abbrev Recorded (s u : State) : Prop := Writes (fun _ => True) s u

namespace Recorded

theorem refl (s : State) : Recorded s s := Writes.refl s

theorem foldl {α : Type} {f : State → α → State} (h : ∀ s a, Recorded s (f s a)) (l : List α) (s : State) :
    Recorded s (l.foldl f s) := Writes.foldl h l s

theorem setReg (s : State) (r : Nat) (x : W64) : Recorded s (s.setReg r x) := Writes.setReg trivial s x
theorem setFld (s : State) (r : Nat) (f : Fld) (x : Nat) : Recorded s (s.setFld r f x) := Writes.setFld trivial s f x
theorem bump (s : State) (r : Nat) (f : Fld) (n : Nat) : Recorded s (s.bump r f n) := Writes.bump trivial s f n

theorem record (s : State) (p : Nat) (r : ErrRec) : Recorded s (s.record p r) :=
  (Writes.record s p r).mono fun _ _ => trivial

/-- An uncorrectable word of a local store is counted and recorded. -/
theorem lsError (s : State) (a sev : Nat) (c : Option Nat) : Recorded s (s.lsError a sev c) := by
  unfold State.lsError State.memRecord State.memRecordIn State.sramSyndrome
  exact (bump s _ _ _).trans ((setFld _ _ _ _).trans ((Writes.draw _).trans (record _ _ _)))

theorem trapRecord (s : State) (t : Nat) (T : Tile) (tr : TrapRec) (sev : Nat) : Recorded s (trapRecord s t T tr sev) :=
  record s _ _

end Recorded

end Sys2Proof.Machine
end

section
/-! O23. Retirement of operations in flight, step.wait, and the smoothing ramps. -/

namespace Sys2Proof.Machine

/-! ### Tiles -/

theorem SameRegs.refl (T : Tile) : SameRegs T T := ⟨rfl, rfl, rfl, rfl, rfl, rfl, rfl, rfl⟩

theorem SameRegs.trans {T U V : Tile} (h : SameRegs T U) (g : SameRegs U V) : SameRegs T V := by
  obtain ⟨hs, hhs, hv, hp, ha, hlc, hacc, hw⟩ := h
  obtain ⟨gs, ghs, gv, gp, ga, glc, gacc, gw⟩ := g
  exact ⟨gs.trans hs, ghs.trans hhs, gv.trans hv, gp.trans hp, ga.trans ha, glc.trans hlc, gacc.trans hacc, gw.trans hw⟩

theorem otherTiles_setTile (s : State) (t : Nat) (T : Tile) : OtherTiles t s (s.setTile t T) :=
  fun i hi => State.tile_setTile_ne s t i T hi

/-- A tile set after a change that touches no tile, and before another. -/
theorem otherTiles_of_tiles {s u : State} {t : Nat} {T : Tile} (h : u.tiles = (s.setTile t T).tiles) : OtherTiles t s u := by
  intro i hi
  rw [← State.tile_setTile_ne s t i T hi, State.tile, h, State.tile]

theorem tile_of_tiles {s u : State} {t : Nat} {T : Tile} (h : u.tiles = (s.setTile t T).tiles) : u.tile t = T := by
  rw [State.tile, h]
  exact State.tile_setTile s t T

/-- An update of the tags of a tile. -/
def TagsOnly (T U : Tile) : Prop := U = { T with tags := U.tags }

theorem tagsOnly_foldl {α : Type} {f : Tile → α → Tile} (h : ∀ T a, TagsOnly T (f T a)) (l : List α) (T : Tile) :
    TagsOnly T (l.foldl f T) :=
  List.foldlRecOn l f (motive := TagsOnly T) rfl fun U g a _ => (h U a).trans (by rw [g])

theorem tagsOnly_tagReadEnd (T : Tile) (b : Nat) : TagsOnly T (tagReadEnd T b) := rfl

theorem tagsOnly_tagConsume (T : Tile) (b : Nat) : TagsOnly T (tagConsume T b) := by
  unfold tagConsume
  dsimp only
  split <;> rfl

theorem tagsOnly_tagPublish (T : Tile) (b : Nat) : TagsOnly T (tagPublish T b) := by
  unfold tagPublish
  dsimp only
  split <;> rfl

/-- The tag operations of a retiring operation change its tile's tags only. -/
theorem tagsOnly_endUse (T : Tile) (u : BlockUse) : TagsOnly T (T.endUse u) := by
  have reads := tagsOnly_foldl tagsOnly_tagReadEnd u.rd T
  have consumed := tagsOnly_foldl tagsOnly_tagConsume u.consume (u.rd.foldl tagReadEnd T)
  have published := tagsOnly_foldl tagsOnly_tagPublish u.publish (u.consume.foldl tagConsume (u.rd.foldl tagReadEnd T))
  unfold Tile.endUse
  unfold TagsOnly at *
  rw [published, consumed, reads]

/-! ### What a retiring operation leaves of its tile -/

theorem writeReg_flights (T : Tile) (w : RegWrite) : (T.writeReg w).flights = T.flights := by
  cases w with
  | s h n x =>
    dsimp only [Tile.writeReg]
    split
    · rfl
    · split <;> rfl
  | v n x => rfl
  | p n x =>
    dsimp only [Tile.writeReg]
    split <;> rfl
  | a n x => rfl
  | lc n x => rfl

theorem writeRegs_flights (T : Tile) (l : List RegWrite) : (T.writeRegs l).flights = T.flights :=
  List.foldlRecOn l Tile.writeReg (motive := fun U => U.flights = T.flights) rfl fun U h w _ => (writeReg_flights U w).trans h

theorem applyEffect_flights (T : Tile) (e : Effect) : (T.applyEffect e).flights = T.flights := by
  unfold Tile.applyEffect
  dsimp only
  split <;> exact writeRegs_flights T e.res

/-- The tile after the retirement of `f`. -/
def Tile.retired (T : Tile) (f : Flight) : Tile :=
  (((T.applyEffect f.eff).endUse f.use).dropFlight f.id).laterBytes f

theorem laterBytes_eq (T : Tile) (f : Flight) : ∃ l, T.laterBytes f = { T with flights := l } ∧ l.map (·.id) = T.flights.map (·.id)
    ∧ (f.eff.ls.flatten = [] → l = T.flights) := by
  unfold Tile.laterBytes
  dsimp only
  split
  · exact ⟨T.flights, rfl, rfl, fun _ => rfl⟩
  · next some =>
    refine ⟨_, rfl, ?_, fun none => absurd none some⟩
    rw [List.map_map]
    refine List.map_congr_left fun g _ => ?_
    dsimp only [Function.comp]
    split <;> rfl

theorem retired_flights (T : Tile) (f : Flight) :
    (T.retired f).flights.map (·.id) = (T.flights.map (·.id)).filter (· != f.id)
      ∧ (f.eff.ls.flatten = [] → (T.retired f).flights = T.flights.filter fun g => g.id != f.id) := by
  obtain ⟨l, later, ids, same⟩ := laterBytes_eq (((T.applyEffect f.eff).endUse f.use).dropFlight f.id) f
  have left : (((T.applyEffect f.eff).endUse f.use).dropFlight f.id).flights = T.flights.filter fun g => g.id != f.id := by
    rw [tagsOnly_endUse (T.applyEffect f.eff) f.use, Tile.dropFlight, applyEffect_flights]
  rw [Tile.retired, later]
  rw [left] at ids same
  exact ⟨by rw [ids, List.filter_map]; rfl, same⟩

theorem retired_sameRegs (T : Tile) (f : Flight) : SameRegs (T.applyEffect f.eff) (T.retired f) := by
  obtain ⟨l, later, -, -⟩ := laterBytes_eq (((T.applyEffect f.eff).endUse f.use).dropFlight f.id) f
  rw [Tile.retired, later, tagsOnly_endUse (T.applyEffect f.eff) f.use]
  exact ⟨rfl, rfl, rfl, rfl, rfl, rfl, rfl, rfl⟩

/-! ### Retirement (R50, R99, R160) -/

theorem recorded_countSpecial (s : State) (t : Nat) (x : Special) : Recorded s (countSpecial s t x) :=
  (Recorded.bump s _ _ _).trans ((Recorded.bump _ _ _ _).trans ((Recorded.bump _ _ _ _).trans (Recorded.bump _ _ _ _)))

theorem recorded_countWalk (s : State) (t : Nat) (op : TileOp) : Recorded s (countWalk s t op) := by
  unfold countWalk
  split
  · exact Recorded.bump s _ _ _
  · exact Recorded.refl s

theorem countWalk_mem (s : State) (t : Nat) (op : TileOp) : (countWalk s t op).mem = s.mem := by
  unfold countWalk
  split <;> rfl

theorem recorded_putLocal (s : State) (l : List (Nat × List Byte)) : Recorded s (putLocal s l) :=
  Recorded.foldl (f := fun (s : State) (w : Nat × List Byte) => s.writeRaw w.1 w.2)
    (fun s w => Writes.writeRaw s w.1 w.2) l s

theorem setTile_tiles_congr {s u : State} (h : u.tiles = s.tiles) (t : Nat) (T : Tile) :
    (u.setTile t T).tiles = (s.setTile t T).tiles := by rw [State.setTile, h, State.setTile]

theorem retire_tiles (s : State) (t : Nat) (f : Flight) (h : (s.tile t).suppress = false) :
    (retire s t f).tiles = (s.setTile t ((s.tile t).retired f)).tiles := by
  unfold retire
  dsimp only
  rw [if_neg (by rw [h]; decide), (recorded_countWalk _ _ _).tiles, (recorded_countSpecial _ _ _).tiles]
  exact setTile_tiles_congr (recorded_putLocal s _).tiles t _

theorem retire_mem (s : State) (t : Nat) (f : Flight) (h : (s.tile t).suppress = false) :
    (retire s t f).mem = (putLocal s f.eff.ls.flatten).mem := by
  unfold retire
  dsimp only
  rw [if_neg (by rw [h]; decide), countWalk_mem]
  rfl

/-- What `gone` of the statement and the clauses beside it say of a state in which `f` has retired. -/
theorem retired_effect {s u : State} {t : Nat} {f : Flight} (tiles : u.tiles = (s.setTile t ((s.tile t).retired f)).tiles) :
    (OtherTiles t s u ∧ (u.tile t).flights.map (·.id) = ((s.tile t).flights.map (·.id)).filter (· != f.id)
        ∧ (f.eff.ls.flatten = [] → (u.tile t).flights = (s.tile t).flights.filter fun g => g.id != f.id))
      ∧ SameRegs ((s.tile t).applyEffect f.eff) (u.tile t) := by
  rw [tile_of_tiles tiles]
  exact ⟨⟨otherTiles_of_tiles tiles, retired_flights _ f⟩, retired_sameRegs _ f⟩

section Retire

variable (s : State) (t : TileId) (id : BitVec 32) (f : Flight)
  (flying : (s.tile t.val).flight? id.toNat = some f) (live : f.dead = false)

include flying live

theorem opRetire_ok (fixed : f.kind = .fixed) : exec (.opRetire t id .ok) s = .next (retire s t.val f) := by
  change execOpRetire t id .ok s = _
  simp [execOpRetire, flying, live, fixed, faultFits]

theorem passVerdict_good (pass : f.kind = .pass) : exec (.passVerdict t id .good) s
    = .next ((retire s t.val f).bump (R.mxaPasscnt t.val) F.mxaPasscnt_committed (if (s.tile t.val).suppress then 0 else 1)) := by
  change execPassVerdict t id .good s = _
  simp [execPassVerdict, passEnd, flying, live, pass]

theorem opRetire_lsUe (a : BitVec 44) (n : BitVec 14) (fixed : f.kind = .fixed) (fits : faultFits f (.lsUe a n) = true) :
    exec (.opRetire t id (.lsUe a n)) s = .next (faultOp s t.val f (.lsUe a n)) := by
  change execOpRetire t id (.lsUe a n) s = _
  simp [execOpRetire, flying, live, fixed, fits]

end Retire

/-- Under a teardown an operation only leaves (R99). -/
theorem retire_suppressed (s : State) (t : Nat) (f : Flight) (h : (s.tile t).suppress = true) :
    retire s t f = s.setTile t ((s.tile t).dropFlight f.id) := by
  unfold retire
  dsimp only
  rw [if_pos h]

theorem dropFlight_ids (T : Tile) (i : Nat) :
    (T.dropFlight i).flights.map (·.id) = (T.flights.map (·.id)).filter (· != i) := by
  rw [List.filter_map]; rfl

/-! ### A read that meets an unreadable local-store word (R85, R100) -/

theorem recorded_countFault_lsUe (s : State) (t : Nat) (op : TileOp) (a : BitVec 44) (n : BitVec 14) :
    Recorded s (countFault s t op (.lsUe a n)) :=
  (Recorded.bump s _ _ _).trans (Recorded.lsError _ _ _ _)

theorem lostWeights_eq (T : Tile) (op : TileOp) :
    ∃ w f b, T.lostWeights op = { T with wvalid := w, wfmt := f, wimg := b }
      ∧ ∀ l, ({ T with flights := l } : Tile).lostWeights op = { T with flights := l, wvalid := w, wfmt := f, wimg := b } := by
  unfold Tile.lostWeights
  split <;> exact ⟨_, _, _, rfl, fun _ => rfl⟩

/-- The first deferred cause outside the handler starts the drain (R63). -/
theorem deferTrap_first (s : State) (t : Nat) (tr : TrapRec) (out : (s.tile t).st ≠ .handler) (first : (s.tile t).drain = none) :
    deferTrap s t tr = s.setTile t { s.tile t with drain := some tr, drainMore := [], asm := [], held := false, stall := 0 } := by
  unfold deferTrap
  dsimp only
  rw [if_neg out, first]

/-- The operation stays in flight without effect, its array load leaves no weights, and the drain of an LSERR begins. -/
theorem faultOp_lsUe (s : State) (t : Nat) (f : Flight) (a : BitVec 44) (n : BitVec 14) (live : (s.tile t).suppress = false)
    (run : (s.tile t).st = .run) (first : (s.tile t).drain = none) :
    let u := faultOp s t f (.lsUe a n)
    OtherTiles t s u ∧ u.mem = (countFault s t f.op (.lsUe a n)).mem ∧ SameRegs ((s.tile t).lostWeights f.op) (u.tile t)
      ∧ (u.tile t).flights
        = ((s.tile t).flights.map fun g => if g.id = f.id then { g with dead := true, eff := Effect.none } else g)
      ∧ (u.tile t).drain = some ⟨Cause.lserr, BitVec.ofNat 56 (s.globalHere a.toNat), f.op.slot, some f.op, f.pc⟩ := by
  intro u
  have counted := recorded_countFault_lsUe s t f.op a n
  obtain ⟨w, fm, b, lost, after⟩ := lostWeights_eq (s.tile t) f.op
  have early : abandonEarly (countFault s t f.op (.lsUe a n)) t f = (countFault s t f.op (.lsUe a n)).setTile t
      { s.tile t with
        flights := (s.tile t).flights.map fun g => if g.id = f.id then { g with dead := true, eff := Effect.none } else g
        wvalid := w, wfmt := fm, wimg := b } := by
    rw [abandonEarly, counted.tile, Tile.mapFlight, after]
    simp only [beq_iff_eq]
  have whole : u = (countFault s t f.op (.lsUe a n)).setTile t
      { s.tile t with
        flights := (s.tile t).flights.map fun g => if g.id = f.id then { g with dead := true, eff := Effect.none } else g
        wvalid := w, wfmt := fm, wimg := b
        drain := some (OpFault.trap s f (.lsUe a n)), drainMore := [], asm := [], held := false, stall := 0 } := by
    change faultOp s t f (.lsUe a n) = _
    unfold faultOp
    dsimp only
    rw [if_neg (by rw [live]; decide), early, deferTrap_first]
    · rw [State.tile_setTile, State.setTile_setTile]
    · rw [State.tile_setTile, run]; decide
    · rw [State.tile_setTile]; exact first
  rw [whole, State.tile_setTile, lost]
  exact ⟨otherTiles_of_tiles (setTile_tiles_congr counted.tiles t _), rfl, ⟨rfl, rfl, rfl, rfl, rfl, rfl, rfl, rfl⟩, rfl, rfl⟩

/-! ### step.wait (R53, R167) -/

/-- A pending hold that takes effect touches registers only. -/
theorem settleHold_frame (s : State) (c : Nat) : Recorded s (s.settleHold c) ∧ (s.settleHold c).mem = s.mem := by
  unfold State.settleHold
  split
  · exact ⟨(Recorded.setFld s _ _ _).trans (Recorded.setFld _ _ _ _), rfl⟩
  · exact ⟨Recorded.refl s, rfl⟩

theorem stepWaitRetire_eq (s : State) (t : TileId) (f : Flight) (only : (s.tile t.val).flights = [f]) (kind : f.kind = .stepWait)
    (live : f.dead = false) (plain : f.op ≠ .stepWait true) (done : stepDone s t.val (s.tile t.val) = true)
    (kept : (s.tile t.val).suppress = false) (run : (s.tile t.val).st = .run) :
    exec (.stepWaitRetire t) s = .next ((s.setTile t.val { (s.tile t.val).dropFlight f.id with
      st := .stepwait, revive := false, asm := [], held := false, stall := 0 }).settleHold (s.tile t.val).ctxIndex) := by
  change execStepWaitRetire t s = _
  have may : stepWaitMay (s.tile t.val) f = true := by rw [stepWaitMay, run]; rfl
  have rev : (f.op == TileOp.stepWait true) = false := beq_eq_false_iff_ne.2 plain
  simp [execStepWaitRetire, only, kind, live, may, done, kept, rev]

/-! ### The ramp-up (R104) -/

/-- With no bundle held, the end of a ramp-up counts its dummies and begins a fill. -/
theorem smoothRampUpEnd_eq (s : State) (t : TileId) (x : BitVec 13) (n : Nat) (up : (s.tile t.val).smooth = 3)
    (free : (s.tile t.val).held = false)
    (dummies : n = let up := s.fld (R.mxaSmooth t.val) F.mxaSmooth_ramp_up
      let r := s.fld (R.mxaSmooth t.val) F.mxaSmooth_ramp_down
      if (s.tile t.val).rampQuiet then upDummies up r r else downDummies r (min x.toNat r) + upDummies up r (min x.toNat r)) :
    exec (.smoothRampUpEnd t x) s = .next
      ((s.setTile t.val { s.tile t.val with smooth := 1, noIdle := false }).bump (R.mxaBusycnt t.val) F.mxaBusycnt_dummy n) := by
  change execSmoothRampUpEnd t x s = _
  have idle : ¬((s.tile t.val).held = true ∧ issueBlocked ((s.setTile t.val { s.tile t.val with smooth := 1, noIdle := true }).bump
      (R.mxaBusycnt t.val) F.mxaBusycnt_dummy n) t.val (((s.setTile t.val { s.tile t.val with smooth := 1, noIdle := true }).bump
      (R.mxaBusycnt t.val) F.mxaBusycnt_dummy n).tile t.val) = false) := by rw [free]; simp
  unfold execSmoothRampUpEnd
  dsimp only at dummies ⊢
  rw [if_pos up, ← dummies, if_neg idle, State.tile_bump, State.tile_setTile]
  simp only [State.bump, State.setFld, State.setReg, State.setTile, SMap.set_set]
  rfl

/-! ### The obligation -/

/-- Settles O23: retirement by `retire_tiles` and `retire_mem`, an unreadable word by `faultOp_lsUe`, step.wait by its one
effect; the smoothing events are their definitions' branches. -/
theorem retirementAndSmoothing : Obligations.RetirementAndSmoothing := by
  unfold Obligations.RetirementAndSmoothing
  refine ⟨fun s t id f flying live => ⟨?_, ?_, ?_, ?_⟩, ?_, fun s t x => ⟨?_, ?_, ?_⟩⟩
  · intro fixed kept
    obtain ⟨gone, regs⟩ := retired_effect (retire_tiles s t.val f kept)
    exact ⟨_, opRetire_ok s t id f flying live fixed, gone, retire_mem s t.val f kept, regs⟩
  · intro fixed torn
    refine ⟨_, opRetire_ok s t id f flying live fixed, ?_⟩
    beta_reduce
    rw [retire_suppressed s t.val f torn, State.tile_setTile]
    exact ⟨⟨otherTiles_setTile s t.val _, dropFlight_ids _ _, fun _ => rfl⟩, rfl, SameRegs.refl _⟩
  · intro pass kept
    obtain ⟨gone, regs⟩ := retired_effect (retire_tiles s t.val f kept)
    exact ⟨_, passVerdict_good s t id f flying live pass, gone, retire_mem s t.val f kept, regs⟩
  · intro a n fixed fits kept run first
    exact ⟨_, opRetire_lsUe s t id f flying live a n fixed fits, faultOp_lsUe s t.val f a n kept run first⟩
  · intro s t f only kind live plain done kept run
    obtain ⟨settled, mem⟩ := settleHold_frame (s.setTile t.val { (s.tile t.val).dropFlight f.id with
      st := .stepwait, revive := false, asm := [], held := false, stall := 0 }) (s.tile t.val).ctxIndex
    refine ⟨_, stepWaitRetire_eq s t f only kind live plain done kept run, mem, otherTiles_of_tiles settled.tiles, ?_⟩
    rw [tile_of_tiles settled.tiles]
    exact ⟨SameRegs.refl _, rfl, by simp [Tile.dropFlight, only]⟩
  · intro fill still
    refine ⟨fun on => ⟨_, rfl, ?_⟩, fun off => ⟨_, rfl, ?_⟩⟩
    · rw [if_pos ⟨fill, still⟩, if_pos on]
    · rw [if_pos ⟨fill, still⟩, if_neg off]
  · intro down
    exact ⟨_, rfl, if_pos down⟩
  · intro up free
    exact ⟨fun quiet => ⟨_, smoothRampUpEnd_eq s t x _ up free (if_pos quiet).symm, rfl⟩,
      fun sunk => ⟨_, smoothRampUpEnd_eq s t x _ up free (if_neg (by rw [sunk]; decide)).symm, rfl⟩⟩

end Sys2Proof.Machine
end

section
/-! O24. Taking a trap, and the events that take one. -/

namespace Sys2Proof.Machine

/-! ### The handler's entry (R61, R62, R66) -/

/-- Outside the handler a trap other than BOUND rewrites the tile and leaves a record. -/
theorem enterHandler_outside (s : State) (t : Nat) (tr : TrapRec) (resume : BitVec 44) (deferred : Bool)
    (out : (s.tile t).st ≠ .handler) (bound : tr.cause ≠ Cause.bound) :
    let T := s.tile t
    (enterHandler s t tr resume deferred).tile t = { T with
      st := .handler, asm := [], held := false, stall := 0, drain := none, drainMore := [],
      trapCount := if T.trapCount = 0xFFFF then 0xFFFF else T.trapCount + 1,
      trapValid := true, trapSlot := tr.slot.code, trapCause := BitVec.ofNat 3 tr.cause, trapPc := tr.pc,
      resumePc := resume, trapOp := if deferred then tr.op else none, trapAddr := tr.addr,
      residues := if tr.cause = Cause.residue then T.residues + 1 else T.residues,
      bistDue := T.bistDue || (tr.cause == Cause.residue && decide (2 ≤ T.residues)),
      hs := SMap.empty, bad := T.bad.filter (·.1 == false),
      pc := BitVec.ofNat 44 (s.fld (R.tileFhBase t) F.tileFhBase_base * 0x1000) } := by
  intro T
  unfold enterHandler
  dsimp only
  rw [if_neg out, if_neg fun window => bound window.1, (Recorded.trapRecord _ _ _ _ _).tile, State.tile_setTile]

/-- A trap of the handler halts the tile, resets it, and revives the step with the cause of the trap it served. -/
theorem enterHandler_within (s : State) (t : Nat) (tr : TrapRec) (resume : BitVec 44) (deferred : Bool)
    (handling : (s.tile t).st = .handler) :
    let T := s.tile t
    let H := { T with st := .halted, trapDouble := true, asm := [], held := false, stall := 0, drain := none, drainMore := [] }
    let s1 := (trapRecord (s.setTile t H) t H tr 3).startEngineReset (t / 256) 1 t 3
    enterHandler s t tr resume deferred = if T.ctxValid then s1.startRevival T.ctxIndex T.trapCause.toNat else s1 :=
  if_pos handling

/-! ### Events that take a trap -/

section Drained

variable (s : State) (t : TileId) (tr : TrapRec) (drain : (s.tile t.val).drain = some tr) (idle : (s.tile t.val).flights = [])
  (alone : (s.tile t.val).drainMore = [])

include drain idle alone

/-- The drain of one deferred trap ends with it, when no precise cause is met on the way. -/
theorem deferredTrapTaken_alone : exec (.deferredTrapTaken ⟨t, 0, 0⟩) s
    = .next (enterHandler (s.setTile t.val { s.tile t.val with trapPending := pendingBeside (s.tile t.val) tr [tr] }) t.val tr
        (s.tile t.val).pc true) := by
  change execDeferredTrapTaken ⟨t, 0, 0⟩ s = _
  unfold execDeferredTrapTaken
  dsimp only
  rw [drain, alone]
  dsimp only
  rw [if_pos idle, if_neg (by decide)]
  have none : (0 : BitVec 7) &&& preciseCauses = 0#7 := by decide
  rw [none, BitVec.or_zero]
  rfl

/-- An IFERR met during the drain is taken first, and the deferred trap stays pending. -/
theorem deferredTrapTaken_iferr : exec (.deferredTrapTaken ⟨t, 0, 1⟩) s
    = .next (enterHandler (s.setTile t.val { s.tile t.val with trapPending := (s.tile t.val).trapPending ||| causeBits [tr] }) t.val
        ⟨Cause.iferr, BitVec.ofNat 56 (s.globalHere ((s.tile t.val).pc.toNat / 64 * 64)), .s, none, (s.tile t.val).pc⟩
        (s.tile t.val).pc false) := by
  change execDeferredTrapTaken ⟨t, 0, 1⟩ s = _
  unfold execDeferredTrapTaken
  dsimp only
  rw [drain, alone]
  dsimp only
  rw [if_pos idle, if_pos (by decide)]
  have others : (1 : BitVec 7) &&& preciseCauses &&& 0x38 = 0#7 := by decide
  rw [others, BitVec.or_zero]

end Drained

/-- A wait outside the handler that exceeds stall_to is a precise SYNCTO at the held bundle. -/
theorem stallTrap_run (s : State) (t : Nat) (code : BitVec 2) (op : TileOp) (on : Nat) (held : (s.tile t).held = true)
    (run : (s.tile t).st = .run) (free : issueBlocked s t (s.tile t) = false)
    (waits : (bundleHolds s t (s.tile t) (s.tile t).asm).find? (fun h => h.2.1 == code) = some (op, code, on)) :
    stallTrap s t code = enterHandler (s.setTile t (s.tile t)) t
      ⟨Cause.syncto, BitVec.ofNat 56 on, op.slot, some op, (s.tile t).pc⟩ (s.tile t).pc false := by
  unfold stallTrap
  extract_lets T U
  have same : U = T := by
    unfold U
    split
    · exact if_neg (by rw [run]; decide)
    · rfl
  rw [same]
  rw [if_pos ⟨held, free⟩, waits]

/-- An unreadable line that is next to issue traps (R48). -/
theorem ibufLineArrive_bad (s : State) (t : TileId) (line : BitVec 38) (next : (s.tile t.val).pc.toNat / 64 = line.toNat)
    (free : issueBlocked s t.val (s.tile t.val) = false) : exec (.ibufLineArrive t line .bad) s
    = .next (enterHandler (s.setTile t.val (nextLine { s.tile t.val with ibuf := (s.tile t.val).ibuf.erase line.toNat })) t.val
        ⟨Cause.iferr, BitVec.ofNat 56 (s.globalHere (64 * line.toNat)), .s, none, (s.tile t.val).pc⟩ (s.tile t.val).pc false) := by
  change execIbufLineArrive t line .bad s = _
  unfold execIbufLineArrive
  dsimp only
  rw [if_pos ⟨next, free⟩]

/-! ### The obligation -/

/-- Settles O24: the entry of the handler by `enterHandler_outside` and `enterHandler_within`, each event by its own equation. -/
theorem trapEntry : Obligations.TrapEntry := by
  unfold Obligations.TrapEntry
  refine ⟨fun s t tr resume deferred => ⟨?_, enterHandler_within s t tr resume deferred⟩, fun s t tr line op on =>
    ⟨?_, ?_, ?_, ⟨_, rfl, rfl⟩, ⟨_, rfl, rfl⟩, fun next free => ⟨_, ibufLineArrive_bad s t line next free, rfl⟩⟩⟩
  · intro out bound
    rw [enterHandler_outside s t tr resume deferred out bound]
    exact ⟨rfl, rfl, rfl, rfl, rfl, rfl, rfl, rfl, rfl, rfl, rfl, rfl, rfl, rfl, rfl, rfl⟩
  · intro drain idle alone
    exact ⟨⟨_, deferredTrapTaken_alone s t tr drain idle alone, rfl⟩, ⟨_, deferredTrapTaken_iferr s t tr drain idle alone, rfl⟩⟩
  · rintro ⟨held, run, free, waits⟩
    exact ⟨_, rfl, stallTrap_run s t.val 1 op on held run free waits⟩
  · rintro ⟨held, run, free, waits⟩
    exact ⟨_, rfl, stallTrap_run s t.val 3 op on held run free waits⟩

end Sys2Proof.Machine
end

section
/-! O25. Preemption: requests, drain, save and restore of a tile. -/

namespace Sys2Proof.Machine

/-! ### Updates of queues -/

theorem State.queue_setQueue_ne (s : State) (k j : Nat) (q : Queue) (h : j ≠ k) : (s.setQueue k q).queue j = s.queue j := by
  simp [State.setQueue, State.queue, SMap.getD_set, h]

/-- From `s` to `u` only queues have changed. -/
def QueuesOnly (s u : State) : Prop := u = { s with queues := u.queues }

namespace QueuesOnly

theorem setQueue (s : State) (k : Nat) (q : Queue) : QueuesOnly s (s.setQueue k q) := rfl

theorem foldl {f : State → Nat → State} (h : ∀ s k, QueuesOnly s (f s k)) (l : List Nat) (s : State) :
    QueuesOnly s (l.foldl f s) :=
  List.foldlRecOn l f (motive := QueuesOnly s) rfl fun u g k _ => (h u k).trans (by rw [g])

variable {s u : State} (h : QueuesOnly s u)
include h

theorem tiles : u.tiles = s.tiles := by rw [h]
theorem mem : u.mem = s.mem := by rw [h]
theorem engResets : u.engResets = s.engResets := by rw [h]

end QueuesOnly

/-- A fold that settles each queue of a list, and touches no other, leaves all of them settled. -/
theorem foldl_queue {P : Queue → Prop} {f : State → Nat → State} (settles : ∀ s k, P ((f s k).queue k))
    (beside : ∀ s k j, j ≠ k → (f s k).queue j = s.queue j) (l : List Nat) (s : State) :
    ∀ k ∈ l, P ((l.foldl f s).queue k) := by
  induction l using List.reverseRecOn with
  | nil => exact fun k none => absurd none (List.not_mem_nil)
  | append_singleton l j ih =>
    intro k mem
    rw [List.foldl_append, List.foldl_cons, List.foldl_nil]
    rcases eq_or_ne k j with rfl | other
    · exact settles _ k
    · rw [beside _ j k other]
      refine ih k ?_
      rcases List.mem_append.1 mem with old | new
      · exact old
      · exact absurd (List.mem_singleton.1 new) other

/-- A queue that runs stops fetching. -/
def stopRunning (s : State) (k : Nat) : State :=
  if (s.queue k).st = .run then s.setQueue k { s.queue k with st := .stopped } else s

/-- A queue that was stopped fetches again. -/
def runStopped (s : State) (k : Nat) : State :=
  if (s.queue k).st = .stopped then s.setQueue k { s.queue k with st := .run } else s

theorem queuesOnly_stopRunning (s : State) (k : Nat) : QueuesOnly s (stopRunning s k) := by
  unfold stopRunning
  split <;> rfl

theorem queuesOnly_runStopped (s : State) (k : Nat) : QueuesOnly s (runStopped s k) := by
  unfold runStopped
  split <;> rfl

theorem stopRunning_self (s : State) (k : Nat) : ((stopRunning s k).queue k).st ≠ .run := by
  unfold stopRunning
  split
  · rw [State.queue_setQueue]
    exact nofun
  · assumption

theorem stopRunning_beside (s : State) (k j : Nat) (h : j ≠ k) : (stopRunning s k).queue j = s.queue j := by
  unfold stopRunning
  split
  · exact State.queue_setQueue_ne s k j _ h
  · rfl

/-! ### Requests and the drain (R69, R70) -/

/-- A change of queues, and then of the preemption state of a tile, leaves memory, registers of the tile and the other tiles. -/
theorem noDma_setTile {s u : State} {t : Nat} {T : Tile} (only : QueuesOnly s u) (regs : SameRegs (s.tile t) T) :
    OtherTiles t s (u.setTile t T) ∧ (u.setTile t T).mem = s.mem ∧ SameRegs (s.tile t) ((u.setTile t T).tile t) := by
  rw [State.tile_setTile]
  exact ⟨otherTiles_of_tiles (setTile_tiles_congr only.tiles t T), only.mem, regs⟩

section Requests

variable (s : State) (t : TileId)

theorem requestSave_eq (k : PreemptKind) (none : (s.tile t.val).preempt = none)
    (may : (s.tile t.val).st = .run ∨ (s.tile t.val).st = .stepwait ∨ (s.tile t.val).st = .handler) :
    requestSave s t.val k = (if k = .urgent ∨ (s.tile t.val).st = .stepwait then (State.tileQueues t.val).foldl stopRunning s
      else s).setTile t.val { s.tile t.val with preempt := some k, preemptResult := 0 } := by
  refine if_neg ?_
  rw [none]
  rintro (now | ⟨run, stepwait, handler⟩)
  · exact absurd now (by decide)
  · exact may.elim run fun h => h.elim stepwait handler

theorem restoreRequest_eq (none : (s.tile t.val).preempt = none) (idle : (s.tile t.val).st = .idle) :
    exec (.restoreRequest t) s
      = .next (s.setTile t.val { s.tile t.val with st := .restore, preempt := some .restore, preemptResult := 0 }) :=
  congrArg Host.Outcome.next (if_pos ⟨idle, none⟩)

theorem preemptDefer_eq (urgent : (s.tile t.val).preempt = some .urgent) (early : (s.tile t.val).saving = false) :
    exec (.preemptDefer t) s = .next (((State.tileQueues t.val).foldl runStopped s).setTile t.val
      { s.tile t.val with preempt := some .step, preemptResult := 2 }) :=
  congrArg Host.Outcome.next (if_pos ⟨urgent, early⟩)

/-- With nothing in flight, the save of a tile at its place begins. -/
theorem preemptDrainDone_eq (retired : (s.tile t.val).flights = []) (drained : (s.tile t.val).drain = none)
    (answered : ∀ r ∈ s.reqs.vals, r.tile ≠ t.val) (idle : ∀ k ∈ State.tileQueues t.val, (s.queue k).active = [])
    (still : s.reviving (s.tile t.val).ctxIndex = false)
    (place : (s.tile t.val).preempt = some .urgent ∧ (s.tile t.val).st = .run
      ∨ (s.tile t.val).preempt = some .step ∧ (s.tile t.val).st = .stepwait) :
    exec (.preemptDrainDone t) s = .next (((State.tileQueues t.val).foldl stopRunning s).setTile t.val
      { s.tile t.val with
        st := .save, saving := true, savedRun := (s.tile t.val).st == .run
        savedUrgent := (s.tile t.val).preempt == some .urgent, asm := [], held := false, stall := 0 }) := by
  refine congrArg Host.Outcome.next (if_pos ⟨?_, ?_⟩)
  · have noReq : (s.reqs.vals.any fun r => r.tile == t.val) = false :=
      List.any_eq_false.2 fun r mem => by simpa using answered r mem
    have noDesc : (State.tileQueues t.val).all (fun k => (s.queue k).active.all fun a => a.status != 0) = true :=
      List.all_eq_true.2 fun k mem => by rw [idle k mem]; rfl
    rw [retired, drained, noReq, noDesc, still, Bool.and_false]
    rfl
  · rcases place with ⟨pre, st⟩ | ⟨pre, st⟩ <;> rw [pre, st] <;> rfl

end Requests

/-! ### Save and restore (R72, R74) -/

/-- From `s` to `u` no tile, no queue and no engine reset has changed. -/
structure EnginesKept (s u : State) : Prop where
  tiles : u.tiles = s.tiles
  queues : u.queues = s.queues
  engResets : u.engResets = s.engResets

theorem EnginesKept.refl (s : State) : EnginesKept s s := ⟨rfl, rfl, rfl⟩

theorem EnginesKept.trans {s u v : State} (h : EnginesKept s u) (g : EnginesKept u v) : EnginesKept s v :=
  ⟨g.tiles.trans h.tiles, g.queues.trans h.queues, g.engResets.trans h.engResets⟩

theorem Writes.enginesKept {W : Nat → Prop} {s u : State} (h : Writes W s u) : EnginesKept s u := ⟨h.tiles, h.queues, h.engResets⟩

theorem enginesKept_updCtx (s : State) (c : Nat) (f : Ctx → Ctx) : EnginesKept s (s.updCtx c f) := by
  unfold State.updCtx
  split <;> exact ⟨rfl, rfl, rfl⟩

theorem enginesKept_setCtxSt (s : State) (c v : Nat) : EnginesKept s (s.setCtxSt c v) := (Recorded.setFld s _ _ _).enginesKept

theorem enginesKept_settleSave (s : State) (c : Nat) : EnginesKept s (settleSave s c) := by
  unfold settleSave
  split
  · split
    · exact (enginesKept_setCtxSt s c _).trans (enginesKept_updCtx _ c _)
    · exact EnginesKept.refl s
  · exact EnginesKept.refl s

theorem enginesKept_settleRestore (s : State) (c : Nat) : EnginesKept s (settleRestore s c) := by
  unfold settleRestore
  split
  · split
    · exact (enginesKept_setCtxSt s c _).trans (Recorded.setFld _ _ _ _).enginesKept
    · exact EnginesKept.refl s
  · exact EnginesKept.refl s

theorem recorded_saveFaults (s : State) (x : SaveEnd) (base : Nat) : Recorded s (saveFaults s x base) :=
  (Recorded.bump s _ _ _).trans ((Recorded.foldl (fun s _ => Recorded.lsError s _ _ _) _ _).trans
    (Recorded.foldl (fun s _ => Writes.setLines s _) _ _))

/-- The state once the save area of a tile is written. -/
def areaSaved (s : State) (x : SaveEnd) : State :=
  let base := s.fld (R.tileSaveBase x.tile.val) F.tileSaveBase_base * 0x10000
  saveFaults ((List.range 512).foldl (fun u b =>
    if ((s.tile x.tile.val).tag b).st = .free then u
    else u.writeBytes (base + 0x14000 + b * 0x1000) (u.readRaw (lsBase x.tile.val + b * 0x1000) 0x1000))
    (s.writeBytes base (saveHead s x.tile.val (s.tile x.tile.val)))) x base

theorem recorded_areaSaved (s : State) (x : SaveEnd) : Recorded s (areaSaved s x) := by
  refine (Writes.writeBytes s _ _).trans ((Recorded.foldl (fun u b => ?_) _ _).trans (recorded_saveFaults _ x _))
  split
  · exact Recorded.refl u
  · exact Writes.writeBytes u _ _

/-- The tile after its save: cleared, IDLE, with its step, trap registers, context and tags. -/
def savedTile (T : Tile) : Tile :=
  { Tile.reset with
    st := .idle, step := T.step, preemptResult := 1, trapCount := T.trapCount, trapPending := T.trapPending
    trapDouble := T.trapDouble, trapValid := T.trapValid, trapSlot := T.trapSlot, trapCause := T.trapCause, trapPc := T.trapPc
    trapOp := T.trapOp, trapAddr := T.trapAddr, resumePc := T.resumePc, bistDue := T.bistDue, ctxValid := T.ctxValid
    ctxIndex := T.ctxIndex, ctxGen := T.ctxGen, pc := T.pc, tags := T.tags }

def queuesReset (s : State) (t : Nat) : State := (State.tileQueues t).foldl (fun s k => s.setQueue k Queue.reset) s

theorem queuesOnly_queuesReset (s : State) (t : Nat) : QueuesOnly s (queuesReset s t) :=
  QueuesOnly.foldl (fun s k => QueuesOnly.setQueue s k _) _ s

theorem queuesReset_queue (s : State) (t : Nat) : ∀ k ∈ State.tileQueues t, (queuesReset s t).queue k = Queue.reset :=
  foldl_queue (P := fun q => q = Queue.reset) (fun s k => State.queue_setQueue s k _)
    (fun s k j other => State.queue_setQueue_ne s k j _ other) _ s

/-- The state at the end of a save, before an engine reset that waits for it. -/
def saveEnded (s : State) (x : SaveEnd) : State :=
  let t := x.tile.val
  let T := s.tile t
  settleSave ((((queuesReset (areaSaved s x) t).updCtx T.ctxIndex fun y =>
    { y with residues := y.residues.set t T.residues }).clearRange (lsBase t) 0x200000).setTile t (savedTile T)) T.ctxIndex

theorem exec_saveComplete (s : State) (x : SaveEnd) : exec (.saveComplete x) s
    = .next (if (s.tile x.tile.val).st = .save then
        if resetWaits (saveEnded s x) x.tile.val then (saveEnded s x).clearTile x.tile.val .reset else saveEnded s x
      else s) := rfl

theorem saveEnded_frame (s : State) (x : SaveEnd) :
    (saveEnded s x).engResets = s.engResets
      ∧ (saveEnded s x).tiles = (s.setTile x.tile.val (savedTile (s.tile x.tile.val))).tiles
      ∧ (saveEnded s x).queues = (queuesReset (areaSaved s x) x.tile.val).queues := by
  have area := recorded_areaSaved s x
  have only := queuesOnly_queuesReset (areaSaved s x) x.tile.val
  have cleared (f : Ctx → Ctx) (c a n : Nat) : EnginesKept (queuesReset (areaSaved s x) x.tile.val)
      (((queuesReset (areaSaved s x) x.tile.val).updCtx c f).clearRange a n) :=
    (enginesKept_updCtx _ c f).trans (Writes.clearRange (W := fun _ => True) _ a n).enginesKept
  unfold saveEnded
  have settled := enginesKept_settleSave
  refine ⟨?_, ?_, ?_⟩
  · rw [(settled _ _).engResets, State.setTile_engResets, (cleared _ _ _ _).engResets, only.engResets, area.engResets]
  · rw [(settled _ _).tiles, setTile_tiles_congr ((cleared _ _ _ _).tiles.trans (only.tiles.trans area.tiles))]
  · rw [(settled _ _).queues, State.setTile_queues, (cleared _ _ _ _).queues]

/-- The end of a save that no engine reset waits for. -/
theorem saveComplete_eq (s : State) (x : SaveEnd) (saving : (s.tile x.tile.val).st = .save)
    (free : resetWaits s x.tile.val = false) : exec (.saveComplete x) s = .next (saveEnded s x) := by
  have unreset : resetWaits (saveEnded s x) x.tile.val = false := by rw [resetWaits, (saveEnded_frame s x).1]; exact free
  rw [exec_saveComplete, if_pos saving, unreset]
  rfl

theorem loadQueue_tiles (s : State) (c : Nat) (step : W64) (k a : Nat) : (loadQueue s c step k a).tiles = s.tiles := rfl

/-- The tile, its local store and its queues as the save area at `base` holds them. -/
def areaLoaded (s : State) (t base : Nat) : State :=
  let T := loadTile s t base
  (List.range 8).foldl (fun u q => loadQueue u T.ctxIndex T.step (t * 8 + q) (base + 0x500 + 64 * q))
    ((List.range 512).foldl (fun u b => if (T.tag b).st = .free then u
      else u.writeRaw (lsBase t + b * 0x1000) (u.bytesAt (base + 0x14000 + b * 0x1000) 0x1000)) (s.setTile t T))

theorem areaLoaded_tiles (s : State) (t base : Nat) :
    (areaLoaded s t base).tiles = (s.setTile t (loadTile s t base)).tiles := by
  unfold areaLoaded
  dsimp only
  rw [foldl_keeps State.tiles (fun u q => loadQueue_tiles u _ _ _ _), (Recorded.foldl (fun u b => ?_) _ _).tiles]
  split
  · exact Recorded.refl u
  · exact Writes.writeRaw u _ _

/-- The state at the end of a restore. -/
def restoreEnded (s : State) (t base : Nat) : State :=
  settleRestore (((areaLoaded s t base).bump (R.mxaBusycnt t) F.mxaBusycnt_active 32).setReg (R.tileStepctl t)
    (BitVec.ofNat 64 (s.load (base + 0x20) 8 % 2 ^ 32))) (loadTile s t base).ctxIndex

theorem restoreEnded_tiles (s : State) (t base : Nat) :
    (restoreEnded s t base).tiles = (s.setTile t (loadTile s t base)).tiles := by
  rw [restoreEnded, (enginesKept_settleRestore _ _).tiles, State.setReg_tiles, State.bump_tiles, areaLoaded_tiles]

theorem exec_restoreComplete (s : State) (t : TileId) : exec (.restoreComplete t) s
    = .next (if (s.tile t.val).st = .restore then
        restoreEnded s t.val (s.fld (R.tileSaveBase t.val) F.tileSaveBase_base * 0x10000) else s) := rfl

theorem restoreComplete_eq (s : State) (t : TileId) (restoring : (s.tile t.val).st = .restore) :
    exec (.restoreComplete t) s
      = .next (restoreEnded s t.val (s.fld (R.tileSaveBase t.val) F.tileSaveBase_base * 0x10000)) := by
  rw [exec_restoreComplete, if_pos restoring]

theorem loadTile_st (s : State) (t base : Nat) : (loadTile s t base).st = .run ∨ (loadTile s t base).st = .stepwait := by
  change (if _ then TileSt.run else .stepwait) = .run ∨ (if _ then TileSt.run else .stepwait) = .stepwait
  split
  · exact .inl rfl
  · exact .inr rfl

/-! ### The obligation -/

/-- Settles O25: requests and the drain change queues and the preemption state (`noDma_setTile`); `saveEnded_frame` says what
the end of a save leaves, `restoreEnded_tiles` what the end of a restore does. -/
theorem preemptionSaveAndRestore : Obligations.PreemptionSaveAndRestore := by
  unfold Obligations.PreemptionSaveAndRestore
  refine ⟨fun s t => ⟨fun none may => ⟨?_, ?_⟩, ?_, ?_, ?_⟩, fun s t n bad => ⟨?_, ?_⟩⟩
  · have request := requestSave_eq s t .step none may
    refine ⟨_, congrArg Host.Outcome.next request, noDma_setTile ?_ (SameRegs.refl _), ?_⟩
    · split
      · exact QueuesOnly.foldl queuesOnly_stopRunning _ s
      · rfl
    · rw [State.tile_setTile]
  · have request := requestSave_eq s t .urgent none may
    rw [if_pos (.inl rfl)] at request
    refine ⟨_, congrArg Host.Outcome.next request,
      noDma_setTile (QueuesOnly.foldl queuesOnly_stopRunning _ s) (SameRegs.refl _), ?_, ?_⟩
    · rw [State.tile_setTile]
    · have stopped := foldl_queue (P := fun q => q.st ≠ .run) stopRunning_self stopRunning_beside (State.tileQueues t.val) s
      intro k mem
      rw [State.queue, State.setTile_queues]
      exact stopped k mem
  · exact fun none idle => ⟨_, restoreRequest_eq s t none idle, rfl⟩
  · intro retired drained answered idle still place
    refine ⟨_, preemptDrainDone_eq s t retired drained answered idle still place,
      noDma_setTile (QueuesOnly.foldl queuesOnly_stopRunning _ s) (SameRegs.refl _), ?_⟩
    rw [State.tile_setTile]
    exact ⟨rfl, rfl, beq_iff_eq⟩
  · intro urgent early
    refine ⟨_, preemptDefer_eq s t urgent early, noDma_setTile (QueuesOnly.foldl queuesOnly_runStopped _ s) (SameRegs.refl _), ?_⟩
    rw [State.tile_setTile]
    exact ⟨rfl, rfl⟩
  · intro saving free
    obtain ⟨-, tiles, queues⟩ := saveEnded_frame s ⟨t, n, bad⟩
    have after := tile_of_tiles tiles
    refine ⟨_, saveComplete_eq s ⟨t, n, bad⟩ saving free, ?_⟩
    dsimp only at after ⊢
    rw [after]
    refine ⟨rfl, rfl, rfl, rfl, rfl, otherTiles_of_tiles tiles, fun k mem => ?_⟩
    rw [State.queue, queues]
    exact queuesReset_queue (areaSaved s ⟨t, n, bad⟩) t.val k mem
  · intro restoring
    have tiles := restoreEnded_tiles s t.val (s.fld (R.tileSaveBase t.val) F.tileSaveBase_base * 0x10000)
    refine ⟨_, restoreComplete_eq s t restoring, otherTiles_of_tiles tiles, ?_⟩
    rw [tile_of_tiles tiles]
    exact ⟨SameRegs.refl _, rfl, rfl, loadTile_st s t.val _, rfl⟩

end Sys2Proof.Machine
end

section
/-! O6. What reset leaves. -/

namespace Sys2Proof.Machine

/-- Settles O6: the reset state holds no context, queue entry or object, and the fields named have the values of the tables. -/
theorem resetState : Obligations.ResetState := by
  unfold Obligations.ResetState
  refine ⟨rfl, rfl, rfl, fun t => ⟨?_, ?_, ?_⟩, fun k => ?_, fun k => rfl, ?_⟩
  · rfl
  · rfl
  · rfl
  · rfl
  · decide +kernel

end Sys2Proof.Machine
end

section
/-! O39. Commands of settings apply all their items or none. -/

namespace Sys2Proof.Machine

/-! ### Management commands -/

/-- A command that is taken replies with what its body answers. -/
theorem mgmt_taken {code : Nat} {paths : Paths} {reports : Bool} {c : Cmd} {s : State} (taken : Taken code paths reports c s)
    (f : State → Nat × List Byte × State) :
    mgmt code paths reports c s f = reply (f s).2.2 code c (f s).1 (f s).2.1 := by
  obtain ⟨path, level, ready⟩ := taken
  refine if_neg ?_
  rintro (shut | ⟨restricted, changes⟩ | ⟨boot, other, another⟩)
  · rw [path] at shut
    exact absurd shut (by decide)
  · rcases level with free | reports
    · rw [free] at restricted
      exact absurd restricted (by decide)
    · rw [reports] at changes
      exact absurd changes (by decide)
  · rcases ready with up | one | four
    · exact up boot
    · exact other one
    · exact another four

/-- The reply of a command whose instruction is `mgmt` of the body `f`. -/
theorem replies_of_mgmt {i : Instr} {code : Nat} {paths : Paths} {reports : Bool} {c : Cmd} {s s1 : State}
    {f : State → Nat × List Byte × State} {st : Nat} {payload : List Byte} (run : exec i s = .next (mgmt code paths reports c s f))
    (taken : Taken code paths reports c s) (body : f s = (st, payload, s1)) : Replies i code c s st payload s1 :=
  ⟨_, run, by rw [mgmt_taken taken, body]⟩

/-! ### Items -/

/-- Items that pass every check apply together, when what the command asks beside them holds. -/
theorem applyItems_ok {s : State} {c : Cmd} {tab : List Setting} {l : List Item} (ok : ItemsOk s c tab l)
    (extra : SMap (W64 × W64) → Bool) :
    applyItems s c tab l extra
      = if extra (gatherItems l) = true then (St.ok, [], withItems s l) else (St.bound, [], s) := by
  obtain ⟨items, regs⟩ := ok
  have noItem : (l.find? fun i => !(itemOk s c tab i)) = none :=
    List.find?_eq_none.2 fun i mem => by rw [items i mem]; decide
  have noReg : ((gatherItems l).rows.find? fun r => !(regOk s r.1 r.2.1 r.2.2)) = none :=
    List.find?_eq_none.2 fun r mem => by rw [regs r mem]; decide
  unfold applyItems
  dsimp only
  rw [noItem, noReg]
  cases extra (gatherItems l) <;> rfl

/-- The first item that may not be set stops the command, and is logged. -/
theorem applyItems_bad {s : State} {c : Cmd} {tab : List Setting} {l : List Item} {x : Item}
    (bad : (l.find? fun i => !(itemOk s c tab i)) = some x) (extra : SMap (W64 × W64) → Bool) :
    applyItems s c tab l extra
      = (St.bound, [], rejectReg s .item (Item.reg x) true ((RegTab.find (Item.reg x)).bind fun d => regPart d.1.base d.2)) := by
  unfold applyItems
  dsimp only
  rw [bad]

/-- A command that asks nothing beside its items. -/
theorem sets_of_mgmt {i : Instr} {code : Nat} {paths : Paths} {tab : List Setting} {c : Cmd} {l : List Item} {s : State}
    (run : exec i s = .next (mgmt code paths false c s fun s => applyItems s c tab l fun _ => true)) :
    Sets i code paths tab c l s := fun taken =>
  ⟨fun ok => replies_of_mgmt run taken ((applyItems_ok ok _).trans (if_pos rfl)),
    fun _ bad => replies_of_mgmt run taken (applyItems_bad bad _)⟩

/-- A command that asks `P` beside its items. -/
theorem replies_if {i : Instr} {code : Nat} {paths : Paths} {tab : List Setting} {c : Cmd} {l : List Item} {s : State}
    {f : State → Nat × List Byte × State} {extra : SMap (W64 × W64) → Bool} {P : Prop} [Decidable P]
    (run : exec i s = .next (mgmt code paths false c s f)) (body : f s = applyItems s c tab l extra)
    (taken : Taken code paths false c s) (ok : ItemsOk s c tab l) (asks : extra (gatherItems l) = true ↔ P) :
    Replies i code c s (if P then St.ok else St.bound) [] (if P then withItems s l else s) := by
  refine replies_of_mgmt run taken (body.trans ((applyItems_ok ok extra).trans ?_))
  by_cases holds : P
  · rw [if_pos (asks.2 holds), if_pos holds, if_pos holds]
  · rw [if_neg fun e => holds (asks.1 e), if_neg holds, if_neg holds]

/-! ### Tick roles -/

/-- SetTickRoles may set the port field `f`: to a port, or to none. -/
def portAllowed (f : Fld) (g : SMap (W64 × W64)) : Bool :=
  match g.get? R.plTickctl with
  | some (m, x) => !(m.getLsbD f.lo) || decide (bitsOf x.toNat f.hi f.lo < 24) || bitsOf x.toNat f.hi f.lo == 31
  | none => true

theorem portAllowed_of {f : Fld} {g : SMap (W64 × W64)} {m x : W64} (at_ : g.get? R.plTickctl = some (m, x))
    (may : m.getLsbD f.lo = true → bitsOf x.toNat f.hi f.lo < 24 ∨ bitsOf x.toNat f.hi f.lo = 31) : portAllowed f g = true := by
  rw [portAllowed, at_]
  by_cases set : m.getLsbD f.lo = true
  · rcases may set with port | none
    · simp [port]
    · simp [none]
  · simp [set]

theorem setTickRoles_run (s : State) (c : Cmd) (l : List Item) (lat : BitVec 22) : exec (.setTickRoles c l lat) s
    = .next (mgmt 0x0306 .both false c s fun s =>
        let r := applyItems s c [⟨R.plTickctl, F.plTickctl_role, 0, 2⟩, ⟨R.plTickctl, F.plTickctl_parent, 0, 31⟩,
          ⟨R.plTickctl, F.plTickctl_alt_parent, 0, 31⟩] l
          fun g => portAllowed F.plTickctl_parent g && portAllowed F.plTickctl_alt_parent g
        (r.1, r.2.1, if r.1 = St.ok then setTickTimes r.2.2 lat.toNat else r.2.2)) := rfl

/-! ### The obligation -/

/-- Settles O39: every command is `mgmt` of `applyItems`; `sets_of_mgmt` and `replies_if` say what it answers and leaves. -/
theorem settingsCommands : Obligations.SettingsCommands := by
  unfold Obligations.SettingsCommands
  intro s c l lat
  refine ⟨sets_of_mgmt rfl, sets_of_mgmt rfl, sets_of_mgmt rfl, sets_of_mgmt rfl, sets_of_mgmt rfl, sets_of_mgmt rfl,
    sets_of_mgmt rfl, sets_of_mgmt rfl, sets_of_mgmt rfl, sets_of_mgmt rfl, sets_of_mgmt rfl, sets_of_mgmt rfl,
    sets_of_mgmt rfl, ?_, ?_, ?_, ?_⟩
  · intro taken m x at_ ok
    refine replies_if rfl rfl taken ok ?_
    rw [at_]
    exact decide_eq_true_iff
  · intro taken share ok
    exact replies_of_mgmt rfl taken ((applyItems_ok ok _).trans (if_pos share))
  · intro taken m x at_ ok
    refine replies_if rfl rfl taken ok ?_
    rw [at_]
    exact beq_iff_eq
  · intro taken m x at_ ports ok
    refine replies_of_mgmt (setTickRoles_run s c l lat) taken ?_
    have both : (portAllowed F.plTickctl_parent (gatherItems l) && portAllowed F.plTickctl_alt_parent (gatherItems l)) = true := by
      rw [portAllowed_of at_ (ports _ (by simp)), portAllowed_of at_ (ports _ (by simp))]
      rfl
    dsimp only
    rw [applyItems_ok ok, if_pos both]
    rfl

end Sys2Proof.Machine
end

section
/-! O41. Context commands. -/

namespace Sys2Proof.Machine

/-! ### The context list -/

theorem State.get?_setCtx (s : State) (k : Nat) (x : Ctx) : (s.setCtx k x).ctxs.get? k = some x := by
  simp [State.setCtx]

theorem State.setCtx_setCtx (s : State) (k : Nat) (x y : Ctx) : (s.setCtx k x).setCtx k y = s.setCtx k y := by
  simp [State.setCtx]

theorem State.updCtx_of_get? {s : State} {k : Nat} {x : Ctx} (at_ : s.ctxs.get? k = some x) (f : Ctx → Ctx) :
    s.updCtx k f = s.setCtx k (f x) := by
  rw [State.updCtx, at_]

theorem State.ctxTiles_of_get? {s : State} {k : Nat} {x : Ctx} (at_ : s.ctxs.get? k = some x) : s.ctxTiles k = x.tiles := by
  rw [State.ctxTiles, at_]
  rfl

/-- A context with the reasons `l` to hold. -/
def Ctx.withHolds (x : Ctx) (l : List HoldWhy) : Ctx := { x with holds := l }

/-- In a context that does not run, a reason to hold leaves the list of reasons and nothing else. -/
theorem State.unhold_still {s : State} {k : Nat} {x : Ctx} (at_ : s.ctxs.get? k = some x) (still : s.ctxSt k ≠ CtxSt.running)
    (why : HoldWhy) : s.unhold k why = s.setCtx k (x.withHolds (x.holds.filter (· != why))) := by
  rw [State.unhold, at_]
  exact if_neg fun runs => still runs.2

theorem State.unhold_withHolds {s : State} {k : Nat} (x : Ctx) (l : List HoldWhy) (still : s.ctxSt k ≠ CtxSt.running)
    (why : HoldWhy) : (s.setCtx k (x.withHolds l)).unhold k why = s.setCtx k (x.withHolds (l.filter (· != why))) :=
  (State.unhold_still (State.get?_setCtx s k _) still why).trans (State.setCtx_setCtx s k _ _)

/-- ReleaseContext in a held context, with the host link up, drops the four reasons it ends. -/
theorem releaseCtx_held {s : State} {k : Nat} {x : Ctx} (at_ : s.ctxs.get? k = some x) (held : s.ctxSt k = CtxSt.held)
    (link : s.fld R.hifLink F.hifLink_width ≠ 0) : releaseCtx s k = some (s.setCtx k (x.withHolds
      (x.holds.filter fun h => h != .driver && h != .peerLost && h != .depart && h != .hostLink))) := by
  have still : s.ctxSt k ≠ CtxSt.running := by rw [held]; decide
  have four : (((x.holds.filter (· != .driver)).filter (· != .peerLost)).filter (· != .depart)).filter (· != .hostLink)
      = x.holds.filter fun h => h != .driver && h != .peerLost && h != .depart && h != .hostLink := by
    simp only [List.filter_filter]
    exact List.filter_congr fun h _ => by cases h <;> rfl
  unfold releaseCtx
  rw [if_pos (.inr held), State.unhold_still at_ still]
  simp only [State.unhold_withHolds x _ still, if_neg link, State.get?_setCtx]
  rw [four]
  exact congrArg some (if_neg fun runs => still runs.2)

/-! ### Loads -/

theorem freeSlot_lt {s : State} {mask : Nat} {recent : List CtxId} {i : Nat} (free : freeSlot s mask recent = some i) : i < 512 := by
  unfold freeSlot at free
  have listed := List.mem_of_find?_eq_some free
  rw [List.mem_filter, List.mem_range] at listed
  exact listed.1

theorem State.fld_setCtx (s : State) (k : Nat) (x : Ctx) (r : Nat) (f : Fld) : (s.setCtx k x).fld r f = s.fld r f := rfl

section AcceptLoad

variable (s : State) (i : Nat) (r : Rec) (order : Nat) (inb : List (Nat × Bool))

theorem acceptLoad_mem : (acceptLoad s i r order inb).mem = s.mem := by
  rw [acceptLoad, State.setCtx_mem, State.setCtxSt, State.setFld_mem, State.setFld_mem, State.setFld_mem]

theorem acceptLoad_ctxs : (acceptLoad s i r order inb).ctxs
    = s.ctxs.set i (Ctx.loading r order ((s.ctxs.vals.map (·.loadNo)).foldl max 0 + 1) inb) := by
  rw [acceptLoad, State.setCtx]
  dsimp only
  rw [State.setCtxSt, State.setFld_ctxs, State.setFld_ctxs, State.setFld_ctxs]

theorem acceptLoad_ctxSt : (acceptLoad s i r order inb).ctxSt i = CtxSt.loading := by
  rw [acceptLoad, State.ctxSt, State.fld_setCtx, State.setCtxSt, State.fld_setFld _ _ _ _ (by decide)]
  decide

/-- The ID of the load: the index with the generation the index had. -/
theorem acceptLoad_ctxId (small : i < 512) : (acceptLoad s i r order inb).ctxId i = i * 128 + s.ctxId i % 128 := by
  have fits : i * 128 + s.ctxId i % 128 < 2 ^ 16 := by omega
  rw [acceptLoad, State.ctxId, State.fld_setCtx, State.setCtxSt, State.fld_setFld_beside _ _ _ _ _ (by decide) (by decide),
    State.fld_setFld_beside _ _ _ _ _ (by decide) (by decide), State.fld_setFld _ _ _ _ (by decide)]
  exact Nat.mod_eq_of_lt fits

end AcceptLoad

/-! ### Commands that name a context -/

/-- A command on the context `k` that its body accepts. -/
theorem replies_of_ctxCommand {i : Instr} {code k : Nat} {c : Cmd} {s s1 : State} {f : State → Nat → Option State}
    (run : exec i s = ctxCommand code c s f) (taken : Taken code .hostOnly false c s) (scope : scopeCtx c = some k)
    (body : f s k = some s1) : Replies i code c s St.ok [] s1 :=
  replies_of_mgmt run taken (by rw [scope]; dsimp only; rw [body])

/-- Outside LOADING a StartContext is a command like the others. -/
theorem startContext_run {c : Cmd} {s : State} {k : Nat} (scope : scopeCtx c = some k) (loaded : s.ctxSt k ≠ CtxSt.loading) :
    exec (.startContext c) s = ctxCommand 0x0404 c s startCtx := by
  change execStartContext c s = _
  unfold execStartContext
  split
  · next index _ named =>
    obtain rfl : index = k := Option.some.inj (named.symm.trans scope)
    exact if_neg fun loading => loaded loading.1
  · rfl

/-- A StartContext while the context loads is kept. -/
theorem startContext_loading {c : Cmd} {s : State} {k : Nat} {x : Ctx} (path : c.path = .host) (scope : scopeCtx c = some k)
    (at_ : s.ctxs.get? k = some x) (loading : s.ctxSt k = CtxSt.loading) (free : s.board.restricted = false) :
    exec (.startContext c) s = .next (s.setCtx k { x with startCmds := x.startCmds ++ [c] }) := by
  change execStartContext c s = _
  unfold execStartContext
  rw [path, scope]
  dsimp only
  rw [if_pos ⟨loading, free⟩, State.updCtx_of_get? at_]

theorem updateWindows_ok {s : State} {k a : Nat} {x : Ctx} (at_ : s.ctxs.get? k = some x)
    (may : s.ctxSt k = CtxSt.ready ∨ s.ctxSt k = CtxSt.running ∨ s.ctxSt k = CtxSt.held ∨ s.ctxSt k = CtxSt.saved)
    (read : s.statusAt a 512 = .ok) (ok : windowsOk s k x.mask x.tiles (fun w => s.bytesAt (a + 32 * w) 32) = true) :
    updateWindows s k a
      = some (s.setCtx k { x with nextWindows := some (windowsOf fun w => s.bytesAt (a + 32 * w) 32) }) := by
  rw [updateWindows, at_]
  exact if_pos ⟨may, read, ok⟩

/-! ### The obligation -/

/-- Settles O41: a load by the lemmas on `acceptLoad`, every other command by `replies_of_ctxCommand` and what its body does. -/
theorem contextCommands : Obligations.ContextCommands := by
  unfold Obligations.ContextCommands
  intro s c k x
  refine ⟨?_, ?_, ?_, ?_, ?_, ?_, ?_, ?_, ?_⟩
  · intro a o recent inb r i taken read order mask free
    let s1 := acceptLoad s i r o.toNat (inb.map fun y => (y.1.toNat, y.2))
    refine ⟨s1, replies_of_mgmt rfl taken ?_, acceptLoad_ctxSt s i r _ _, acceptLoad_mem s i r _ _, acceptLoad_ctxs s i r _ _⟩
    rw [read]
    dsimp only
    rw [if_neg (fun bad => bad rfl), if_neg (by rw [order, mask]; decide), free]
    dsimp only
    rw [acceptLoad_ctxId s i r _ _ (freeSlot_lt free)]
  · intro ready taken scope at_
    refine replies_of_ctxCommand (startContext_run scope (by rw [ready]; decide)) taken scope ?_
    rw [startCtx, if_pos (.inl ready), State.updCtx_of_get? at_]
  · intro path scope at_ loading free
    exact ⟨_, startContext_loading path scope at_ loading free, rfl⟩
  · intro st taken scope at_
    exact replies_of_ctxCommand rfl taken scope (if_pos st)
  · intro held link taken scope at_
    exact replies_of_ctxCommand rfl taken scope (releaseCtx_held at_ held link)
  · intro urgent st taken scope at_
    refine replies_of_ctxCommand rfl taken scope ?_
    rw [preemptCtx, if_pos st, State.ctxTiles_of_get? at_]
  · intro saved taken scope at_
    refine replies_of_ctxCommand rfl taken scope ?_
    rw [resumeCtx, if_pos saved, State.ctxTiles_of_get? at_]
  · intro st taken scope at_
    exact replies_of_ctxCommand rfl taken scope (if_pos st)
  · intro a b st read ok taken scope at_
    exact replies_of_ctxCommand rfl taken scope (updateWindows_ok at_ st read ok)

end Sys2Proof.Machine
end

section
/-! O46. Tick announcements, the ready check and slips. -/

namespace Sys2Proof.Machine

/-! ### Packets of a link -/

/-- From `s` to `u` only the fabric's links and what is sent have changed. -/
def FabOnly (s u : State) : Prop := u = { s with fab := u.fab, outbox := u.outbox }

namespace FabOnly

theorem refl (s : State) : FabOnly s s := rfl

theorem trans {s u v : State} (h : FabOnly s u) (g : FabOnly u v) : FabOnly s v := by
  unfold FabOnly at *
  rw [g, h]

theorem emitLink (s : State) (k : Nat) (pk : Packet) : FabOnly s (s.emitLink k pk) := by
  unfold State.emitLink State.emitPacket
  split
  · dsimp only
    split <;> rfl
  · rfl

/-- A packet to each port of a list. -/
theorem emitLinks (f : State → Nat → Packet) (l : List Nat) (s : State) :
    FabOnly s (l.foldl (fun t k => t.emitLink k (f t k)) s) :=
  List.foldlRecOn l _ (motive := FabOnly s) rfl fun t h k _ => h.trans (emitLink t k _)

variable {s u : State} (h : FabOnly s u)
include h

theorem regs : u.regs = s.regs := by rw [h]
theorem part : u.part = s.part := by rw [h]
theorem ticks : u.ticks = s.ticks := by rw [h]
theorem tiles : u.tiles = s.tiles := by rw [h]
theorem mem : u.mem = s.mem := by rw [h]
theorem objs : u.objs = s.objs := by rw [h]
theorem fld (r : Nat) (f : Fld) : u.fld r f = s.fld r f := by rw [h]; rfl

end FabOnly

/-- What a link sends does not depend on the tiles. -/
theorem emitLink_withTiles (s : State) (m : SMap Tile) (q : Nat) (pk : Packet) :
    ({ s with tiles := m } : State).emitLink q pk = { s.emitLink q pk with tiles := m } := by
  change (if s.hasId then (if (s.link q).queue.isEmpty && State.retryRoom (s.link q) pk then
    ({ s with tiles := m } : State).sendFlits q pk else _) else _) = _
  unfold State.emitLink State.emitPacket
  dsimp only
  split
  · split <;> rfl
  · rfl

/-! ### Counters -/

theorem State.fld_lt (s : State) (r : Nat) (f : Fld) : s.fld r f < 2 ^ (f.hi + 1 - f.lo) := Nat.mod_lt _ (Nat.two_pow_pos _)

theorem satAdd_lt (w x n : Nat) : satAdd w x n < 2 ^ w := by
  have := Nat.two_pow_pos w
  unfold satAdd
  omega

/-- A counter reads its sum, or the largest value of its width. -/
theorem State.fld_bump (s : State) (r : Nat) (f : Fld) (n : Nat) (h : f.lo ≤ f.hi ∧ f.hi < 64) :
    (s.bump r f n).fld r f = satAdd (f.hi + 1 - f.lo) (s.fld r f) n := by
  rw [State.bump, State.fld_setFld _ _ _ _ h, Nat.mod_eq_of_lt (satAdd_lt _ _ _)]

/-! ### Announcement (R432, R436, R488, R489) -/

/-- The packets that pass a tick down the tree. -/
def tickSent (s : State) (n period master countdown : Nat) : State :=
  (childPorts s).foldl (fun t k =>
    t.emitLink k (linkPacket t Pk.tick (BitVec.ofNat 64 countdown) (tickPayload n period master))) s

theorem scheduleTick_frame (s : State) (n period master countdown : Nat) :
    let u := scheduleTick s n period master countdown
    u.ticks.announced = some n ∧ u.ticks.acting = s.ticks.acting ∧ u.outbox = (tickSent s n period master countdown).outbox
      ∧ u.fld R.devTickper F.devTickper_active = period % 2 ^ 29 ∧ ∀ r f, r ≠ R.devTickper → u.fld r f = s.fld r f := by
  have only : FabOnly s (tickSent s n period master countdown) := FabOnly.emitLinks _ _ s
  have acting : (tickSent s n period master countdown).ticks.acting = s.ticks.acting := by rw [only.ticks]
  refine ⟨rfl, acting, rfl, State.fld_setFld _ _ _ _ (by decide), fun r f other => ?_⟩
  exact (State.fld_setFld_ne _ _ _ _ _ _ other).trans (only.fld r f)

/-- A backup in place of the master is the master, whatever the registers beside PL.TICKCTL hold. -/
theorem isMaster_of_backup {u : State} (role : tickRole u = roleBackup) (acting : u.ticks.acting = true) : isMaster u = true := by
  rw [isMaster, role, acting]
  rfl

theorem isMaster_of_master {u : State} (role : tickRole u = roleMaster) : isMaster u = true := by
  rw [isMaster, role]
  rfl

theorem countSlip_slips (s : State) :
    (countSlip s).fld R.plTickstat F.plTickstat_slips = satAdd 32 (s.fld R.plTickstat F.plTickstat_slips) 1 :=
  State.fld_bump s R.plTickstat F.plTickstat_slips 1 (by decide)

theorem countSlip_fld (s : State) (r : Nat) (f : Fld) (other : r ≠ R.plTickstat) : (countSlip s).fld r f = s.fld r f :=
  State.fld_setFld_ne s _ _ _ _ _ other

section Announce

variable (s : State) (unannounced : s.ticks.announced = none)
include unannounced

theorem tickAnnounce_eq (master : isMaster s = true) : exec .tickAnnounce s = .next (announce s) :=
  congrArg Host.Outcome.next (if_pos ⟨master, unannounced⟩)

theorem backupMasterTakeover_eq (role : tickRole s = roleBackup) : exec .backupMasterTakeover s
    = .next (announce (countSlip (setTicks s { s.ticks with acting := true }))) :=
  congrArg Host.Outcome.next (if_pos ⟨role, unannounced⟩)

end Announce

theorem announce_master {s : State} (role : tickRole s = roleMaster) : announce s
    = scheduleTick s (((s.reg R.plTicknum).toNat + 1) % 2 ^ 64) (nextPeriod s) s.localDev
        (s.fld R.plTickctl F.plTickctl_lead * 1000) := by
  rw [announce, if_pos role]

/-- The backup keeps the period in force. -/
theorem announce_backup {s : State} (role : tickRole s = roleBackup) : announce s
    = scheduleTick s (((s.reg R.plTicknum).toNat + 1) % 2 ^ 64) (s.fld R.devTickper F.devTickper_active) s.localDev
        (s.fld R.plTickctl F.plTickctl_lead * 1000) := by
  rw [announce, if_neg (by rw [role]; decide)]

theorem tick_eq {s : State} {port : PortId} {k : Packet} (fits : k.fits 0x20 = true) (parent : tickParent s = some port.val)
    (named : s.hasId = true) : exec (.tick port k) s
      = .next (scheduleTick { s with ticks := { s.ticks with acting := false } } (leVal ((k.payload.drop 0).take 8))
          (leVal ((k.payload.drop 8).take 4) % 2 ^ 29) (leVal ((k.payload.drop 12).take 4) % 4096)
          (k.operand.toNat - s.fld (R.plPstat port.val) F.plPstat_latency)) := by
  change execTick port k s = _
  rw [execTick, if_neg (by rw [fits]; decide), if_neg (by rw [parent, named]; simp)]
  rfl

/-! ### The ready check (R54, R433) -/

section ReadyCheck

variable {s : State} {n : Nat} (announced : s.ticks.announced = some n)
include announced

theorem readyCheck_ready (ready : deviceReady s = true) : exec .readyCheck s = .next (countUnready s) := by
  change execReadyCheck s = _
  rw [execReadyCheck, announced]
  exact congrArg Host.Outcome.next (if_pos ready)

theorem readyCheck_unready (unready : deviceReady s = false) : exec .readyCheck s
    = .next (setTicks (reportUnready (countUnready s) n) { (reportUnready (countUnready s) n).ticks with missed := true }) := by
  change execReadyCheck s = _
  rw [execReadyCheck, announced]
  exact congrArg Host.Outcome.next (if_neg (by rw [unready]; decide))

end ReadyCheck

theorem reportUnready_master {s : State} (n : Nat) (master : isMaster s = true) :
    reportUnready s n = setTicks s { s.ticks with notReady := true, sentNotReady := true } := by
  rw [reportUnready, if_pos master]

theorem reportUnready_sent {s : State} (n : Nat) (below : isMaster s = false) (sent : s.ticks.sentNotReady = true) :
    reportUnready s n = s := by
  rw [reportUnready, if_neg (by rw [below]; decide), if_pos sent]

theorem reportUnready_up {s : State} (n q : Nat) (below : isMaster s = false) (first : s.ticks.sentNotReady = false)
    (parent : tickParent s = some q) :
    let s1 := s.emitLink q (linkPacket s Pk.notReady 0 (leBytes 8 n))
    reportUnready s n = setTicks s1 { s1.ticks with sentNotReady := true } := by
  unfold reportUnready
  rw [if_neg (by rw [below]; decide), if_neg (by rw [first]; decide), parent]

theorem notReady_eq {s : State} {port : PortId} {k : Packet} (fits : k.fits 0x22 = true) (up : s.portUp port.val = true)
    (announced : s.ticks.announced = some (leVal k.payload)) (named : s.hasId = true) : exec (.notReady port k) s
    = .next (if isMaster s then
        if s.ticks.decided then s.bump R.plTickstat F.plTickstat_late 1 else setTicks s { s.ticks with notReady := true }
      else reportUnready s (leVal k.payload)) := by
  change execNotReady port k s = _
  rw [execNotReady, if_neg (by rw [fits]; decide), if_neg (by rw [up, named, announced]; simp)]

/-- Below the master a report goes up once. -/
theorem notReady_again {s : State} {port : PortId} {k : Packet} (fits : k.fits 0x22 = true) (below : isMaster s = false)
    (sent : s.ticks.sentNotReady = true) : exec (.notReady port k) s = .next s := by
  change execNotReady port k s = _
  rw [execNotReady, if_neg (by rw [fits]; decide), reportUnready_sent _ below sent,
    if_neg (c := isMaster s = true) (by rw [below]; decide), ite_self]

/-! ### Slips (R433) -/

/-- A slip after packets to the children. -/
theorem slip_frame {s u : State} (only : FabOnly s u) :
    (slip u).ticks.announced = s.ticks.announced ∧ (slip u).tiles = s.tiles ∧ (slip u).mem = s.mem ∧ (slip u).objs = s.objs
      ∧ (slip u).fld R.plTickstat F.plTickstat_slips = satAdd 32 (s.fld R.plTickstat F.plTickstat_slips) 1 := by
  have announced : u.ticks.announced = s.ticks.announced := by rw [only.ticks]
  refine ⟨announced, only.tiles, only.mem, only.objs, (countSlip_slips u).trans ?_⟩
  rw [only.fld]

theorem slipDecision_slips {s : State} {n : Nat} (announced : s.ticks.announced = some n) (master : isMaster s = true)
    (reported : s.ticks.notReady = true) : exec .slipDecision s = .next (slip ((childPorts s).foldl (fun t k =>
      t.emitLink k (linkPacket t Pk.slip (BitVec.ofNat 64 ((s.fld R.plTickctl F.plTickctl_decide
        + max (s.fld R.plTickctl F.plTickctl_slip_q) (s.fld R.plTickctl F.plTickctl_check)) * 1000)) (leBytes 8 n))) s)) := by
  change execSlipDecision s = _
  rw [execSlipDecision, announced]
  dsimp only
  rw [if_neg (by rw [master]; decide), if_neg (by rw [reported]; decide)]

theorem slipDecision_decides {s : State} {n : Nat} (announced : s.ticks.announced = some n) (master : isMaster s = true)
    (unreported : s.ticks.notReady = false) :
    exec .slipDecision s = .next { s with ticks := { s.ticks with decided := true } } := by
  change execSlipDecision s = _
  rw [execSlipDecision, announced]
  dsimp only
  rw [if_neg (by rw [master]; decide), if_pos unreported]
  rfl

theorem slipDecision_below {s : State} (below : isMaster s = false) : exec .slipDecision s = .next s := by
  change execSlipDecision s = _
  unfold execSlipDecision
  split
  · rfl
  · rw [if_pos below]

theorem slip_eq {s : State} {port : PortId} {k : Packet} (fits : k.fits 0x21 = true) (parent : tickParent s = some port.val)
    (named : s.hasId = true) (announced : s.ticks.announced = some (leVal k.payload)) : exec (.slip port k) s
      = .next (slip ((childPorts s).foldl (fun t i => t.emitLink i (linkPacket t Pk.slip
          (BitVec.ofNat 64 (k.operand.toNat - s.fld (R.plPstat port.val) F.plPstat_latency)) k.payload)) s)) := by
  change execSlip port k s = _
  rw [execSlip, if_neg (by rw [fits]; decide), if_neg (by rw [parent, named, announced]; simp)]

/-! ### The obligation -/

/-- Settles O46: announcements by `scheduleTick_frame`, the ready check by the cases of `reportUnready`, slips by `slip_frame`. -/
theorem tickMessages : Obligations.TickMessages := by
  unfold Obligations.TickMessages
  intro s port k n role w next follows sent slips
  refine ⟨?_, ?_, ?_, ?_, ?_, ?_, ?_, ?_, ?_, ?_, ?_, ?_, ?_⟩
  · intro master none
    obtain ⟨announced, -, outbox, active, -⟩ := scheduleTick_frame s next (nextPeriod s) s.localDev
      (s.fld R.plTickctl F.plTickctl_lead * 1000)
    have run := tickAnnounce_eq s none (isMaster_of_master master)
    rw [announce_master master] at run
    exact ⟨_, run, announced, active, outbox⟩
  · intro backup acting none
    obtain ⟨announced, -, -, active, -⟩ := scheduleTick_frame s next (s.fld R.devTickper F.devTickper_active) s.localDev
      (s.fld R.plTickctl F.plTickctl_lead * 1000)
    have run := tickAnnounce_eq s none (isMaster_of_backup backup acting)
    rw [announce_backup backup] at run
    exact ⟨_, run, announced, active.trans (Nat.mod_eq_of_lt (State.fld_lt s _ _))⟩
  · intro backup none
    let s1 := countSlip (setTicks s { s.ticks with acting := true })
    have role1 : tickRole s1 = roleBackup := (countSlip_fld _ _ _ (by decide)).trans backup
    obtain ⟨announced, acting, -, -, regs⟩ := scheduleTick_frame s1 next (s1.fld R.devTickper F.devTickper_active) s1.localDev
      (s1.fld R.plTickctl F.plTickctl_lead * 1000)
    have same : s1.reg R.plTicknum = s.reg R.plTicknum := State.reg_setFld_ne _ _ _ _ _ (by decide)
    have run := backupMasterTakeover_eq s none backup
    rw [announce_backup role1, same] at run
    exact ⟨_, run, announced, acting, isMaster_of_backup ((regs _ _ (by decide)).trans role1) acting,
      (regs _ _ (by decide)).trans (countSlip_slips _)⟩
  · intro fits parent named
    obtain ⟨announced, acting, outbox, active, -⟩ := scheduleTick_frame follows (w 0 8) (w 8 4 % 2 ^ 29) (w 12 4 % 4096)
      (k.operand.toNat - s.fld (R.plPstat port.val) F.plPstat_latency)
    exact ⟨_, tick_eq fits parent named, announced, acting, active.trans (Nat.mod_mod _ _), outbox⟩
  · intro announced ready
    exact ⟨_, readyCheck_ready announced ready, rfl, rfl⟩
  · intro announced unready master
    have run := readyCheck_unready announced unready
    rw [reportUnready_master n (s := countUnready s) master] at run
    exact ⟨_, run, rfl, rfl, rfl⟩
  · intro q announced unready below first parent
    have run := readyCheck_unready announced unready
    rw [reportUnready_up n q (s := countUnready s) below first parent] at run
    have outbox := congrArg State.outbox (emitLink_withTiles s (countUnready s).tiles q (linkPacket s Pk.notReady 0 (leBytes 8 n)))
    exact ⟨_, run, rfl, rfl, outbox⟩
  · intro fits up named announced master
    have run := notReady_eq fits up announced named
    rw [if_pos master] at run
    exact ⟨_, run, fun early => if_neg (by rw [early]; decide), fun late => if_pos late⟩
  · intro fits _ _ below again
    exact ⟨s, notReady_again fits below again, rfl⟩
  · intro announced master unreported
    exact ⟨_, slipDecision_decides announced master unreported, rfl⟩
  · intro announced master reported
    exact ⟨_, slipDecision_slips announced master reported, slip_frame (FabOnly.emitLinks _ _ s), rfl⟩
  · intro below
    exact ⟨s, slipDecision_below below, rfl⟩
  · intro fits parent named announced
    exact ⟨_, slip_eq fits parent named announced, slip_frame (FabOnly.emitLinks _ _ s)⟩

end Sys2Proof.Machine
end

section
/-! O47. What a tick commits: a counterexample. -/

namespace Sys2Proof.Machine

/-! ### A tile whose context index names a register that counts within the step

No bound on a tile's context index is assumed, and at `0x200000` the address of CTX.STATE is that of COLL.STAT of partition 0,
whose count of commands starts again at a tick. The tile reads as held when the tick reaches its queues, so they keep their
counts, and as not held afterwards. -/

/-- Tile 0 with that index, COLL.STAT at the code of HELD, one chain done in queue 0, and tick 1 announced. -/
def overlapTick : State :=
  { State.reset with
    tiles := SMap.empty.set 0 { Tile.reset with ctxValid := true, ctxIndex := 0x200000 }
    regs := SMap.empty.set (R.collStat 0) (BitVec.ofNat 64 CtxSt.held)
    queues := SMap.empty.set 0 { Queue.reset with done := 1 }
    ticks := { TickState.reset with announced := some 1 } }

theorem tickFire_overlapTick : exec .tickFire overlapTick = .next (fireTick overlapTick 1) := rfl

theorem withheld_after_overlapTick : withheld (fireTick overlapTick 1) (qTile 0) = false := by decide +kernel

theorem done_after_overlapTick : ((fireTick overlapTick 1).queue 0).done = 1 := by decide +kernel

/-- Refutes O47: in `overlapTick` queue 0 keeps its count through the tick, though its tile is not withheld after it. The
statement lets a tile's context index be any number, also one whose CTX.STATE is a register that the tick clears. -/
theorem not_tickCommits : ¬ Obligations.TickCommits := by
  unfold Obligations.TickCommits
  intro holds
  obtain ⟨⟨u, run, -, -, cleared⟩, -⟩ := holds overlapTick 1 rfl rfl rfl
  obtain rfl : fireTick overlapTick 1 = u := Host.Outcome.next.inj (tickFire_overlapTick.symm.trans run)
  have zero := cleared 0 fun _ => withheld_after_overlapTick
  rw [done_after_overlapTick] at zero
  exact absurd zero (by decide)

end Sys2Proof.Machine
end

section
/-! O50. Engine, partition and chip resets. -/

namespace Sys2Proof.Machine

/-! ### Registers that a reset keeps -/

/-- From `s` to `u` only registers of units, links, error rings and management have changed. -/
def LowKept (s u : State) : Prop := ∀ r, ¬ UnitReg r → u.reg r = s.reg r

namespace LowKept

theorem refl (s : State) : LowKept s s := fun _ _ => rfl

theorem trans {s u v : State} (h : LowKept s u) (g : LowKept u v) : LowKept s v := fun r low => (g r low).trans (h r low)

theorem foldl {α : Type} {f : State → α → State} (h : ∀ s a, LowKept s (f s a)) (l : List α) (s : State) :
    LowKept s (l.foldl f s) :=
  List.foldlRecOn l f (refl s) fun _ g a _ => g.trans (h _ a)

theorem fld {s u : State} (h : LowKept s u) {r : Nat} (low : ¬ UnitReg r) (f : Fld) : u.fld r f = s.fld r f := by
  rw [State.fld, h r low, State.fld]

theorem setFld {r : Nat} (high : UnitReg r) (s : State) (f : Fld) (x : Nat) : LowKept s (s.setFld r f x) :=
  (Writes.setFld high s f x).regs

end LowKept

theorem unitReg_cruStat (i j : Nat) : UnitReg (R.cruStat i j) := by
  unfold UnitReg R.cruStat
  omega

theorem lowKept_showUnit (s : State) (k : Nat) : LowKept s (s.showUnit k) :=
  (LowKept.setFld (unitReg_cruStat _ _) s _ _).trans (LowKept.setFld (unitReg_cruStat _ _) _ _ _)

theorem lowKept_dropLaunch (s : State) (i : Nat) : LowKept s (s.dropLaunch i) := by
  unfold State.dropLaunch
  exact LowKept.foldl (fun s k => lowKept_showUnit (s.setUnit k _) k) (s.launchUnits i) s

theorem low_partRststat (p : PartId) : ¬ UnitReg (R.partRststat p.val) := by
  have := p.isLt
  unfold UnitReg R.partRststat
  omega

theorem partRststat_ne {p q : Nat} (h : p ≠ q) : R.partRststat p ≠ R.partRststat q := by
  unfold R.partRststat
  omega

/-! ### Start of a partition reset (R522, R532) -/

/-- PART.RSTSTAT of a partition whose reset starts. -/
def resetMarked (s : State) (p cause : Nat) : State :=
  ((s.setFld (R.partRststat p) F.partRststat_phase 1).bump (R.partRststat p) F.partRststat_count 1).setFld (R.partRststat p)
    F.partRststat_last_cause cause

theorem resetMarked_beside (s : State) (p q cause : Nat) (other : p ≠ q) :
    (resetMarked s q cause).reg (R.partRststat p) = s.reg (R.partRststat p) := by
  rw [resetMarked, State.reg_setFld_ne _ _ _ _ _ (partRststat_ne other), State.bump,
    State.reg_setFld_ne _ _ _ _ _ (partRststat_ne other), State.reg_setFld_ne _ _ _ _ _ (partRststat_ne other)]

theorem resetMarked_fields (s : State) (p cause : Nat) (fits : cause < 256) :
    (resetMarked s p cause).fld (R.partRststat p) F.partRststat_phase = 1
      ∧ (resetMarked s p cause).fld (R.partRststat p) F.partRststat_last_cause = cause := by
  constructor
  · rw [resetMarked, State.fld_setFld_beside _ _ _ _ _ (by decide) (by decide), State.bump,
      State.fld_setFld_beside _ _ _ _ _ (by decide) (by decide), State.fld_setFld _ _ _ _ (by decide)]
    rfl
  · rw [resetMarked, State.fld_setFld _ _ _ _ (by decide)]
    exact Nat.mod_eq_of_lt fits

/-- What a start does to a partition out of reset, beside its record: the mark, and the end of resets and launches under it. -/
def resetBegun (s : State) (p cause : Nat) : State :=
  let s3 := { resetMarked s p cause with engResets := s.engResets.filter fun e => e.part != p }
  (s3.launches.rows.filter fun l => l.2.part == p).foldl (fun s l => s.dropLaunch l.1) s3

theorem resetBegun_low (s : State) (p cause : Nat) : LowKept (resetMarked s p cause) (resetBegun s p cause) := by
  have absorbed (u : State) (l : List EngRst) : LowKept u { u with engResets := l } := fun _ _ => rfl
  unfold resetBegun
  exact (absorbed _ _).trans (LowKept.foldl (fun s _ => lowKept_dropLaunch s _) _ _)

theorem startResetAt_eq (s : State) (p cause index : Nat) : s.startResetAt p cause index
    = if s.inReset p then s.resetRecord p 0x0B index 2 cause false
      else resetBegun (s.resetRecord p 0x0B index 2 cause false) p cause := by
  unfold State.startResetAt
  rfl

/-- The reset of another partition keeps this one's registers. -/
theorem startResetAt_beside (s : State) (p : PartId) (q cause index : Nat) (other : p.val ≠ q) :
    (s.startResetAt q cause index).reg (R.partRststat p.val) = s.reg (R.partRststat p.val) := by
  have low := low_partRststat p
  have recorded : (s.resetRecord q 0x0B index 2 cause false).reg (R.partRststat p.val) = s.reg (R.partRststat p.val) :=
    (Writes.record s q _).regs _ low
  rw [startResetAt_eq]
  split
  · exact recorded
  · rw [resetBegun_low _ _ _ _ low, resetMarked_beside _ _ _ _ other, recorded]

/-- A partition out of reset enters phase 1 with the cause of the reset. -/
theorem startResetAt_fields (s : State) (p : PartId) (cause index : Nat) (out : s.inReset p.val = false) (fits : cause < 256) :
    (s.startResetAt p.val cause index).fld (R.partRststat p.val) F.partRststat_phase = 1
      ∧ (s.startResetAt p.val cause index).fld (R.partRststat p.val) F.partRststat_last_cause = cause := by
  have low := low_partRststat p
  rw [startResetAt_eq, if_neg (by rw [out]; decide), (resetBegun_low _ _ _).fld low, (resetBegun_low _ _ _).fld low]
  exact resetMarked_fields _ p.val cause fits

theorem regrouping_ne (s : State) (p q : Nat) (tied : q ∈ s.regrouping p) : p ≠ q := by
  unfold State.regrouping at tied
  dsimp only at tied
  split at tied
  · have kept := (List.mem_filter.1 tied).2
    rw [Bool.and_eq_true, bne_iff_ne] at kept
    exact kept.1.symm
  · exact absurd tied List.not_mem_nil

theorem startPartitionReset_reg (s : State) (p : PartId) (cause : Nat) :
    (s.startPartitionReset p.val cause).reg (R.partRststat p.val)
      = (s.startResetAt p.val cause 0).reg (R.partRststat p.val) :=
  List.foldlRecOn (s.regrouping p.val) _
    (motive := fun u : State => u.reg (R.partRststat p.val) = (s.startResetAt p.val cause 0).reg (R.partRststat p.val)) rfl
    fun u kept q tied => (startResetAt_beside u p q cause 0 (regrouping_ne s p.val q tied)).trans kept

theorem startPartitionReset_fields (s : State) (p : PartId) (cause : Nat) (out : s.inReset p.val = false) (fits : cause < 256) :
    (s.startPartitionReset p.val cause).fld (R.partRststat p.val) F.partRststat_phase = 1
      ∧ (s.startPartitionReset p.val cause).fld (R.partRststat p.val) F.partRststat_last_cause = cause := by
  unfold State.fld
  rw [startPartitionReset_reg]
  exact startResetAt_fields s p cause 0 out fits

/-! ### End of an engine reset of a tile (R526) -/

/-- A tile whose reset ends: out of the list of resets, cleared, and recorded. -/
def tileReset (s : State) (p i us : Nat) (e : EngRst) : State :=
  endRecord' (({ s with engResets := s.engResets.filter (· != e) } : State).clearTile i
    (if (s.tile i).st = .off then .off else .reset)) p 1 i 1 e.cause us

theorem tileReset_frame (s : State) (p i us : Nat) (e : EngRst) :
    (tileReset s p i us e).engResets = s.engResets.filter (· != e)
      ∧ ((tileReset s p i us e).tile i).st = if (s.tile i).st = .off then .off else .reset := by
  have recorded := Recorded.record (({ s with engResets := s.engResets.filter (· != e) } : State).clearTile i
    (if (s.tile i).st = .off then .off else .reset)) p
    (ErrRec.mk0 0x0D 0 p 1 i (1 + 2 ^ 4 + e.cause * 2 ^ 8 + us % 2 ^ 32 * 2 ^ 16))
  have cleared (v : State) (st : TileSt) : ((v.clearTile i st).tile i).st = st := by
    change ((v.setTile i ((v.tile i).cleared st)).tile i).st = st
    rw [State.tile_setTile]
    rfl
  exact ⟨recorded.engResets, (congrArg Tile.st (recorded.tile i)).trans (cleared _ _)⟩

/-- A tile that passes is in service: IDLE, or still OFF. -/
def tileServes (s : State) (p i : Nat) : State :=
  let s3 := (enableEngine s p 1 i).setFld (R.errEngstat p) F.errEngstat_result 2
  if (s3.tile i).st = .reset then s3.setTile i { s3.tile i with st := .idle } else s3

/-- A tile that fails is marked for retirement. -/
def tileMarked (s : State) (p i : Nat) : State :=
  markTile ((disableEngine s p 1 i).setFld (R.errEngstat p) F.errEngstat_result 3) i

theorem tileServes_frame (s : State) (p i : Nat) :
    ((tileServes s p i).tile i).st = (if (s.tile i).st = .reset then .idle else (s.tile i).st)
      ∧ (tileServes s p i).engResets = s.engResets
      ∧ (tileServes s p i).fld (R.errEngstat p) F.errEngstat_result = 2 := by
  let s3 := (enableEngine s p 1 i).setFld (R.errEngstat p) F.errEngstat_result 2
  have tile : s3.tile i = s.tile i := rfl
  have engResets : s3.engResets = s.engResets := rfl
  have result : s3.fld (R.errEngstat p) F.errEngstat_result = 2 := State.fld_setFld _ _ _ _ (by decide)
  change ((if (s3.tile i).st = .reset then s3.setTile i { s3.tile i with st := .idle } else s3).tile i).st = _
    ∧ (if (s3.tile i).st = .reset then s3.setTile i { s3.tile i with st := .idle } else s3).engResets = _
    ∧ (if (s3.tile i).st = .reset then s3.setTile i { s3.tile i with st := .idle } else s3).fld _ _ = _
  rw [tile]
  split
  · rw [State.tile_setTile, State.setTile_engResets, State.fld_setTile]
    exact ⟨rfl, engResets, result⟩
  · exact ⟨congrArg Tile.st tile, engResets, result⟩

theorem tileMarked_frame (s : State) (p i : Nat) :
    i ∈ (tileMarked s p i).board.retireTiles ∧ (tileMarked s p i).fld (R.errEngstat p) F.errEngstat_result = 3 :=
  ⟨List.mem_append_right _ (List.mem_singleton_self i), State.fld_setFld _ _ _ _ (by decide)⟩

section EngineEnd

variable {s : State} {p : PartId} {index : BitVec 24} {us : BitVec 32} {pass : Bool} {e : EngRst}
  (found : (s.engResets.find? fun y => y.part == p.val && y.kind == 1 && y.index == index.toNat) = some e)
include found

theorem engineResetComplete_saving (saving : (s.tile index.toNat).st = .save) :
    exec (.engineResetComplete p 1 index pass us) s = .next s := by
  change execEngineResetComplete p 1 index pass us s = _
  unfold execEngineResetComplete
  dsimp only
  erw [found]
  exact congrArg Host.Outcome.next (if_pos ⟨rfl, saving⟩)

variable (free : (s.tile index.toNat).st ≠ .save)
include free

theorem engineResetComplete_tests {s0 : State} (test : resetTest s 1 index.toNat = some s0) :
    exec (.engineResetComplete p 1 index pass us) s = .next s0 := by
  change execEngineResetComplete p 1 index pass us s = _
  unfold execEngineResetComplete
  dsimp only
  erw [found]
  dsimp only
  rw [if_neg fun saving => free saving.2]
  erw [test]

theorem engineResetComplete_ends (done : resetTest s 1 index.toNat = none) :
    exec (.engineResetComplete p 1 index pass us) s
      = .next (if (pass && s.fld (R.mxaBist index.toNat) F.mxaBist_result != 3) = true then
          tileServes (tileReset s p.val index.toNat us.toNat e) p.val index.toNat
        else (tileMarked (tileReset s p.val index.toNat us.toNat e) p.val index.toNat).startPartitionReset p.val 8) := by
  change execEngineResetComplete p 1 index pass us s = _
  unfold execEngineResetComplete
  dsimp only
  erw [found]
  dsimp only
  rw [if_neg fun saving => free saving.2]
  erw [done]
  refine congrArg Host.Outcome.next ?_
  change (if (pass && s.fld (R.mxaBist index.toNat) F.mxaBist_result != 3) = true then
    (if 1 = 1 ∧ _ then _ else _) else _) = _
  split
  · by_cases reset : (((enableEngine (tileReset s p.val index.toNat us.toNat e) p.val 1 index.toNat).setFld (R.errEngstat p.val)
        F.errEngstat_result 2).tile index.toNat).st = .reset
    · exact (if_pos ⟨rfl, reset⟩).trans (if_pos reset).symm
    · exact (if_neg fun both => reset both.2).trans (if_neg reset).symm
  · rfl

end EngineEnd

/-! ### Phases of a partition reset (R532) -/

/-- A tile that its reset or its rest lets be gated. -/
def Gateable (st : TileSt) : Prop := st = .reset ∨ st = .idle

def gateTile (s : State) (t : Nat) : State :=
  if (s.tile t).st = .reset ∨ (s.tile t).st = .idle then s.setTile t { s.tile t with st := .off } else s

theorem gateTile_self {s : State} {t : Nat} (may : Gateable (s.tile t).st ∨ (s.tile t).st = .off) :
    ((gateTile s t).tile t).st = .off := by
  unfold gateTile
  split
  · rw [State.tile_setTile]
  · next awake => exact may.resolve_left awake

theorem gateTile_beside {s : State} (j t : Nat) (may : Gateable (s.tile t).st ∨ (s.tile t).st = .off) :
    Gateable ((gateTile s j).tile t).st ∨ ((gateTile s j).tile t).st = .off := by
  rcases eq_or_ne t j with rfl | other
  · exact .inr (gateTile_self may)
  · unfold gateTile
    split
    · rw [State.tile_setTile_ne _ _ _ _ other]
      exact may
    · exact may

/-- Each tile of a list that may be gated is OFF after the fold. -/
theorem foldl_gateTile (l : List Nat) (s : State) (t : Nat) (mem : t ∈ l) (may : Gateable (s.tile t).st) :
    ((l.foldl gateTile s).tile t).st = .off := by
  have kept (l : List Nat) : Gateable ((l.foldl gateTile s).tile t).st ∨ ((l.foldl gateTile s).tile t).st = .off :=
    List.foldlRecOn l gateTile (motive := fun u => Gateable (u.tile t).st ∨ (u.tile t).st = .off) (.inl may)
      fun u before j _ => gateTile_beside j t before
  have gated (l : List Nat) (off : ((l.foldl gateTile s).tile t).st = .off) (r : List Nat) :
      ((r.foldl gateTile (l.foldl gateTile s)).tile t).st = .off :=
    List.foldlRecOn r gateTile (motive := fun u => (u.tile t).st = .off) off fun u before j _ => by
      unfold gateTile
      split
      · rcases eq_or_ne t j with rfl | other
        · rw [State.tile_setTile]
        · rw [State.tile_setTile_ne _ _ _ _ other]
          exact before
      · exact before
  obtain ⟨l₁, l₂, rfl⟩ := List.append_of_mem mem
  rw [List.foldl_append, List.foldl_cons]
  have self := gateTile_self (kept l₁)
  have last := gated (l₁ ++ [t]) (by rw [List.foldl_append]; exact self) l₂
  rwa [List.foldl_append] at last

theorem gateTiles_mem (s : State) (p : Nat) : (gateTiles s p).mem = s.mem :=
  foldl_keeps State.mem (f := gateTile) (fun u j => by unfold gateTile; split <;> rfl) _ s

theorem gateTiles_off (s : State) (p t : Nat) (named : t ∈ s.tiles.keys) (mine : t / 256 = p) (may : Gateable (s.tile t).st) :
    ((gateTiles s p).tile t).st = .off :=
  foldl_gateTile _ s t (List.mem_filter.2 ⟨named, beq_iff_eq.2 mine⟩) may

theorem errEngstat_ne_partRststat (q : Nat) (p : PartId) : R.errEngstat q ≠ R.partRststat p.val := by
  have := p.isLt
  unfold R.errEngstat R.partRststat
  omega

theorem withRepairs_self {s : State} {l : List MapRec} (same : s.board.repairs = l) :
    ({ s with board := { s.board with repairs := l } } : State) = s := by
  subst same
  rfl

theorem doRepairs_none (s : State) (p : Nat) (fails : List (Nat × Nat)) (noRepair : s.board.repairs = [])
    (noTile : s.board.retireTiles = []) : doRepairs s p fails = s := by
  unfold doRepairs
  dsimp only
  rw [noRepair, List.filter_nil, List.filter_nil, List.foldl_nil, withRepairs_self noRepair, noTile]
  rfl

/-! A device without contexts: the end of a reset revives nothing. -/

theorem placeFirmware_ctxs (s : State) (p : Nat) : (placeFirmware s p).ctxs = s.ctxs := by
  unfold placeFirmware
  split
  · rfl
  · exact foldl_keeps State.ctxs (fun u t => State.setFld_ctxs u _ _ _) _ _

theorem ctxsOn_none {s : State} (p : Nat) (none : s.ctxs = SMap.empty) : s.ctxsOn p = [] := by
  rw [State.ctxsOn, none]
  rfl

theorem restorePart_ctxs {s : State} (p : Nat) (none : s.ctxs = SMap.empty) : (restorePart s p).ctxs = SMap.empty := by
  have scratch (u : State) (w : Nat) :
      (if u.fld (R.scaWay p w) F.scaWay_kind = 2 then zeroScratch u p w else u).ctxs = u.ctxs := by
    split <;> rfl
  have kept := (foldl_keeps State.ctxs scratch (List.range 16) (placeFirmware s p)).trans ((placeFirmware_ctxs s p).trans none)
  unfold restorePart
  extract_lets s1 fabric s2 s3
  have noCtx : s2.ctxs = SMap.empty := kept
  have same : s3 = s2 := by
    unfold s3
    rw [ctxsOn_none p noCtx, List.foldl_nil]
  rw [same]
  split
  · exact noCtx
  · exact noCtx

theorem repostCopies_none {s : State} (p : Nat) (none : s.ctxs = SMap.empty) : repostCopies s p = s := by
  rw [repostCopies, none]
  rfl

theorem lockPlls_ctxs (s : State) (p : Nat) : (lockPlls s p).ctxs = s.ctxs :=
  foldl_keeps State.ctxs (fun u _ => State.setFld_ctxs u _ _ _) _ s

/-- The registers at the end of a partition reset on a device without contexts. -/
theorem endPartitionReset_fields {s : State} (p : PartId) (us : Nat) (none : s.ctxs = SMap.empty) :
    (endPartitionReset s p.val us).fld (R.partRststat p.val) F.partRststat_phase = 0
      ∧ (endPartitionReset s p.val us).fld (R.partRststat p.val) F.partRststat_last_us = us % 2 ^ 32 := by
  have low := low_partRststat p
  unfold endPartitionReset
  extract_lets r s0 s1 s2
  have shown : Writes UnitReg s1 s2 := (Writes.record s1 _ _).trans (Writes.flushRing _ _)
  have noCtx0 : s0.ctxs = SMap.empty := by
    have locked : (lockPlls (restorePart s p.val) p.val).ctxs = SMap.empty := (lockPlls_ctxs _ _).trans (restorePart_ctxs p.val none)
    unfold s0
    rw [repostCopies_none p.val locked, locked]
  have noCtx2 : s2.ctxs = SMap.empty := by
    rw [shown.ctxs]
    unfold s1
    rw [State.setFld_ctxs, State.setFld_ctxs, noCtx0]
  rw [ctxsOn_none p.val noCtx2, List.foldl_nil, LowKept.fld shown.regs low, LowKept.fld shown.regs low]
  unfold s1
  constructor
  · rw [State.fld_setFld_beside _ _ _ _ _ (by decide) (by decide), State.fld_setFld _ _ _ _ (by decide)]
    rfl
  · exact State.fld_setFld _ _ _ _ (by decide)

theorem mem_tilesOf {s : State} {p t : Nat} (mine : t / 256 = p) (small : t % 256 < s.part.tilesPerPart) : t ∈ tilesOf s p :=
  List.mem_map.2 ⟨t % 256, List.mem_range.2 small, by omega⟩

section Phases

variable (s : State) (p : PartId) (fails : List (BitVec 8 × BitVec 24)) (us : BitVec 32)

/-- The phase of the partition's reset, in PART.RSTSTAT. -/
def resetPhase (s : State) (p : PartId) : Nat := s.fld (R.partRststat p.val) F.partRststat_phase

/-- The state with the partition's reset in phase `n`. -/
def inPhase (s : State) (p : PartId) (n : Nat) : State := s.setFld (R.partRststat p.val) F.partRststat_phase n

theorem resetPhase_inPhase (n : Nat) (fits : n < 8) : resetPhase (inPhase s p n) p = n :=
  (State.fld_setFld s _ _ n (by decide)).trans (Nat.mod_eq_of_lt fits)

theorem partitionResetPhaseEnd_one (phase : resetPhase s p = 1) :
    exec (.partitionResetPhaseEnd p fails us) s = .next (inPhase s p 2) := by
  change execPartitionResetPhaseEnd p fails us s = _
  unfold resetPhase at phase
  simp only [execPartitionResetPhaseEnd, phase, inPhase]

theorem partitionResetPhaseEnd_two (phase : resetPhase s p = 2) :
    exec (.partitionResetPhaseEnd p fails us) s = .next (inPhase (flushDie s p.val) p 3) := by
  change execPartitionResetPhaseEnd p fails us s = _
  unfold resetPhase at phase
  simp only [execPartitionResetPhaseEnd, phase, inPhase]

theorem partitionResetPhaseEnd_three (phase : resetPhase s p = 3) :
    exec (.partitionResetPhaseEnd p fails us) s = .next (inPhase (clearPart s p.val) p 4) := by
  change execPartitionResetPhaseEnd p fails us s = _
  unfold resetPhase at phase
  simp only [execPartitionResetPhaseEnd, phase, inPhase]

theorem partitionResetPhaseEnd_four (phase : resetPhase s p = 4) :
    exec (.partitionResetPhaseEnd p fails us) s = .next (inPhase (gateTiles s p.val) p 5) := by
  change execPartitionResetPhaseEnd p fails us s = _
  unfold resetPhase at phase
  simp only [execPartitionResetPhaseEnd, phase, inPhase]

/-- Phase 5 waits for a test that runs. -/
theorem partitionResetPhaseEnd_five (phase : resetPhase s p = 5) {t : Nat} (mine : t / 256 = p.val)
    (small : t % 256 < s.part.tilesPerPart) (runs : (s.tile t).bist = true) :
    exec (.partitionResetPhaseEnd p fails us) s = .next s := by
  change execPartitionResetPhaseEnd p fails us s = _
  unfold resetPhase at phase
  simp only [execPartitionResetPhaseEnd, phase]
  refine congrArg Host.Outcome.next (if_pos (List.any_eq_true.2 ⟨t, mem_tilesOf mine small, ?_⟩))
  rw [runs, Bool.true_or]

theorem partitionResetPhaseEnd_six (phase : resetPhase s p = 6) (noRepair : s.board.repairs = [])
    (noTile : s.board.retireTiles = []) : exec (.partitionResetPhaseEnd p fails us) s = .next (inPhase s p 7) := by
  change execPartitionResetPhaseEnd p fails us s = _
  unfold resetPhase at phase
  simp only [execPartitionResetPhaseEnd, phase, inPhase, doRepairs_none s _ _ noRepair noTile]

theorem partitionResetPhaseEnd_seven (phase : resetPhase s p = 7) :
    exec (.partitionResetPhaseEnd p fails us) s = .next (endPartitionReset s p.val us.toNat) := by
  change execPartitionResetPhaseEnd p fails us s = _
  unfold resetPhase at phase
  simp only [execPartitionResetPhaseEnd, phase]

end Phases

theorem clearPart_resets (s : State) (p : Nat) : (clearPart s p).fld (R.errEngstat p) F.errEngstat_resets = 0 :=
  State.fld_setFld _ _ _ _ (by decide)

theorem flushDie_cache (s : State) (p : Nat) : ∀ l ∈ (flushDie s p).cache, l.die ≠ p := fun _ mem =>
  bne_iff_ne.1 (List.mem_filter.1 mem).2

/-! ### Chip resets (R535) and requests -/

theorem chipClear_restart (s : State) : (chipClear s).board.restart = true := by
  unfold chipClear
  rfl

theorem reqs_withBoard (s : State) (b : Board) : ({ s with board := b } : State).reqs = s.reqs := rfl

theorem chipClear_reqs (s : State) : (chipClear s).reqs = SMap.empty := by
  unfold chipClear
  extract_lets s1 _ fab kept s2 s3 s4 s5 b s6
  rw [reqs_withBoard]
  calc s6.reqs
    _ = s5.reqs := State.setReg_reqs _ _ _
    _ = s4.reqs := by unfold s5; rw [State.setFld_reqs, State.setFld_reqs, State.setFld_reqs]
    _ = s3.reqs := by unfold s4; rw [State.bump_reqs, State.setFld_reqs, State.setFld_reqs, State.setFld_reqs]
    _ = s2.reqs := foldl_keeps State.reqs (fun u e => State.setFld_reqs u _ _ _) _ s2
    _ = SMap.empty := rfl

section ChipPhases

variable (s : State) (us : BitVec 32)

theorem chipResetPhaseEnd_one (phase : s.fld R.devRststat F.devRststat_phase = 1) :
    exec (.chipResetPhaseEnd us) s = .next ((chipClear s).setFld R.devRststat F.devRststat_phase 2) := by
  change execChipResetPhaseEnd us s = _
  simp only [execChipResetPhaseEnd, phase]

theorem chipResetPhaseEnd_two (phase : s.fld R.devRststat F.devRststat_phase = 2) :
    exec (.chipResetPhaseEnd us) s = .next (if s.fld R.bootStatus F.bootStatus_ready = 1 then
      s.setFld R.devRststat F.devRststat_phase 3 else s) := by
  change execChipResetPhaseEnd us s = _
  simp only [execChipResetPhaseEnd, phase]

end ChipPhases

/-- A tile that hangs without a context is recorded and reset (R58). -/
theorem tileHang_free {s : State} {t : TileId} (run : (s.tile t.val).st = .run) (late : 0 < (s.tile t.val).notReady)
    (free : (s.tile t.val).ctxValid = false) : exec (.tileHang t) s
      = .next ((s.record (t.val / 256) (ErrRec.mk0 0x0C 3 (t.val / 256) 1 t.val 0x101)).startEngineReset (t.val / 256) 1 t.val 4) := by
  change execTileHang t s = _
  unfold execTileHang
  dsimp only
  rw [run, free, if_pos ⟨rfl, late⟩]
  rfl

theorem engRst_ok {s : State} {p k i : Nat} (unit : engineOf s p k i = true)
    (idle : s.fld (R.errEngstat p) F.errEngstat_result ≠ 1) (noCtx : engineCtxs s p k i = []) :
    engRst s p k i = some (s.startEngineReset p k i 1) := by
  unfold engRst
  rw [if_neg (by rw [unit]; simpa using idle), noCtx]
  rfl

/-! ### The obligation -/

/-- Settles O50: starts by `startPartitionReset_fields`, an engine's end by `engineResetComplete_ends`, phases by the lemmas on
`partitionResetPhaseEnd`; the other events are their definitions' branches. -/
theorem resets : Obligations.Resets := by
  unfold Obligations.Resets
  intro s p kind index us q k i phase
  refine ⟨?_, ?_, ?_, ?_, ?_, ?_, ?_, ?_, ?_, ?_, ?_, ?_, ?_, ?_, ?_, ?_, ?_, ?_, ?_, ?_, ?_, ?_⟩
  · exact fun cause out fits => startPartitionReset_fields s p cause out fits
  · exact fun t run late free => ⟨_, tileHang_free run late free, rfl⟩
  · intro unit holds busy
    exact ⟨_, congrArg Host.Outcome.next (if_pos ⟨unit, holds, busy⟩), rfl⟩
  · rintro e pass rfl found
    refine ⟨?_, ?_, ?_, ?_⟩
    · exact fun saving => ⟨s, engineResetComplete_saving found saving, rfl⟩
    · exact fun s0 free test => ⟨s0, engineResetComplete_tests found free test, rfl⟩
    · intro free done good
      have run := engineResetComplete_ends (us := us) (pass := pass) found free done
      rw [if_pos good] at run
      obtain ⟨resets, st⟩ := tileReset_frame s p.val i us.toNat e
      obtain ⟨serves, kept, result⟩ := tileServes_frame (tileReset s p.val i us.toNat e) p.val i
      refine ⟨_, run, ?_, kept.trans resets, result⟩
      rw [serves, st]
      split <;> simp
    · intro free done bad
      have run := engineResetComplete_ends (us := us) (pass := pass) found free done
      rw [if_neg (by rw [bad]; decide)] at run
      exact ⟨_, run, _, rfl, tileMarked_frame _ p.val i⟩
  · exact ⟨_, rfl, rfl⟩
  · exact ⟨_, rfl, rfl⟩
  · intro listed
    exact ⟨_, congrArg Host.Outcome.next (if_pos listed), rfl⟩
  · intro active
    exact ⟨_, congrArg Host.Outcome.next (if_pos active), rfl⟩
  · intro active
    exact ⟨_, congrArg Host.Outcome.next (if_pos active), rfl, rfl⟩
  · exact fun fails one => ⟨_, partitionResetPhaseEnd_one s p fails us one, rfl⟩
  · intro fails four
    refine ⟨_, partitionResetPhaseEnd_four s p fails us four, resetPhase_inPhase _ p 5 (by decide), gateTiles_mem s q, ?_⟩
    exact fun t named mine may => gateTiles_off s q t named mine may
  · intro fails two
    exact ⟨_, partitionResetPhaseEnd_two s p fails us two, rfl, flushDie_cache s q, resetPhase_inPhase _ p 3 (by decide)⟩
  · intro fails three
    refine ⟨_, partitionResetPhaseEnd_three s p fails us three, resetPhase_inPhase _ p 4 (by decide), ?_⟩
    exact (State.fld_setFld_ne _ _ _ _ _ _ (errEngstat_ne_partRststat q p)).trans (clearPart_resets s q)
  · exact fun fails t five mine small runs => ⟨s, partitionResetPhaseEnd_five s p fails us five mine small runs, rfl⟩
  · exact fun fails six noRepair noTile => ⟨_, partitionResetPhaseEnd_six s p fails us six noRepair noTile, rfl⟩
  · intro fails seven none
    obtain ⟨out, time⟩ := endPartitionReset_fields p us.toNat none
    exact ⟨_, partitionResetPhaseEnd_seven s p fails us seven, out, time.trans (Nat.mod_eq_of_lt us.isLt)⟩
  · intro one
    refine ⟨_, chipResetPhaseEnd_one s us one, State.fld_setFld _ _ _ _ (by decide), ?_, ?_⟩
    · exact (congrArg Board.restart (State.setFld_board _ _ _ _)).trans (chipClear_restart s)
    · exact (State.setFld_reqs _ _ _ _).trans (chipClear_reqs s)
  · intro two unready
    exact ⟨_, chipResetPhaseEnd_two s us two, if_neg (by rw [unready]; decide)⟩
  · intro two ready
    exact ⟨_, chipResetPhaseEnd_two s us two, if_pos ready⟩
  · intro c taken scope unit idle noCtx
    refine replies_of_mgmt rfl taken ?_
    rw [scope]
    dsimp only
    rw [engRst_ok unit idle noCtx]
  · intro c taken scope
    exact replies_of_mgmt rfl taken (by rw [scope])
  · exact fun c taken => replies_of_mgmt rfl taken rfl

end Sys2Proof.Machine
end

section
/-! O16. Issue of array operations and of accumulator transfers. -/

namespace Sys2Proof.Machine

/-- aa[43:0] with no offset (R192). -/
theorem addrOf_zero (aa : BitVec 48) : addrOf aa (0 : BitVec 1) 1 = aa.toNat % 2 ^ 44 := by
  simp [addrOf]

/-! ### What the issue of an array operation counts (R99, R105, R116) -/

/-- From `s` to `u` only registers, the board and the free values drawn have changed. -/
def CountsOnly (s u : State) : Prop := u = { s with regs := u.regs, board := u.board, freeCtr := u.freeCtr }

namespace CountsOnly

theorem refl (s : State) : CountsOnly s s := rfl

theorem trans {s u v : State} (h : CountsOnly s u) (g : CountsOnly u v) : CountsOnly s v := by
  unfold CountsOnly at *
  rw [g, h]

theorem bump (s : State) (r : Nat) (f : Fld) (n : Nat) : CountsOnly s (s.bump r f n) := rfl
theorem setFld (s : State) (r : Nat) (f : Fld) (x : Nat) : CountsOnly s (s.setFld r f x) := rfl
theorem draw (s : State) : CountsOnly s s.draw.2 := rfl

theorem endIdle (s : State) (t most : Nat) : CountsOnly s (endIdle s t most) := by
  unfold Machine.endIdle
  split
  · exact refl s
  · exact (draw s).trans (bump _ _ _ _)

theorem countGap (s : State) (t : Nat) : CountsOnly s (countGap s t) := by
  unfold Machine.countGap
  dsimp only
  split
  · exact refl s
  · exact (draw s).trans (bump _ _ _ _)

theorem stepGap (s : State) (t : Nat) : CountsOnly s (s.stepGap t) := by
  have hot (c : Prop) [Decidable c] (b : Board) : CountsOnly s (if c then { s with board := b } else s) := by
    split <;> rfl
  exact (hot _ _).trans (setFld _ _ _ _)

variable {s u : State} (h : CountsOnly s u)
include h

theorem tile (t : Nat) : u.tile t = s.tile t := by rw [h]; rfl
theorem mem : u.mem = s.mem := by rw [h]

end CountsOnly

/-! ### Array operations -/

/-- How an array operation ends (R91): a pass with its verdict, a load of weights after its latency. -/
def arrayEnd : TileOp → FlightKind
  | .mxaPass .. => .pass
  | _ => .fixed

/-- The state in which the one operation of a bundle enters the array. -/
def entered (s : State) (t : Nat) (op : TileOp) : State := enterArray (loaded s t op) t [op]

section Entered

variable {op : TileOp} (array : isArray op = true)
include array

/-- Of its tile, an operation that enters the array changes only what MXA.STATUS shows of the idle run. -/
theorem entered_frame (s : State) (t : Nat) : (entered s t op).mem = s.mem
    ∧ ∃ x, (entered s t op).tile t = { s.tile t with asm := [op], smooth := x, noIdle := false } := by
  unfold entered enterArray
  rw [if_pos (by simp [array])]
  split
  · have idle := CountsOnly.endIdle (loaded s t op) t (idleMost (loaded s t op) t)
    dsimp only
    rw [State.setTile_mem, State.tile_setTile, idle.mem, idle.tile, loaded, State.tile_setTile]
    exact ⟨rfl, _, rfl⟩
  · rw [State.tile_setTile, loaded, State.tile_setTile]
    exact ⟨rfl, _, rfl⟩

theorem badSource_entered {s : State} {t : Nat} (good : badSource (s.tile t) op = false) :
    badSource ((entered s t op).tile t) op = false := by
  obtain ⟨-, x, tile⟩ := entered_frame array s t
  rw [tile]
  exact good

/-- Memory and what the tile's registers, rows and weights hold decide the effect. -/
theorem matrixEff_entered (s : State) (t : Nat) :
    matrixEff (entered s t op) ((entered s t op).tile t) op = matrixEff s (s.tile t) op := by
  obtain ⟨mem, x, tile⟩ := entered_frame array s t
  have read (a n : Nat) : (entered s t op).readRaw a n = s.readRaw a n := by rw [State.readRaw, mem, State.readRaw]
  rw [tile]
  cases op with
  | mxaWload => simp only [matrixEff, read]; rfl
  | mxaPass => simp only [matrixEff, passRows, read]; rfl
  | _ => cases array

theorem issueOp_array {s : State} {t : Nat} (good : badSource (s.tile t) op = false) :
    issueOp s t op = issueArray false s t op := by
  cases op with
  | mxaWload => exact if_neg (by rw [good]; decide)
  | mxaPass => exact if_neg (by rw [good]; decide)
  | _ => cases array

/-- Beside its flight, an array operation changes counters and gaps. -/
theorem issueArray_counts {s : State} {t lat : Nat} {e : Effect} (eff : matrixEff s (s.tile t) op = some (lat, e)) :
    CountsOnly (addFlight s t op (arrayEnd op) lat e) (issueArray false s t op) := by
  unfold issueArray
  rw [eff]
  cases op with
  | mxaWload => exact CountsOnly.bump _ _ _ _
  | mxaPass => exact ((CountsOnly.bump _ _ _ _).trans (CountsOnly.countGap _ t)).trans (CountsOnly.stepGap _ t)
  | _ => cases array

theorem nextPc_array (T : Tile) : nextPc T [op] = (T.pc + 16, false) := by
  cases op with
  | mxaWload => rfl
  | mxaPass => rfl
  | _ => cases array

end Entered

/-- Issue of one operation that enters the array and leaves its tile's state as it is. -/
theorem issueAll_entered {s v : State} {t : Nat} {op : TileOp} (next : BitVec 44) (taken : Bool)
    (good : badSource (s.tile t) op = false) (st : ((entered s t op).tile t).st = (s.tile t).st)
    (run : issueOp (entered s t op) t op = v) (stays : (v.tile t).st = (s.tile t).st) :
    ∃ b q, issueAll (loaded s t op) t [op] next taken = v.setTile t { v.tile t with
      asm := [], held := false, stall := 0, countUe := false, ibuf := b, lineQ := q, pc := next } := by
  obtain ⟨b, q, ahead⟩ := fetchAhead_eq v t { v.tile t with asm := [], held := false, stall := 0, countUe := false } next taken
  have here : ((loaded s t op).tile t).st = (s.tile t).st := by rw [loaded, State.tile_setTile]
  have alone : issueAll (loaded s t op) t [op] next taken = v.setTile t { fetchAhead v t
      { v.tile t with asm := [], held := false, stall := 0, countUe := false } next taken with pc := next } := by
    unfold issueAll
    dsimp only
    rw [issueOrder_one _ _ (badSource_loaded s t op good), List.foldl_cons, List.foldl_nil, ← entered, here, if_pos st, run,
      if_neg (not_not.2 stays)]
  exact ⟨b, q, by rw [alone, ahead]⟩

/-- The whole issue of an array operation. -/
theorem array_issues {s : State} {t : TileId} {op : TileOp} {lat : Nat} {e : Effect} (array : isArray op = true)
    (eff : matrixEff s (s.tile t.val) op = some (lat, e)) (can : CanIssue s t op) :
    ∃ u, tileSlot t false op s = .next u ∧ u.mem = s.mem ∧ ∃ f, InFlight (s.tile t.val) (u.tile t.val) op
      ((s.tile t.val).pc + 16) f ∧ f.kind = arrayEnd op ∧ f.eff = e := by
  have ⟨_, _, _, _, _, good, _⟩ := can
  obtain ⟨mem, x, tile⟩ := entered_frame array s t.val
  obtain ⟨g, flight⟩ := addFlight_eq (entered s t.val op) t.val op (arrayEnd op) lat e
  have counts := issueArray_counts array ((matrixEff_entered array s t.val).trans eff)
  rw [flight, tile] at counts
  have after := counts.tile t.val
  rw [State.tile_setTile] at after
  obtain ⟨b, q, all⟩ := issueAll_entered (nextPc (s.tile t.val) [op]).1 (nextPc (s.tile t.val) [op]).2 good (by rw [tile])
    (issueOp_array array (badSource_entered array good)) (by rw [after])
  refine ⟨_, (tileSlot_issues s t op can).trans (congrArg _ all), counts.mem.trans mem, ?_⟩
  rw [State.tile_setTile, after, nextPc_array array]
  exact ⟨_, ⟨⟨rfl, rfl, rfl, rfl, rfl, rfl, rfl, rfl⟩, rfl, rfl, rfl, rfl, rfl⟩, rfl, rfl⟩

/-! ### Accumulator operations -/

/-- The whole issue of an accumulator operation. -/
theorem transfer_issues {s : State} {t : TileId} {op : TileOp} {lat : Nat} {e : Effect} (transfer : isTransfer op = true)
    (eff : matrixEff s (s.tile t.val) op = some (lat, e)) (can : CanIssue s t op) :
    ∃ u, tileSlot t false op s = .next u ∧ u.mem = s.mem ∧ ∃ f, InFlight (s.tile t.val) (u.tile t.val) op
      ((s.tile t.val).pc + 16) f ∧ f.kind = .fixed ∧ f.eff = e := by
  have ⟨_, _, _, _, _, good, counted⟩ := can
  have plain : hasMore op = false ∧ (nextPc (s.tile t.val) [op]).1 = (s.tile t.val).pc + 16
      ∧ fixedEff s t.val (s.tile t.val) op = some (lat, e) := by
    cases op with
    | accMv => exact ⟨rfl, rfl, eff⟩
    | accSt => exact ⟨rfl, rfl, eff⟩
    | accZero => exact ⟨rfl, rfl, eff⟩
    | _ => cases transfer
  obtain ⟨more, pc, fixed⟩ := plain
  obtain ⟨u, run, only, flight⟩ := issue_flight s t op .fixed lat e (hasMore_array op more)
    (issueOp_fixed s t.val op lat e more good counted fixed) can
  rw [pc] at flight
  exact ⟨u, run, by rw [only, State.setTile_mem], flight⟩

/-! ### The obligation -/

/-- Settles O16: the array operations by `array_issues`, the accumulator operations by `transfer_issues`, each with the effect that
`matrixEff` gives it. -/
theorem matrixOps : Obligations.MatrixOps := by
  unfold Obligations.MatrixOps
  intro s t aa ai as vd sr fmt c cs ini pub T b n r0 rowImage go
  have base (r : BitVec 4) : addrOf (T.ra r) (0 : BitVec 1) 1 = b r := addrOf_zero _
  refine ⟨?_, ?_, ?_, ?_, ?_, ?_⟩
  · exact array_issues rfl (by rw [matrixEff, base])
  · exact array_issues rfl (by rw [matrixEff, base, base])
  · exact transfer_issues rfl rfl
  · exact transfer_issues rfl (by rw [matrixEff, base]; rfl)
  · exact transfer_issues rfl (by rw [matrixEff, base]; rfl)
  · exact transfer_issues rfl rfl

end Sys2Proof.Machine
end

section
/-! O44. Commands about the fabric: a counterexample, in which PL.TICKCTL keeps its value until its shadow copy applies. -/

namespace Sys2Proof.Machine

/-! ### Offsets of the register table -/

/-- The register, or its array along the first index, ends at or below an offset. -/
def RegDef.below (d : RegDef) (off : Nat) : Bool :=
  match d.dims with
  | [] => decide (d.base < off)
  | (n, stride) :: _ => decide (0 < stride) && decide (d.base + n * stride ≤ off)

theorem RegDef.below_mono {d : RegDef} {a b : Nat} (h : d.below a = true) (le : a ≤ b) : d.below b = true := by
  unfold RegDef.below at *
  split at h
  · simp only [decide_eq_true_eq] at *
    omega
  · simp only [Bool.and_eq_true, decide_eq_true_eq] at *
    omega

/-- A search passes by a register that ends below the offset. -/
theorem findIn_cons_below {d : RegDef} {l : List RegDef} {off : Nat} (h : d.below off = true) :
    RegTab.findIn (d :: l) off = RegTab.findIn l off := by
  have outside : RegTab.indices d.dims (off - d.base) = none := by
    unfold RegDef.below at h
    split at h
    · next one =>
      rw [one, RegTab.indices, if_neg]
      simp only [decide_eq_true_eq] at h
      omega
    · next n stride dims array =>
      simp only [Bool.and_eq_true, decide_eq_true_eq] at h
      rw [array, RegTab.indices, if_neg]
      rw [Nat.div_lt_iff_lt_mul h.1]
      omega
  rw [RegTab.findIn, outside, ite_self]

theorem findIn_drop {k off : Nat} {l : List RegDef} (h : (l.take k).all (·.below off) = true) :
    RegTab.findIn l off = RegTab.findIn (l.drop k) off := by
  induction k generalizing l with
  | zero => rfl
  | succ k ih =>
    cases l with
    | nil => rfl
    | cons d l =>
      rw [List.take_succ_cons, List.all_cons, Bool.and_eq_true] at h
      rw [findIn_cons_below h.1, ih h.2, List.drop_succ_cons]

/-! ### The registers of the routing image -/

/-- The row of PL.RT in the register table. -/
def plRtDef : RegDef :=
  ⟨"PL.RT", R.plRt 0, [(4096, 8)],
   [⟨63, 63, .rw, 0, none⟩, ⟨55, 48, .rw, 0, none⟩, ⟨47, 24, .rw, 0, none⟩, ⟨23, 0, .rw, 0, none⟩]⟩

/-- The row of PL.TICKCTL: every field has a shadow copy (R447). -/
def plTickctlDef : RegDef :=
  ⟨"PL.TICKCTL", R.plTickctl, [],
   [⟨63, 62, .rws, 0, some (0, 2)⟩, ⟨61, 57, .rws, 0x1f, none⟩, ⟨56, 52, .rws, 0x1f, none⟩,
    ⟨51, 36, .rws, 0xa, some (1, 1000)⟩, ⟨35, 24, .rws, 3, none⟩, ⟨23, 12, .rws, 1, none⟩, ⟨11, 0, .rws, 4, none⟩]⟩

theorem find_plTickctl : RegTab.find R.plTickctl = some (plTickctlDef, []) := by decide +kernel

/-- The rows of the register table before that of PL.RT. -/
def rowsBeforePlRt : Nat := 113

theorem find_plRt {d : Nat} (device : d < 4096) : RegTab.find (R.plRt d) = some (plRtDef, [d]) := by
  have base : R.plRt 0 ≤ R.plRt d := by unfold R.plRt; omega
  have before : (RegTab.all.take rowsBeforePlRt).all (·.below (R.plRt 0)) = true := by decide +kernel
  have rest : RegTab.all.drop rowsBeforePlRt = plRtDef :: RegTab.all.drop (rowsBeforePlRt + 1) := by decide +kernel
  have index : RegTab.indices plRtDef.dims (R.plRt d - plRtDef.base) = some [d] := by
    have offset : R.plRt d - plRtDef.base = 8 * d := by simp only [R.plRt, plRtDef]; omega
    rw [offset, plRtDef, RegTab.indices, RegTab.indices, if_pos (by omega), if_pos (by omega)]
    simp
  have below : (RegTab.all.take rowsBeforePlRt).all (·.below (R.plRt d)) = true :=
    List.all_eq_true.2 fun e mem => RegDef.below_mono (List.all_eq_true.1 before e mem) base
  rw [RegTab.find, findIn_drop below, rest, RegTab.findIn, if_pos (show plRtDef.base ≤ R.plRt d from base), index]

/-! ### Registers that an item leaves alone -/

theorem reg_writeShadow (s : State) (off : Nat) (m x : W64) (r : Nat) : (s.writeShadow off m x).reg r = s.reg r := by
  unfold State.writeShadow
  split <;> rfl

theorem reg_markLevel (s : State) (off level : Nat) (m : W64) (r : Nat) : (markLevel s off level m).reg r = s.reg r := by
  unfold markLevel
  split <;> rfl

theorem reg_applyFields_ne (s : State) {off r : Nat} (d : RegDef) (x m : W64) (other : r ≠ off) :
    (applyFields s off d x m).reg r = s.reg r := by
  unfold applyFields
  dsimp only
  split
  · exact State.reg_setReg_ne _ _ _ _ other
  · rw [reg_writeShadow, State.reg_setReg_ne _ _ _ _ other]

theorem accMask_eq_zero {fs : List FieldDef} {p : Acc → Bool} (none : ∀ f ∈ fs, p f.acc = false) : accMask fs p = 0#64 := by
  have sum : fs.foldl (fun a f => if p f.acc then a + (2 ^ (f.hi + 1) - 2 ^ f.lo) else a) 0 = 0 :=
    List.foldlRecOn fs _ (motive := (· = 0)) rfl fun a zero f mem => by rw [none f mem]; exact zero
  rw [accMask, sum]

/-- A write to a register whose fields all have shadow copies changes none of them before the shadow applies (R8). -/
theorem reg_applyFields_shadowed (s : State) (off : Nat) {d : RegDef} (x m : W64) (shadowed : ∀ f ∈ d.fields, f.acc = .rws) :
    (applyFields s off d x m).reg off = s.reg off := by
  have rw0 : accMask d.fields (· == .rw) = 0#64 := accMask_eq_zero fun f mem => by rw [shadowed f mem]; rfl
  have w1c0 : accMask d.fields (· == .w1c) = 0#64 := accMask_eq_zero fun f mem => by rw [shadowed f mem]; rfl
  have kept : (s.setReg off (((s.reg off &&& ~~~(0#64 &&& m)) ||| (x &&& (0#64 &&& m))) &&& ~~~(x &&& (0#64 &&& m)))).reg off
      = s.reg off := by
    simp only [State.reg_setReg, BitVec.zero_and, BitVec.and_zero, BitVec.or_zero, BitVec.not_zero, BitVec.and_allOnes]
  unfold applyFields
  dsimp only
  rw [rw0, w1c0]
  split
  · exact kept
  · rw [reg_writeShadow, kept]

theorem applyItem_plTickctl (s : State) (m x : W64) : (applyItem s R.plTickctl m x).reg R.plTickctl = s.reg R.plTickctl := by
  rw [applyItem, find_plTickctl]
  exact reg_applyFields_shadowed s R.plTickctl x m (by decide)

theorem applyItem_plRt (s : State) {d : Nat} (device : d < 4096) (m x : W64) :
    (applyItem s (R.plRt d) m x).reg R.plTickctl = s.reg R.plTickctl := by
  rw [applyItem, find_plRt device]
  exact reg_applyFields_ne s plRtDef x m (by simp only [R.plTickctl, R.plRt]; omega)

/-! ### SET_FABRIC_TOPOLOGY -/

/-- One register of the image, applied at the basic level. -/
def putImage (s : State) (off : Nat) (m x : W64) : State := markLevel (applyItem s off m x) off 1 m

/-- The fields of PL.TICKCTL that the image gives: role, parents and the slip quantum. -/
def imageTickFields : W64 := BitVec.ofNat 64 (2 ^ 64 - 2 ^ 36)

/-- The routing image at `a` applied: the words of PL.RT, then that of PL.TICKCTL. -/
def withImage (s : State) (a : Nat) : State :=
  let img (i : Nat) : Nat := s.load (a + 8 * i) 8
  putImage ((List.range 4096).foldl (fun u d => putImage u (R.plRt d) (BitVec.allOnes 64) (BitVec.ofNat 64 (img d))) s)
    R.plTickctl imageTickFields (BitVec.ofNat 64 (img 4096) &&& imageTickFields)

theorem withImage_plTickctl (s : State) (a : Nat) : (withImage s a).reg R.plTickctl = s.reg R.plTickctl := by
  unfold withImage putImage
  dsimp only
  rw [reg_markLevel, applyItem_plTickctl]
  refine List.foldlRecOn _ _ (motive := fun u : State => u.reg R.plTickctl = s.reg R.plTickctl) rfl fun u kept d mem => ?_
  rw [reg_markLevel, applyItem_plRt u (List.mem_range.1 mem), kept]

theorem setTickTimes_slip (s : State) (lat : Nat) :
    (setTickTimes s lat).fld R.plTickctl F.plTickctl_slip_q = s.fld R.plTickctl F.plTickctl_slip_q := by
  unfold setTickTimes
  dsimp only
  rw [State.fld_setFld_beside _ _ _ _ _ (by decide) (by decide), State.fld_setFld_beside _ _ _ _ _ (by decide) (by decide),
    State.fld_setFld_beside _ _ _ _ _ (by decide) (by decide)]

theorem setFabricTopology_replies {s : State} {c : Cmd} {a : BitVec 44} (lat : BitVec 22) (taken : Taken 0x0304 .both false c s)
    (readable : s.statusAt a.toNat (8 * 4097) = .ok) (clean : ∀ d, d < 4096 → bitsOf (s.load (a.toNat + 8 * d) 8) 62 56 = 0)
    (fits : regOk s R.plTickctl imageTickFields (BitVec.ofNat 64 (s.load (a.toNat + 8 * 4096) 8) &&& imageTickFields) = true) :
    Replies (.setFabricTopology c a lat) 0x0304 c s St.ok [] (setTickTimes (withImage s a.toNat) lat.toNat) := by
  refine replies_of_mgmt rfl taken ?_
  have words : ((List.range 4096).all fun d => bitsOf (s.load (a.toNat + 8 * d) 8) 62 56 == 0) = true :=
    List.all_eq_true.2 fun d mem => beq_iff_eq.2 (clean d (List.mem_range.1 mem))
  refine (if_neg (not_not.2 readable)).trans (if_neg ?_)
  rintro (unclean | bad)
  · exact absurd (unclean.symm.trans words) (by decide)
  · exact absurd (bad.symm.trans fits) (by decide)

/-- On the tray's path a response leaves the registers. -/
theorem reply_tray_fld {c : Cmd} (tray : c.path = .tray) (s : State) (code status : Nat) (payload : List Byte) (r : Nat) (f : Fld) :
    (reply s code c status payload).fld r f = s.fld r f := by
  unfold reply
  rw [tray]
  rfl

/-! ### A device that is ready, with a routing image in its memory -/

/-- An image without routes whose last word gives role 0, no parents and a slip quantum of 1 us. -/
def slipImageWord : Nat := 31 * 2 ^ 57 + 31 * 2 ^ 52 + 2 ^ 36

def imageAt : BitVec 44 := 0x20100020000

def topologyReady : State :=
  { State.reset.setFld R.bootStatus F.bootStatus_ready 1 with
    mem := Mem.writeN [] (imageAt.toNat + 8 * 4096) (leBytes 8 slipImageWord) }

def topologyCmd : Cmd := ⟨.tray, ⟨0, 0⟩, 1⟩

theorem topologyReady_last : topologyReady.load (imageAt.toNat + 8 * 4096) 8 = slipImageWord := by decide +kernel

theorem topologyReady_above : Mem.Above (imageAt.toNat + 8 * 4096 - 1) topologyReady.mem := by
  unfold Mem.Above
  decide +kernel

theorem topologyReady_words {d : Nat} (device : d < 4096) : topologyReady.load (imageAt.toNat + 8 * d) 8 = 0 := by
  have zero (i : Nat) (small : i < 8) : topologyReady.byteAt (imageAt.toNat + 8 * d + i) = 0 := by
    unfold State.byteAt State.readByte
    split
    · rfl
    · exact Mem.read_above _ _ fun cell mem => lt_of_le_of_lt (by omega) (topologyReady_above cell mem)
  have bytes : topologyReady.bytesAt (imageAt.toNat + 8 * d) 8 = (List.range 8).map fun _ => 0 :=
    List.map_congr_left fun i mem => zero i (List.mem_range.1 mem)
  rw [State.load, bytes]
  decide

/-! ### The obligation -/

/-- Refutes O44: in `topologyReady` the command writes the image's slip quantum of 1 us to the shadow copy of PL.TICKCTL, whose
fields are all RWS (R8), and the register itself still holds the 10 us of reset; the clause on SET_FABRIC_TOPOLOGY has the
register read 1. -/
theorem not_fabricAndGroupCommands : ¬ Obligations.FabricAndGroupCommands := by
  unfold Obligations.FabricAndGroupCommands
  intro holds
  obtain ⟨-, -, topology, -⟩ := holds topologyReady topologyCmd
  have taken : Taken 0x0304 .both false topologyCmd topologyReady := by unfold Taken; decide +kernel
  have readable : topologyReady.statusAt imageAt.toNat (8 * 4097) = .ok := by decide +kernel
  have clean (d : Nat) (device : d < 4096) : bitsOf (topologyReady.load (imageAt.toNat + 8 * d) 8) 62 56 = 0 := by
    rw [topologyReady_words device]; decide
  have fits : regOk topologyReady R.plTickctl imageTickFields
      (BitVec.ofNat 64 (topologyReady.load (imageAt.toNat + 8 * 4096) 8) &&& imageTickFields) = true := by decide +kernel
  obtain ⟨s1, ⟨u, run, claimed⟩, slip, -⟩ := topology imageAt 0 taken readable clean fits
  obtain ⟨v, same, replied⟩ := setFabricTopology_replies 0 taken readable clean fits
  obtain rfl : u = v := Host.Outcome.next.inj (run.symm.trans same)
  have claims : u.fld R.plTickctl F.plTickctl_slip_q = 1 := by
    rw [claimed, reply_tray_fld rfl, setTickTimes_slip, slip F.plTickctl_slip_q (by simp)]
    exact (congrArg (bitsOf · 51 36) topologyReady_last).trans (by decide)
  have unchanged : u.fld R.plTickctl F.plTickctl_slip_q = 10 := by
    rw [replied, reply_tray_fld rfl, setTickTimes_slip, State.fld, withImage_plTickctl]
    decide +kernel
  exact absurd (claims.symm.trans unchanged) (by decide)

end Sys2Proof.Machine
end

section
/-! O15. Issue of the merge-stack operations. -/

namespace Sys2Proof.Machine

/-- What a tile holds, set again, leaves every condition of issue as it is. -/
theorem CanIssue.setTile_self {s : State} {t : TileId} {op : TileOp} (can : CanIssue s t op) :
    CanIssue (s.setTile t.val (s.tile t.val)) t op := by
  have meets_self : meets (s.setTile t.val (s.tile t.val)) t.val (s.tile t.val) [op] = meets s t.val (s.tile t.val) [op] :=
    meets_asm s t.val (s.tile t.val) (s.tile t.val) (s.tile t.val).asm [op]
  unfold CanIssue at *
  dsimp only at *
  rw [State.tile_setTile, meets_self]
  exact can

/-- Of the state, memory and the contexts enter a V-slot effect, not the table of tiles. -/
theorem vectorEff_setTile (s : State) (t : Nat) (T U : Tile) (op : TileOp) :
    vectorEff (s.setTile t U) T op = vectorEff s T op := rfl

/-- A tree operation whose count word is readable, in a bundle of its own, issues as any slot does (R181). -/
theorem treeSlot_readable {s : State} {t : TileId} {op : TileOp} (tree : isTree op = true) (can : CanIssue s t op) :
    treeSlot t ⟨false, false⟩ op s = tileSlot t false op (s.setTile t.val (s.tile t.val)) := by
  obtain ⟨taking, -, -, -, -, -, counted⟩ := can
  have readable : (s.tile t.val).countUe = false := by simpa [tree] using counted
  have same : { s.tile t.val with countUe := false } = s.tile t.val := by rw [← readable]
  rw [treeSlot, tileSlot]
  dsimp only
  rw [if_neg (by rw [taking]; decide), same]

/-- A tree operation does no more than go in flight, and the next bundle follows it. -/
theorem tree_plain {op : TileOp} (tree : isTree op = true) (T : Tile) :
    hasMore op = false ∧ nextPc T [op] = (T.pc + 16, false) ∧ scalarLat op = none := by
  cases op with
  | vTreeInit => exact ⟨rfl, rfl, rfl⟩
  | vTreePush => exact ⟨rfl, rfl, rfl⟩
  | vTreeFin => exact ⟨rfl, rfl, rfl⟩
  | _ => cases tree

/-- The whole issue of a tree operation: the local store and the register change at its retirement. -/
theorem tree_issues {c : Instr} {s : State} {t : TileId} {op : TileOp} {lat : Nat} {e : Effect} {w : List RegWrite}
    {l : List (List (Nat × List Byte))} (run : exec c s = treeSlot t ⟨false, false⟩ op s) (tree : isTree op = true)
    (eff : vectorEff s (s.tile t.val) op = some (lat, e)) (res : e.res = w) (ls : e.ls = l) (rows : e.rows = [])
    (image : e.image = none) : IssuesLs c s t op w l := by
  intro can
  have ⟨_, _, _, _, _, good, counted⟩ := can
  obtain ⟨more, next, vector⟩ := tree_plain tree (s.tile t.val)
  have fixed : fixedEff (s.setTile t.val (s.tile t.val)) t.val (s.tile t.val) op = some (lat, e) := by
    rw [fixedEff, vector, vectorEff_setTile, eff]
  have issue := issueOp_fixed (s.setTile t.val (s.tile t.val)) t.val op lat e more
  rw [State.tile_setTile] at issue
  obtain ⟨u, slot, only, f, flight, kind, effect⟩ := issue_flight _ t op .fixed lat e (hasMore_array op more)
    (issue good counted fixed) can.setTile_self
  rw [State.tile_setTile, next] at flight
  rw [State.setTile_setTile] at only
  subst effect
  exact ⟨u, (run.trans (treeSlot_readable tree can)).trans slot, only, f, flight, kind, res, ls, rows, image⟩

/-- Settles O15: each operation by `tree_issues`, with the effect that `vectorEff` gives it. -/
theorem mergeStackOps : Obligations.MergeStackOps := by
  unfold Obligations.MergeStackOps
  intro s t va vd aa q i T b
  have base : addrOf (T.ra aa) (0 : BitVec 1) 1 = b := addrOf_zero _
  rw [← base]
  refine ⟨?_, ?_, ?_⟩
  · exact tree_issues rfl rfl rfl rfl rfl rfl rfl
  · exact tree_issues rfl rfl rfl rfl rfl rfl rfl
  · exact tree_issues rfl rfl rfl rfl rfl rfl rfl

end Sys2Proof.Machine
end

section
/-! O58. Maximum and minimum of FP32 values. -/

namespace Sys2Proof.Fp

/-! ### Decoding and rounding of a pattern -/

/-- The pattern of a sign, an exponent field and a fraction field. -/
def pack (s : Bool) (e f : Nat) : W32 := BitVec.ofNat 32 (signBit s + e * 2 ^ 23 + f)

/-- A pattern is its three fields. -/
theorem pack_fields (a : W32) : pack (a.getLsbD 31) (a.extractLsb' 23 8).toNat (a.extractLsb' 0 23).toNat = a := by
  have sign : a.getLsbD 31 = decide (2 ^ 31 ≤ a.toNat) :=
    (BitVec.msb_eq_getLsbD_last a).symm.trans (BitVec.msb_eq_decide a)
  have lt := a.isLt
  apply BitVec.eq_of_toNat_eq
  simp only [pack, signBit, sign, decide_eq_true_eq, BitVec.toNat_ofNat, BitVec.extractLsb'_toNat, Nat.shiftRight_eq_div_pow]
  split <;> omega

/-- A normal value is a 24-bit significand within the exponent range, so rounding leaves it exact (R120). -/
theorem fl_normal (s : Bool) {e f : Nat} (e1 : 1 ≤ e) (e2 : e ≤ 254) (hf : f < 2 ^ 23) :
    fl (.fin s (2 ^ 23 + f) ((e : Int) - 150)) = pack s e f := by
  have len : Nat.log2 (2 ^ 23 + f) = 23 := (Nat.log2_eq_iff (by omega)).2 ⟨by omega, by omega⟩
  have short : ¬ 2 ^ 23 + f = 2 ^ 24 := by omega
  have ex : (e : Int) - 150 + (((23 + 1 : Nat) : Int) - ((24 : Nat) : Int)) + ((24 : Nat) : Int) - 1 = (e : Int) - 127 := by omega
  have field : ((e : Int) - 127 + 127).toNat = e := by omega
  simp only [fl, roundTo, roundFin, len, Nat.sub_self, pow_zero, mul_one, if_neg short, ex, field, le_refl, if_true]
  rw [if_neg (by omega), if_neg (by omega), if_neg (by omega), pack, Nat.add_sub_cancel_left]

theorem fl_inf (s : Bool) : fl (.inf s) = pack s 255 0 := rfl

/-- A pattern with a nonzero exponent field that is no NaN is the FP32 rounding of its own value. -/
theorem fl_dec {a : W32} (number : dec a ≠ .nan) (normal : a.extractLsb' 23 8 ≠ 0) : fl (dec a) = a := by
  have above : (a.extractLsb' 23 8).toNat ≠ 0 := fun h => normal (BitVec.eq_of_toNat_eq h)
  have top := (a.extractLsb' 23 8).isLt
  have fraction := (a.extractLsb' 0 23).isLt
  by_cases inf : (a.extractLsb' 23 8).toNat = 255
  · have zero : (a.extractLsb' 0 23).toNat = 0 := by
      by_contra payload
      exact number (by simp only [dec, if_pos inf, if_neg payload])
    have value : dec a = .inf (a.getLsbD 31) := by simp only [dec, if_pos inf, if_pos zero]
    rw [value, fl_inf, ← inf, ← zero, pack_fields]
  · have value : dec a = .fin (a.getLsbD 31) (2 ^ 23 + (a.extractLsb' 0 23).toNat) (((a.extractLsb' 23 8).toNat : Int) - 150) := by
      simp only [dec, if_neg inf, if_neg above]
    rw [value, fl_normal _ (by omega) (by omega) fraction, pack_fields]

/-- An input's value is exact in FP32: rounding it and reading it back changes nothing (R120). -/
theorem dec_fl_dec (a : W32) : dec (fl (dec a)) = dec a := by
  by_cases nan : dec a = .nan
  · rw [nan]; rfl
  by_cases zero : a.extractLsb' 23 8 = 0
  · have value : dec a = .fin (a.getLsbD 31) 0 0 := by rw [dec, zero]; rfl
    rw [value]
    cases a.getLsbD 31 <;> rfl
  · rw [fl_dec nan zero]

/-! ### The exact order -/

theorem cmpX_swap (x y : FV) : cmpX y x = (cmpX x y).map Ordering.swap := by
  cases x with
  | nan => cases y <;> rfl
  | inf s =>
    cases y with
    | nan => rfl
    | inf t => cases s <;> cases t <;> rfl
    | fin => cases s <;> rfl
  | fin s m e =>
    cases y with
    | nan => rfl
    | inf t => cases t <;> rfl
    | fin t n f =>
      simp only [cmpX, Option.map_some, Option.some.injEq]
      rw [min_comm, Std.OrientedCmp.eq_swap (cmp := compare)]

theorem cmpX_self {x : FV} (number : x ≠ .nan) : cmpX x x = some .eq := by
  cases x with
  | nan => exact absurd rfl number
  | inf s => exact congrArg some (if_pos rfl)
  | fin s m e => exact congrArg some (compare_eq_iff_eq.2 rfl)

theorem cmpX_eq_none {x y : FV} : cmpX x y = none ↔ x = .nan ∨ y = .nan := by
  cases x <;> cases y <;> simp [cmpX]

/-- Two numbers are ordered, either way round. -/
theorem cmpX_numbers {x y : FV} (hx : x ≠ .nan) (hy : y ≠ .nan) : ∃ o, cmpX x y = some o ∧ cmpX y x = some o.swap := by
  obtain ⟨o, order⟩ := Option.ne_none_iff_exists'.1 fun none => (cmpX_eq_none.1 none).elim hx hy
  exact ⟨o, order, by rw [cmpX_swap, order, Option.map_some]⟩

/-! ### Maximum and minimum -/

theorem maxX_nan {x y : FV} (h : x = .nan ∨ y = .nan) : maxX x y = .nan := by
  rw [maxX, cmpX_eq_none.2 h]

theorem minX_nan {x y : FV} (h : x = .nan ∨ y = .nan) : minX x y = .nan := by
  rw [minX, cmpX_eq_none.2 h]

/-- The maximum of two numbers is one of them, and neither is above it. -/
theorem maxX_spec {x y : FV} (hx : x ≠ .nan) (hy : y ≠ .nan) :
    (maxX x y = x ∨ maxX x y = y) ∧ cmpX (maxX x y) x ≠ some .lt ∧ cmpX (maxX x y) y ≠ some .lt := by
  obtain ⟨o, order, swap⟩ := cmpX_numbers hx hy
  have xx := cmpX_self hx
  have yy := cmpX_self hy
  rw [maxX, order]
  cases o with
  | lt => simp [swap, yy]
  | gt => simp [order, xx]
  | eq => cases isNegZero x <;> simp [swap, order, xx, yy]

/-- The minimum of two numbers is one of them, and neither is below it. -/
theorem minX_spec {x y : FV} (hx : x ≠ .nan) (hy : y ≠ .nan) :
    (minX x y = x ∨ minX x y = y) ∧ cmpX (minX x y) x ≠ some .gt ∧ cmpX (minX x y) y ≠ some .gt := by
  obtain ⟨o, order, swap⟩ := cmpX_numbers hx hy
  have xx := cmpX_self hx
  have yy := cmpX_self hy
  rw [minX, order]
  cases o with
  | lt => simp [order, xx]
  | gt => simp [swap, yy]
  | eq => cases isNegZero x <;> simp [swap, order, xx, yy]

/-- What rounds one of two decoded inputs decodes to it again. -/
theorem dec_fl_choice {a b : W32} {x : FV} (h : x = dec a ∨ x = dec b) : dec (fl x) = x := by
  rcases h with rfl | rfl
  · exact dec_fl_dec a
  · exact dec_fl_dec b

/-- Settles O58: NaN by `maxX_nan` and `minX_nan`, numbers by `maxX_spec` and `minX_spec`, since the values chosen are exact in FP32. -/
theorem maximaAndMinima : Obligations.MaximaAndMinima := by
  unfold Obligations.MaximaAndMinima
  intro a b x y hi lo
  refine ⟨?_, ?_, ?_, ?_⟩
  · intro nan
    exact ⟨congrArg fl (maxX_nan nan), congrArg fl (minX_nan nan)⟩
  · rintro (⟨rfl, rfl⟩ | ⟨rfl, rfl⟩)
    · exact ⟨rfl, rfl⟩
    · exact ⟨rfl, rfl⟩
  · intro hx hy
    obtain ⟨highest, hiX, hiY⟩ := maxX_spec hx hy
    obtain ⟨lowest, loX, loY⟩ := minX_spec hx hy
    have hiValue : dec hi = maxX x y := dec_fl_choice highest
    have loValue : dec lo = minX x y := dec_fl_choice lowest
    rw [hiValue, loValue]
    exact ⟨highest.imp (congrArg fl) (congrArg fl), lowest.imp (congrArg fl) (congrArg fl), hiX, hiY, loX, loY⟩
  · exact fl_dec

end Sys2Proof.Fp
end

section
/-! O40. Reports and the answers of attestation. -/

namespace Sys2Proof.Machine

/-! ### Reports (R562, R563, R565) -/

/-- A scope of kind 2 names one tile, whose counters are read (R152). -/
theorem getArithCounters_tile {s : State} {c : Cmd} (kind : c.scope.kind = 2) (device : c.scope.index.toNat < 2048)
    (there : c.scope.index.toNat % 256 < s.part.tilesPerPart) (taken : Taken 0x0104 .both true c s) :
    Replies (.getArithCounters c) 0x0104 c s St.ok (leBytes 8 (s.reg (R.vxuResidue c.scope.index.toNat)).toNat
      ++ leBytes 8 (s.reg (R.vxuSpecial c.scope.index.toNat)).toNat) s := by
  refine replies_of_mgmt rfl taken ?_
  rw [kind]
  simp [device, there]

/-! ### Attestation (R568) -/

section Attestation

variable {s : State} {f : State → Option (List Byte × State)}

theorem spdmAnswer_free {bs : List Byte} {s1 : State} (free : s.board.restricted = false) (answer : f s = some (bs, s1)) :
    spdmAnswer s f = s1.emit (.spdm true bs) := by
  rw [spdmAnswer, if_neg (by rw [free]; decide), answer]

theorem spdmAnswer_restricted (restricted : s.board.restricted = true) : spdmAnswer s f = s.emit (.spdm false []) :=
  if_pos restricted

end Attestation

/-- The measurement of image `k` is its digest at the version of the bank in use. -/
theorem getMeasurements_image {s : State} {i : BitVec 8} (low : 1 ≤ i.toNat) (high : i.toNat ≤ 4)
    (free : s.board.restricted = false) : Runs (.getMeasurements i) s fun u => u = s.emit (.spdm true
      ((List.range 48).map (Config.imageDigest i.toNat
        (s.board.flash.version.getD (i.toNat * 2 + s.board.flash.bank.getD i.toNat 0) 0)))) := by
  refine ⟨_, rfl, spdmAnswer_free free ?_⟩
  generalize i.toNat = k at *
  interval_cases k
  · rfl
  · rfl
  · rfl
  · rfl

theorem length_drawnBytes (s : State) (n : Nat) : (drawnBytes s n).1.length = n := by
  simp [drawnBytes]

/-- Settles O40: the reports by `replies_of_mgmt`, attestation by `spdmAnswer_free` and `spdmAnswer_restricted`. -/
theorem reportsAndAttestation : Obligations.ReportsAndAttestation := by
  unfold Obligations.ReportsAndAttestation
  intro s c n nonce i w reads
  refine ⟨?_, ?_, ?_, ?_, ?_, ?_, ?_, ⟨?_, ?_, ?_, ?_⟩, ?_⟩
  · exact fun taken => replies_of_mgmt rfl taken rfl
  · exact fun taken => replies_of_mgmt rfl taken rfl
  · exact fun taken => replies_of_mgmt rfl taken rfl
  · exact getArithCounters_tile
  · intro taken key
    refine ⟨(List.range 96).map (Config.keyByte s.draw.1), by rw [List.length_map, List.length_range],
      replies_of_mgmt rfl taken ?_⟩
    rw [key]
  · exact fun free => ⟨_, rfl, spdmAnswer_free free rfl⟩
  · intro free length
    exact ⟨_, rfl, _, length_drawnBytes s 96, spdmAnswer_free free (if_pos ⟨rfl, length⟩)⟩
  · exact getMeasurements_image
  · exact fun five free => ⟨_, rfl, spdmAnswer_free free (by rw [five]; rfl)⟩
  · exact fun six free => ⟨_, rfl, spdmAnswer_free free (by rw [six]; rfl)⟩
  · exact fun seven free => ⟨_, rfl, spdmAnswer_free free (by rw [seven]; rfl)⟩
  · exact fun restricted => ⟨_, rfl, spdmAnswer_restricted restricted⟩

end Sys2Proof.Machine
end

section
/-! O7. Scalar operations; the issue of an S-slot operation. -/

namespace Sys2Proof.Machine

/-! ### Orders and low bits of words -/

theorem toNat_low {w : Nat} (x : BitVec w) (n : Nat) : (x.extractLsb' 0 n).toNat = x.toNat % 2 ^ n :=
  BitVec.extractLsb'_toNat 0 n x

/-- The signed minimum as a word. -/
theorem ite_slt_min {w : Nat} (a b : BitVec w) : (if a.slt b then a else b) = BitVec.ofInt w (min a.toInt b.toInt) := by
  by_cases less : a.toInt < b.toInt
  · rw [if_pos (BitVec.slt_iff_toInt_lt.2 less), min_eq_left less.le, BitVec.ofInt_toInt]
  · rw [if_neg (mt BitVec.slt_iff_toInt_lt.1 less), min_eq_right (not_lt.1 less), BitVec.ofInt_toInt]

/-- The signed maximum as a word. -/
theorem ite_slt_max {w : Nat} (a b : BitVec w) : (if a.slt b then b else a) = BitVec.ofInt w (max a.toInt b.toInt) := by
  by_cases less : a.toInt < b.toInt
  · rw [if_pos (BitVec.slt_iff_toInt_lt.2 less), max_eq_right less.le, BitVec.ofInt_toInt]
  · rw [if_neg (mt BitVec.slt_iff_toInt_lt.1 less), max_eq_left (not_lt.1 less), BitVec.ofInt_toInt]

/-- The unsigned minimum as a word. -/
theorem ite_ult_min {w : Nat} (a b : BitVec w) : (if a.ult b then a else b) = BitVec.ofNat w (min a.toNat b.toNat) := by
  by_cases less : a.toNat < b.toNat
  · rw [if_pos (BitVec.ult_iff_toNat_lt.2 less), min_eq_left less.le, BitVec.ofNat_toNat, BitVec.setWidth_eq]
  · rw [if_neg (mt BitVec.ult_iff_toNat_lt.1 less), min_eq_right (not_lt.1 less), BitVec.ofNat_toNat, BitVec.setWidth_eq]

/-- The unsigned maximum as a word. -/
theorem ite_ult_max {w : Nat} (a b : BitVec w) : (if a.ult b then b else a) = BitVec.ofNat w (max a.toNat b.toNat) := by
  by_cases less : a.toNat < b.toNat
  · rw [if_pos (BitVec.ult_iff_toNat_lt.2 less), max_eq_right less.le, BitVec.ofNat_toNat, BitVec.setWidth_eq]
  · rw [if_neg (mt BitVec.ult_iff_toNat_lt.1 less), max_eq_left (not_lt.1 less), BitVec.ofNat_toNat, BitVec.setWidth_eq]

/-! ### The bits of a replaced field -/

/-- Within the field the new value shows its bits, elsewhere the number keeps its own. -/
theorem testBit_setBitsOf (x v i : Nat) {hi lo : Nat} (order : lo ≤ hi + 1) :
    (setBitsOf x hi lo v).testBit i = if lo ≤ i ∧ i ≤ hi then v.testBit (i - lo) else x.testBit i := by
  obtain ⟨w, width⟩ : ∃ w, hi + 1 = lo + w := ⟨hi + 1 - lo, by omega⟩
  have parts : setBitsOf x hi lo v = 2 ^ lo * (2 ^ w * (x / 2 ^ (lo + w)) + v % 2 ^ w) + x % 2 ^ lo := by
    rw [setBitsOf, width, Nat.add_sub_cancel_left, pow_add]
    ring
  rw [parts, Nat.testBit_two_pow_mul_add _ (Nat.mod_lt _ (Nat.two_pow_pos lo)),
    Nat.testBit_two_pow_mul_add _ (Nat.mod_lt _ (Nat.two_pow_pos w))]
  rcases Nat.lt_or_ge i lo with below | above
  · rw [if_pos below, if_neg (by omega), Nat.testBit_mod_two_pow, decide_eq_true below, Bool.true_and]
  rw [if_neg (by omega)]
  by_cases inside : i ≤ hi
  · rw [if_pos (by omega), if_pos ⟨above, inside⟩, Nat.testBit_mod_two_pow, decide_eq_true (by omega), Bool.true_and]
  · rw [if_neg (by omega), if_neg (by omega), Nat.testBit_div_two_pow]
    congr 1
    omega

/-- insh replaces the 16-bit field that `h` names (R162). -/
theorem inshResult_eq (a : W64) (h : BitVec 2) (x : BitVec 16) :
    inshResult a h x = (a &&& ~~~(0xFFFF#64 <<< (16 * h.toNat))) ||| (x.setWidth 64 <<< (16 * h.toNat)) := by
  apply BitVec.eq_of_getLsbD_eq
  intro i bound
  have ones (j : Nat) : (0xFFFF#64).getLsbD j = decide (j < 16) := Nat.testBit_two_pow_sub_one 16 j
  rw [inshResult, BitVec.getLsbD_ofNat, testBit_setBitsOf _ _ _ (by omega)]
  simp only [BitVec.getLsbD_or, BitVec.getLsbD_and, BitVec.getLsbD_not, BitVec.getLsbD_shiftLeft, BitVec.getLsbD_setWidth, ones, bound,
    decide_true, Bool.true_and]
  by_cases below : i < 16 * h.toNat
  · rw [if_neg (by omega)]
    simp [below, BitVec.testBit_toNat]
  by_cases inside : i ≤ 16 * h.toNat + 15
  · have field : i - 16 * h.toNat < 16 := by omega
    rw [if_pos ⟨by omega, inside⟩]
    simp [BitVec.testBit_toNat, below, field, show i - 16 * h.toNat < 64 by omega]
  · have outside : ¬ i - 16 * h.toNat < 16 := by omega
    rw [if_neg (by omega)]
    simp [below, outside, BitVec.testBit_toNat, BitVec.getLsbD_of_ge x _ (not_lt.1 outside)]

/-! ### Issue -/

section Scalar

variable {c : Instr} {s : State} {t : TileId}

/-- The whole issue of an S-slot operation with a result: its register write goes in flight (R162). -/
theorem scalar_issues {op : TileOp} {lat : Nat} {pc : BitVec 44} {w : List RegWrite} (run : exec c s = tileSlot t false op s)
    (more : hasMore op = false) (timed : scalarLat op = some lat) (next : (nextPc (s.tile t.val) [op]).1 = pc)
    (writes : scalarWrites s t.val (s.tile t.val) op = w) : IssuesTo c s t op pc w :=
  issuesTo_of c s t op (Effect.regs w) lat pc w run next more (by rw [fixedEff, timed, writes]) rfl rfl rfl rfl

theorem alu_issues {f : AluOp} {sd sa sb : BitVec 5} {x : W64} (run : exec c s = tileSlot t false (.alu f sd sa sb) s)
    (result : aluResult f ((s.tile t.val).rs sa) ((s.tile t.val).rs sb) = x) :
    IssuesTo c s t (.alu f sd sa sb) ((s.tile t.val).pc + 16) [.s ((s.tile t.val).useBank sd) sd x] :=
  scalar_issues run rfl rfl rfl (by rw [scalarWrites, result, sW])

theorem alui_issues {f : AluiOp} {sd sa : BitVec 5} {imm : BitVec 15} {x : W64}
    (run : exec c s = tileSlot t false (.alui f sd sa imm) s) (result : aluiResult f ((s.tile t.val).rs sa) imm = x) :
    IssuesTo c s t (.alui f sd sa imm) ((s.tile t.val).pc + 16) [.s ((s.tile t.val).useBank sd) sd x] :=
  scalar_issues run rfl rfl rfl (by rw [scalarWrites, result, sW])

end Scalar

/-! ### The obligation -/

/-- Settles O7: the table's results by `alu_issues` and `alui_issues`; shift amounts by `toNat_low`, orders as those of the values. -/
theorem scalarOperations : Obligations.ScalarOperations := by
  unfold Obligations.ScalarOperations
  refine ⟨?_, ?_, ?_⟩
  · intro s t sd sa sb T a b n w
    have amount : (b.extractLsb' 0 6).toNat = n := toNat_low b 6
    refine ⟨alu_issues rfl rfl, alu_issues rfl rfl, alu_issues rfl rfl, alu_issues rfl rfl, alu_issues rfl rfl, ?_, ?_, ?_, ?_, ?_,
      ?_, ?_, ?_, ?_, ?_, alu_issues rfl rfl, alu_issues rfl rfl⟩
    · exact alu_issues rfl (congrArg (a <<< ·) amount)
    · exact alu_issues rfl (congrArg (a >>> ·) amount)
    · exact alu_issues rfl (congrArg a.sshiftRight amount)
    · exact alu_issues rfl (if_congr BitVec.slt_iff_toInt_lt rfl rfl)
    · exact alu_issues rfl (if_congr BitVec.ult_iff_toNat_lt rfl rfl)
    · exact alu_issues rfl (ite_slt_min a b)
    · exact alu_issues rfl (ite_slt_max a b)
    · exact alu_issues rfl (ite_ult_min a b)
    · exact alu_issues rfl (ite_ult_max a b)
    · exact alu_issues rfl (BitVec.eq_of_toNat_eq (BitVec.toNat_mul a b))
  · intro s t sd sa imm i20 h i16 T a x n w
    have amount : (imm.extractLsb' 0 6).toNat = n := toNat_low imm 6
    refine ⟨alui_issues rfl rfl, alui_issues rfl rfl, alui_issues rfl rfl, alui_issues rfl rfl, ?_, ?_, ?_, ?_, ?_, ?_, ?_⟩
    · exact alui_issues rfl (congrArg (a <<< ·) amount)
    · exact alui_issues rfl (congrArg (a >>> ·) amount)
    · exact alui_issues rfl (congrArg a.sshiftRight amount)
    · exact alui_issues rfl (if_congr BitVec.slt_iff_toInt_lt rfl rfl)
    · exact alui_issues rfl (if_congr BitVec.ult_iff_toNat_lt rfl rfl)
    · exact scalar_issues rfl rfl rfl rfl rfl
    · exact scalar_issues rfl rfl rfl rfl (by rw [scalarWrites, sW, inshResult_eq])
  · intro T h x
    exact ⟨rfl, rfl, rfl, rfl⟩

end Sys2Proof.Machine
end

section
/-! O8. Address registers, loop counters and special values. -/

namespace Sys2Proof.Machine

/-- A move changes the address part modulo 2^44 and keeps the window selector above it (R162). -/
theorem addrMove_ofNat (a : BitVec 48) (n : Nat) : addrMove a (BitVec.ofNat 44 n)
    = BitVec.ofNat 48 (a.toNat / 2 ^ 44 * 2 ^ 44 + (a.toNat % 2 ^ 44 + n) % 2 ^ 44) := by
  have window : a.toNat >>> 44 % 2 ^ 4 = a.toNat / 2 ^ 44 := by
    rw [Nat.shiftRight_eq_div_pow, Nat.mod_eq_of_lt (by omega)]
  have address : (a.extractLsb' 0 44 + BitVec.ofNat 44 n).toNat = (a.toNat % 2 ^ 44 + n) % 2 ^ 44 := by
    rw [BitVec.toNat_add, toNat_low, BitVec.toNat_ofNat, Nat.add_mod_mod]
  have fits : a.toNat / 2 ^ 44 * 2 ^ 44 + (a.toNat % 2 ^ 44 + n) % 2 ^ 44 < 2 ^ 48 := by
    omega
  apply BitVec.eq_of_toNat_eq
  rw [addrMove, BitVec.toNat_append, BitVec.extractLsb'_toNat, window, address,
    ← Nat.shiftLeft_add_eq_or_of_lt (Nat.mod_lt _ (by decide)), Nat.shiftLeft_eq, BitVec.toNat_ofNat, Nat.mod_eq_of_lt fits]

/-- A move by a word of the address's own width. -/
theorem addrMove_toNat (a : BitVec 48) (d : BitVec 44) : addrMove a d
    = BitVec.ofNat 48 (a.toNat / 2 ^ 44 * 2 ^ 44 + (a.toNat % 2 ^ 44 + d.toNat) % 2 ^ 44) := by
  rw [← addrMove_ofNat, BitVec.ofNat_toNat, BitVec.setWidth_eq]

/-- Settles O8: each operation by `scalar_issues`; a move of an address by `addrMove_ofNat`, a change of width by its value. -/
theorem addressAndLoopOps : Obligations.AddressAndLoopOps := by
  unfold Obligations.AddressAndLoopOps
  intro s t sd sa sb ad aa imm lc i23 T A go moved
  refine ⟨?_, ?_, ?_, ?_, ?_, ?_, ?_, ?_, ?_, ?_⟩
  · exact scalar_issues rfl rfl rfl rfl rfl
  · exact scalar_issues rfl rfl rfl rfl (by rw [scalarWrites, sW, BitVec.ofNat_toNat])
  · exact scalar_issues rfl rfl rfl rfl (by rw [scalarWrites, addrMove_toNat])
  · exact scalar_issues rfl rfl rfl rfl (congrArg (fun x => [RegWrite.a ad x]) (addrMove_ofNat A (T.rs sb).toNat))
  · exact scalar_issues rfl rfl rfl rfl rfl
  · exact scalar_issues rfl rfl rfl rfl (by rw [scalarWrites, BitVec.ofNat_toNat])
  · exact scalar_issues rfl rfl rfl rfl (by rw [scalarWrites, sW, BitVec.ofNat_toNat])
  · exact scalar_issues rfl rfl rfl rfl rfl
  · exact scalar_issues rfl rfl rfl rfl rfl
  · exact scalar_issues rfl rfl rfl rfl rfl

end Sys2Proof.Machine
end

section
/-! O9. Branches, step.wait, nop and the returns from the handler. -/

namespace Sys2Proof.Machine

/-! ### Branches (R163, R164, R166) -/

/-- Operations that end in their issue cycle and write no register: the branches without a link or a count. -/
def onlyBranches : TileOp → Bool
  | .br .. | .brP .. | .jmp _ | .jr _ => true
  | _ => false

section Branch

variable {c : Instr} {s : State} {t : TileId} {op : TileOp}

/-- Issue of such a branch puts an operation without effect in flight. -/
theorem issueOp_branch {n : Nat} (branch : onlyBranches op = true) (good : badSource (s.tile n) op = false) :
    issueOp s n op = addFlight s n op .fixed 0 Effect.none := by
  cases op with
  | br => exact if_neg (by rw [good]; decide)
  | brP => exact if_neg (by rw [good]; decide)
  | jmp => rfl
  | jr => exact if_neg (by rw [good]; decide)
  | _ => cases branch

/-- The whole issue of such a branch: nothing but the PC is left of it. -/
theorem branch_issues {pc : BitVec 44} (run : exec c s = tileSlot t false op s) (branch : onlyBranches op = true)
    (next : (nextPc (s.tile t.val) [op]).1 = pc) : IssuesTo c s t op pc [] := by
  intro can
  have ⟨_, _, _, _, _, good, _⟩ := can
  have array : isArray op = false := by
    cases op with
    | mxaWload => cases branch
    | mxaPass => cases branch
    | _ => rfl
  obtain ⟨u, slot, only, f, flight, kind, effect⟩ := issue_flight s t op .fixed 0 Effect.none array
    (issueOp_branch branch (badSource_loaded s t.val op good)) can
  rw [next] at flight
  exact ⟨u, run.trans slot, only, f, flight, kind, by rw [effect]; exact ⟨rfl, rfl, rfl, rfl⟩⟩

/-- The bundle after a branch that is taken when `p` holds. -/
theorem nextPc_branch {w : Nat} {T : Tile} {off : BitVec w} {p : Prop} [Decidable p]
    (branch : branchTo T op = if p then some (target T.pc off) else none) :
    (nextPc T [op]).1 = if p then T.pc + BitVec.ofInt 44 (16 * off.toInt) else T.pc + 16 := by
  rw [nextPc, List.findSome?_cons, branch]
  by_cases taken : p
  · rw [if_pos taken, if_pos taken, target, mul_comm]
  · rw [if_neg taken, if_neg taken, List.findSome?_nil]

end Branch

/-- loop.br is taken while more than one pass was left (R166). -/
theorem branchTo_loopBr (T : Tile) (lc : BitVec 2) (off : BitVec 23) :
    branchTo T (.loopBr lc off) = if 1 < (T.rlc lc).toNat then some (target T.pc off) else none := by
  rw [branchTo, ← ite_not]
  exact if_congr not_le rfl rfl

/-! ### step.wait -/

/-- step.wait leaves issue as an operation that ends with the step (R167). -/
theorem stepWait_issues {s : State} {t : TileId} {rev : Bool} (can : CanIssue s t (.stepWait rev)) :
    Runs (.stepWait t false rev) s fun u => u = s.setTile t.val (u.tile t.val)
      ∧ ∃ f, InFlight (s.tile t.val) (u.tile t.val) (.stepWait rev) ((s.tile t.val).pc + 16) f ∧ f.kind = .stepWait := by
  obtain ⟨u, slot, only, f, flight, kind, -⟩ := issue_flight s t _ .stepWait 0 Effect.none rfl rfl can
  exact ⟨u, slot, only, f, flight, kind⟩

/-! ### Returns from the handler (R67, R168) -/

/-- A bundle that holds one slot alone is tried as soon as it has arrived. -/
theorem tileSlot_alone {s : State} {t : TileId} (op : TileOp) (takes : issueBlocked s t.val (s.tile t.val) = false)
    (empty : (s.tile t.val).asm = []) : tileSlot t false op s = .next (tryIssue (loaded s t.val op) t.val) := by
  have slots : (s.tile t.val).addSlot op = { s.tile t.val with asm := [op] } := by simp [Tile.addSlot, empty]
  simp only [tileSlot, slotStep, takes, slots, loaded, Bool.false_eq_true, if_false]

theorem meets_loaded (s : State) (t : Nat) (op : TileOp) (ops : List TileOp) :
    meets (loaded s t op) t ((loaded s t op).tile t) ops = meets s t (s.tile t) ops := by
  rw [loaded, State.tile_setTile]
  exact meets_asm _ _ _ _ _ _

/-- A return from the handler that meets every condition, with no operation to replay. -/
theorem return_issues {s : State} {t : TileId} {op : TileOp} (form : op = .fret ∨ op = .fretReplay ∧ (s.tile t.val).trapOp = none)
    (takes : issueBlocked s t.val (s.tile t.val) = false) (empty : (s.tile t.val).asm = [])
    (meet : meets s t.val (s.tile t.val) [op] = .issue) :
    tileSlot t false op s = .next (leaveHandler (loaded s t.val op) t.val (s.tile t.val).resumePc) := by
  have held : ((loaded s t.val op).tile t.val).asm = [op] := by rw [loaded, State.tile_setTile]
  have resume : ((loaded s t.val op).tile t.val).resumePc = (s.tile t.val).resumePc := by rw [loaded, State.tile_setTile]
  have abandoned : ((loaded s t.val op).tile t.val).trapOp = (s.tile t.val).trapOp := by rw [loaded, State.tile_setTile]
  rw [tileSlot_alone op takes empty, tryIssue, held, meets_loaded, meet]
  rcases form with rfl | ⟨rfl, none⟩
  · simp [resume]
  · simp [replay, abandoned, none, resume]

/-- Such a return leaves its tile running again at TILE.RESUME_PC. -/
theorem return_resumes {c : Instr} {s : State} {t : TileId} {op : TileOp} (run : exec c s = tileSlot t false op s)
    (form : op = .fret ∨ op = .fretReplay ∧ (s.tile t.val).trapOp = none)
    (takes : issueBlocked s t.val (s.tile t.val) = false) (empty : (s.tile t.val).asm = [])
    (meet : meets s t.val (s.tile t.val) [op] = .issue) :
    Runs c s fun u => u = s.setTile t.val (u.tile t.val) ∧ (u.tile t.val).st = .run
      ∧ (u.tile t.val).pc = (s.tile t.val).resumePc ∧ SameRegs (s.tile t.val) (u.tile t.val) := by
  refine ⟨_, run.trans (return_issues form takes empty meet), ?_⟩
  simp only [leaveHandler, loaded, State.tile_setTile, State.setTile_setTile, true_and]
  exact SameRegs.refl _

/-! ### The obligation -/

/-- Settles O9: branches by `branch_issues` and where `nextPc_branch` sends them, the returns by `return_resumes`. -/
theorem branchesAndHandlerReturn : Obligations.BranchesAndHandlerReturn := by
  unfold Obligations.BranchesAndHandlerReturn
  constructor
  · intro s t sd sa sb pa lc o15 o20 o23 o25 T a b pc go
    refine ⟨?_, ?_, ?_, ?_, ?_, ?_, ?_, ?_, ?_, ?_, ?_, ?_⟩
    · exact branch_issues rfl rfl (nextPc_branch (if_congr beq_iff_eq rfl rfl))
    · exact branch_issues rfl rfl (nextPc_branch (if_congr bne_iff_ne rfl rfl))
    · exact branch_issues rfl rfl (nextPc_branch (if_congr BitVec.slt_iff_toInt_lt rfl rfl))
    · exact branch_issues rfl rfl (nextPc_branch (if_congr BitVec.sle_iff_toInt_le rfl rfl))
    · exact branch_issues rfl rfl (nextPc_branch (if_congr BitVec.ult_iff_toNat_lt rfl rfl))
    · exact branch_issues rfl rfl (nextPc_branch (if_congr BitVec.ule_iff_toNat_le rfl rfl))
    · exact branch_issues rfl rfl (nextPc_branch (if_congr bne_iff_ne rfl rfl))
    · exact branch_issues rfl rfl (nextPc_branch (if_congr bne_eq_false_iff_eq rfl rfl))
    · exact branch_issues rfl rfl (nextPc_branch rfl)
    · exact branch_issues rfl rfl rfl
    · exact scalar_issues rfl rfl rfl (nextPc_branch rfl) rfl
    · exact scalar_issues rfl rfl rfl (nextPc_branch (branchTo_loopBr T lc o23)) rfl
  · intro s t rev T
    refine ⟨stepWait_issues, fun can => issue_plain s t .nop rfl can rfl, ?_, ?_⟩
    · exact fun takes empty _ meet => return_resumes rfl (.inl rfl) takes empty meet
    · exact fun takes empty _ none meet => return_resumes rfl (.inr ⟨rfl, none⟩) takes empty meet

end Sys2Proof.Machine
end

section
/-! O10 and O11. Lane-wise arithmetic; the issue of a V-slot operation. -/

namespace Sys2Proof.Machine

/-- An operation with an effect of the V slot does no more than go in flight, and the next bundle follows it. -/
theorem vectorEff_plain {s : State} {T : Tile} {op : TileOp} {e : Nat × Effect} (eff : vectorEff s T op = some e) :
    hasMore op = false ∧ scalarLat op = none ∧ branchTo T op = none := by
  unfold vectorEff at eff
  split at eff
  any_goals exact ⟨rfl, rfl, rfl⟩
  cases eff

section Vector

variable {x : Instr} {s : State} {t : TileId}

/-- The whole issue of a V-slot operation whose effect is the write of registers (R171). -/
theorem vector_issues {op : TileOp} {lat : Nat} {w : List RegWrite} {n : Special} (run : exec x s = tileSlot t false op s)
    (eff : vectorEff s (s.tile t.val) op = some (lat, { Effect.regs w with special := n })) :
    IssuesTo x s t op ((s.tile t.val).pc + 16) w := by
  obtain ⟨more, vector, straight⟩ := vectorEff_plain eff
  have fixed : fixedEff s t.val (s.tile t.val) op = some (lat, { Effect.regs w with special := n }) := by
    rw [fixedEff, vector, eff]
  have next : (nextPc (s.tile t.val) [op]).1 = (s.tile t.val).pc + 16 := by
    rw [nextPc, List.findSome?_cons, straight, List.findSome?_nil]
  exact issuesTo_of x s t op _ lat _ w run next more fixed rfl rfl rfl rfl

/-- A lane-wise operation writes `f i` in each active lane: the lane results of R173 under the predicate of R171. -/
theorem vArith_issues {g : VArith} {vd va vb vc : BitVec 5} {c : VCtl} {f : Nat → W32}
    (run : exec x s = tileSlot t false (.vArith g vd va vb vc c) s)
    (each : ∀ i, (lane1 g c.t (lane ((s.tile t.val).rv va) i) (lane ((s.tile t.val).rv vb) i)
      (lane ((s.tile t.val).rv vc) i)).bits = f i) :
    IssuesTo x s t (.vArith g vd va vb vc c) ((s.tile t.val).pc + 16)
      [.v vd (masked ((s.tile t.val).rp c.pg) c.z ((s.tile t.val).rv vd) f)] := by
  obtain rfl : _ = f := funext each
  cases fp : g.isFp with
  | false => exact vector_issues run (by rw [vectorEff, fp]; rfl)
  | true => exact vector_issues run (by rw [vectorEff, fp]; rfl)

end Vector

/-- Settles O10: each operation by `vArith_issues`; its lane is the exact result, rounded once in the format of `t`. -/
theorem vectorFloatOps : Obligations.VectorFloatOps := by
  unfold Obligations.VectorFloatOps
  intro s t vd va vb vc c T d a b e w
  -- the operations differ in the branch of `lane1` only
  refine ⟨?_, ?_, ?_, ?_, ?_, ?_, ?_, ?_, ?_, ?_⟩ <;> exact vArith_issues rfl fun _ => rfl

/-- Settles O11: each operation by `vArith_issues`; shift amounts by `toNat_low`, maximum and minimum as those of the values. -/
theorem vectorIntegerOps : Obligations.VectorIntegerOps := by
  unfold Obligations.VectorIntegerOps
  intro s t vd va vb vc c T a b e n w
  have amount (i : Nat) : ((b i).extractLsb' 0 5).toNat = n i := toNat_low (b i) 5
  refine ⟨vArith_issues rfl fun _ => rfl, vArith_issues rfl fun _ => rfl, vArith_issues rfl fun _ => rfl,
    vArith_issues rfl fun _ => rfl, vArith_issues rfl fun _ => rfl, vArith_issues rfl fun _ => rfl, vArith_issues rfl fun _ => rfl,
    ?_, ?_, ?_, ?_, ?_, vArith_issues rfl fun _ => rfl⟩
  · exact vArith_issues rfl fun i => congrArg (a i <<< ·) (amount i)
  · exact vArith_issues rfl fun i => congrArg (a i >>> ·) (amount i)
  · exact vArith_issues rfl fun i => congrArg (a i).sshiftRight (amount i)
  · exact vArith_issues rfl fun i => ite_slt_max (a i) (b i)
  · exact vArith_issues rfl fun i => ite_slt_min (a i) (b i)

end Sys2Proof.Machine
end

section
/-! O12. Comparisons and conversions of vector registers. -/

namespace Sys2Proof.Machine

/-- The two scale codes that v.cvt.mxs reads of its scalar register (R177). -/
theorem bitsOf_scaleBytes (x : Nat) : (bitsOf x 7 0, bitsOf x 15 8) = (x % 256, x / 256 % 256) := by
  simp [bitsOf]

/-- A conversion is lane by lane for the kinds 0x00 to 0x05 and of the whole register for the others (R176). -/
theorem vCvt_issues {x : Instr} {s : State} {t : TileId} {vd va kind : BitVec 5} {pg : BitVec 3} {z : Bool}
    (run : exec x s = tileSlot t false (.vCvt vd va kind pg z) s) :
    IssuesTo x s t (.vCvt vd va kind pg z) ((s.tile t.val).pc + 16)
      [.v vd (if kind.toNat ≤ 5 then masked ((s.tile t.val).rp pg) z ((s.tile t.val).rv vd) fun i =>
          (cvt1 kind.toNat (lane ((s.tile t.val).rv va) i)).bits
        else cvtAll kind.toNat ((s.tile t.val).rp pg) ((s.tile t.val).rv va))] := by
  by_cases lanewise : kind.toNat ≤ 5
  · rw [if_pos lanewise]
    by_cases float : kind.toNat ≤ 1 ∨ kind.toNat = 3
    · exact vector_issues run (by rw [vectorEff, if_pos lanewise]; dsimp only; rw [if_pos float]; rfl)
    · exact vector_issues run (by rw [vectorEff, if_pos lanewise]; dsimp only; rw [if_neg float]; rfl)
  · rw [if_neg lanewise]
    exact vector_issues run (by rw [vectorEff, if_neg lanewise]; rfl)

/-- Settles O12: comparisons and the conversions of MX blocks by `vector_issues`, the others by `vCvt_issues`. -/
theorem vectorCompareAndConvert : Obligations.VectorCompareAndConvert := by
  unfold Obligations.VectorCompareAndConvert
  intro s t pd cnd fmt pg vd va vb kind sc z c T w d
  refine ⟨vector_issues rfl rfl, vector_issues rfl rfl, vCvt_issues rfl, vector_issues rfl rfl, ?_, vector_issues rfl rfl⟩
  rw [← bitsOf_scaleBytes]
  exact vector_issues rfl rfl

end Sys2Proof.Machine
end

section
/-! O13 and O14. Functions, reductions, lane movement, predicates and random numbers. -/

namespace Sys2Proof.Machine

/-- Settles O13: each operation by `vector_issues` with the effect that `vectorEff` gives it. -/
theorem vectorFunctionsAndReductions : Obligations.VectorFunctionsAndReductions := by
  unfold Obligations.VectorFunctionsAndReductions
  intro s t vd va vb vc pg z c T w f xs on q m
  have actives : (((List.range 64).filter (active (T.rp c.pg))).map (lane (T.rv va))).map Fp.dec = on := List.map_map
  refine ⟨vector_issues rfl rfl, vector_issues rfl rfl, vector_issues rfl rfl, vector_issues rfl rfl, vector_issues rfl rfl,
    vector_issues rfl rfl, ?_, ?_, vector_issues rfl rfl, vector_issues rfl rfl, vector_issues rfl rfl⟩
  · rw [← actives]
    exact vector_issues rfl rfl
  · rw [← actives]
    exact vector_issues rfl rfl

/-- Settles O14: each operation by `vector_issues`; a lane index by `toNat_low`, a change of width by its value. -/
theorem vectorLanePredicateRandomOps : Obligations.VectorLanePredicateRandomOps := by
  unfold Obligations.VectorLanePredicateRandomOps
  constructor
  · intro s t vd va vb sa sd n c T w k
    refine ⟨?_, vector_issues rfl rfl, vector_issues rfl rfl, vector_issues rfl rfl, vector_issues rfl rfl, vector_issues rfl rfl,
      vector_issues rfl rfl, vector_issues rfl rfl, vector_issues rfl rfl, ?_⟩
    · have index : (fun i => lane (T.rv va) ((lane (T.rv vb) i).extractLsb' 0 6).toNat)
          = fun i => lane (T.rv va) ((lane (T.rv vb) i).toNat % 64) := funext fun i => congrArg (lane (T.rv va)) (toNat_low _ 6)
      rw [← index]
      exact vector_issues rfl rfl
    · rw [BitVec.ofNat_toNat]
      exact vector_issues rfl rfl
  · intro s t pd pa pb pg vd sd sa sb j z T w seed word
    have words : (fun i => if false then Fp.unitOf (word i) else word i) = word := funext fun _ => if_neg Bool.false_ne_true
    have units : (fun i => if true then Fp.unitOf (word i) else word i) = fun i => Fp.unitOf (word i) := funext fun _ => if_pos rfl
    refine ⟨vector_issues rfl rfl, vector_issues rfl rfl, vector_issues rfl rfl, vector_issues rfl rfl, vector_issues rfl rfl,
      vector_issues rfl rfl, vector_issues rfl rfl, ?_, ?_⟩
    · rw [← words]
      exact vector_issues rfl rfl
    · rw [← units]
      exact vector_issues rfl rfl

end Sys2Proof.Machine
end

section
/-! O17. Local-store operations of the D slot. -/

namespace Sys2Proof.Machine

/-- aa[43:0] plus a signed offset in units of `k` bytes (R192, R202). -/
theorem addrOf_offset {w : Nat} (aa : BitVec 48) (off : BitVec w) (k : Nat) :
    addrOf aa off k = (BitVec.ofNat 44 (aa.toNat % 2 ^ 44) + BitVec.ofInt 44 (off.toInt * k)).toNat := by
  have low : aa.extractLsb' 0 44 = BitVec.ofNat 44 (aa.toNat % 2 ^ 44) := BitVec.eq_of_toNat_eq (by simp)
  rw [addrOf, low]

/-- An operation with an effect on or from the local store does no more than go in flight, and the next bundle follows it. -/
theorem localEff_plain {s : State} {T : Tile} {op : TileOp} {e : Nat × Effect} (eff : localEff s T op = some e) :
    hasMore op = false ∧ scalarLat op = none ∧ vectorEff s T op = none ∧ matrixEff s T op = none ∧ branchTo T op = none := by
  unfold localEff at eff
  split at eff
  any_goals exact ⟨rfl, rfl, rfl, rfl, rfl⟩
  cases eff

/-- The whole issue of a local-store operation: its register write or its bytes go in flight (R198). -/
theorem local_issues {x : Instr} {s : State} {t : TileId} {op : TileOp} {lat : Nat} {w : List RegWrite}
    {l : List (List (Nat × List Byte))} (run : exec x s = tileSlot t false op s)
    (eff : localEff s (s.tile t.val) op = some (lat, { Effect.none with res := w, ls := l })) : IssuesLs x s t op w l := by
  obtain ⟨more, scalar, vector, matrix, straight⟩ := localEff_plain eff
  have fixed : fixedEff s t.val (s.tile t.val) op = some (lat, { Effect.none with res := w, ls := l }) := by
    rw [fixedEff, scalar, vector, matrix, eff]
  have next : (nextPc (s.tile t.val) [op]).1 = (s.tile t.val).pc + 16 := by
    rw [nextPc, List.findSome?_cons, straight, List.findSome?_nil]
  exact issuesLs_of x s t op _ lat w l run next more fixed rfl rfl rfl rfl

/-- Settles O17: each operation by `local_issues`, with the effect that `localEff` gives it; an operation without writes of the local
store is one whose list of them is empty. -/
theorem localStoreOps : Obligations.LocalStoreOps := by
  unfold Obligations.LocalStoreOps
  intro s t r aa off c T b a
  have at_ (k : Nat) : addrOf (T.ra aa) off k = a k := addrOf_offset _ _ _
  have base : addrOf (T.ra aa) (0 : BitVec 1) 1 = b := addrOf_zero _
  rw [← at_, ← at_, ← base]
  exact ⟨local_issues rfl rfl, local_issues rfl rfl, local_issues rfl rfl, local_issues rfl rfl, local_issues rfl rfl,
    local_issues rfl rfl, local_issues rfl rfl, local_issues rfl rfl⟩

end Sys2Proof.Machine
end

section
/-! O18. Memory operations of a running tile; the issue of an operation that has an effect outside its tile. -/

namespace Sys2Proof.Machine

theorem tile_loaded (s : State) (t : Nat) (op : TileOp) : (loaded s t op).tile t = { s.tile t with asm := [op] } :=
  State.tile_setTile s t _

theorem setTile_loaded (s : State) (t : Nat) (op : TileOp) (T : Tile) : (loaded s t op).setTile t T = s.setTile t T :=
  State.setTile_setTile s t _ T

/-- The whole issue of an operation that has an effect outside its tile: `s1` is what that effect makes of the state. -/
theorem sends_of_issue {c : Instr} {s s1 : State} {t : TileId} {op : TileOp} {k : FlightKind} {lat : Nat} {w : List RegWrite}
    (run : exec c s = tileSlot t false op s) (array : isArray op = false) (straight : branchTo (s.tile t.val) op = none)
    (same : s1.tile t.val = s.tile t.val)
    (issue : badSource ((loaded s t.val op).tile t.val) op = false →
      issueOp (loaded s t.val op) t.val op = addFlight (loaded s1 t.val op) t.val op k lat (Effect.regs w)) :
    Sends c s t op s1 k w := by
  intro can
  have ⟨_, _, _, _, _, good, _⟩ := can
  have flight := issue (badSource_loaded s t.val op good)
  obtain ⟨g, added⟩ := addFlight_eq (loaded s1 t.val op) t.val op k lat (Effect.regs w)
  rw [added, tile_loaded, same, setTile_loaded] at flight
  have next : (nextPc (s.tile t.val) [op]).1 = (s.tile t.val).pc + 16 := by
    rw [nextPc, List.findSome?_cons, straight, List.findSome?_nil]
  obtain ⟨b, l, all⟩ := issueAll_one (loaded s t.val op) t.val op (nextPc (s.tile t.val) [op]).1
    (nextPc (s.tile t.val) [op]).2 array (badSource_loaded s t.val op good)
    (by rw [flight, State.tile_setTile, tile_loaded])
  refine ⟨_, run.trans ((tileSlot_issues s t op can).trans (congrArg _ all)), ?_⟩
  rw [flight, next]
  beta_reduce
  rw [State.tile_setTile, State.setTile_setTile, State.tile_setTile]
  exact ⟨rfl, _, ⟨⟨rfl, rfl, rfl, rfl, rfl, rfl, rfl, rfl⟩, rfl, rfl, rfl, rfl, rfl⟩, rfl, rfl⟩

/-- As `sends_of_issue`, for an operation without results at issue whose issue is the same in every state: `f` is what it makes of
a state whose tile is given. -/
theorem sends_of {c : Instr} {s s1 : State} {t : TileId} {op : TileOp} {k : FlightKind} {f : State → Tile → State}
    {q : State → FlightKind} {lat : Nat} (run : exec c s = tileSlot t false op s) (array : isArray op = false)
    (straight : branchTo (s.tile t.val) op = none)
    (issue : ∀ u, badSource (u.tile t.val) op = false →
      issueOp u t.val op = addFlight (f u (u.tile t.val)) t.val op (q u) lat Effect.none)
    (moves : f (loaded s t.val op) { s.tile t.val with asm := [op] } = loaded s1 t.val op)
    (same : s1.tile t.val = s.tile t.val) (kind : q (loaded s t.val op) = k) : Sends c s t op s1 k [] :=
  sends_of_issue run array straight same fun good => by rw [issue _ good, tile_loaded, moves, kind]; rfl

/-- Outside the handler an address in the register space is an address like any other (R66). -/
theorem memReq_run {s : State} {t : Nat} {T : Tile} (running : T.st = .run) (k : ReqKind) (aa : BitVec 48) (a : Nat)
    (data cmp : W64) (hint : BitVec 2) : memReq s t T k aa a data cmp hint
      = newReq s t T k (destOf s T.ctxIndex (winSel aa)) (destAddr s T.ctxIndex (winSel aa) a) data cmp hint :=
  if_neg fun handler => by rw [running] at handler; exact absurd handler.1 (by decide)

/-- Settles O18: each operation by `sends_of`; its request is the one that `memReq` makes of the tile's registers. -/
theorem memoryOperationsLeave : Obligations.MemoryOperationsLeave := by
  unfold Obligations.MemoryOperationsLeave
  intro s t r sb sc aa off hint w x y o running T win b a q
  have at_ : addrOf (T.ra aa) off 8 = a := addrOf_offset _ _ _
  have base : addrOf (T.ra aa) (0 : BitVec 1) 1 = b := addrOf_zero _
  rw [← at_, ← base]
  refine ⟨?_, ?_, ?_, ?_, ?_, ?_⟩
  · exact sends_of (f := fun u T => memReq (u.countMem t) t T .load (T.ra aa) (addrOf (T.ra aa) off 8) 0 0 hint) rfl rfl rfl
      (fun _ good => if_neg (ne_true_of_eq_false good)) (memReq_run running _ _ _ _ _ _) rfl rfl
  · exact sends_of (f := fun u T => memReq (u.countMem t) t T .store (T.ra aa) (addrOf (T.ra aa) off 8) (T.rs r) 0 hint) rfl rfl rfl
      (fun _ good => if_neg (ne_true_of_eq_false good)) (memReq_run running _ _ _ _ _ _) rfl rfl
  · exact sends_of (f := fun u T => memReq (u.countMem t) t T .prefetch (T.ra aa) (addrOf (T.ra aa) off 8) 0 0 hint) rfl rfl rfl
      (fun _ good => if_neg (ne_true_of_eq_false good)) (memReq_run running _ _ _ _ _ _) rfl rfl
  · exact sends_of (f := fun u T => memReq (u.countMem t) t T .drop (T.ra aa) (addrOf (T.ra aa) off 8) 0 0 hint) rfl rfl rfl
      (fun _ good => if_neg (ne_true_of_eq_false good)) (memReq_run running _ _ _ _ _ _) rfl rfl
  · exact sends_of (f := fun u T => memReq (u.countMem t) t T (.atomic o w) (T.ra aa) (addrOf (T.ra aa) (0 : BitVec 1) 1) (T.rs sb)
      (T.rs sc) 0) rfl rfl rfl (fun _ good => if_neg (ne_true_of_eq_false good)) (memReq_run running _ _ _ _ _ _) rfl rfl
  · exact sends_of (f := fun u _ => u.countMem t) (q := fun _ => .fence x y) (lat := 0) rfl rfl rfl
      (fun _ good => by simp [issueOp, good, isTree, bumpIssued, isMemSync, State.countMem]) rfl rfl rfl

end Sys2Proof.Machine
end

section
/-! O20. Operations on synchronization objects and on the queues of the tile. -/

namespace Sys2Proof.Machine

/-! ### DMA.QSTAT and the slots received

What a queue shows depends on tags and on the context of its tile, not on the slots that the tile has received. -/

section Loaded

variable (s : State) (t : Nat) (op : TileOp)

/-- The slots received are all that `loaded` changes in a tile. -/
theorem loaded_view {β : Type} {π : Tile → β} (free : ∀ T a, π { T with asm := a } = π T) (i : Nat) :
    π ((loaded s t op).tile i) = π (s.tile i) := by
  rcases eq_or_ne i t with rfl | other
  · rw [tile_loaded, free]
  · rw [loaded, State.tile_setTile_ne s t i _ other]

theorem qCtx_loaded (k : Nat) : (loaded s t op).qCtx k = s.qCtx k := by
  unfold State.qCtx
  rw [loaded_view s t op (π := Tile.ctxValid) fun _ _ => rfl, loaded_view s t op (π := Tile.ctxIndex) fun _ _ => rfl]
  rfl

theorem dstBusy_loaded (k b : Nat) : (loaded s t op).dstBusy k b = s.dstBusy k b := by
  unfold State.dstBusy
  rw [loaded_view s t op (π := fun T => T.tag (b % 512)) fun _ _ => rfl]

theorem srcBusy_loaded (b : Nat) : (loaded s t op).srcBusy b = s.srcBusy b := by
  unfold State.srcBusy
  rw [loaded_view s t op (π := fun T => T.tag (b % 512)) fun _ _ => rfl]

theorem tagWait_loaded (k : Nat) (d : Desc) (pos : Nat) (taken : List Nat) :
    (loaded s t op).tagWait k d pos taken = s.tagWait k d pos taken := by
  have dst : (loaded s t op).dstBusy k = s.dstBusy k := funext (dstBusy_loaded s t op k)
  have src : (loaded s t op).srcBusy = s.srcBusy := funext (srcBusy_loaded s t op)
  rw [State.tagWait, State.tagWait, dst, src]

theorem linesLeft_loaded (k : Nat) : (loaded s t op).linesLeft k = s.linesLeft k := by
  simp only [State.linesLeft, tagWait_loaded]
  rfl

theorem ringFull_loaded (k : Nat) : (loaded s t op).ringFull k = s.ringFull k := by
  simp only [State.ringFull, State.ringInfo, State.qResolve, State.queueView, qCtx_loaded]
  rfl

theorem qwait_loaded (k : Nat) : (loaded s t op).qwait k = s.qwait k := by
  simp only [State.qwait, tagWait_loaded, linesLeft_loaded, ringFull_loaded]
  rfl

theorem qstat_loaded (k : Nat) : (loaded s t op).qstat k = s.qstat k := by
  simp only [State.qstat, linesLeft_loaded, qwait_loaded]
  rfl

end Loaded

/-- A queue to which a chain head has been added. -/
def headed (h : ChainHead) (q : Queue) : Queue :=
  if q.st = .idle then { Queue.reset with st := .run, chain := some h, done := q.done, lastStatus := q.lastStatus }
  else if q.st = .run ∧ q.chain = none ∧ q.heads = [] then { q with chain := some h }
  else { q with heads := q.heads ++ [h] }

theorem addHead_eq (s : State) (k : Nat) (h : ChainHead) : s.addHead k h = s.setQueue k (headed h (s.queue k)) := by
  unfold State.addHead headed
  dsimp only
  split
  · rfl
  · split <;> rfl

/-- dma.stat reads its queue at issue. -/
theorem issueOp_dmaStat {u : State} {t : Nat} {sd : BitVec 5} {q : BitVec 3} (good : badSource (u.tile t) (.dmaStat sd q) = false) :
    issueOp u t (.dmaStat sd q) = addFlight u t (.dmaStat sd q) .fixed 2
      (Effect.regs [.s ((u.tile t).useBank sd) sd (u.qstat (t * 8 + q.toNat))]) := by
  simp [issueOp, good, isTree, bumpIssued, isMemSync]

/-! ### The obligation -/

/-- Settles O20: each operation by `sends_of`, dma.stat by `qstat_loaded`; with nothing in flight, a sy.wait is held by its condition
alone. -/
theorem synchronisationOperations : Obligations.SynchronisationOperations := by
  unfold Obligations.SynchronisationOperations
  refine ⟨?_, ?_⟩
  · intro s t sa sb sd aa q lo T h k req
    have base : addrOf (T.ra aa) (0 : BitVec 1) 1 = (T.ra aa).toNat % 2 ^ 44 := addrOf_zero _
    rw [← base]
    refine ⟨?_, ?_, ?_, ?_, ?_, ?_, ?_, ?_⟩
    · exact sends_of (f := fun u T => objReq (u.countMem t) t T .signal (T.rs sa) (T.rs sb))
        rfl rfl rfl (fun _ good => if_neg (ne_true_of_eq_false good)) rfl rfl rfl
    · exact sends_of (f := fun u _ => u.countMem t) (q := fun _ => .release) (lat := 2) rfl rfl rfl
        (fun _ good => by simp [issueOp, good, isTree, bumpIssued, isMemSync, State.countMem]) rfl rfl rfl
    · exact sends_of (f := fun u _ => u.countMem t) (q := fun _ => .fixed) (lat := 1) rfl rfl rfl
        (fun _ good => by simp [issueOp, good, isTree, bumpIssued, isMemSync, State.countMem]) rfl rfl rfl
    · exact sends_of (f := fun u T => objReq (u.countMem t) t T .arm (T.rs sa) (T.rs sb))
        rfl rfl rfl (fun _ good => if_neg (ne_true_of_eq_false good)) rfl rfl rfl
    · exact sends_of (f := fun u T => objReq (u.countMem t) t T .readObj (T.rs sa) 0)
        rfl rfl rfl (fun _ good => if_neg (ne_true_of_eq_false good)) rfl rfl rfl
    · have posted (u : State) := addHead_eq u k (postHead T (T.ra aa) lo)
      exact sends_of (f := fun u T => u.addHead k (postHead T (T.ra aa) lo)) rfl rfl rfl
        (fun _ good => if_neg (ne_true_of_eq_false good)) ((posted _).trans (congrArg (loaded · t _) (posted s).symm))
        ((congrArg (State.tile · t) (posted s)).trans rfl) rfl
    · refine sends_of_issue (lat := 2) rfl rfl rfl rfl fun good => ?_
      rw [issueOp_dmaStat good, tile_loaded, qstat_loaded]
      rfl
    · exact sends_of (f := fun u _ => u.startCancel k) (q := fun _ => .cancel q.toNat) (lat := 0)
        rfl rfl rfl (fun _ good => by simp [issueOp, good, isTree, bumpIssued, isMemSync, k]) rfl rfl rfl
  · intro s t T sa sb acq idle h x
    have alone : opHold s t T (.syWait sa sb acq)
        = if waitMet s T (.syWait sa sb acq) then [] else [(3, bitsOf (T.rs sa).toNat 29 0)] := by
      simp [opHold, idle, blocksBusy, isTransfer, countsMem, dmaQueueOf, isStepWait, tagsBad, blockUse, BlockUse.none]
    rw [alone, waitMet]
    simp only [decide_eq_true_eq, bitsOf, Nat.sub_zero, pow_zero, Nat.div_one]
    rfl

end Sys2Proof.Machine
end

section
/-! O19. kv.walk and kv.append. -/

namespace Sys2Proof.Machine

/-! ### Issue (R210 to R212) -/

theorem destOf_bump (s : State) (r : Nat) (f : Fld) (n c w : Nat) : destOf (s.bump r f n) c w = destOf s c w := rfl

theorem bump_loaded (s : State) (t : Nat) (op : TileOp) (r : Nat) (f : Fld) (n : Nat) :
    (loaded s t op).bump r f n = loaded (s.bump r f n) t op := rfl

/-- Where the entry of a walk lies, as the walker's cache names it (R211). -/
def walkEntry (s : State) (T : Tile) (aa : BitVec 4) (sb : BitVec 5) : Nat :=
  walkKey (destOf s T.ctxIndex (winSel (T.ra aa))) (addrOf (T.ra aa) (0 : BitVec 1) 1 + 64 + 16 * kvEntry (T.rs sb).toNat)

section Issue

variable {u : State} {t : TileId} {ad aa : BitVec 4} {sb sd : BitVec 5}

/-- A walk whose entry is cached and names a page has its answer at issue. -/
theorem issueOp_kvWalk_hit {bytes : List Byte} {x : BitVec 48} {y : W64}
    (good : badSource (u.tile t.val) (.kvWalk ad aa sb sd) = false)
    (hit : (u.tile t.val).walker.get? (walkEntry u (u.tile t.val) aa sb) = some bytes)
    (page : walkResult (bytes.take 64) (bytes.drop 64) ((u.tile t.val).rs sb).toNat = some (x, y)) :
    issueOp u t.val (.kvWalk ad aa sb sd) = addFlight (u.countMem t) t.val (.kvWalk ad aa sb sd) .fixed 8
      (Effect.regs [.a ad x, .s ((u.tile t.val).useBank sd) sd y]) := by
  unfold walkEntry at hit
  simp only [issueOp, good, Bool.false_eq_true, if_false, isTree, false_and, bumpIssued, isMemSync, if_true, State.tile_bump,
    destOf_bump, hit, page, State.countMem]

/-- A walk whose entry is not cached asks for it. -/
theorem issueOp_kvWalk_miss (good : badSource (u.tile t.val) (.kvWalk ad aa sb sd) = false)
    (miss : (u.tile t.val).walker.get? (walkEntry u (u.tile t.val) aa sb) = none) :
    issueOp u t.val (.kvWalk ad aa sb sd) = addFlight ((u.countMem t).bump (R.tileKvwStat t.val) F.tileKvwStat_misses 1) t.val
      (.kvWalk ad aa sb sd) .walkMiss 8 Effect.none := by
  unfold walkEntry at miss
  simp only [issueOp, good, Bool.false_eq_true, if_false, isTree, false_and, bumpIssued, isMemSync, if_true, State.tile_bump,
    destOf_bump, miss, State.countMem]

/-- An append whose length fits, by a check that makes `v` of the state, leaves as a request. -/
theorem issueOp_kvAppend {v : State} (good : badSource (u.tile t.val) (.kvAppend aa sb) = false)
    (fits : appendFits (u.countMem t) t.val (u.tile t.val) ((u.tile t.val).ra aa) ((u.tile t.val).rs sb).toNat = (true, v)) :
    issueOp u t.val (.kvAppend aa sb) = addFlight (memReq v t.val (u.tile t.val) .append ((u.tile t.val).ra aa)
      (addrOf ((u.tile t.val).ra aa) (0 : BitVec 1) 1) ((u.tile t.val).rs sb) (u.tile t.val).step 0) t.val
      (.kvAppend aa sb) .fixed 2 Effect.none := by
  unfold State.countMem at fits
  simp only [issueOp, good, Bool.false_eq_true, if_false, isTree, false_and, bumpIssued, isMemSync, if_true, State.tile_bump, fits]

end Issue

/-! ### The bounds of an append (R212) -/

section Fits

variable {s : State} {t : Nat} {T : Tile} {aa : BitVec 48} {len : Nat}

theorem appendFits_here (here : destOf s T.ctxIndex (winSel aa) = .local)
    (ok : appendOk (headerSeen s t T (addrOf aa (0 : BitVec 1) 1)) len = true) : appendFits s t T aa len = (true, s) := by
  rw [appendFits, if_pos here, ok]

theorem appendFits_away (away : destOf s T.ctxIndex (winSel aa) ≠ .local) (ok : Config.lengthFits s.freeCtr = true) :
    appendFits s t T aa len = (true, { s with freeCtr := s.freeCtr + 1 }) := by
  rw [appendFits, if_neg away, State.draw, ok]

end Fits

/-! ### The obligation -/

/-- Settles O19: a walk by whether its entry is cached, an append by the check of its length, each by `sends_of_issue`. -/
theorem pageOperations : Obligations.PageOperations := by
  unfold Obligations.PageOperations
  intro s t ad aa sb sd running T win b ea
  have base : addrOf (T.ra aa) (0 : BitVec 1) 1 = b := addrOf_zero _
  have entry : walkEntry s T aa sb = ea := by rw [walkEntry, base]
  refine ⟨?_, ?_, ?_⟩
  · intro bytes x y hit page
    rw [← entry] at hit
    refine sends_of_issue (lat := 8) rfl rfl rfl rfl fun good => ?_
    rw [issueOp_kvWalk_hit good (by rw [tile_loaded]; exact hit) (by rw [tile_loaded]; exact page), tile_loaded]
    rfl
  · intro miss
    rw [← entry] at miss
    refine sends_of_issue (lat := 8) rfl rfl rfl rfl fun good => ?_
    rw [issueOp_kvWalk_miss good (by rw [tile_loaded]; exact miss), State.countMem, bump_loaded, bump_loaded]
    rfl
  · rw [← base]
    intro q
    refine ⟨fun here fits => sends_of_issue (lat := 2) rfl rfl rfl rfl fun good => ?_,
      fun away fits => sends_of_issue (lat := 2) rfl rfl rfl rfl fun good => ?_⟩
    · rw [issueOp_kvAppend good (by rw [tile_loaded]; exact appendFits_here here fits), tile_loaded, memReq_run]
      exacts [rfl, running]
    · rw [issueOp_kvAppend good (by rw [tile_loaded]; exact appendFits_away away fits), tile_loaded, memReq_run]
      exacts [rfl, running]

end Sys2Proof.Machine
end

section
/-! O21. Requests where they arrive and where they are performed; the table of atomic operations. -/

namespace Sys2Proof.Machine

/-! ### Arrival (R204, R281, R337, R529) -/

/-- Requests to synchronization objects, which no line holds back. -/
def onObject : ReqKind → Bool
  | .signal | .arm | .readObj => true
  | _ => false

/-- Requests of a handler to registers. -/
def onRegister (k : ReqKind) : Bool := k == .regLoad || k == .regStore

/-- What the arrival of a request makes of the state where the codes find no error and the request is of no handler. -/
def arrived (s : State) (r : BitVec 32) (q : MemReq) : State :=
  match q.dest with
  | .peer d => if s.fab.out.any (fun f => f.who == .mem r.toNat) then s else sendMem s r.toNat q d
  | .host n => hostMem s r.toNat q n
  | .local =>
    if onObject q.kind then s.performReq r.toNat
    else if s.quiesced q.addr then s
    else if s.leaseHolds q.addr then
      { s with reqs := s.reqs.set r.toNat { q with arbiter := true } }.holdAt q.addr 1 (.mem r .none)
    else s.performReq r.toNat

section Arrival

variable {s : State} {r : BitVec 32} {q : MemReq} (there : s.reqs.get? r.toNat = some q) (new : q.done = false)
  (free : q.arbiter = false) (first : blockedByLine s r.toNat q = false) (reached : notReached s q = false)
include there new free first reached

/-- A request of a context in teardown is dropped. -/
theorem arrive_torn (tile : q.tile < 2048) (torn : s.ctxSt (q.ctx / 128) = CtxSt.teardown) :
    exec (.memRequestArrive r .none) s = .next (s.dropPacket.answer r.toNat q 0 true) := by
  change execMemRequestArrive r .none s = _
  simp [execMemRequestArrive, there, new, free, first, reached, tile, torn]

/-- Any other request of a tile arrives at the place of its destination. -/
theorem arrive_live (live : s.ctxSt (q.ctx / 128) ≠ CtxSt.teardown) (up : refusedByReset s q = false)
    (plain : onRegister q.kind = false) : exec (.memRequestArrive r .none) s = .next (arrived s r q) := by
  have inside : handlerOutside q = false := by rw [handlerOutside, ← onRegister, plain, Bool.false_and]
  change execMemRequestArrive r .none s = _
  simp only [execMemRequestArrive, there, new, free, first, reached, live, up, inside, Bool.and_false, Bool.false_eq_true,
    or_self, and_false, if_false, reduceCtorEq, arrived]
  cases kind : q.kind with
  | regLoad => rw [kind] at plain; cases plain
  | regStore => rw [kind] at plain; cases plain
  | _ => cases dest : q.dest <;> rfl

end Arrival

/-! ### The place of a request (R204, R207 to R209) -/

theorem cachedRead_home {s : State} {p c a : Nat} (n : Nat) (hint : BitVec 2) (home : s.isRemote p a = false) :
    s.cachedRead p c a n hint = (s.bytesAt a n, s.homeAccess c a hint 0) :=
  if_neg fun remote => by rw [home] at remote; exact absurd remote.1 (by decide)

theorem cachedWrite_home {s : State} {p c a : Nat} (bs : List Byte) (hint : BitVec 2) (home : s.isRemote p a = false) :
    s.cachedWrite p c a bs hint = (s.homeAccess c a hint (State.byteMask a bs.length)).writeBytes a bs :=
  if_neg fun remote => by rw [home] at remote; exact absurd remote.1 (by decide)

theorem leBytes_length (n x : Nat) : (leBytes n x).length = n := by
  induction n generalizing x with
  | zero => rfl
  | succ n ih => rw [leBytes, List.length_cons, ih]

/-- What descriptors keep of a store's old bytes lies in the queues of its tile (R354). -/
theorem queuesOnly_keepOld (s : State) (q : MemReq) : QueuesOnly s (s.keepOld q) := by
  unfold State.keepOld
  refine QueuesOnly.foldl (fun u k => ?_) _ s
  dsimp only
  split
  · rfl
  · exact QueuesOnly.setQueue u k _

/-- The home of an address is read from registers and the map of regions. -/
theorem QueuesOnly.isRemote {s u : State} (h : QueuesOnly s u) (p a : Nat) : u.isRemote p a = s.isRemote p a := by
  rw [h]
  rfl

section Performed

variable {s : State} {i : Nat} {q : MemReq} (there : s.reqs.get? i = some q)
include there

theorem performReq_load (kind : q.kind = .load) (answers : s.answers (q.ctx / 128) q.addr 8 = true)
    (ok : s.statusAt q.addr 8 = .ok) (home : s.isRemote (q.tile / 256) q.addr = false) :
    s.performReq i = (s.homeAccess (q.ctx / 128) q.addr q.hint 0).answer i q (BitVec.ofNat 64 (leVal (s.bytesAt q.addr 8)))
      false := by
  simp [State.performReq, there, kind, answers, ok, State.partOf, cachedRead_home _ _ home]

theorem performReq_store (kind : q.kind = .store) (answers : s.answers (q.ctx / 128) q.addr 8 = true)
    (home : s.isRemote (q.tile / 256) q.addr = false) :
    s.performReq i = (((s.keepOld q).homeAccess (q.ctx / 128) q.addr q.hint (State.byteMask q.addr 8)).writeBytes q.addr
      (leBytes 8 q.data.toNat)).answer i q 0 false := by
  rw [← (queuesOnly_keepOld s q).isRemote] at home
  simp [State.performReq, there, kind, answers, State.partOf, cachedWrite_home _ _ home, leBytes_length]

theorem performReq_atomic {o : BitVec 4} {w : Bool} {n : Nat} (kind : q.kind = .atomic o w) (width : (if w then 4 else 8) = n)
    (answers : s.answers (q.ctx / 128) q.addr n = true) (ok : s.statusAt q.addr n = .ok) :
    s.performReq i = ((s.homeAccess (q.ctx / 128) q.addr 0 (State.byteMask q.addr n)).writeBytes q.addr (leBytes n
      (State.atomicNew o (8 * n) (leVal (s.bytesAt q.addr n)) q.data.toNat q.cmp.toNat))).answer i q
        (BitVec.ofNat 64 (leVal (s.bytesAt q.addr n))) false := by
  simp [State.performReq, there, kind, width, answers, ok, State.load, State.store]

theorem performReq_signal (kind : q.kind = .signal) :
    s.performReq i = (s.setObj q.addr (s.obj q.addr + q.data)).answer i q 0 false := by
  rw [State.performReq, there]
  dsimp only
  rw [kind]

theorem performReq_arm (kind : q.kind = .arm) : s.performReq i = (s.setObj q.addr q.data).answer i q 0 false := by
  rw [State.performReq, there]
  dsimp only
  rw [kind]

theorem performReq_readObj (kind : q.kind = .readObj) : s.performReq i = s.answer i q (s.obj q.addr) false := by
  rw [State.performReq, there]
  dsimp only
  rw [kind]

end Performed

/-! ### Atomic operations (R208) -/

/-- The signed minimum and maximum as orders of the values. -/
theorem ite_slt_toInt {n : Nat} (x y : BitVec n) :
    (if x.slt y then x.toNat else y.toNat) = (if x.toInt ≤ y.toInt then x else y).toNat
      ∧ (if x.slt y then y.toNat else x.toNat) = (if x.toInt ≤ y.toInt then y else x).toNat := by
  simp only [BitVec.slt_iff_toInt_lt]
  rcases lt_trichotomy x.toInt y.toInt with less | same | more
  · simp [less, less.le]
  · simp [BitVec.eq_of_toInt_eq same]
  · simp [more.not_gt, more.not_ge]

/-- The table of R208 on words. -/
theorem atomicNew_table (n : Nat) (old b c : BitVec n) :
    let f (o : BitVec 4) : Nat := State.atomicNew o n old.toNat b.toNat c.toNat
    f 0 = (old + b).toNat ∧ f 1 = (old &&& b).toNat ∧ f 2 = (old ||| b).toNat ∧ f 3 = (old ^^^ b).toNat
      ∧ f 4 = (if old.toInt ≤ b.toInt then old else b).toNat ∧ f 5 = (if old.toInt ≤ b.toInt then b else old).toNat
      ∧ f 6 = min old.toNat b.toNat ∧ f 7 = max old.toNat b.toNat ∧ f 8 = b.toNat
      ∧ f 9 = (if old = c then b else old).toNat := by
  obtain ⟨low, high⟩ := ite_slt_toInt old b
  have word (x : BitVec n) : BitVec.ofNat n x.toNat = x := by rw [BitVec.ofNat_toNat, BitVec.setWidth_eq]
  rw [← low, ← high]
  simp only [State.atomicNew, word, apply_ite BitVec.toNat]
  exact ⟨rfl, rfl, rfl, rfl, rfl, rfl, rfl, rfl, rfl, rfl⟩

/-! ### The obligation -/

/-- Settles O21: arrivals by `arrive_torn` and by the branches of `arrived`, what a request does by the lemmas on `performReq`, the
atomic operations by `atomicNew_table`. -/
theorem requestsPerformed : Obligations.RequestsPerformed := by
  unfold Obligations.RequestsPerformed
  refine ⟨?_, ?_, fun n old b c _ => atomicNew_table n old b c⟩
  · intro s r q there new free first reached tile ofMemory ofObject go
    have memory : ofMemory → onObject q.kind = false ∧ onRegister q.kind = false := by
      rintro (kind | kind | kind | kind | kind | ⟨o, w, kind⟩) <;> rw [kind] <;> exact ⟨rfl, rfl⟩
    have object : ofObject → onObject q.kind = true ∧ onRegister q.kind = false := by
      rintro (kind | kind | kind) <;> rw [kind] <;> exact ⟨rfl, rfl⟩
    refine ⟨fun torn => ⟨_, arrive_torn there new free first reached tile torn, rfl⟩, fun live up => ?_⟩
    have place (plain : onRegister q.kind = false) {P : State → Prop} (holds : P (arrived s r q)) : go P :=
      ⟨_, arrive_live there new free first reached live up plain, holds⟩
    refine ⟨?_, ?_, ?_, ?_, ?_⟩
    · intro dest kind
      rcases kind with kind | ⟨kind, calm, unleased⟩
      · obtain ⟨on, plain⟩ := object kind
        exact place plain (by simp [arrived, dest, on])
      · obtain ⟨off, plain⟩ := memory kind
        exact place plain (by simp [arrived, dest, off, calm, unleased])
    · intro dest kind quiet
      obtain ⟨off, plain⟩ := memory kind
      exact place plain (by simp [arrived, dest, off, quiet])
    · intro dest kind calm leased
      obtain ⟨off, plain⟩ := memory kind
      exact place plain (by simp [arrived, dest, off, calm, leased])
    · intro d dest kind unsent
      exact place (kind.elim (memory · |>.2) (object · |>.2)) (by
        simp only [arrived, dest, unsent, Bool.false_eq_true, if_false])
    · intro n dest kind
      exact place (kind.elim (memory · |>.2) (object · |>.2)) (by simp [arrived, dest])
  · intro s i q there p c u old here
    refine ⟨?_, ?_, ?_, performReq_signal there, performReq_arm there, performReq_readObj there⟩
    · rintro kind ⟨answers, ok, home⟩
      exact performReq_load there kind answers ok home
    · rintro kind ⟨answers, -, home⟩
      exact performReq_store there kind answers home
    · rintro o w kind ⟨answers, ok, -⟩
      exact performReq_atomic there kind rfl answers ok

end Sys2Proof.Machine
end

section
/-! Reads and releases through the shared cache: what they leave alone. -/

namespace Sys2Proof.Machine

/-- From `s` to `u` only memory, the shared cache, registers, error rings, what is sent and the free values drawn have changed; the
number of the next request stays as well. -/
def CacheWork (s u : State) : Prop :=
  u = { s with regs := u.regs, mem := u.mem, lines := u.lines, cache := u.cache, cacheTree := u.cacheTree, rings := u.rings,
               outbox := u.outbox, freeCtr := u.freeCtr }

namespace CacheWork

theorem refl (s : State) : CacheWork s s := rfl

theorem trans {s u v : State} (h : CacheWork s u) (g : CacheWork u v) : CacheWork s v := by
  unfold CacheWork at *
  rw [g, h]

theorem foldl {α : Type} {f : State → α → State} (h : ∀ s a, CacheWork s (f s a)) (l : List α) (s : State) :
    CacheWork s (l.foldl f s) :=
  List.foldlRecOn l f (refl s) fun _ g a _ => g.trans (h _ a)

/-- Either way of a choice does no more than this work. -/
theorem ite {c : Prop} [Decidable c] {s u v : State} (yes : CacheWork s u) (no : CacheWork s v) :
    CacheWork s (if c then u else v) := by
  split
  · exact yes
  · exact no

section Frame

variable {s u : State} (h : CacheWork s u)
include h

theorem tiles : u.tiles = s.tiles := by rw [h]
theorem tile (t : Nat) : u.tile t = s.tile t := by rw [h]; rfl
theorem otherTiles {t : Nat} : OtherTiles t s u := fun i _ => h.tile i
theorem reqs : u.reqs = s.reqs := by rw [h]
theorem nextReq : u.nextReq = s.nextReq := by rw [h]

end Frame

/-! ### Memory and error records -/

theorem setFld (s : State) (r : Nat) (f : Fld) (x : Nat) : CacheWork s (s.setFld r f x) := rfl
theorem bump (s : State) (r : Nat) (f : Fld) (n : Nat) : CacheWork s (s.bump r f n) := rfl
theorem draw (s : State) : CacheWork s s.draw.2 := rfl
theorem emit (s : State) (o : Out) : CacheWork s (s.emit o) := rfl
theorem setRing (s : State) (p : Nat) (g : ErrRing) : CacheWork s (s.setRing p g) := rfl
theorem writeRaw (s : State) (a : Nat) (bs : List Byte) : CacheWork s (s.writeRaw a bs) := rfl

theorem writeLine (s : State) (a : Nat) (bs : List Byte) : CacheWork s (s.writeLine a bs) := by
  unfold State.writeLine
  dsimp only
  exact ite ((ite (writeRaw s _ _) (refl s)).trans rfl) (ite rfl (writeRaw s a bs))

theorem writeLines (n : Nat) (s : State) (a : Nat) (bs : List Byte) : CacheWork s (State.writeLines n s a bs) := by
  induction n generalizing s a bs with
  | zero => exact refl s
  | succ n ih => exact ite (refl s) ((writeLine s _ _).trans (ih _ _ _))

theorem writeBytes (s : State) (a : Nat) (bs : List Byte) : CacheWork s (s.writeBytes a bs) := writeLines _ s a bs

theorem ringPut (s : State) (p : Nat) (bs : List Byte) : CacheWork s (s.ringPut p bs) :=
  (ite (bump s _ _ _) (refl s)).trans ((writeBytes _ _ _).trans rfl)

theorem raiseAlert (s : State) (p sev : Nat) : CacheWork s (s.raiseAlert p sev) :=
  ite ((setFld s _ _ _).trans ((setFld _ _ _ _).trans ((emit _ _).trans (emit _ _)))) (refl s)

theorem record (s : State) (p : Nat) (r : ErrRec) : CacheWork s (s.record p r) := by
  unfold State.record
  dsimp only
  split
  · split
    · exact (draw s).trans (setRing _ _ _)
    · exact (draw s).trans (writeBytes _ _ _)
  · split
    · exact (draw s).trans ((setRing _ _ _).trans ((ringPut _ _ _).trans (raiseAlert _ _ _)))
    · split
      · exact (draw s).trans ((setRing _ _ _).trans ((setFld _ _ _ _).trans (raiseAlert _ _ _)))
      · exact (draw s).trans ((setRing _ _ _).trans (bump _ _ _ _))

theorem sramLine (s : State) (p n l : Nat) : CacheWork s (s.sramLine p n l) :=
  CacheWork.trans (u := (s.sramSyndrome n).2) rfl (record _ _ _)

theorem accessRecord (s : State) (p a status check : Nat) (c : Option Nat) : CacheWork s (s.accessRecord p a status check c) :=
  record s _ _

/-! ### Lines of the shared cache -/

theorem useLine (s : State) (x : CacheLine) : CacheWork s (s.useLine x) := rfl
theorem setLine (s : State) (x : CacheLine) : CacheWork s (s.setLine x) := rfl
theorem dropLine (s : State) (x : CacheLine) : CacheWork s (s.dropLine x) := rfl

theorem markDirty (s : State) (l : Nat) (mask : BitVec 64) : CacheWork s (s.markDirty l mask) := by
  unfold State.markDirty
  split
  · exact refl s
  · exact setLine s _

theorem writeBack (s : State) (x : CacheLine) : CacheWork s (s.writeBack x) := by
  refine ite (refl s) (ite (accessRecord s _ _ _ _ _) (ite (ite rfl (refl s)) ((markDirty s _ _).trans (foldl ?_ _ _))))
  exact fun u _ => ite (writeBytes u _ _) (refl u)

theorem evict (s : State) (x : CacheLine) : CacheWork s (s.evict x) := (writeBack s x).trans (dropLine _ x)

theorem writeBackBad (s : State) (x : CacheLine) : CacheWork s (s.writeBackBad x) :=
  (bump s _ _ _).trans ((sramLine _ _ _ _).trans ((writeBack _ x).trans rfl))

theorem writeBackAll (s : State) (l : List CacheLine) (bad : List Nat) : CacheWork s (s.writeBackAll l bad) :=
  foldl (fun u x => ite (writeBackBad u x) (writeBack u x)) l s

theorem protect (s : State) (c : Nat) (x : CacheLine) : CacheWork s (s.protect c x) := by
  refine ite (useLine s x) ?_
  split
  · exact (ite (setLine s _) (refl s)).trans (useLine _ _)
  · exact useLine s _

theorem useWith (s : State) (c : Nat) (x : CacheLine) (hint : BitVec 2) : CacheWork s (s.useWith c x hint) :=
  ite (protect s c x) (useLine s x)

theorem allocLine (s : State) (p c l : Nat) (hint : BitVec 2) (dirty : BitVec 64) :
    CacheWork s (s.allocLine p c l hint dirty) := by
  unfold State.allocLine
  dsimp only
  split
  · exact refl s
  · split
    · exact (evict s _).trans (useWith _ _ _ _)
    · exact useWith s _ _ _

/-! ### Accesses and releases (R296, R299, R300) -/

theorem homeAccess (s : State) (c a : Nat) (hint : BitVec 2) (dirty : BitVec 64) : CacheWork s (s.homeAccess c a hint dirty) := by
  unfold State.homeAccess
  dsimp only
  split
  · exact refl s
  · refine ite (refl s) ?_
    split
    · exact ite ((bump s _ _ _).trans (evict _ _))
        (ite ((bump s _ _ _).trans (useWith _ _ _ _)) ((bump s _ _ _).trans (useWith _ _ _ _)))
    · exact ite ((bump s _ _ _).trans (allocLine _ _ _ _ _ _)) (bump s _ _ _)

theorem cachedRead (s : State) (p c a n : Nat) (hint : BitVec 2) : CacheWork s (s.cachedRead p c a n hint).2 := by
  unfold State.cachedRead
  dsimp only
  split
  · split
    · exact ite ((bump s _ _ _).trans (evict _ _)) ((bump s _ _ _).trans (useWith _ _ _ _))
    · have asked := (bump s _ _ _).trans (homeAccess (s.countLookup p false) c a (State.homeHint hint) 0)
      exact ite (asked.trans (allocLine _ _ _ _ _ _)) asked
  · exact homeAccess s c a hint 0

theorem releaseLines (s : State) (p c : Nat) (bad : List Nat) : CacheWork s (s.releaseLines p c bad) :=
  (writeBackAll s _ bad).trans rfl

end CacheWork

end Sys2Proof.Machine
end

section
/-! O22. Answers, acknowledgements, walks and releases. -/

namespace Sys2Proof.Machine

/-! ### Registers written at an answer -/

/-- A register write changes registers and their marks only. -/
theorem writeReg_view {β : Type} {π : Tile → β}
    (free : ∀ T s hs v p a lc bad, π { T with s := s, hs := hs, v := v, p := p, a := a, lc := lc, bad := bad } = π T)
    (T : Tile) (w : RegWrite) : π (T.writeReg w) = π T := by
  cases w with
  | s h n x =>
    dsimp only [Tile.writeReg]
    split
    · rfl
    · split
      · exact free T T.s _ T.v T.p T.a T.lc _
      · exact free T _ T.hs T.v T.p T.a T.lc _
  | v n x => exact free T T.s T.hs _ T.p T.a T.lc _
  | p n x =>
    dsimp only [Tile.writeReg]
    split
    · rfl
    · exact free T T.s T.hs T.v _ T.a T.lc _
  | a n x => exact free T T.s T.hs T.v T.p _ T.lc _
  | lc n x => exact free T T.s T.hs T.v T.p T.a _ _

theorem writeRegs_view {β : Type} {π : Tile → β}
    (free : ∀ T s hs v p a lc bad, π { T with s := s, hs := hs, v := v, p := p, a := a, lc := lc, bad := bad } = π T)
    (T : Tile) (l : List RegWrite) : π (T.writeRegs l) = π T :=
  List.foldlRecOn l Tile.writeReg (motive := fun U => π U = π T) rfl fun U h w _ => (writeReg_view free U w).trans h

/-- Register writes do the same to equal registers. -/
theorem SameRegs.writeReg {T U : Tile} (h : SameRegs T U) (w : RegWrite) : SameRegs (T.writeReg w) (U.writeReg w) := by
  obtain ⟨hs, hhs, hv, hp, ha, hlc, hacc, hw⟩ := h
  cases w with
  | s b n x =>
    dsimp only [Tile.writeReg]
    split
    · exact ⟨hs, hhs, hv, hp, ha, hlc, hacc, hw⟩
    · split
      · exact ⟨hs, congrArg (·.set n.toNat x) hhs, hv, hp, ha, hlc, hacc, hw⟩
      · exact ⟨congrArg (·.set n.toNat x) hs, hhs, hv, hp, ha, hlc, hacc, hw⟩
  | v n x => exact ⟨hs, hhs, congrArg (·.set n.toNat x) hv, hp, ha, hlc, hacc, hw⟩
  | p n x =>
    dsimp only [Tile.writeReg]
    split
    · exact ⟨hs, hhs, hv, hp, ha, hlc, hacc, hw⟩
    · exact ⟨hs, hhs, hv, congrArg (·.set n.toNat x) hp, ha, hlc, hacc, hw⟩
  | a n x => exact ⟨hs, hhs, hv, hp, congrArg (·.set n.toNat x) ha, hlc, hacc, hw⟩
  | lc n x => exact ⟨hs, hhs, hv, hp, ha, congrArg (·.set n.toNat x) hlc, hacc, hw⟩

theorem SameRegs.writeRegs {T U : Tile} (h : SameRegs T U) (l : List RegWrite) : SameRegs (T.writeRegs l) (U.writeRegs l) := by
  induction l generalizing T U with
  | nil => exact h
  | cons w l ih => exact ih (h.writeReg w)

/-! ### Retirement -/

theorem retire_reqs (s : State) (t : Nat) (f : Flight) (h : (s.tile t).suppress = false) : (retire s t f).reqs = s.reqs := by
  unfold retire
  dsimp only
  rw [if_neg (by rw [h]; decide), (recorded_countWalk _ _ _).reqs, (recorded_countSpecial _ _ _).reqs]
  exact (recorded_putLocal s _).reqs

/-- An operation whose results have arrived otherwise only leaves its tile. -/
theorem retire_plain {s : State} {t : Nat} {f : Flight} (live : (s.tile t).suppress = false) (plain : f.eff = Effect.none) :
    (retire s t f).mem = s.mem ∧ (retire s t f).reqs = s.reqs ∧ OtherTiles t s (retire s t f)
      ∧ SameRegs (s.tile t) ((retire s t f).tile t)
      ∧ ((retire s t f).tile t).flights = (s.tile t).flights.filter fun g => g.id != f.id := by
  obtain ⟨⟨others, -, flights⟩, regs⟩ := retired_effect (retire_tiles s t f live)
  rw [plain] at regs
  exact ⟨by rw [retire_mem s t f live, plain]; rfl, retire_reqs s t f live, others, regs, flights (by rw [plain]; rfl)⟩

/-- An operation that retires leaves the walker's cache. -/
theorem retired_walker (T : Tile) (f : Flight) : (T.retired f).walker = T.walker := by
  obtain ⟨l, later, -, -⟩ := laterBytes_eq (((T.applyEffect f.eff).endUse f.use).dropFlight f.id) f
  have effect : (T.applyEffect f.eff).walker = T.walker := by
    unfold Tile.applyEffect
    dsimp only
    split <;> exact writeRegs_view (π := Tile.walker) (fun _ _ _ _ _ _ _ _ => rfl) T f.eff.res
  rw [Tile.retired, later, tagsOnly_endUse (T.applyEffect f.eff) f.use]
  exact effect

theorem OtherTiles.trans {t : Nat} {s u v : State} (h : OtherTiles t s u) (g : OtherTiles t u v) : OtherTiles t s v :=
  fun i other => (g i other).trans (h i other)

/-- An operation whose results are register writes retires in a tile that has been set. -/
theorem retire_results {s : State} {t : Nat} {T : Tile} (live : T.suppress = false) (f : Flight) (w : List RegWrite) :
    let u := retire (s.setTile t T) t { f with eff := Effect.regs w }
    u.mem = s.mem ∧ OtherTiles t s u ∧ SameRegs (T.writeRegs w) (u.tile t) ∧ (u.tile t).walker = T.walker := by
  have set : (s.setTile t T).tile t = T := State.tile_setTile s t T
  have tiles := retire_tiles (s.setTile t T) t { f with eff := Effect.regs w } (by rw [set]; exact live)
  rw [set, State.setTile_setTile] at tiles
  refine ⟨retire_mem _ t _ (by rw [set]; exact live), otherTiles_of_tiles tiles, ?_, ?_⟩
  · rw [tile_of_tiles tiles]
    exact retired_sameRegs T _
  · rw [tile_of_tiles tiles]
    exact retired_walker T _

/-! ### Data and acknowledgements (R204, R219) -/

section Request

variable {s : State} {r : BitVec 32} {q : MemReq} (there : s.reqs.get? r.toNat = some q)
include there

/-- The data of an answered load is written and its operation retires. -/
theorem dataArrive_eq {f : Flight} {n : BitVec 5} (ext : W64)
    (flying : ((s.tile q.tile).flights.find? fun f => f.kind == .data r.toNat) = some f) (dsts : f.dsts = [.s n])
    (done : q.done = true) (fine : q.bad = false) (dest : q.dest = .local) (live : (s.tile q.tile).suppress = false) :
    exec (.memDataArrive r ext) s = .next (retire ({ s with reqs := s.reqs.erase r.toNat }.setTile q.tile
      ((s.tile q.tile).writeReg (f.toS n q.val))) q.tile f) := by
  change execMemDataArrive r ext s = _
  have same : ({ s with reqs := s.reqs.erase r.toNat } : State).tile q.tile = s.tile q.tile := rfl
  simp [execMemDataArrive, there, flying, done, fine, dest, same, live, answerReg, dsts]

theorem ackReturn_eq (done : q.done = true) (flown : ((s.tile q.tile).flights.any fun f => f.kind == .data r.toNat) = false) :
    exec (.memAckReturn r) s = .next { s with reqs := s.reqs.erase r.toNat } := by
  change execMemAckReturn r s = _
  simp only [execMemAckReturn, there, done, flown, and_self, if_true]

/-- The one object update of a cycle is performed. -/
theorem updateArrive_eq (new : q.done = false) (dest : q.dest = .local) (kind : q.kind = .signal) (tile : q.tile < 2048)
    (arrives : updateArrives s [r.toNat] r.toNat = true) :
    exec (.objectUpdateArrive [r]) s = .next (s.performReq r.toNat) := by
  change execObjectUpdateArrive [r] s = _
  simp [execObjectUpdateArrive, arrives, orderUpdates, insertByRank, applyUpdate, there, new, dest, kind, tile]

end Request

/-! ### Walks and releases (R210, R211, R221, R301) -/

section Returned

variable {s : State} {t : TileId} {id : BitVec 32} {f : Flight} (flying : (s.tile t.val).flight? id.toNat = some f)
include flying

/-- A fence for which nothing earlier is left retires. -/
theorem fence_done {rel : Bool} (bad : List (BitVec 38)) (kind : f.kind = .fence rel false)
    (done : storesDone s t.val f.id true = true) : exec (.releaseWritebackDone t ⟨id, bad⟩) s = .next (retire
      (if rel then s.releaseLines (t.val / 256) (s.tile t.val).ctxIndex (bad.map BitVec.toNat) else s) t.val f) := by
  change execReleaseWritebackDone t ⟨id, bad⟩ s = _
  simp [execReleaseWritebackDone, flying, kind, done]

/-- A release for which nothing earlier is left sends its signal and retires. -/
theorem release_done {sa sb : BitVec 5} {rel : Bool} (bad : List (BitVec 38)) (kind : f.kind = .release)
    (op : f.op = .sySignal sa sb rel) (done : storesDone s t.val f.id false = true) :
    exec (.releaseWritebackDone t ⟨id, bad⟩) s = .next (retire (objReq
      (s.releaseLines (t.val / 256) (s.tile t.val).ctxIndex (bad.map BitVec.toNat)) t.val { s.tile t.val with nextId := f.id }
      .signal (f.args.headD 0) (f.args.getD 1 0)) t.val f) := by
  change execReleaseWritebackDone t ⟨id, bad⟩ s = _
  simp [execReleaseWritebackDone, flying, kind, done, op]

/-- The header at `b` and the entry at `e` of a missed walk arrive through the shared cache, and the walk retires. -/
theorem walk_done {ad aa : BitVec 4} {sb sd : BitVec 5} {x : BitVec 48} {y : W64} {c b e : Nat} {h g : List Byte × State}
    (kind : f.kind = .walkMiss) (op : f.op = .kvWalk ad aa sb sd) (ctx : (s.tile t.val).ctxIndex = c)
    (here : destOf s c (winSel ((s.tile t.val).ra aa)) = .local) (hdr : addrOf ((s.tile t.val).ra aa) (0 : BitVec 1) 1 = b)
    (ent : b + 64 + 16 * kvEntry (f.args.headD 0).toNat = e) (header : s.cachedRead (t.val / 256) c b 64 1 = h)
    (entry : h.2.cachedRead (t.val / 256) c e 16 1 = g) (calm : s.waitsAt b 64 = false ∧ s.waitsAt e 16 = false)
    (reached : s.shutOut (t.val / 256) c e = false) (answers : s.answers c b 64 = true ∧ s.answers c e 16 = true)
    (ok : s.statusAt b 64 = .ok ∧ s.statusAt e 16 = .ok) (page : walkResult h.1 g.1 (f.args.headD 0).toNat = some (x, y))
    (whole : h.1.length = 64) :
    exec (.kvWalkEntryReturn t id .none []) s = .next (retire (g.2.setTile t.val
      { s.tile t.val with walker := (s.tile t.val).walker.set e (h.1 ++ g.1) }) t.val
      { f with eff := Effect.regs [.a ad x, f.toS sd y] }) := by
  change execKvWalkEntryReturn t id .none [] s = _
  obtain ⟨calmHdr, calmEnt⟩ := calm
  obtain ⟨answersHdr, answersEnt⟩ := answers
  obtain ⟨okHdr, okEnt⟩ := ok
  simp only [execKvWalkEntryReturn, flying, reduceCtorEq, if_false, kind, op, ctx, here, hdr, ent, calmHdr, calmEnt, reached,
    answersHdr, answersEnt, okHdr, okEnt, lineFault, header, entry, walkKey, beq_self_eq_true, bne_self_eq_false, Bool.or_self,
    Bool.and_self, Bool.not_true, Bool.and_false, Bool.false_eq_true, and_false, if_true, List.take_left' whole,
    List.drop_left' whole, page]

end Returned

/-! ### The obligation -/

/-- Settles O22: answers by `retire_plain` after the request has left, the walk by `walk_done` and `retire_results`, releases and
fences by `retire_plain` after the write-back of `CacheWork.releaseLines`. -/
theorem answersReturn : Obligations.AnswersReturn := by
  unfold Obligations.AnswersReturn
  refine ⟨fun s r q ext there => ⟨?_, ?_, ?_⟩, fun s t id f bad flying live plain => ⟨?_, ?_, ?_⟩⟩
  · intro f n data dsts plain done fine dest live
    have set : ({ s with reqs := s.reqs.erase r.toNat }.setTile q.tile ((s.tile q.tile).writeReg (f.toS n q.val))).tile q.tile
      = (s.tile q.tile).writeReg (f.toS n q.val) := State.tile_setTile _ _ _
    have kept : ((s.tile q.tile).writeReg (f.toS n q.val)).suppress = false :=
      (writeReg_view (π := Tile.suppress) (fun _ _ _ _ _ _ _ _ => rfl) _ _).trans live
    obtain ⟨mem, reqs, others, regs, flights⟩ := retire_plain (by rw [set]; exact kept) plain
    rw [set] at regs flights
    rw [writeReg_flights] at flights
    exact ⟨_, dataArrive_eq there ext data dsts done fine dest live, mem, reqs, (otherTiles_setTile _ _ _).trans others,
      regs, flights⟩
  · exact fun done flown => ⟨_, ackReturn_eq there done flown, rfl⟩
  · exact fun new dest kind tile arrives =>
      ⟨_, updateArrive_eq there new dest kind tile arrives, performReq_signal there kind⟩
  · intro ad aa sb sd x y kind op dest b p ea h e calmHdr calmEnt reached answersHdr answersEnt okHdr okEnt page whole
    have work : CacheWork s e.2 := (CacheWork.cachedRead s _ _ _ _ _).trans (CacheWork.cachedRead h.2 _ _ _ _ _)
    have ends := walk_done flying (id := id) kind op rfl dest (addrOf_zero _) rfl rfl rfl ⟨calmHdr, calmEnt⟩ reached
      ⟨answersHdr, answersEnt⟩ ⟨okHdr, okEnt⟩ page whole
    obtain ⟨mem, others, regs, walker⟩ := retire_results (s := e.2) (t := t.val)
      (T := { s.tile t.val with walker := (s.tile t.val).walker.set ea (h.1 ++ e.1) }) live f [.a ad x, f.toS sd y]
    have cached : SameRegs (s.tile t.val) { s.tile t.val with walker := (s.tile t.val).walker.set ea (h.1 ++ e.1) } :=
      ⟨rfl, rfl, rfl, rfl, rfl, rfl, rfl, rfl⟩
    exact ⟨_, ends, mem, work.otherTiles.trans others, (cached.writeRegs _).trans regs,
      (congrArg (SMap.get? · ea) walker).trans (SMap.get?_set_self _ _ _)⟩
  · intro rel kind done
    have work : CacheWork s (if rel then s.releaseLines (t.val / 256) (s.tile t.val).ctxIndex (bad.map BitVec.toNat) else s) :=
      CacheWork.ite (CacheWork.releaseLines s _ _ _) (CacheWork.refl s)
    obtain ⟨mem, -, others, regs, flights⟩ := retire_plain (f := f) (by rw [work.tile t.val]; exact live) plain
    rw [work.tile] at regs flights
    exact ⟨_, fence_done flying bad kind done, mem, work.otherTiles.trans others, regs, flights⟩
  · intro sa sb rel kind op done h
    have work := CacheWork.releaseLines s (t.val / 256) (s.tile t.val).ctxIndex (bad.map BitVec.toNat)
    have same : (objReq (s.releaseLines (t.val / 256) (s.tile t.val).ctxIndex (bad.map BitVec.toNat)) t.val
      { s.tile t.val with nextId := f.id } .signal (f.args.headD 0) (f.args.getD 1 0)).tile t.val = s.tile t.val := work.tile t.val
    obtain ⟨mem, reqs, others, regs, -⟩ := retire_plain (f := f) (by rw [same]; exact live) plain
    rw [same] at regs
    refine ⟨_, release_done flying bad kind op done, mem, work.otherTiles.trans others, regs, ?_⟩
    rw [reqs, ← work.reqs, ← work.nextReq]
    rfl

end Sys2Proof.Machine
end

section
/-! O48. Plans of steps, step records, and the tail of the journal. -/

namespace Sys2Proof.Machine

/-! ### Writes of memory -/

/-- From `s` to `u` only bytes of memory and what is kept of their lines have changed. -/
def BytesOnly (s u : State) : Prop := u = { s with mem := u.mem, lines := u.lines }

namespace BytesOnly

theorem refl (s : State) : BytesOnly s s := rfl

theorem trans {s u v : State} (h : BytesOnly s u) (g : BytesOnly u v) : BytesOnly s v := by
  unfold BytesOnly at *
  rw [g, h]

theorem foldl {α : Type} {f : State → α → State} (h : ∀ s a, BytesOnly s (f s a)) (l : List α) (s : State) :
    BytesOnly s (l.foldl f s) :=
  List.foldlRecOn l f (refl s) fun _ g a _ => g.trans (h _ a)

theorem ite {c : Prop} [Decidable c] {s u v : State} (yes : BytesOnly s u) (no : BytesOnly s v) :
    BytesOnly s (if c then u else v) := by
  split
  · exact yes
  · exact no

section Frame

variable {s u : State} (h : BytesOnly s u)
include h

theorem regs : u.regs = s.regs := by rw [h]
theorem tiles : u.tiles = s.tiles := by rw [h]
theorem ctxs : u.ctxs = s.ctxs := by rw [h]

end Frame

theorem writeRaw (s : State) (a : Nat) (bs : List Byte) : BytesOnly s (s.writeRaw a bs) := rfl

theorem writeLine (s : State) (a : Nat) (bs : List Byte) : BytesOnly s (s.writeLine a bs) := by
  unfold State.writeLine
  dsimp only
  have merged : BytesOnly s (if s.stale (a / 64) = true ∧ (s.lineMeta (a / 64)).ue = false
      then s.writeRaw (64 * (a / 64)) (List.replicate 64 0) else s) := ite (writeRaw s _ _) (refl s)
  exact ite (merged.trans rfl) (ite rfl (writeRaw s a bs))

theorem writeLines (n : Nat) (s : State) (a : Nat) (bs : List Byte) : BytesOnly s (State.writeLines n s a bs) := by
  induction n generalizing s a bs with
  | zero => exact refl s
  | succ n ih => exact ite (refl s) ((writeLine s _ _).trans (ih _ _ _))

theorem writeBytes (s : State) (a : Nat) (bs : List Byte) : BytesOnly s (s.writeBytes a bs) := writeLines _ s a bs

/-- A record, and the pad record before it. -/
theorem layRecord (s : State) (p h : Nat) (bs : List Byte) : BytesOnly s (layRecord s p h bs).1 := by
  unfold Machine.layRecord
  exact (ite (refl s) (writeBytes s _ _)).trans (writeBytes _ _ _)

/-- Records that are not committed stand in the ring's bytes alone. -/
theorem layPending (s : State) (p : Nat) : BytesOnly s (layPending s p) :=
  List.foldlRecOn (pendingRecords s p) _ (motive := fun sh : State × Nat => BytesOnly s sh.1) (refl s)
    fun sh kept bs _ => kept.trans (layRecord sh.1 p sh.2 bs)

end BytesOnly

/-! ### Plans (R254, R255, R501) -/

theorem dropCopies_ctxs (s : State) (k : Nat) : (s.dropCopies k).ctxs = s.ctxs := by
  unfold State.dropCopies
  split <;> rfl

theorem addHead_ctxs (s : State) (k : Nat) (h : ChainHead) : (s.addHead k h).ctxs = s.ctxs := by
  rw [addHead_eq]
  rfl

/-- Posting the copies of a plan writes descriptors and a queue. -/
theorem postCopies_ctxs (s : State) (k : Nat) (q : StepPlan) : (postCopies s k q).ctxs = s.ctxs := by
  unfold postCopies
  dsimp only
  split
  · rw [addHead_ctxs, (BytesOnly.foldl (fun u _ => BytesOnly.writeBytes u _ _) _ _).ctxs, dropCopies_ctxs]
  · rfl

/-- A plan that is taken is the last one planned. -/
theorem takePlan_planned (k : Nat) (x : Ctx) (w : Work) :
    (((takePlan k x w).ctxs.get? k).bind fun z => z.planner.planned) = some w.step := by
  unfold takePlan
  rw [postCopies_ctxs, State.get?_setCtx]
  rfl

/-- The committed lengths of a context, once folded, wait no longer. -/
theorem get?_foldLengths {s : State} {k : Nat} {x : Ctx} (at_ : s.ctxs.get? k = some x) :
    (foldLengths s k).ctxs.get? k = some { x with folds := [] } := by
  rw [foldLengths, at_]
  exact State.get?_setCtx _ k _

/-- The requests that a plan took are read from the host's ring. -/
def requestsRead (s : State) (k n : Nat) : State :=
  s.setFld (R.hifRq k) F.hifRq_cons ((s.fld (R.hifRq k) F.hifRq_cons + n) % 2 ^ 32)

theorem foldl_emit {α : Type} (f : α → Out) (l : List α) (s : State) :
    l.foldl (fun u d => u.emit (f d)) s = { s with outbox := s.outbox ++ l.map f } := by
  induction l generalizing s with
  | nil => simp
  | cons d l ih =>
    rw [List.foldl_cons, ih, List.map_cons, List.append_cons]
    rfl

/-- How PLAN_STEP ends with a plan `w` that takes `n` requests: a hold without room in a journal ring (R503) or in the completion
ring (R556), the plan itself in a context without peers, and a wait for the stall sets of the peers (R501). -/
def planEnds (v : State) (k : Nat) (y : Ctx) (inp : PlanIn) (w : Work) (n : Nat) : State :=
  if (planRoom v k y w).1 = false then holdJournal v k
  else if (planRoom v k y w).2 = false then v.hold k .queueRoom
  else if peersOf v k = [] then State.showKv (requestsRead (takePlan k y w) k n) (v.leadOf k)
  else State.setCtx { v with outbox := v.outbox ++ (peersOf v k).map fun d => .stallSet d (nextPlan v k y) w.stalls } k
    { y with planner := { y.planner with waiting := some inp, union := (y.planner.union ++ w.stalls).dedup } }

section PlanStep

variable {s v : State} {c : CtxId} {y : Ctx} (folded : foldLengths s c.val = v) (at_ : v.ctxs.get? c.val = some y)
include folded at_

theorem planStep_idle (inp : PlanIn) (idle : mayPlan v c.val y = false) : exec (.planStep c inp) s = .next v := by
  change execPlanStep c inp s = _
  simp only [execPlanStep, folded, at_, idle, if_true]

theorem planStep_plans (inp : PlanIn) (may : mayPlan v c.val y = true) (plain : y.regen = none) {ask : PlanAsk × Nat} {w : Work}
    (asks : hostAsk v c.val y (nextPlan v c.val y) inp = ask) (plans : runPlan v y (nextPlan v c.val y) inp ask.1 = w) :
    exec (.planStep c inp) s = .next (planEnds v c.val y inp w ask.2) := by
  change execPlanStep c inp s = _
  simp only [execPlanStep, folded, at_, may, plain, asks, plans, planEnds, requestsRead, foldl_emit, Bool.true_eq_false, if_false]

end PlanStep

section Context

variable {s : State} {c : CtxId} {x : Ctx} (at_ : s.ctxs.get? c.val = some x)
include at_

/-- The stall set of a peer, while no plan waits, is merged and nothing else happens (R501). -/
theorem stallSetExchange_eq {d : BitVec 12} (l : List (BitVec 24)) (peer : (peersOf s c.val).contains d.toNat = true)
    (none_waits : x.planner.waiting = none) : exec (.stallSetExchange c d l) s = .next (s.setCtx c.val
      { x with planner := { x.planner with union := (x.planner.union ++ l.map (·.toNat)).dedup,
                                           heard := (d.toNat :: x.planner.heard).dedup } }) := by
  change execStallSetExchange c d l s = _
  simp only [execStallSetExchange, at_, peer, none_waits, Bool.true_eq_false, if_false]

/-- The record of a step is appended when every tile has ended the step, and lies behind the head (R502). -/
theorem stepRecordAppend_frame (toks : List (BitVec 24 × BitVec 32 × BitVec 23)) (runs : s.ctxSt c.val = CtxSt.running)
    (calm : s.reviving c.val = false) (new : x.appended = none) (ended : ∀ t ∈ x.tiles, (s.tile t).st = .stepwait) :
    ∃ y u, exec (.stepRecordAppend c toks) s = .next u ∧ y.appended.isSome = true
      ∧ BytesOnly (s.draw.2.setCtx c.val y) u := by
  have all : (s.ctxTiles c.val).all (fun t => (s.tile t).st == .stepwait) = true := by
    rw [State.ctxTiles_of_get? at_]
    simpa using ended
  have run : exec (.stepRecordAppend c toks) s = execStepRecordAppend c toks s := rfl
  simp only [run, execStepRecordAppend, at_, runs, calm, new, all, ne_eq, not_true_eq_false, Bool.false_eq_true, Bool.true_eq_false,
    Option.isSome_none, or_self, if_false]
  exact ⟨_, _, rfl, rfl, BytesOnly.foldl BytesOnly.layPending _ _⟩

end Context

/-! ### Tails and regenerations (R498, R503, R504) -/

theorem jtailWrite_rejected {s : State} {p : PartId} {tail : BitVec 64} (path : RegPath)
    (outside : jHead s p.val < tail.toNat ∨ tail.toNat < jTail s p.val) :
    exec (.partJtailWrite path p tail) s = .next (rejectReg s path (R.partJtail p.val) true (some p.val)) :=
  congrArg Host.Outcome.next (if_pos outside)

theorem jtailWrite_taken {s : State} {p : PartId} {tail : BitVec 64} (path : RegPath)
    (written : tail.toNat ≤ jHead s p.val) (ahead : jTail s p.val ≤ tail.toNat) :
    exec (.partJtailWrite path p tail) s = .next (freeJournal (s.setReg (R.partJtail p.val) tail) p.val) := by
  refine congrArg Host.Outcome.next (if_neg ?_)
  omega

theorem State.reg_setCtx (s : State) (k : Nat) (x : Ctx) (r : Nat) : (s.setCtx k x).reg r = s.reg r := rfl

/-- PART.REPLAY and PART.REPLAYSTEP of a partition show a regeneration that begins at a step. -/
def replayShown (s : State) (p : Nat) (first : W64) : State :=
  (((s.setFld (R.partReplay p) F.partReplay_state 1).setFld (R.partReplay p) F.partReplay_status 0).setFld
    (R.partReplay p) F.partReplay_steps 0).setReg (R.partReplaystep p) first

theorem replayShown_ctxs (s : State) (p : Nat) (first : W64) : (replayShown s p first).ctxs = s.ctxs := by
  simp only [replayShown, State.setReg_ctxs, State.setFld_ctxs]

theorem replayShown_mem (s : State) (p : Nat) (first : W64) : (replayShown s p first).mem = s.mem := by
  simp only [replayShown, State.setReg_mem, State.setFld_mem]

theorem reg_replayShown (s : State) (p : Nat) (first : W64) :
    (replayShown s p first).reg (R.partReplaystep p) = first := by
  rw [replayShown, State.reg_setReg]

/-- A regeneration that begins with the next step to plan, in a READY context. -/
theorem replies_regenerateSteps {s : State} {k : Nat} {x : Ctx} {m : Cmd} {last addr : BitVec 64}
    (taken : Taken 0x0503 .both false m s) (scope : scopeCtx m = some k) (at_ : s.ctxs.get? k = some x)
    (ready : s.ctxSt k = CtxSt.ready) (order : (nextPlan s k x).toNat ≤ last.toNat) (idle : x.regen = none)
    (inside : inCapacity s k addr.toNat 256 = true) :
    Replies (.regenerateSteps m (nextPlan s k x) last addr) 0x0503 m s St.ok []
      ((replayShown s (s.leadOf k) (nextPlan s k x)).setCtx k
        { x with regen := some ⟨nextPlan s k x, last, addr.toNat, []⟩ }) := by
  refine replies_of_mgmt rfl taken ?_
  simp only [scope, at_, ready, order, idle, inside, true_or, and_self, if_true, replayShown]

/-! ### The obligation -/

/-- Settles O48: PLAN_STEP by `planStep_plans` after the lengths are folded, its branch chosen by the room; the appended record by
`stepRecordAppend_frame`. -/
theorem plansAndJournal : Obligations.PlansAndJournal := by
  unfold Obligations.PlansAndJournal
  intro s c x inp k first v y step w at_
  have there : v.ctxs.get? k = some y := get?_foldLengths at_
  refine ⟨?_, ?_, ?_, ?_, ?_, ?_, ?_, ?_, ?_, ?_⟩
  · intro may plain room alone
    have ends : planEnds v k y inp w (hostAsk v k y step inp).2
        = State.showKv (requestsRead (takePlan k y w) k (hostAsk v k y step inp).2) (v.leadOf k) := by
      rw [planEnds, room, if_neg Bool.noConfusion, if_neg Bool.noConfusion, if_pos alone]
    exact ⟨_, planStep_plans rfl there inp may plain rfl rfl, _, ends, takePlan_planned k y w⟩
  · exact fun b may plain room => ⟨_, planStep_plans rfl there inp may plain rfl rfl, by rw [planEnds, room, if_pos rfl]⟩
  · exact fun may plain room => ⟨_, planStep_plans rfl there inp may plain rfl rfl,
      by rw [planEnds, room, if_neg Bool.noConfusion, if_pos rfl]⟩
  · intro may plain room peers
    refine ⟨_, planStep_plans rfl there inp may plain rfl rfl, ?_⟩
    rw [planEnds, room, if_neg Bool.noConfusion, if_neg Bool.noConfusion, if_neg peers]
    refine ⟨rfl, ?_, rfl, rfl⟩
    rw [State.get?_setCtx]
    rfl
  · exact fun idle => ⟨_, planStep_idle rfl there inp idle, rfl⟩
  · intro d l peer none_waits
    refine ⟨_, stallSetExchange_eq at_ l peer none_waits, rfl, rfl, ?_⟩
    rw [State.get?_setCtx]
    rfl
  · intro toks runs calm new ended
    obtain ⟨z, u, run, appended, bytes⟩ := stepRecordAppend_frame at_ toks runs calm new ended
    refine ⟨u, run, bytes.regs, bytes.tiles, ?_⟩
    rw [bytes.ctxs, State.get?_setCtx, Option.map_some, appended]
  · exact fun path p tail outside => ⟨_, jtailWrite_rejected path outside, rfl⟩
  · exact fun path p tail written ahead => ⟨_, jtailWrite_taken path written ahead, rfl⟩
  · intro m last addr taken scope ready order idle inside
    refine ⟨_, replies_regenerateSteps taken scope at_ ready order idle inside, ?_, ?_, ?_⟩
    · rw [State.reg_setCtx, reg_replayShown]
    · rw [State.setCtx, replayShown_ctxs]
    · rw [State.setCtx_mem, replayShown_mem]

end Sys2Proof.Machine
end

section
/-! O4. Memory keeps its canonical form: the predicates, what keeps them, and the operations that leave memory alone. -/

namespace Sys2Proof.Machine

/-- A state that may be missing has canonical memory where it is there. -/
def SomeOk (o : Option State) : Prop := ∀ u, o = some u → u.memOk

/-- The state that a command leaves has canonical memory; a stop leaves none. -/
def EndsOk (o : Host.Outcome State Fault Refusal) : Prop := ∀ u, o = .next u → u.memOk

/-! ### What keeps canonical memory -/

theorem State.memOk.of_mem {s u : State} (h : s.memOk) (same : u.mem = s.mem) : u.memOk := by
  rw [State.memOk, same]
  exact h

theorem State.memOk.ite {c : Prop} [Decidable c] {s u : State} (yes : s.memOk) (no : u.memOk) :
    (if c then s else u).memOk := by
  split <;> assumption

theorem State.memOk.foldl {α : Type} {f : State → α → State} {l : List α} {s : State}
    (step : ∀ {u a}, u.memOk → (f u a).memOk) (h : s.memOk) : (l.foldl f s).memOk :=
  List.foldlRecOn l f h fun _ kept _ _ => step kept

/-- A fold that carries something beside the state. -/
theorem State.memOk.foldlFst {α β : Type} {f : State × β → α → State × β} {l : List α} {s : State × β}
    (step : ∀ {u a}, u.1.memOk → (f u a).1.memOk) (h : s.1.memOk) : (l.foldl f s).1.memOk :=
  List.foldlRecOn (motive := fun u => u.1.memOk) l f h fun _ kept _ _ => step kept

/-- A fold over the planner's work, which carries the state. -/
theorem State.memOk.foldlWork {α : Type} {f : Work → α → Work} {l : List α} {w : Work}
    (step : ∀ {u a}, u.s.memOk → (f u a).s.memOk) (h : w.s.memOk) : (l.foldl f w).s.memOk :=
  List.foldlRecOn (motive := fun u => u.s.memOk) l f h fun _ kept _ _ => step kept

theorem State.memOk.getD {o : Option State} {u : State} (found : SomeOk o) (missing : u.memOk) : (o.getD u).memOk := by
  cases o with
  | none => exact missing
  | some v => exact found v rfl

theorem State.memOk.elim {α : Type} {o : Option α} {u : State} {f : α → State} (missing : u.memOk)
    (found : ∀ {a}, (f a).memOk) : (o.elim u f).memOk := by
  cases o with
  | none => exact missing
  | some a => exact found

theorem SomeOk.some {s : State} (h : s.memOk) : SomeOk (some s) := fun _ eq => Option.some.inj eq ▸ h

theorem SomeOk.none : SomeOk none := fun _ eq => nomatch eq

theorem SomeOk.ite {c : Prop} [Decidable c] {o p : Option State} (yes : SomeOk o) (no : SomeOk p) :
    SomeOk (if c then o else p) := by
  split <;> assumption

theorem SomeOk.map {f : State → State} {o : Option State} (step : ∀ {u}, u.memOk → (f u).memOk) (h : SomeOk o) :
    SomeOk (o.map f) := by
  cases o with
  | none => exact SomeOk.none
  | some v => exact .some (step (h v rfl))

theorem SomeOk.of_map {α : Type} {f : α → State} {o : Option α} (h : ∀ {a}, (f a).memOk) : SomeOk (o.map f) := by
  cases o with
  | none => exact SomeOk.none
  | some v => exact .some h

theorem EndsOk.next {s : State} (h : s.memOk) : EndsOk (.next s) := fun _ eq => Host.Outcome.next.inj eq ▸ h

theorem EndsOk.fault {f : Fault} : EndsOk (.fault f) := fun _ eq => nomatch eq

theorem EndsOk.refused {f : Refusal} : EndsOk (.refused f) := fun _ eq => nomatch eq

theorem EndsOk.ite {c : Prop} [Decidable c] {o p : Host.Outcome State Fault Refusal} (yes : EndsOk o) (no : EndsOk p) :
    EndsOk (if c then o else p) := by
  split <;> assumption

/-! ### The writes of memory (`Mem.wf_writeN`, `Mem.wf_filter`) -/

theorem State.memOk.writeRaw {s : State} {a : Nat} {bs : List Byte} (h : s.memOk) : (s.writeRaw a bs).memOk :=
  Mem.wf_writeN bs s.mem a h

theorem State.memOk.clearRange {s : State} {a n : Nat} (h : s.memOk) : (s.clearRange a n).memOk :=
  Mem.wf_filter _ s.mem h

/-! ### Operations that leave memory alone -/

variable {s : State} {a c e i k n off p t : Nat}

theorem State.memOk.setReg {x : W64} (h : s.memOk) : (s.setReg off x).memOk := h

theorem State.memOk.setFld {f : Fld} {v : Nat} (h : s.memOk) : (s.setFld off f v).memOk := h

theorem State.memOk.bump {f : Fld} (h : s.memOk) : (s.bump off f n).memOk := h

theorem State.memOk.setTile {T : Tile} (h : s.memOk) : (s.setTile t T).memOk := h

theorem State.memOk.emit {o : Out} (h : s.memOk) : (s.emit o).memOk := h

theorem State.memOk.acquireLines (h : s.memOk) : (s.acquireLines p c).memOk := h

theorem State.memOk.setQueue {q : Queue} (h : s.memOk) : (s.setQueue k q).memOk := h

theorem State.memOk.startCancel (h : s.memOk) : (s.startCancel k).memOk := h

theorem State.memOk.addMapRec {r : MapRec} (h : s.memOk) : (Machine.addMapRec s r).memOk := h

theorem State.memOk.markTile (h : s.memOk) : (Machine.markTile s t).memOk := h

theorem State.memOk.showSlice {pos : Nat} (h : s.memOk) : (Machine.showSlice s t pos).memOk := h

theorem State.memOk.answer {r : MemReq} {val : W64} {bad : Bool} (h : s.memOk) : (s.answer i r val bad).memOk := h

theorem State.memOk.setCtx {x : Ctx} (h : s.memOk) : (s.setCtx c x).memOk := h

theorem State.memOk.setCtxSt {v : Nat} (h : s.memOk) : (s.setCtxSt c v).memOk := h

theorem State.memOk.showKv (h : s.memOk) : (s.showKv p).memOk := h

theorem State.memOk.setUnit {u : CruUnit} (h : s.memOk) : (s.setUnit k u).memOk := h

theorem State.memOk.setColl {r : CollRing} (h : s.memOk) : (s.setColl k r).memOk := h

theorem State.memOk.addFlight {op : TileOp} {kind : FlightKind} {lat : Nat} {eff : Effect} (h : s.memOk) :
    (Machine.addFlight s t op kind lat eff).memOk :=
  h

theorem State.memOk.objReq {T : Tile} {k : ReqKind} {g amount : W64} (h : s.memOk) :
    (Machine.objReq s t T k g amount).memOk :=
  h

theorem State.memOk.abandon {f : Flight} (h : s.memOk) : (Machine.abandon s t f).memOk := h

theorem State.memOk.abandonEarly {f : Flight} (h : s.memOk) : (Machine.abandonEarly s t f).memOk := h

theorem State.memOk.setActive {a : Active} (h : s.memOk) : (Machine.setActive s k i a).memOk := h

theorem State.memOk.setPortState {v : Nat} (h : s.memOk) : (Machine.setPortState s k v).memOk := h

theorem State.memOk.setTickTimes {lat : Nat} (h : s.memOk) : (Machine.setTickTimes s lat).memOk := h

theorem State.memOk.showHeld (h : s.memOk) : (Machine.showHeld s p).memOk := h

theorem State.memOk.notePage {v : Nat} (h : s.memOk) : (Machine.notePage s a v).memOk := h

theorem State.memOk.setTicks {t : TickState} (h : s.memOk) : (Machine.setTicks s t).memOk := h

theorem State.memOk.clearStep (h : s.memOk) : (Machine.clearStep s).memOk := h

theorem State.memOk.lowerGrade (h : s.memOk) : (Machine.lowerGrade s).memOk := h

theorem State.memOk.lockPlls (h : s.memOk) : (Machine.lockPlls s p).memOk := h

theorem State.memOk.setFlash {f : Flash} (h : s.memOk) : (Machine.setFlash s f).memOk := h

theorem State.memOk.goStep (h : s.memOk) : (Machine.goStep s n).memOk := h

theorem State.memOk.failStart {code : Nat} (h : s.memOk) : (Machine.failStart s code).memOk := h

theorem State.memOk.showEdge (h : s.memOk) : (Machine.showEdge s e).memOk := h

end Sys2Proof.Machine
end

section
/-! O4. Canonical memory is kept: registers, records and lines of memory. -/

namespace Sys2Proof.Machine

variable {s : State} {a cause index kind n off p sev t : Nat}

theorem State.memOk.applyShadow (h : s.memOk) : (s.applyShadow off).memOk := by
  unfold State.applyShadow
  dsimp only
  split <;> exact h

theorem State.memOk.writeShadow {mask x : W64} (h : s.memOk) : (s.writeShadow off mask x).memOk := by
  unfold State.writeShadow
  split <;> exact h

theorem State.memOk.applyShadows {p : Nat → Bool} (h : s.memOk) : (s.applyShadows p).memOk :=
  .foldl (fun h => .applyShadow h) h

theorem State.memOk.draw (h : s.memOk) : (s.draw).2.memOk := h

theorem State.memOk.setDram {l : Nat} {bs : List Byte} (h : s.memOk) : (s.setDram l bs).memOk := by
  unfold State.setDram
  dsimp only
  split
  · exact .writeRaw h
  · exact h

theorem State.memOk.writeLine {bs : List Byte} (h : s.memOk) : (s.writeLine a bs).memOk :=
  .ite (.writeRaw (.ite (.writeRaw h) h)) (.ite (.writeRaw h) (.writeRaw h))

theorem State.memOk.writeLines {bs : List Byte} (h : s.memOk) : (State.writeLines n s a bs).memOk := by
  induction n generalizing s a bs with
  | zero => exact h
  | succ n ih => exact .ite h (ih (.writeLine h))

theorem State.memOk.writeBytes {bs : List Byte} (h : s.memOk) : (s.writeBytes a bs).memOk := .writeLines h

theorem State.memOk.store {x : Nat} (h : s.memOk) : (s.store a n x).memOk := .writeBytes h

theorem State.memOk.ringPut {bs : List Byte} (h : s.memOk) : (s.ringPut p bs).memOk := .writeBytes (.ite h h)

theorem State.memOk.raiseAlert (h : s.memOk) : (s.raiseAlert p sev).memOk := .ite h h

theorem State.memOk.record {r : ErrRec} (h : s.memOk) : (s.record p r).memOk := by
  unfold State.record
  dsimp only
  refine .ite ?_ (.ite (.raiseAlert (.ringPut (.draw h))) (.ite (.raiseAlert (.draw h)) (.draw h)))
  split
  · exact .draw h
  · exact .writeBytes (.draw h)

theorem State.memOk.flushRing (h : s.memOk) : (s.flushRing p).memOk := .ite (.foldl (fun h => .ringPut h) h) h

theorem State.memOk.recordAll {r : ErrRec} (h : s.memOk) : (s.recordAll r).memOk := .foldl (fun h => .record h) h

theorem State.memOk.clearTile {st : TileSt} (h : s.memOk) : (s.clearTile t st).memOk := .clearRange h

theorem State.memOk.resetRecord {level : Nat} {fin : Bool} (h : s.memOk) :
    (s.resetRecord p kind index level cause fin).memOk :=
  .record h

theorem State.memOk.startEngineReset (h : s.memOk) : (s.startEngineReset p kind index cause).memOk := by
  unfold State.startEngineReset
  dsimp only
  refine .ite (.resetRecord h) (.ite ?_ (.resetRecord h))
  split
  · exact .clearTile (.resetRecord h)
  · exact .resetRecord h
  · exact .clearTile (.resetRecord h)

theorem State.memOk.stepGap (h : s.memOk) : (s.stepGap t).memOk := .ite h h

theorem State.memOk.holdWord {l : Nat} {cw : List Nat} (h : s.memOk) : (s.holdWord l cw).memOk := .setDram h

theorem State.memOk.readWord {l : Nat} {cw : List Nat} {count : State → State}
    (step : ∀ {u}, u.memOk → (count u).memOk) (h : s.memOk) :
    (s.readWord l cw count).memOk := by
  unfold State.readWord
  dsimp only
  split
  · exact h
  · split
    · exact .ite h (.holdWord h)
    · exact .ite h (step (.ite h (.holdWord h)))
    · exact .ite h (.writeRaw h)

end Sys2Proof.Machine
end

section
/-! O4. Canonical memory is kept: the fabric and the shared cache. -/

namespace Sys2Proof.Machine

variable {s : State} {a c d k n p status : Nat}

theorem State.memOk.emitPacket {pk : Packet} (h : s.memOk) : (s.emitPacket k pk).memOk := .ite h h

theorem State.memOk.drainLink (h : s.memOk) : (State.drainLink n s k).memOk := by
  induction n generalizing s with
  | zero => exact h
  | succ n ih =>
    unfold State.drainLink
    dsimp only
    split
    · exact h
    · exact .ite (ih h) h

theorem State.memOk.emitLink {pk : Packet} (h : s.memOk) : (s.emitLink k pk).memOk := .ite (.emitPacket h) h

theorem State.memOk.sendPacket {pk : Packet} (h : s.memOk) : (s.sendPacket p pk).memOk := by
  unfold State.sendPacket
  refine .ite h ?_
  split
  · exact .emitPacket h
  · exact h

theorem State.memOk.sendOnce {typ : BitVec 8} {addr : Nat} {operand : W64} {payload : List Byte} (h : s.memOk) :
    (s.sendOnce p c d typ addr operand payload).memOk :=
  .sendPacket h

theorem State.memOk.sendRequest {typ : BitVec 8} {addr : Nat} {op : BitVec 8} {operand : W64} {payload : List Byte}
    {who : Requester} (h : s.memOk) :
    (s.sendRequest p c d typ addr n op operand payload who).memOk :=
  .ite (.sendPacket h) h

theorem State.memOk.dropReq {f : FabReq} (h : s.memOk) : (s.dropReq f).memOk := by
  unfold State.dropReq
  dsimp only
  split
  · exact h
  · exact .sendPacket h

theorem State.memOk.putAt {l : Loc} {bs : List Byte} {who : Requester} (h : s.memOk) :
    (s.putAt p c l bs who).memOk := by
  unfold State.putAt
  split
  · exact .writeBytes h
  · exact .sendRequest h
  · exact h

theorem State.memOk.engineSignal {g amount : W64} (h : s.memOk) : (s.engineSignal p c g amount).memOk :=
  .ite (.sendRequest h) h

theorem State.memOk.holdAt {x : HeldAccess} (h : s.memOk) : (s.holdAt a n x).memOk := by
  unfold State.holdAt
  split
  · exact h
  · exact .ite h h

theorem State.memOk.sramSyndrome {structure_ : Nat} (h : s.memOk) : (s.sramSyndrome structure_).2.memOk := by
  unfold State.sramSyndrome
  dsimp only
  exact .draw h

theorem State.memOk.sramLine {structure_ l : Nat} (h : s.memOk) : (s.sramLine p structure_ l).memOk := by
  unfold State.sramLine
  dsimp only
  exact .record (.sramSyndrome h)

theorem State.memOk.accessRecord {check : Nat} {c : Option Nat} (h : s.memOk) :
    (s.accessRecord p a status check c).memOk :=
  .record h

theorem State.memOk.markDirty {l : Nat} {mask : BitVec 64} (h : s.memOk) : (s.markDirty l mask).memOk := by
  unfold State.markDirty
  split <;> exact h

theorem State.memOk.writeBack {x : CacheLine} (h : s.memOk) : (s.writeBack x).memOk :=
  .ite h (.ite (.accessRecord h) (.ite (.ite h h) (.foldl (fun h => .ite (.writeBytes h) h) (.markDirty h))))

theorem State.memOk.evict {x : CacheLine} (h : s.memOk) : (s.evict x).memOk := .writeBack h

theorem State.memOk.loseLine {x : CacheLine} (h : s.memOk) : (s.loseLine x).memOk := .ite (.writeRaw h) h

theorem State.memOk.evictAll {l : List CacheLine} (h : s.memOk) : (s.evictAll l).memOk := .foldl (fun h => .evict h) h

theorem State.memOk.writeBackBad {x : CacheLine} (h : s.memOk) : (s.writeBackBad x).memOk := .writeBack (.sramLine h)

theorem State.memOk.writeBackAll {l : List CacheLine} {bad : List Nat} (h : s.memOk) : (s.writeBackAll l bad).memOk :=
  .foldl (fun h => .ite (.writeBackBad h) (.writeBack h)) h

theorem State.memOk.protect {x : CacheLine} (h : s.memOk) : (s.protect c x).memOk := by
  unfold State.protect
  dsimp only
  refine .ite h ?_
  split
  · exact .ite h h
  · exact h

theorem State.memOk.useWith {x : CacheLine} {hint : BitVec 2} (h : s.memOk) : (s.useWith c x hint).memOk :=
  .ite (.protect h) h

theorem State.memOk.allocLine {l : Nat} {hint : BitVec 2} {dirty : BitVec 64} (h : s.memOk) :
    (s.allocLine p c l hint dirty).memOk := by
  unfold State.allocLine
  dsimp only
  split
  · exact h
  · refine .useWith ?_
    split
    · exact .evict h
    · exact h

theorem State.memOk.homeAccess {hint : BitVec 2} {dirty : BitVec 64} (h : s.memOk) :
    (s.homeAccess c a hint dirty).memOk := by
  unfold State.homeAccess
  dsimp only
  split
  · exact h
  · refine .ite h ?_
    split
    · exact .ite (.evict h) (.ite (.useWith h) (.useWith h))
    · exact .ite (.allocLine h) h

theorem State.memOk.homeRange {hint : BitVec 2} {write : Bool} (h : s.memOk) : (s.homeRange c a n hint write).memOk :=
  .foldl (fun h => .homeAccess h) h

theorem State.memOk.cachedRead {hint : BitVec 2} (h : s.memOk) : (s.cachedRead p c a n hint).2.memOk := by
  unfold State.cachedRead
  dsimp only
  split
  · split
    · exact .ite (.evict h) (.useWith h)
    · exact .ite (.allocLine (.homeAccess h)) (.homeAccess h)
  · exact .homeAccess h

theorem State.memOk.cachedWrite {bs : List Byte} {hint : BitVec 2} (h : s.memOk) :
    (s.cachedWrite p c a bs hint).memOk := by
  unfold State.cachedWrite
  dsimp only
  refine .ite ?_ (.writeBytes (.homeAccess h))
  split
  · exact .ite (.writeBytes (.homeAccess h)) (.useWith h)
  · split
    · exact .ite (.allocLine (.homeAccess h)) (.homeAccess h)
    · exact .writeBytes (.ite (.allocLine (.homeAccess h)) (.homeAccess h))

theorem State.memOk.prefetchLine {hint : BitVec 2} (h : s.memOk) : (s.prefetchLine p c a hint).memOk :=
  .ite (.cachedRead h) h

theorem State.memOk.releaseLines {bad : List Nat} (h : s.memOk) : (s.releaseLines p c bad).memOk := .writeBackAll h

theorem State.memOk.trimKeep (h : s.memOk) : (s.trimKeep p).memOk := .foldl (fun h => .ite h h) h

theorem State.memOk.victimBad (h : s.memOk) : (s.victimBad p c a).memOk := by
  unfold State.victimBad
  refine .ite h ?_
  split
  · exact .ite h (.writeBackBad h)
  · exact h

theorem State.memOk.flushWay {w : Nat} {bad : List Nat} (h : s.memOk) : (s.flushWay p w bad).memOk :=
  .foldl id (.writeBackAll h)

theorem State.memOk.trimRemote (h : s.memOk) : (s.trimRemote p).memOk := .foldl (fun h => .ite (.evict h) h) h

end Sys2Proof.Machine
end

section
/-! O4. Canonical memory is kept: data movement queues and memory errors. -/

namespace Sys2Proof.Machine

variable {s : State} {a i index k kind n p r sev status : Nat}

theorem State.memOk.ringHold {x : HeldAccess} (h : s.memOk) : (s.ringHold k x).memOk := by
  unfold State.ringHold
  dsimp only
  split
  · exact .ite (.holdAt h) (.holdAt h)
  · exact h

theorem State.memOk.writeRecord {bytes desc : Nat} (h : s.memOk) : (s.writeRecord k status bytes desc).memOk := by
  unfold State.writeRecord
  dsimp only
  split
  · exact .writeBytes (.draw h)
  · exact .putAt (.draw h)
  · exact .draw h

theorem State.memOk.dmaEndRecord {bytes desc : Nat} (h : s.memOk) : (s.dmaEndRecord k status bytes desc).memOk :=
  .record h

theorem State.memOk.abnormalEnd {a : Active} {bytes : Nat} {noRecord : Bool} (h : s.memOk) :
    (s.abnormalEnd k a status bytes noRecord).memOk :=
  .ite (.dmaEndRecord h) (.writeRecord (.dmaEndRecord h))

theorem State.memOk.freeBlocks (h : s.memOk) : (s.freeBlocks k).memOk := .foldl id h

theorem State.memOk.endCancel {rec : Bool} (h : s.memOk) : (s.endCancel k rec).memOk :=
  .ite (.foldl (fun h => .ite (.writeRecord h) h) (.freeBlocks h)) (.freeBlocks h)

theorem State.memOk.dropQueue (h : s.memOk) : (s.dropQueue k).memOk := .endCancel h

theorem State.memOk.addHead {g : ChainHead} (h : s.memOk) : (s.addHead k g).memOk := .ite h (.ite h h)

theorem State.memOk.deferRepair {r : MapRec} (h : s.memOk) : (Machine.deferRepair s r).memOk := .ite h h

theorem State.memOk.repairRecord {typ : Nat} {removed : Bool} (h : s.memOk) :
    (Machine.repairRecord s p kind index typ removed).memOk :=
  .record h

theorem State.memOk.retireStack (h : s.memOk) : (Machine.retireStack s n).memOk := .repairRecord h

theorem State.memOk.failStack (h : s.memOk) : (Machine.failStack s n).memOk := .ite (.retireStack h) (.deferRepair h)

theorem State.memOk.recordRegion {unit : Nat} (h : s.memOk) : (Machine.recordRegion s r unit index).memOk :=
  .ite (.repairRecord h) (.deferRepair h)

theorem State.memOk.retireMoved (h : s.memOk) : (Machine.retireMoved s).memOk :=
  .foldl (fun h => .ite (.failStack h) (.recordRegion h)) h

theorem State.memOk.failSlice {pos : Nat} (h : s.memOk) : (Machine.failSlice s p i pos).memOk :=
  .ite h (.deferRepair h)

theorem State.memOk.spareSliceRow {r : MapRec} (h : s.memOk) : (Machine.spareSliceRow s p i r).memOk :=
  .ite (.failSlice h) (.deferRepair h)

theorem SomeOk.remapCapBank (h : s.memOk) : SomeOk (Machine.remapCapBank s a) :=
  .ite (.some h) (.ite .none (.some (.deferRepair h)))

theorem SomeOk.repairCapRow {r : MapRec} (h : s.memOk) : SomeOk (Machine.repairCapRow s r) :=
  .ite (.some (.deferRepair h)) (.remapCapBank h)

theorem State.memOk.memRecordIn {ring cls synd : Nat} {c : Option Nat} {addrErr : Bool} (h : s.memOk) :
    (s.memRecordIn ring cls sev a synd c addrErr).memOk :=
  .record h

theorem State.memOk.memRecord {cls synd : Nat} {c : Option Nat} {addrErr : Bool} (h : s.memOk) :
    (s.memRecord cls sev a synd c addrErr).memOk :=
  .memRecordIn h

theorem State.memOk.lsError {c : Option Nat} (h : s.memOk) : (s.lsError a sev c).memOk := by
  unfold State.lsError
  dsimp only
  exact .memRecord (.sramSyndrome h)

theorem State.memOk.countError {key : Nat} (h : s.memOk) : (s.countError key).2.memOk := .draw h

theorem State.memOk.crossed {cls : Nat} {keys : List Nat} (h : s.memOk) : (s.crossed a cls n keys).memOk :=
  .memRecord h

theorem State.memOk.rowFails {x : State.DramRow} (h : s.memOk) : (s.rowFails x).memOk :=
  .ite (.spareSliceRow h) (.getD (.repairCapRow h) (.failStack h))

theorem State.memOk.countCorrected (h : s.memOk) : (s.countCorrected a).memOk := by
  unfold State.countCorrected
  dsimp only
  split
  · exact h
  · exact .ite (.rowFails (.crossed (.countError h))) (.countError h)

theorem State.memOk.withBoard {b : Board} (h : s.memOk) : { s with board := b }.memOk := h

theorem State.memOk.countUncorrected (h : s.memOk) : (s.countUncorrected a).memOk := by
  unfold State.countUncorrected
  split
  · exact h
  · dsimp only
    split
    · exact .ite (.failSlice (.crossed (.countError (.countError h))))
        (.ite (.rowFails (.crossed (.countError (.countError h))))
          (.ite (.countError (.countError h)) (.ite (.crossed
            (.withBoard (.countError (.countError (.countError h)))))
            (.withBoard (.countError (.countError (.countError h)))))))
    · exact .ite (.failSlice (.crossed (.countError h))) (.ite (.rowFails (.crossed (.countError h)))
        (.ite (.countError h) (.ite (.crossed (.withBoard (.countError (.countError h))))
          (.withBoard (.countError (.countError h))))))

theorem State.memOk.bumpEcc {uncorr : Bool} (h : s.memOk) : (s.bumpEcc a uncorr).memOk := by
  unfold State.bumpEcc
  split <;> exact .ite (.countUncorrected h) (.countCorrected h)

theorem State.memOk.readRecords {ring : Nat} {c : Option Nat} (h : s.memOk) : (s.readRecords ring a n c sev).memOk := by
  unfold State.readRecords
  dsimp only
  refine .foldl (fun h => ?_) h
  split
  · exact h
  · exact .bumpEcc (.memRecordIn h)
  · exact .ite h (.memRecordIn h)

theorem State.memOk.keepOld {r : MemReq} (h : s.memOk) : (s.keepOld r).memOk := .foldl (fun h => .ite h h) h

theorem State.memOk.performReq (h : s.memOk) : (s.performReq i).memOk := by
  unfold State.performReq
  dsimp only
  split
  · exact h
  · split
    · exact .ite (.answer (.accessRecord h)) (.ite (.answer (.readRecords h)) (.answer (.cachedRead h)))
    · exact .ite (.answer (.accessRecord h)) (.answer (.cachedWrite (.keepOld h)))
    · exact .ite (.answer (.accessRecord h)) (.ite (.answer (.readRecords h)) (.answer (.store (.homeAccess h))))
    · exact .ite (.answer (.accessRecord h)) (.answer (.cachedWrite h))
    · exact .answer (.ite (.prefetchLine h) (.accessRecord h))
    · split
      · exact .answer (.evict h)
      · exact h
    all_goals exact h

end Sys2Proof.Machine
end

section
/-! O4. Canonical memory is kept: recovery and isolation. -/

namespace Sys2Proof.Machine

variable {s : State} {a c cause i index k kind p sev status : Nat}

theorem State.memOk.updCtx {f : Ctx → Ctx} (h : s.memOk) : (s.updCtx c f).memOk := by
  unfold State.updCtx
  split <;> exact h

theorem State.memOk.hold {why : HoldWhy} (h : s.memOk) : (s.hold c why).memOk := .ite (.updCtx h) (.updCtx h)

theorem State.memOk.unhold {why : HoldWhy} (h : s.memOk) : (s.unhold c why).memOk := by
  unfold State.unhold
  dsimp only
  split
  · exact h
  · exact .ite h h

theorem State.memOk.settleHold (h : s.memOk) : (s.settleHold c).memOk := .ite h h

theorem State.memOk.ctxRecord {cls synd : Nat} (h : s.memOk) : (s.ctxRecord c cls sev kind index synd).memOk :=
  .record h

theorem State.memOk.accessCheck {check addr : Nat} {c : Option Nat} (h : s.memOk) :
    (s.accessCheck p check addr c).memOk :=
  .record h

theorem State.memOk.abortUnit {faulty : Bool} (h : s.memOk) : (s.abortUnit k status faulty).memOk := .record h

theorem State.memOk.dropLaunch (h : s.memOk) : (s.dropLaunch i).memOk := .foldl id h

theorem State.memOk.cancelLaunch (h : s.memOk) : (s.cancelLaunch i).memOk := by
  unfold State.cancelLaunch
  refine .dropLaunch (.foldl (fun h => ?_) h)
  split
  · exact .abortUnit h
  · exact .abortUnit h
  · exact h

theorem State.memOk.endLaunch (h : s.memOk) : (s.endLaunch i).memOk := by
  unfold State.endLaunch
  dsimp only
  split
  · exact h
  · exact .ite (.engineSignal (.store (.cancelLaunch h))) (.cancelLaunch h)

theorem State.memOk.startResetAt (h : s.memOk) : (s.startResetAt p cause index).memOk :=
  .ite (.resetRecord h) (.foldl (fun h => .dropLaunch h) (.resetRecord h))

theorem State.memOk.startPartitionResetOf (h : s.memOk) : (s.startPartitionResetOf p cause index).memOk :=
  .foldl (fun h => .startResetAt h) (.startResetAt h)

theorem State.memOk.startPartitionReset (h : s.memOk) : (s.startPartitionReset p cause).memOk :=
  .startPartitionResetOf h

theorem State.memOk.startChipResetOf (h : s.memOk) : (s.startChipResetOf cause index).memOk := by
  unfold State.startChipResetOf
  dsimp only
  refine .ite (.recordAll h) ?_
  unfold State.memOk
  dsimp only
  exact State.memOk.foldl (fun h => .setFld h) (.foldl (fun h => .setFld h)
    (.setFld (.bump (.setFld (.recordAll h)))))

theorem State.memOk.startChipReset (h : s.memOk) : (s.startChipReset cause).memOk := .startChipResetOf h

theorem State.memOk.requestPowerCycle (h : s.memOk) : (s.requestPowerCycle cause).memOk := by
  unfold State.requestPowerCycle
  dsimp only
  refine .emit ?_
  unfold State.memOk
  dsimp only
  exact State.memOk.setFld (.recordAll h)

theorem State.memOk.startRevival (h : s.memOk) : (s.startRevival c cause).memOk := by
  unfold State.startRevival
  dsimp only
  split
  · exact h
  · exact .ite h (.ite h (.ite (.startPartitionReset h) h))

theorem State.memOk.resetRevival (h : s.memOk) : (s.resetRevival c).memOk :=
  .ite h (.ite (.updCtx h) (.startRevival h))

theorem State.memOk.rebuildTables (h : s.memOk) : (s.rebuildTables c).memOk := by
  unfold State.rebuildTables
  dsimp only
  refine .foldl (fun h => .foldl (fun h => ?_) (.store h)) h
  split
  · exact .store h
  · exact h

theorem State.memOk.refetchLine (h : s.memOk) : (s.refetchLine a).memOk := .writeBytes h

theorem State.memOk.resumeWaiting (h : s.memOk) : (s.resumeWaiting c).memOk := by
  unfold State.resumeWaiting
  split
  · exact h
  · split
    · exact .startRevival h
    · exact h

theorem State.memOk.waitUnit (h : s.memOk) : (s.waitUnit c cause).memOk := .ite (.updCtx h) h

theorem State.memOk.deferRevival {peer : Nat} (h : s.memOk) : (s.deferRevival c peer cause).memOk :=
  .ite (.updCtx h) h

theorem State.memOk.endDeferral (h : s.memOk) : (s.endDeferral c).memOk := by
  unfold State.endDeferral
  split
  · exact h
  · exact .ite h (.startRevival h)

theorem State.memOk.endDescriptor {a : Active} {bytes : Nat} {noRecord : Bool} (h : s.memOk) :
    (s.endDescriptor k a status bytes noRecord).memOk := by
  unfold State.endDescriptor
  dsimp only
  split
  · exact .ite (.waitUnit (.abnormalEnd h)) (.startRevival (.abnormalEnd h))
  · exact .abnormalEnd h

theorem State.memOk.haltColl (h : s.memOk) : (s.haltColl c p status).memOk := by
  unfold State.haltColl
  dsimp only
  refine .startRevival (.record ?_)
  split
  · exact .writeBytes h
  · exact h

theorem State.memOk.putCompletion {bs : List Byte} (h : s.memOk) : (s.putCompletion c bs).memOk :=
  .ite h (.writeBytes h)

theorem State.memOk.showCompletions {l : List (List Byte)} (h : s.memOk) : (s.showCompletions c l).memOk :=
  .ite h (.foldl (fun h => .putCompletion h) h)

theorem State.memOk.freeWays (h : s.memOk) : (s.freeWays c).memOk :=
  .foldl (fun h => .loseLine h) (.foldl (fun h => .ite (.ite (.clearRange h) h) h) h)

theorem State.memOk.dropCopies (h : s.memOk) : (s.dropCopies c).memOk := .ite h h

theorem State.memOk.startTeardown (h : s.memOk) : (s.startTeardown c status).memOk := by
  unfold State.startTeardown
  dsimp only
  split
  · exact h
  · exact .ite h (.updCtx (.showCompletions (.freeWays (.foldl (fun h => .endLaunch h)
      (.dropCopies (.foldl (fun h => .dropQueue h) (.foldl id (.ctxRecord h))))))))

theorem State.memOk.raiseAlarm {source : Nat} {c : Option Nat} (h : s.memOk) : (s.raiseAlarm source p c).memOk := by
  unfold State.raiseAlarm
  extract_lets lvl scope sev rec0 st s1 s2 s3 lost board s4 fence s5
  have named : s2.memOk := .ite h h
  have erased : s3.memOk := .ite (.foldl id named) named
  have keyed : s4.memOk := .ite erased (.ite erased erased)
  have fenced : s5.memOk := .ite (.foldl (fun h => .startTeardown h) (.foldl id keyed)) keyed
  exact .ite (.record fenced) (.recordAll fenced)

theorem State.memOk.windowViolation (h : s.memOk) : (s.windowViolation c).memOk := .ite (.raiseAlarm h) h

end Sys2Proof.Machine
end

section
/-! O4. Canonical memory is kept: tiles. -/

namespace Sys2Proof.Machine

variable {s : State} {a c n sev t : Nat}

theorem State.memOk.trapRecord {T : Tile} {tr : TrapRec} (h : s.memOk) : (Machine.trapRecord s t T tr sev).memOk :=
  .record h

theorem State.memOk.enterHandler {tr : TrapRec} {resume : BitVec 44} {deferred : Bool} (h : s.memOk) :
    (Machine.enterHandler s t tr resume deferred).memOk :=
  .ite (.ite (.startRevival (.startEngineReset (.trapRecord h))) (.startEngineReset (.trapRecord h)))
    (.ite (.windowViolation (.trapRecord h)) (.trapRecord h))

theorem State.memOk.preciseTrap {ops : List TileOp} {hs : List Hit} (h : s.memOk) :
    (Machine.preciseTrap s t ops hs).memOk := by
  unfold Machine.preciseTrap
  dsimp only
  split
  · exact h
  · exact .enterHandler h

theorem State.memOk.deferTrap {tr : TrapRec} (h : s.memOk) : (Machine.deferTrap s t tr).memOk := by
  unfold Machine.deferTrap
  dsimp only
  refine .ite (.enterHandler h) ?_
  split <;> exact h

theorem State.memOk.bumpIssued {op : TileOp} (h : s.memOk) : (Machine.bumpIssued s t op).memOk := .ite h h

theorem State.memOk.memReq {T : Tile} {k : ReqKind} {aa : BitVec 48} {data cmp : W64} {hint : BitVec 2}
    (h : s.memOk) :
    (Machine.memReq s t T k aa a data cmp hint).memOk :=
  .ite h h

theorem State.memOk.appendFits {T : Tile} {aa : BitVec 48} {len : Nat} (h : s.memOk) :
    (Machine.appendFits s t T aa len).2.memOk := by
  unfold Machine.appendFits
  split
  · exact h
  · exact .draw h

theorem State.memOk.countGap (h : s.memOk) : (Machine.countGap s t).memOk := .ite h (.draw h)

theorem State.memOk.issueArray {dead : Bool} {op : TileOp} (h : s.memOk) : (Machine.issueArray dead s t op).memOk := by
  unfold Machine.issueArray
  dsimp only
  split
  · exact h
  · split
    · exact .stepGap (.countGap h)
    · exact h
    · exact h

theorem State.memOk.issueBad {op : TileOp} (h : s.memOk) : (Machine.issueBad s t op).memOk := by
  unfold Machine.issueBad
  dsimp only
  refine .deferTrap (.setTile ?_)
  split
  · exact .bump (.issueArray h)
  · exact .issueArray h
  · exact .issueArray h
  · exact .issueArray h
  · exact .issueArray h
  · exact h

theorem State.memOk.issueUncounted {op : TileOp} (h : s.memOk) : (Machine.issueUncounted s t op).memOk :=
  .deferTrap (.lsError h)

theorem State.memOk.issueOp {op : TileOp} (h : s.memOk) : (Machine.issueOp s t op).memOk := by
  unfold Machine.issueOp
  dsimp only
  refine .ite (.issueBad (.bumpIssued h)) (.ite (.issueUncounted (.bumpIssued h)) ?_)
  split
  · exact .addFlight (.memReq (.bumpIssued h))
  · exact .addFlight (.memReq (.bumpIssued h))
  · exact .addFlight (.memReq (.bumpIssued h))
  · exact .addFlight (.memReq (.bumpIssued h))
  · exact .addFlight (.bumpIssued h)
  · exact .addFlight (.draw (.bumpIssued h))
  · exact .addFlight (.memReq (.bumpIssued h))
  · split
    · split
      · exact .addFlight (.bumpIssued h)
      · exact .deferTrap (.bump (.bumpIssued h))
    · exact .addFlight (.bump (.bumpIssued h))
  · exact .ite (.addFlight (.memReq (.appendFits (.bumpIssued h)))) (.deferTrap (.bump (.appendFits (.bumpIssued h))))
  · exact .addFlight (.addHead (.bumpIssued h))
  · exact .addFlight (.bumpIssued h)
  · exact .addFlight (.startCancel (.bumpIssued h))
  · exact .ite (.addFlight (.bumpIssued h)) (.addFlight (.objReq (.bumpIssued h)))
  · exact .addFlight (.ite (.acquireLines (.bumpIssued h)) (.bumpIssued h))
  · exact .addFlight (.objReq (.bumpIssued h))
  · exact .addFlight (.objReq (.bumpIssued h))
  · exact .addFlight (.bumpIssued h)
  · exact .addFlight (.bumpIssued h)
  · exact .addFlight (.bumpIssued h)
  · exact .addFlight (.bumpIssued h)
  · exact .addFlight (.bumpIssued h)
  · exact .issueArray (.bumpIssued h)
  · exact .issueArray (.bumpIssued h)
  · split
    · exact .addFlight (.bumpIssued h)
    · split
      · exact .addFlight (.bumpIssued h)
      · split
        · exact .addFlight (.bumpIssued h)
        · split
          · exact .addFlight (.bumpIssued h)
          · exact .bumpIssued h

theorem State.memOk.endIdle {most : Nat} (h : s.memOk) : (Machine.endIdle s t most).memOk := .ite h (.draw h)

theorem State.memOk.enterArray {ops : List TileOp} (h : s.memOk) : (Machine.enterArray s t ops).memOk :=
  .ite (.ite (.endIdle h) h) h

theorem State.memOk.switchSmoothing {old : State} (h : s.memOk) : (Machine.switchSmoothing old s t).memOk :=
  .ite h (.ite (.ite h h) (.endIdle h))

theorem State.memOk.switchAllSmoothing {old : State} (h : s.memOk) : (Machine.switchAllSmoothing old s).memOk :=
  .foldl (fun h => .switchSmoothing h) h

theorem State.memOk.issueAll {ops : List TileOp} {next : BitVec 44} {taken : Bool} (h : s.memOk) :
    (Machine.issueAll s t ops next taken).memOk :=
  .ite (.foldl (fun h => .ite (.issueOp h) h) (.enterArray h)) (.foldl (fun h => .ite (.issueOp h) h) (.enterArray h))

theorem State.memOk.tryBundle {ops : List TileOp} {next : BitVec 44} {taken : Bool} (h : s.memOk) :
    (Machine.tryBundle s t ops next taken).memOk := by
  unfold Machine.tryBundle
  split
  · exact .preciseTrap h
  · exact h
  · exact h
  · exact .issueAll h

theorem State.memOk.replay (h : s.memOk) : (Machine.replay s t).memOk := by
  unfold Machine.replay
  dsimp only
  split
  · exact h
  · split
    · exact .preciseTrap h
    · exact h
    · exact h
    · exact .issueAll h

theorem State.memOk.tryIssue (h : s.memOk) : (Machine.tryIssue s t).memOk := .ite (.ite h (.replay h)) (.tryBundle h)

theorem State.memOk.slotStep {more : Bool} {op : TileOp} (h : s.memOk) : (Machine.slotStep t more op s).memOk :=
  .ite h (.ite h (.tryIssue h))

theorem EndsOk.treeSlot {t : TileId} {r : TreeRead} {op : TileOp} (h : s.memOk) : EndsOk (Machine.treeSlot t r op s) :=
  .next (.ite h (.slotStep h))

theorem EndsOk.tileSlot {t : TileId} {more : Bool} {op : TileOp} (h : s.memOk) :
    EndsOk (Machine.tileSlot t more op s) :=
  .next (.slotStep h)

theorem State.memOk.countWalk {x : TileOp} (h : s.memOk) : (Machine.countWalk s t x).memOk := by
  unfold Machine.countWalk
  split <;> exact h

theorem State.memOk.putLocal {l : List (Nat × List Byte)} (h : s.memOk) : (Machine.putLocal s l).memOk :=
  .foldl (fun h => .writeRaw h) h

theorem State.memOk.retire {f : Flight} (h : s.memOk) : (Machine.retire s t f).memOk :=
  .ite h (.countWalk (.putLocal h))

theorem SomeOk.takeBack {f : Flight} (h : s.memOk) : SomeOk (Machine.takeBack s t f) := by
  unfold Machine.takeBack
  dsimp only
  refine .ite .none ?_
  split
  · exact .ite (.some h) .none
  · exact .none
  · exact .none
  · exact .none
  · exact .some h

theorem State.memOk.sramRecord {structure_ row col : Nat} (h : s.memOk) :
    (Machine.sramRecord s t structure_ row col).memOk := by
  unfold Machine.sramRecord
  dsimp only
  exact .record (.sramSyndrome h)

theorem State.memOk.countCorrectedSram {acc : Bool} (h : s.memOk) : (Machine.countCorrected s t acc n).memOk :=
  .ite h h

theorem State.memOk.countFault {op : TileOp} {x : OpFault} (h : s.memOk) : (Machine.countFault s t op x).memOk := by
  unfold Machine.countFault
  dsimp only
  split
  · exact h
  · exact .countCorrectedSram h
  · exact .lsError (.countCorrectedSram h)
  · exact .sramRecord (.countCorrectedSram h)
  · exact .sramRecord h
  · exact .ite h h

theorem State.memOk.faultOp {f : Flight} {x : OpFault} (h : s.memOk) : (Machine.faultOp s t f x).memOk := by
  unfold Machine.faultOp
  refine .ite (.setTile h) ?_
  cases x with
  | lsUe a b => exact .deferTrap (.abandonEarly (.countFault h))
  | regUe => exact .deferTrap (.ite (.abandonEarly (.countFault h)) (.abandon (.countFault h)))
  | accUe row a b => exact .deferTrap (.abandonEarly (.putLocal (.countFault h)))
  | _ => exact .deferTrap (.abandon (.countFault h))

theorem EndsOk.execOpRetire {t : TileId} {id : BitVec 32} {x : OpFault} (h : s.memOk) :
    EndsOk (Machine.execOpRetire t id x s) := by
  unfold Machine.execOpRetire
  refine .next ?_
  split
  · exact h
  · refine .ite (.ite h h) (.ite h ?_)
    split
    · exact .ite (.retire h) h
    · exact .ite (.countFault (.retire h)) h
    · split
      · exact h
      · next eq _ => exact .faultOp (SomeOk.takeBack h _ eq)
      · exact h
    · split
      · next eq => exact .faultOp (.ite (.bump (SomeOk.takeBack h _ eq)) (SomeOk.takeBack h _ eq))
      · exact h
    · exact .ite (.faultOp h) h

theorem State.memOk.passEnd {f : Flight} {v : Verdict} (h : s.memOk) : (Machine.passEnd s t f v).memOk := by
  unfold Machine.passEnd
  dsimp only
  split
  · exact .ite h (.retire h)
  · exact .ite h (.faultOp h)
  · exact .countFault h
  · exact .ite (.countFault h) (.faultOp h)
  · exact .ite h (.faultOp h)

theorem EndsOk.execPassVerdict {t : TileId} {id : BitVec 32} {v : Verdict} (h : s.memOk) :
    EndsOk (Machine.execPassVerdict t id v s) := by
  unfold Machine.execPassVerdict
  refine .next ?_
  split
  · exact .ite (.passEnd h) h
  · exact h

theorem State.memOk.reportTrap (h : s.memOk) : (Machine.reportTrap s t).memOk :=
  .ite (.startTeardown h) (.ite (.deferRevival h) (.ite (.waitUnit h)
    (.ite (.startTeardown h) (.startRevival (.ite (.refetchLine h) (.ite (.rebuildTables h) h))))))

theorem EndsOk.execStepWaitRetire {t : TileId} (h : s.memOk) : EndsOk (Machine.execStepWaitRetire t s) := by
  unfold Machine.execStepWaitRetire
  dsimp only
  refine .next ?_
  split
  · exact .ite (.settleHold (.ite (.reportTrap h) h)) h
  · exact h

theorem EndsOk.execDeferredTrapTaken {x : TrapTaken} (h : s.memOk) : EndsOk (Machine.execDeferredTrapTaken x s) := by
  unfold Machine.execDeferredTrapTaken
  dsimp only
  refine .next ?_
  split
  · exact .ite (.ite (.enterHandler h) (.enterHandler h)) h
  · exact h

theorem State.memOk.stallTrap {code : BitVec 2} (h : s.memOk) : (Machine.stallTrap s t code).memOk := by
  unfold Machine.stallTrap
  dsimp only
  refine .ite ?_ h
  split
  · exact .enterHandler h
  · exact h

theorem EndsOk.execIbufLineArrive {t : TileId} {line : BitVec 38} {x : FetchFault} (h : s.memOk) :
    EndsOk (Machine.execIbufLineArrive t line x s) := by
  unfold Machine.execIbufLineArrive
  dsimp only
  refine .next ?_
  split
  · exact h
  · exact h
  · exact .ite (.enterHandler h) h

theorem EndsOk.execTileHang {t : TileId} (h : s.memOk) : EndsOk (Machine.execTileHang t s) :=
  .next (.ite (.startEngineReset (.ite (.startRevival (.record h)) (.record h))) h)

theorem State.memOk.requestSave {k : PreemptKind} (h : s.memOk) : (Machine.requestSave s t k).memOk :=
  .ite h (.ite (.foldl (fun h => .ite h h) h) h)

theorem State.memOk.settleSave (h : s.memOk) : (Machine.settleSave s c).memOk := by
  unfold Machine.settleSave
  split
  · exact .ite (.updCtx h) h
  · exact h

theorem State.memOk.saveFaults {x : SaveEnd} {base : Nat} (h : s.memOk) : (Machine.saveFaults s x base).memOk :=
  .foldl id (.foldl (fun h => .lsError h) h)

theorem EndsOk.execSaveComplete {x : SaveEnd} (h : s.memOk) : EndsOk (Machine.execSaveComplete x s) := by
  unfold Machine.execSaveComplete
  refine .next (.ite ?_ h)
  extract_lets base s1 s2 faulted s3 tile T1 s4 s5
  have saved : s3.memOk :=
    .foldl id (.saveFaults (.foldl (fun h => .ite h (.writeBytes h)) (.writeBytes h)))
  have settled : s5.memOk := .settleSave (.clearRange (.updCtx saved))
  exact .ite (.clearTile settled) settled

theorem State.memOk.settleRestore (h : s.memOk) : (Machine.settleRestore s c).memOk := by
  unfold Machine.settleRestore
  split
  · exact .ite h h
  · exact h

theorem EndsOk.execRestoreComplete {t : TileId} (h : s.memOk) : EndsOk (Machine.execRestoreComplete t s) :=
  .next (.ite (.settleRestore (.setReg (.bump (.foldl id (.foldl (fun h => .ite h (.writeRaw h)) h))))) h)

theorem State.memOk.spareIn {row : Nat} (h : s.memOk) : (Machine.spareIn s t row).memOk := .record h

theorem State.memOk.testFails {row col : Nat} (h : s.memOk) : (Machine.testFails s t n row col).memOk := .record h

theorem EndsOk.execBistComplete {t : TileId} {x : TestResult} (h : s.memOk) :
    EndsOk (Machine.execBistComplete t x s) := by
  unfold Machine.execBistComplete
  dsimp only
  refine .next (.ite ?_ h)
  split
  · exact h
  · exact h
  · exact .ite (.spareIn h) (.testFails h)
  · exact .testFails h

end Sys2Proof.Machine
end

section
/-! O4. Canonical memory is kept: register accesses and requests. -/

namespace Sys2Proof.Machine

variable {s : State} {a b c d i off p t : Nat}

theorem State.memOk.rejectReg {path : RegPath} {write : Bool} {p : Option Nat} (h : s.memOk) :
    (Machine.rejectReg s path off write p).memOk :=
  .record h

theorem State.memOk.readReg {path : RegPath} {size : Nat} (h : s.memOk) :
    (Machine.readReg s path off size).2.memOk := by
  unfold Machine.readReg
  dsimp only
  split
  · exact h
  · split
    · exact h
    · split
      · exact .rejectReg h
      · exact .draw (.ite h h)

theorem State.memOk.applyFields {base : Nat} {d : RegDef} {x m : W64} (h : s.memOk) :
    (Machine.applyFields s base d x m).memOk :=
  .ite h (.writeShadow h)

theorem State.memOk.afterWrite {idx : List Nat} {x m : W64} (h : s.memOk) : (Machine.afterWrite s b idx x m).memOk :=
  .ite h (.ite h (.ite h (.ite (.ite h h) (.ite (.flushRing h) (.ite h h)))))

theorem State.memOk.writeReg {path : RegPath} {size : Nat} {v : W64} (h : s.memOk) :
    (Machine.writeReg s path off size v).memOk := by
  unfold Machine.writeReg
  dsimp only
  refine .ite h ?_
  split
  · exact h
  · exact .ite (.rejectReg h) (.afterWrite (.applyFields h))

theorem State.memOk.cacheWordBad (h : s.memOk) : (Machine.cacheWordBad s p c a).memOk := by
  unfold Machine.cacheWordBad
  dsimp only
  split
  · exact .sramLine h
  · split
    · exact .ite (.sramLine h) (.writeBackBad h)
    · exact h

theorem State.memOk.cacheTagBad {set way : Nat} (h : s.memOk) : (Machine.cacheTagBad s p set way).memOk := by
  unfold Machine.cacheTagBad
  dsimp only
  split
  · exact .sramLine h
  · exact .loseLine (.sramLine h)

theorem State.memOk.dramRead {cw : List Nat} (h : s.memOk) : (Machine.dramRead s c a cw).memOk :=
  .ite h (.readWord (fun h => .bumpEcc h) h)

theorem State.memOk.lineFault {x : LineFault} (h : s.memOk) : (Machine.lineFault s p c a x).memOk := by
  unfold Machine.lineFault
  dsimp only
  split
  · exact h
  · exact .dramRead h
  · exact .dramRead h
  · split <;> exact h
  · split <;> exact h
  · exact .ite h h
  · exact .cacheWordBad h
  · exact .victimBad h
  · exact .ite (.cacheTagBad h) h
  · exact .ite h (.sramLine h)
  · exact h
  · exact h

theorem State.memOk.homeFault {x : LineFault} (h : s.memOk) : (Machine.homeFault s a x).memOk := .lineFault h

theorem State.memOk.sendMem {r : MemReq} (h : s.memOk) : (Machine.sendMem s i r d).memOk := by
  unfold Machine.sendMem
  dsimp only
  split
  · exact .sendRequest h
  · exact .sendRequest h
  · exact .sendRequest h
  · exact .sendRequest h
  · exact .sendRequest h
  · exact h

theorem State.memOk.hostMem {r : MemReq} {region : Nat} (h : s.memOk) : (Machine.hostMem s i r region).memOk := by
  unfold Machine.hostMem
  dsimp only
  split
  · exact .accessCheck h
  · split <;> exact h

theorem State.memOk.applyUpdate (h : s.memOk) : (Machine.applyUpdate s i).memOk := by
  unfold Machine.applyUpdate
  dsimp only
  split
  · exact .ite (.ite (.performReq h) (.performReq h)) h
  · exact h

theorem State.memOk.answerReg {f : Flight} {val : W64} {bad : Bool} (h : s.memOk) :
    (Machine.answerReg s t f val bad).memOk := by
  unfold Machine.answerReg
  dsimp only
  split <;> exact h

theorem State.memOk.rebuild (h : s.memOk) : (Machine.rebuild s c a).memOk := .ite (.memRecord h) h

theorem EndsOk.execMemDataArrive {r : BitVec 32} {ext : W64} (h : s.memOk) :
    EndsOk (Machine.execMemDataArrive r ext s) := by
  unfold Machine.execMemDataArrive
  dsimp only
  refine .next ?_
  split
  · exact h
  · split
    · exact h
    · exact .ite h (.ite (.rebuild (.retire (.ite h (.answerReg h)))) (.retire (.ite h (.answerReg h))))

theorem EndsOk.execMemAckReturn {r : BitVec 32} (h : s.memOk) : EndsOk (Machine.execMemAckReturn r s) := by
  unfold Machine.execMemAckReturn
  refine .next ?_
  split
  · exact .ite h h
  · exact h

theorem EndsOk.execKvWalkEntryReturn {t : TileId} {id : BitVec 32} {x : LineFault} {ext : List Byte} (h : s.memOk) :
    EndsOk (Machine.execKvWalkEntryReturn t id x ext s) := by
  unfold Machine.execKvWalkEntryReturn
  dsimp only
  refine .next ?_
  split
  · exact h
  · split
    · split <;> exact h
    · split
      · refine .ite (.holdAt h) (.ite (.holdAt h) (.ite (.retire
          (.ite (.accessRecord (.ite (.lineFault h) h)) (.readRecords (.readRecords (.ite (.lineFault h) h))))) ?_))
        split
        · refine .retire ?_
          split
          · exact .cachedRead (.cachedRead (.lineFault h))
          · exact h
        · refine .deferTrap ?_
          split
          · exact .cachedRead (.cachedRead (.lineFault h))
          · exact h
      · exact h

theorem EndsOk.execReleaseWritebackDone {t : TileId} {d : Drained} (h : s.memOk) :
    EndsOk (Machine.execReleaseWritebackDone t d s) := by
  unfold Machine.execReleaseWritebackDone
  dsimp only
  refine .next ?_
  split
  · exact h
  · refine .ite h ?_
    split
    · exact .ite h (.retire (.ite (.releaseLines h) h))
    · exact .retire (.releaseLines h)
    · exact h

end Sys2Proof.Machine
end

section
/-! O4. Canonical memory is kept: collectives and queue events. -/

namespace Sys2Proof.Machine

variable {s : State} {b c e i k n p status : Nat}

theorem State.memOk.sendCts {x : CollOp} (h : s.memOk) : (s.sendCts c p x).memOk := .ite (.sendOnce h) h

theorem State.memOk.lookAhead {pos : Nat} (h : s.memOk) : (State.lookAhead n pos s c p).memOk := by
  induction n generalizing pos s with
  | zero => exact h
  | succ n ih =>
    unfold State.lookAhead
    split
    · exact h
    · exact .ite h (.ite (.ite (ih (.sendCts (.setColl h))) h) (ih h))

theorem State.memOk.collLook (h : s.memOk) : (s.collLook c p).memOk := .lookAhead h

theorem State.memOk.collRead {w : List W64} {x : CollOp} {f : LineFault} {ext : List Byte} {held : HeldAccess}
    (h : s.memOk) :
    (s.collRead c p w x f ext held).memOk := by
  unfold State.collRead
  dsimp only
  split
  · exact .windowViolation (.haltColl h)
  · exact .ite (.haltColl (.accessRecord h)) (.ite (.holdAt h)
      (.ite (.raiseAlarm (.haltColl h)) (.ite (.haltColl (.readRecords (.homeFault h))) (.homeRange (.homeFault h)))))
  · exact h
  · exact .foldl (fun h => .sendRequest h) h

theorem State.memOk.collWrite {l : Loc} {bs : List Byte} (h : s.memOk) : (s.collWrite c p l bs).memOk := by
  unfold State.collWrite
  split
  · exact .writeBytes (.homeRange h)
  · exact h
  · exact .foldl (fun h => .sendRequest h) h

theorem State.memOk.streamOut {g : Handle} {tag : Nat} {bs : List Byte} (h : s.memOk) :
    (s.streamOut c p g tag bs).memOk :=
  .foldl (fun h => .sendRequest h) h

theorem State.memOk.withColl {code : Nat} {f : State → List W64 → CollOp → State}
    (step : ∀ {u w x}, u.memOk → (f u w x).memOk) (h : s.memOk) :
    (Machine.withColl code c p s f).memOk := by
  unfold Machine.withColl
  dsimp only
  split
  · exact .collLook h
  · exact .ite (.haltColl (.collLook h)) (.ite (.collLook h) (step (.collLook h)))

theorem EndsOk.execCollPush {c : CtxId} {p : PartId} {x : LineFault} {ext : List Byte} (h : s.memOk) :
    EndsOk (Machine.execCollPush c p x ext s) :=
  .next (.withColl (fun h => .ite (.haltColl h) (.collRead h)) h)

theorem State.memOk.takeMessage {w : List W64} {o : CollOp} (h : s.memOk) : (Machine.takeMessage c p s w o).memOk := by
  unfold Machine.takeMessage
  refine .ite (.haltColl h) ?_
  split <;> exact h

theorem EndsOk.execCollRecvw {c : CtxId} {p : PartId} (h : s.memOk) : EndsOk (Machine.execCollRecvw c p s) :=
  .next (.withColl (fun h => .ite (.windowViolation (.haltColl h)) (.takeMessage h)) h)

theorem EndsOk.execCollSend {c : CtxId} {p : PartId} {x : LineFault} {ext : List Byte} (h : s.memOk) :
    EndsOk (Machine.execCollSend c p x ext s) := by
  unfold Machine.execCollSend
  dsimp only
  refine .next ?_
  split
  · exact .withColl (fun h => .collRead h) h
  · exact .ite (.withColl (fun h => .collRead h) h) (.ite (.streamOut (.withColl (fun h => .collRead h) h))
      (.withColl (fun h => .collRead h) h))

theorem EndsOk.execCollFin {c : CtxId} {p : PartId} (h : s.memOk) : EndsOk (Machine.execCollFin c p s) := by
  unfold Machine.execCollFin
  refine .next (.withColl (fun h => ?_) h)
  split
  · exact .haltColl h
  · exact .ite (.haltColl h) (.ite (.windowViolation (.haltColl h)) h)

theorem EndsOk.execCollSignal {c : CtxId} {p : PartId} (h : s.memOk) : EndsOk (Machine.execCollSignal c p s) :=
  .next (.withColl (fun h => .ite (.haltColl h) (.engineSignal (.releaseLines h))) h)

theorem EndsOk.execCollectiveCommandComplete {c : CtxId} {p : PartId} (h : s.memOk) :
    EndsOk (Machine.execCollectiveCommandComplete c p s) := by
  unfold Machine.execCollectiveCommandComplete
  dsimp only
  refine .next ?_
  split
  · exact h
  · split
    · exact h
    · split
      · split
        · exact .haltColl h
        · exact h
      · refine .ite (.ite h ?_) (.ite h h)
        split
        · exact .windowViolation (.haltColl h)
        · exact .ite (.haltColl (.accessRecord h)) (.ite (.holdAt h) (.collWrite h))
        · exact .collWrite h
        · exact .collWrite h

theorem State.memOk.landPacket {k : Packet} (h : s.memOk) : (Machine.landPacket s c k).1.memOk := by
  unfold Machine.landPacket
  dsimp only
  split
  · exact h
  · split
    · exact h
    · split
      · exact h
      · split
        · exact h
        · exact .haltColl h

theorem State.memOk.ackMessage (h : s.memOk) : (Machine.ackMessage s c p status).memOk := by
  unfold Machine.ackMessage
  dsimp only
  split
  · exact .foldl (fun h => .dropReq h) h
  · exact .ite (.foldl (fun h => .dropReq h) h) (.ite (.foldl (fun h => .dropReq h) h)
      (.ite (.streamOut (.foldl (fun h => .dropReq h) h)) (.haltColl (.foldl (fun h => .dropReq h) h))))

theorem State.memOk.queueViolation {c : Option Nat} {pass : Bool} (h : s.memOk) :
    (Machine.queueViolation s c pass).memOk := by
  unfold Machine.queueViolation
  split
  · exact .windowViolation h
  · exact h

theorem State.memOk.takeBurst {bad : Nat → Bool} {head : ChainHead} {bs : List Byte} (h : s.memOk) :
    (Machine.takeBurst bad n s k head a bs).memOk := by
  induction n generalizing s a bs with
  | zero => exact h
  | succ n ih =>
    unfold Machine.takeBurst
    dsimp only
    exact .ite (.queueViolation (.endDescriptor (.setQueue h)))
      (.ite (.endDescriptor (.setQueue (.readRecords h)))
        (.ite (.queueViolation (.endDescriptor (.setQueue h))) (ih (.setQueue h))))

theorem State.memOk.fetchBytes {g : ChainHead} {x : LineFault} {ext : List Byte} (h : s.memOk) :
    (Machine.fetchBytes s k g x ext).1.memOk := by
  unfold Machine.fetchBytes
  dsimp only
  split
  · exact .homeFault h
  · exact h

theorem SomeOk.fetchWaits {g : ChainHead} {x : HeldAccess} (h : s.memOk) : SomeOk (Machine.fetchWaits s k g x) := by
  unfold Machine.fetchWaits
  split
  · exact .ite (.some (.holdAt h)) .none
  · exact .none

theorem EndsOk.execDescriptorFetchReturn {q : QId} {x : LineFault} {ext : List Byte} (h : s.memOk) :
    EndsOk (Machine.execDescriptorFetchReturn q x ext s) := by
  unfold Machine.execDescriptorFetchReturn
  dsimp only
  refine .next ?_
  split
  · refine .ite h ?_
    split
    · next eq => exact SomeOk.fetchWaits h _ eq
    · exact .ite (.queueViolation (.endDescriptor h)) (.ite (.takeBurst (.fetchBytes h))
        (.ite h (.takeBurst (.fetchBytes h))))
  · exact h

theorem State.memOk.takeBlock (h : s.memOk) : (Machine.takeBlock s k b).memOk := .ite h h

theorem State.memOk.takeTag {a : Active} {pos : Nat} (h : s.memOk) : (Machine.takeTag s k a pos).1.memOk := by
  unfold Machine.takeTag
  dsimp only
  split
  · split
    · exact .takeBlock h
    · exact h
  · split
    · split
      · split
        · split <;> exact .takeBlock h
        · split <;> exact .takeBlock h
      · split <;> exact h
    · split
      · exact .takeBlock h
      · exact h

theorem State.memOk.takeTags {a : Active} {pos : Nat} (h : s.memOk) : (Machine.takeTags s k a pos).1.memOk :=
  .foldlFst (fun h => .takeTag h) h

theorem EndsOk.execDescriptorStart {q : QId} (h : s.memOk) : EndsOk (Machine.execDescriptorStart q s) := by
  unfold Machine.execDescriptorStart
  dsimp only
  refine .next ?_
  split
  · exact .ite h (.ite (.queueViolation (.endDescriptor h)) (.ite h (.setQueue (.takeTags h))))
  · exact h

theorem State.memOk.dmaWrite {a : Active} {w : Nat × List Byte} (h : s.memOk) : (Machine.dmaWrite s k a w).1.memOk := by
  unfold Machine.dmaWrite
  split
  · split
    · exact .writeRaw (.takeBlock h)
    · exact .writeBytes (.homeAccess h)
  · exact .sendRequest h
  · exact h
  · exact h

theorem State.memOk.dmaWrites {a : Active} {ws : List (Nat × List Byte)} (h : s.memOk) :
    (Machine.dmaWrites s k a ws).1.memOk :=
  .foldlFst (fun h => .dmaWrite h) h

theorem State.memOk.endReads {a : Active} (h : s.memOk) : (Machine.endReads s a).1.memOk := .foldl id h

theorem State.memOk.readyBlocks {bs : List Nat} (h : s.memOk) : (Machine.readyBlocks s k bs).memOk :=
  .foldl (fun h => .ite h h) h

theorem State.memOk.landBytes {bs : List Byte} (h : s.memOk) : (Machine.landBytes s k i bs).memOk := by
  unfold Machine.landBytes
  dsimp only
  split
  · exact h
  · exact .ite (.readyBlocks (.endReads (.dmaWrites h))) (.endReads (.dmaWrites h))

theorem State.memOk.poisonDest {a : Active} (h : s.memOk) : (Machine.poisonDest s k a n).memOk := by
  unfold Machine.poisonDest
  dsimp only
  refine .foldl (fun h => ?_) h
  split
  · exact .ite h h
  · exact h

theorem State.memOk.failActive {noRecord : Bool} (h : s.memOk) : (Machine.failActive s k i status noRecord).memOk := by
  unfold Machine.failActive
  dsimp only
  split
  · exact h
  · exact .endDescriptor (.foldl id h)

theorem State.memOk.haltQuiet (h : s.memOk) : (Machine.haltQuiet s k i).memOk := by
  unfold Machine.haltQuiet
  dsimp only
  split
  · exact h
  · exact .foldl id h

theorem State.memOk.moveChunk {a : Active} {ext : List Byte} {x : LineFault} (h : s.memOk) :
    (Machine.moveChunk s k i a ext x).memOk := by
  unfold Machine.moveChunk
  dsimp only
  refine .ite (.landBytes h) ?_
  split
  · exact .queueViolation (.failActive h)
  · refine .ite (.haltQuiet h) (.ite (.failActive h) (.ite (.raiseAlarm (.failActive h))
      (.ite (.failActive (.poisonDest ?_)) (.landBytes (.homeAccess (.homeFault h))))))
    split
    · exact .rebuild (.ite (.lsError (.homeFault h)) (.readRecords (.homeFault h)))
    · exact .ite (.lsError (.homeFault h)) (.readRecords (.homeFault h))
  · exact .landBytes h
  · exact .sendRequest h

theorem SomeOk.takeTurn {port : Nat} (h : s.memOk) : SomeOk (Machine.takeTurn s k port) :=
  .ite (.some h) (.ite .none (.of_map h))

theorem State.memOk.heldByCap (h : s.memOk) : (Machine.heldByCap s k).memOk := by
  unfold Machine.heldByCap
  dsimp only
  exact .ite h (.draw h)

theorem State.memOk.takeTurns {u : State} {a : Active} {both : Bool} (h : s.memOk)
    (turn : Machine.takeTurns s k i a = some (u, both)) :
    u.memOk := by
  unfold Machine.takeTurns at turn
  split at turn
  · cases turn
  · next turned eq =>
    have once := SomeOk.takeTurn h _ eq
    split at turn
    · cases turn
      exact once
    · dsimp only at turn
      split at turn
      · cases turn
        exact .setActive once
      · next second eq' =>
        cases turn
        exact SomeOk.takeTurn (.setActive once) _ eq'

theorem EndsOk.execDmaLineReturn {q : QId} {i : BitVec 5} {x : LineFault} {ext : List Byte} (h : s.memOk) :
    EndsOk (Machine.execDmaLineReturn q i x ext s) := by
  unfold Machine.execDmaLineReturn
  refine .next ?_
  dsimp only
  split
  · exact h
  · refine .ite h ?_
    split
    · exact .holdAt h
    · split
      · exact .heldByCap h
      · split
        · exact h
        · next eq => exact h.takeTurns eq
        · next u _ _ taken eq =>
          have kept : taken.memOk := h.takeTurns eq
          have turned : { taken with capUsed := u }.memOk := kept
          exact .ite (.haltQuiet (.setActive (.takeTags turned)))
            (.ite (.queueViolation (.failActive (.setActive (.takeTags turned))))
              (.moveChunk (.setActive (.takeTags turned))))

theorem State.memOk.settleQueue (h : s.memOk) : (Machine.settleQueue s k).memOk := .ite h h

theorem State.memOk.countLate {late : Bool} (h : s.memOk) : (Machine.countLate s k late).memOk := .ite h h

theorem State.memOk.payRecord {x : HeldAccess} (h : s.memOk) : (Machine.payRecord s k i n x).memOk := by
  unfold Machine.payRecord
  dsimp only
  split
  · exact h
  · exact .ite h (.ite h (.ite (.ringHold h) (.writeRecord h)))

theorem State.memOk.missRecord (h : s.memOk) : (Machine.missRecord s k i n).memOk := by
  unfold Machine.missRecord
  dsimp only
  split
  · exact h
  · exact .dmaEndRecord h

theorem EndsOk.execDescriptorComplete {d : DescEnd} (h : s.memOk) : EndsOk (Machine.execDescriptorComplete d s) := by
  unfold Machine.execDescriptorComplete
  dsimp only
  refine .next ?_
  split
  · exact h
  · exact .payRecord h
  · exact .ite h (.ite (.queueViolation (.failActive h)) (.ite h
      (.ite (.ringHold h) (.settleQueue (.countLate (.ite (.engineSignal
      (.ite (.writeRecord (.ite (.readyBlocks h) h)) (.ite (.readyBlocks h) h)))
      (.ite (.writeRecord (.ite (.readyBlocks h) h)) (.ite (.readyBlocks h) h))))))))

theorem EndsOk.execDmaTagWaitTimeout {q : QId} (h : s.memOk) : EndsOk (Machine.execDmaTagWaitTimeout q s) := by
  unfold Machine.execDmaTagWaitTimeout
  dsimp only
  refine .next (.ite h ?_)
  split
  · exact .failActive h
  · split
    · exact .ite (.endDescriptor h) h
    · exact h

theorem EndsOk.execRingFullTimeout {q : QId} (h : s.memOk) : EndsOk (Machine.execRingFullTimeout q s) := by
  unfold Machine.execRingFullTimeout
  dsimp only
  refine .next (.ite h ?_)
  split
  · exact .missRecord h
  · exact .ite (.failActive h) h
  · exact h

theorem State.memOk.resumeQueue (h : s.memOk) : (Machine.resumeQueue s k).memOk := .ite h h

theorem State.memOk.cancelQueue (h : s.memOk) : (Machine.cancelQueue s k).memOk := .ite h h

theorem EndsOk.execCancelComplete {q : QId} (h : s.memOk) : EndsOk (Machine.execCancelComplete q s) := by
  unfold Machine.execCancelComplete
  dsimp only
  refine .next (.ite h (.ite (.endCancel h) ?_))
  split
  · exact .retire (.endCancel h)
  · exact .endCancel h

theorem State.memOk.badEntry (h : s.memOk) : (Machine.badEntry s k e).memOk := .endDescriptor (.readRecords h)

theorem EndsOk.execBulkPostFetch {c : CtxId} {p : PartId} (h : s.memOk) : EndsOk (Machine.execBulkPostFetch c p s) := by
  unfold Machine.execBulkPostFetch
  dsimp only
  refine .next ?_
  split
  · exact h
  · exact .ite h (.ite (.badEntry (.updCtx h)) (.addHead (.updCtx h)))

end Sys2Proof.Machine
end

section
/-! O4. Canonical memory is kept: the fabric. -/

namespace Sys2Proof.Machine

variable {s : State} {k p status : Nat}

theorem State.memOk.respond {k : Packet} {operand : W64} {payload : List Byte} {keep : Bool} (h : s.memOk) :
    (Machine.respond s p k status operand payload keep).memOk :=
  .sendPacket h

theorem State.memOk.dropStale {k : Packet} (h : s.memOk) : (Machine.dropStale s k).memOk := .record h

theorem State.memOk.rejectRequest {k : Packet} {check : Nat} (h : s.memOk) : (Machine.rejectRequest s k check).memOk :=
  .ite (.windowViolation (.accessCheck h)) (.respond (.windowViolation (.accessCheck h)))

theorem State.memOk.performRd {k : Packet} {x : LineFault} (h : s.memOk) : (Machine.performRd s k x).memOk :=
  .ite (.respond (.accessRecord h)) (.ite (.respond (.readRecords (.homeFault h)))
    (.respond (.homeRange (.homeFault h))))

theorem State.memOk.performWr {k : Packet} (h : s.memOk) : (Machine.performWr s k).memOk :=
  .ite (.respond (.accessRecord h)) (.respond (.writeBytes (.homeRange h)))

theorem State.memOk.performAtom {k : Packet} {x : LineFault} (h : s.memOk) : (Machine.performAtom s k x).memOk :=
  .ite (.respond (.accessRecord h)) (.ite (.respond (.readRecords (.homeFault h)))
    (.respond (.store (.homeRange (.homeFault h)))))

theorem State.memOk.performSig {k : Packet} (h : s.memOk) : (Machine.performSig s k).memOk := .respond h

theorem SomeOk.performPacket {k : Packet} {x : LineFault} (h : s.memOk) : SomeOk (Machine.performPacket s k x) := by
  unfold Machine.performPacket
  dsimp only
  split
  · refine .ite (.some (.rejectRequest h)) (.ite (.some (.dropStale h))
      (.ite (.some (.rejectRequest h)) (.ite (.some h) ?_)))
    split
    · exact .some (.respond (.landPacket h))
    · exact .some (.landPacket h)
  · split
    · exact .some (.dropStale h)
    · exact .some (.rejectRequest h)
    · exact .ite (.some (.performSig h)) (.ite .none (.ite (.some (.performRd h))
        (.ite (.some (.performWr h)) (.some (.performAtom h)))))

theorem State.memOk.peerEndRecord {f : FabReq} {r : MemReq} (h : s.memOk) :
    (Machine.peerEndRecord s f r status).memOk :=
  .ite h (.record h)

theorem State.memOk.endRequest {f : FabReq} {operand : W64} {payload : List Byte} (h : s.memOk) :
    (Machine.endRequest s f status operand payload).memOk := by
  unfold Machine.endRequest
  dsimp only
  split
  · split
    · exact .dropReq h
    · exact .peerEndRecord (.dropReq h)
  · split
    · exact .dropReq h
    · refine .ite (.ite (.dropReq h) (.dmaEndRecord (.dropReq h))) (.ite (.landBytes (.dropReq h)) (.failActive ?_))
      split
      · exact .ite (.poisonDest (.dropReq h)) (.dropReq h)
      · exact .dropReq h
  · split
    · exact .dropReq h
    · split
      · exact .dropReq h
      · exact .ite (.dropReq h) (.ite (.dmaEndRecord (.dropReq h)) (.failActive (.dropReq h)))
  · exact .dropReq h
  · exact .dropReq h
  · refine .ite (.ackMessage (.dropReq h)) (.ite ?_ (.haltColl (.dropReq h)))
    split
    · exact .ite (.dropReq h) (.dropReq h)
    · exact .dropReq h
  · exact .ite (.dropReq h) (.endDeferral (.dropReq h))

theorem State.memOk.takeAnswer {k : Packet} (h : s.memOk) : (Machine.takeAnswer s k).memOk := by
  unfold Machine.takeAnswer
  dsimp only
  split
  · exact h
  · exact .endRequest h

theorem State.memOk.noteSilent {key : Nat} {k : Packet} (h : s.memOk) : (Machine.noteSilent s key k).memOk := by
  unfold Machine.noteSilent
  dsimp only
  split
  · exact .ite h h
  · exact h

theorem SomeOk.performNext {key : Nat} {k : Packet} {x : LineFault} (h : s.memOk) :
    SomeOk (Machine.performNext s key k x) :=
  .ite (.some (.takeAnswer h)) (.map (fun h => .ite h (.noteSilent h)) (.performPacket h))

theorem State.memOk.holdPacket {k : Packet} {x : LineFault} (h : s.memOk) : (Machine.holdPacket s k x).memOk :=
  .holdAt h

theorem State.memOk.drainReorder {key : Nat} (h : s.memOk) : (Machine.drainReorder n s key).memOk := by
  induction n generalizing s with
  | zero => exact h
  | succ n ih =>
    unfold Machine.drainReorder
    dsimp only
    split
    · exact h
    · split
      · exact .ite (.holdPacket h) h
      · next eq =>
        refine ih (SomeOk.performNext ?_ _ eq)
        exact h

theorem State.memOk.inOrder {k : Packet} {x : LineFault} (h : s.memOk) : (Machine.inOrder s k x).memOk := by
  unfold Machine.inOrder
  dsimp only
  split
  · split
    · exact .holdPacket h
    · next eq => exact .drainReorder (SomeOk.performNext h _ eq)
  · refine .ite (.ite h (.ite h h)) (.ite h ?_)
    split
    · exact .sendPacket h
    · exact h
    · exact .respond h

theorem State.memOk.timeoutRequest {f : FabReq} (h : s.memOk) : (Machine.timeoutRequest s f).memOk := by
  unfold Machine.timeoutRequest
  dsimp only
  refine .ite (.endRequest h) (.endRequest ?_)
  split
  · exact .ite (.record h) (.deferRevival (.record h))
  · exact .record h

theorem EndsOk.execTransportResendTimeout {dst : BitVec 12} {vc : BitVec 2} {seq : BitVec 16} (h : s.memOk) :
    EndsOk (Machine.execTransportResendTimeout dst vc seq s) := by
  unfold Machine.execTransportResendTimeout
  dsimp only
  refine .next ?_
  split
  · exact h
  · exact .ite (.timeoutRequest h) (.sendPacket h)

theorem EndsOk.execRetryRequest {port : PortId} {seq : BitVec 12} (h : s.memOk) :
    EndsOk (Machine.execRetryRequest port seq s) := by
  unfold Machine.execRetryRequest
  dsimp only
  refine .next ?_
  split <;> exact h

theorem State.memOk.portDown (h : s.memOk) : (Machine.portDown s k).memOk := .ite h (.record h)

theorem State.memOk.resendAll (h : s.memOk) : (Machine.resendAll s k).memOk := by
  unfold Machine.resendAll
  split <;> exact h

theorem EndsOk.execPortTrainingDone {port : PortId} {lanes : BitVec 8} (h : s.memOk) :
    EndsOk (Machine.execPortTrainingDone port lanes s) := by
  unfold Machine.execPortTrainingDone
  dsimp only
  refine .next (.ite h ?_)
  split
  · exact .portDown h
  · exact .emitPacket (.ite (.resendAll (.ite (.record h) h)) (.ite (.record h) h))

theorem State.memOk.settleDepart (h : s.memOk) : (Machine.settleDepart s).memOk :=
  .ite (.foldl (fun h => .portDown h) h) h

theorem State.memOk.receive {port : Nat} {k : Packet} {x : LineFault} (h : s.memOk) :
    (Machine.receive s port k x).memOk := by
  unfold Machine.receive
  refine .ite h (.ite h (.ite ?_ (.settleDepart (.inOrder h))))
  split
  · exact .emitPacket h
  · exact h

theorem EndsOk.packetCmd {typ : Nat} {port : PortId} {k : Packet} {x : LineFault} (h : s.memOk) :
    EndsOk (Machine.packetCmd typ port k x s) :=
  .ite (.next (.receive h)) .fault

theorem EndsOk.execProbeTimer (h : s.memOk) : EndsOk (Machine.execProbeTimer s) := by
  unfold Machine.execProbeTimer
  dsimp only
  refine .next ?_
  split
  · exact h
  · exact .emitPacket h

end Sys2Proof.Machine
end

section
/-! O4. Canonical memory is kept: management commands. -/

namespace Sys2Proof.Machine

variable {s : State} {off status : Nat}

theorem State.memOk.putMailbox {bs : List Byte} (h : s.memOk) : (Machine.putMailbox s bs).memOk := .foldl id h

theorem State.memOk.reply {code : Nat} {c : Cmd} {payload : List Byte} (h : s.memOk) :
    (Machine.reply s code c status payload).memOk := by
  unfold Machine.reply
  dsimp only
  split
  · exact h
  · exact .putMailbox h

theorem State.memOk.mgmt {code : Nat} {paths : Paths} {reports : Bool} {c : Cmd}
    {f : State → Nat × List Byte × State} (step : ∀ {u}, u.memOk → (f u).2.2.memOk) (h : s.memOk) :
    (Machine.mgmt code paths reports c s f).memOk :=
  .ite (.reply h) (.reply (step h))

theorem State.memOk.applyItem {m x : W64} (h : s.memOk) : (Machine.applyItem s off m x).memOk := by
  unfold Machine.applyItem
  split
  · exact h
  · exact .afterWrite (.applyFields h)

theorem State.memOk.markLevel {level : Nat} {m : W64} (h : s.memOk) : (Machine.markLevel s off level m).memOk := by
  unfold Machine.markLevel
  dsimp only
  split <;> exact h

theorem State.memOk.applyItems {c : Cmd} {tab : List Setting} {l : List Item} {extra : SMap (W64 × W64) → Bool}
    (h : s.memOk) :
    (Machine.applyItems s c tab l extra).2.2.memOk := by
  unfold Machine.applyItems
  dsimp only
  split
  · exact .rejectReg h
  · split
    · exact .rejectReg h
    · split
      · exact h
      · exact .foldl (fun h => .markLevel (.applyItem h)) h

theorem EndsOk.settings {code : Nat} {paths : Paths} {tab : List Setting} {c : Cmd} {l : List Item} (h : s.memOk) :
    EndsOk (Machine.settings code paths tab c l s) :=
  .next (.mgmt (fun h => .applyItems h) h)

theorem EndsOk.execSetTickRoles {c : Cmd} {items : List Item} {lat : BitVec 22} (h : s.memOk) :
    EndsOk (Machine.execSetTickRoles c items lat s) := by
  unfold Machine.execSetTickRoles
  dsimp only
  exact .next (.mgmt (fun h => .ite (.applyItems h) (.applyItems h)) h)

theorem EndsOk.execSetRecoveryPolicy {c : Cmd} {items : List Item} {partner : Option (BitVec 12)} (h : s.memOk) :
    EndsOk (Machine.execSetRecoveryPolicy c items partner s) := by
  unfold Machine.execSetRecoveryPolicy
  refine .next (.mgmt (fun h => ?_) h)
  split
  · exact .applyItems h
  · split
    · exact h
    · exact .updCtx h
  · exact h

theorem EndsOk.execRunArrayTest {c : Cmd} {pattern : BitVec 4} (h : s.memOk) :
    EndsOk (Machine.execRunArrayTest c pattern s) := by
  unfold Machine.execRunArrayTest
  dsimp only
  refine .next (.mgmt (fun h => ?_) h)
  split
  · split <;> exact h
  · split <;> exact h
  · split <;> exact h
  · split <;> exact h

theorem EndsOk.execGetArithCounters {c : Cmd} (h : s.memOk) : EndsOk (Machine.execGetArithCounters c s) := by
  unfold Machine.execGetArithCounters
  dsimp only
  refine .next (.mgmt (fun h => ?_) h)
  split
  · split <;> exact h
  · split <;> exact h
  · split <;> exact h
  · split <;> exact h

theorem EndsOk.execSetFabricIdentity {c : Cmd} {device : BitVec 12} (h : s.memOk) :
    EndsOk (Machine.execSetFabricIdentity c device s) := by
  unfold Machine.execSetFabricIdentity
  refine .next (.mgmt (fun h => ?_) h)
  split
  · exact .rejectReg h
  · exact .markLevel h

theorem EndsOk.execSetFabricTopology {c : Cmd} {addr : BitVec 44} {lat : BitVec 22} (h : s.memOk) :
    EndsOk (Machine.execSetFabricTopology c addr lat s) := by
  unfold Machine.execSetFabricTopology
  dsimp only
  refine .next (.mgmt (fun h => ?_) h)
  split
  · exact h
  · split
    · exact .rejectReg h
    · exact .setTickTimes (.markLevel (.applyItem (.foldl (fun h => .markLevel (.applyItem h)) h)))

theorem EndsOk.execDepartDevice {c : Cmd} (h : s.memOk) : EndsOk (Machine.execDepartDevice c s) :=
  .next (.mgmt (fun h => .settleDepart (.foldl (fun h => .emitLink h) (.foldl (fun h => .hold h) h))) h)

theorem EndsOk.execDeclareDeviceLost {c : Cmd} {device : BitVec 12} (h : s.memOk) :
    EndsOk (Machine.execDeclareDeviceLost c device s) := by
  refine .next (.mgmt (fun h => ?_) h)
  dsimp only
  exact .recordAll (.foldl (fun h => .hold (.updCtx h)) (.foldl (fun h => .timeoutRequest h) h))

theorem SomeOk.regroup {size : Nat} (h : s.memOk) : SomeOk (Machine.regroup s p size) := .ite .none (.some h)

theorem EndsOk.execSetPartitionGroups {c : Cmd} {size : BitVec 2} (h : s.memOk) :
    EndsOk (Machine.execSetPartitionGroups c size s) := by
  refine .next (.mgmt (fun {u} h => ?_) h)
  split
  · exact h
  · next p t eq =>
    obtain ⟨q, -, grouped⟩ := Option.bind_eq_some_iff.mp eq
    obtain ⟨v, made, pair⟩ := Option.map_eq_some_iff.mp grouped
    cases pair
    exact .markLevel (SomeOk.regroup h _ made)

theorem EndsOk.execSetPortOwner {c : Cmd} {part : Fin 8} (h : s.memOk) :
    EndsOk (Machine.execSetPortOwner c part s) := by
  unfold Machine.execSetPortOwner
  dsimp only
  refine .next (.mgmt (fun h => ?_) h)
  split
  · exact h
  · split
    · exact h
    · exact .portDown h

end Sys2Proof.Machine
end

section
/-! O4. Canonical memory is kept: upkeep of the memories. -/

namespace Sys2Proof.Machine

variable {s : State} {a k kind n p r : Nat}

theorem State.memOk.startScrub (h : s.memOk) : (Machine.startScrub s r).memOk := .ite h h

theorem State.memOk.urgentScrub (h : s.memOk) : (Machine.urgentScrub s r).memOk := .ite h (.startScrub h)

theorem State.memOk.acceptClear (h : s.memOk) : (Machine.acceptClear s r).memOk := by
  unfold Machine.acceptClear
  dsimp only
  exact .ite (.urgentScrub h) h

theorem State.memOk.holdIn {x : HeldAccess} (h : s.memOk) : (Machine.holdIn s k x).memOk := .ite h h

theorem State.memOk.tryClear {past : List Nat} {e : Nat × Nat × Bool} (h : s.memOk) :
    (Machine.tryClear past s e).memOk := by
  unfold Machine.tryClear
  dsimp only
  refine .ite h (.ite (.urgentScrub h) ?_)
  split
  · exact .holdIn h
  · exact .ite (.acceptClear h) (.acceptClear h)

theorem State.memOk.runClears {l : List (Nat × Nat × Bool)} (h : s.memOk) : (Machine.runClears s p l).memOk :=
  .ite (.foldl (fun h => .tryClear h) h) (.foldl (fun h => .tryClear h) h)

theorem SomeOk.genClear (h : s.memOk) : SomeOk (Machine.genClear s p r n) := .ite .none (.some (.runClears h))

theorem EndsOk.execClearMemory {c : Cmd} {region : BitVec 23} {count : BitVec 16} (h : s.memOk) :
    EndsOk (Machine.execClearMemory c region count s) := by
  unfold Machine.execClearMemory
  refine .next (.mgmt (fun h => ?_) h)
  split
  · exact h
  · split
    · exact h
    · next eq => exact SomeOk.genClear h _ eq

theorem State.memOk.retryClears (h : s.memOk) : (Machine.retryClears s p).memOk := .ite h (.runClears h)

theorem State.memOk.clearHeld {request : Bool} {past : List Nat} (h : s.memOk) :
    (Machine.clearHeld s p r request past).memOk := by
  unfold Machine.clearHeld
  dsimp only
  refine .ite h ?_
  split
  · exact .holdIn h
  · exact .runClears (.tryClear h)

theorem State.memOk.clearRegion (h : s.memOk) : (Machine.clearRegion s r).memOk := .runClears h

theorem State.memOk.scrubLines (h : s.memOk) : (Machine.scrubLines s r).memOk := Mem.wf_filter _ s.mem h

theorem State.memOk.scrubRead {x : LineFault} (h : s.memOk) : (Machine.scrubRead s a x).memOk := by
  unfold Machine.scrubRead
  split
  · exact .readWord (fun h => .bumpEcc h) h
  · exact .readWord (fun h => .bumpEcc h) h
  · exact .homeFault h
  · exact h

theorem State.memOk.endPass {x : PassEnd} {past : List Nat} (h : s.memOk) : (Machine.endPass s x past).memOk := by
  unfold Machine.endPass
  extract_lets i
  split
  · exact h
  · split
    · exact .ite (.holdIn h) h
    · next home s0 s1 s2 _ s3 _ _ _ _ _ _ =>
      have read : s1.memOk := .foldl (fun h => .readRecords h) (.foldl (fun h => .scrubRead h) h)
      have passed : s3.memOk := State.memOk.ite read (.scrubLines read)
      exact .ite (.ite (.urgentScrub passed) passed) passed

theorem State.memOk.retireRegion (h : s.memOk) : (Machine.retireRegion s r).memOk := .recordRegion h

theorem SomeOk.retireUnit {x : RetireUnit} (h : s.memOk) : SomeOk (Machine.retireUnit s x) := by
  unfold Machine.retireUnit
  dsimp only
  split
  · exact .some (.spareSliceRow h)
  · exact .some (.failSlice h)
  · exact .ite .none (.some (.getD (.repairCapRow h) (.failStack h)))
  · exact .ite .none (.some (.getD (.remapCapBank h) (.failStack h)))
  · exact .ite (.some (.failStack h)) .none
  · exact .ite (.some (.retireRegion h)) .none

theorem EndsOk.execRetireMemory {c : Cmd} {u : RetireUnit} (h : s.memOk) : EndsOk (Machine.execRetireMemory c u s) := by
  unfold Machine.execRetireMemory
  refine .next (.mgmt (fun h => ?_) h)
  split
  · exact h
  · next eq => exact SomeOk.retireUnit h _ eq

theorem State.memOk.capRetire {path : RegPath} {op : Nat} (h : s.memOk) : (Machine.capRetire s path p op r).memOk :=
  .ite (.rejectReg h) (.retireRegion h)

theorem State.memOk.zeroScratch {w : Nat} (h : s.memOk) : (Machine.zeroScratch s p w).memOk := .clearRange h

theorem State.memOk.setWay {w ctx : Nat} (h : s.memOk) : (Machine.setWay s p w kind ctx).memOk :=
  .ite (.zeroScratch h) h

theorem State.memOk.applyWays (h : s.memOk) : (Machine.applyWays s).memOk :=
  .foldl (fun h => .ite (.zeroScratch (.trimKeep (.applyShadow h))) (.trimKeep (.applyShadow h))) h

theorem State.memOk.trimAll (h : s.memOk) : (Machine.trimAll s).memOk := .foldl (fun h => .trimRemote h) h

theorem State.memOk.applySettings {p : Nat → Bool} (h : s.memOk) : (Machine.applySettings s p).memOk :=
  .switchAllSmoothing (.trimAll (.applyShadows h))

end Sys2Proof.Machine
end

section
/-! O4. Canonical memory is kept: the journal and the planner. -/

namespace Sys2Proof.Machine

variable {s : State} {a c d e i n p q status : Nat}

theorem State.memOk.layRecord {g : Nat} {bs : List Byte} (h : s.memOk) : (Machine.layRecord s p g bs).1.memOk :=
  .writeBytes (.ite h (.writeBytes h))

theorem State.memOk.layPending (h : s.memOk) : (Machine.layPending s p).memOk := .foldlFst (fun h => .layRecord h) h

theorem State.memOk.journalRecord {synd : Nat} (h : s.memOk) : (Machine.journalRecord s p synd).memOk := .record h

theorem State.memOk.commitAt {bs : List Byte} (h : s.memOk) : (Machine.commitAt s p bs).memOk := by
  unfold Machine.commitAt
  dsimp only
  exact .ite (.layRecord h) (.journalRecord (.layRecord h))

theorem State.memOk.commitRecords {rs : SMap (List Byte)} (h : s.memOk) : (Machine.commitRecords s c rs).memOk :=
  .foldl (fun h => .layPending h) (.draw (.updCtx (.foldl (fun h => .commitAt h) h)))

theorem State.memOk.startRecord (h : s.memOk) : (Machine.startRecord s c).memOk := by
  unfold Machine.startRecord
  split
  · exact h
  · exact .commitRecords h

theorem State.memOk.endRecord (h : s.memOk) : (Machine.endRecord s c).memOk := by
  unfold Machine.endRecord
  split
  · exact h
  · exact .commitRecords h

theorem EndsOk.execStepRecordAppend {c : CtxId} {tokens : List (BitVec 24 × BitVec 32 × BitVec 23)} (h : s.memOk) :
    EndsOk (Machine.execStepRecordAppend c tokens s) := by
  unfold Machine.execStepRecordAppend
  dsimp only
  refine .next ?_
  split
  · exact h
  · exact .ite h (.foldl (fun h => .layPending h) (.draw h))

theorem State.memOk.holdJournal (h : s.memOk) : (Machine.holdJournal s c).memOk :=
  .ite (.foldl id (.hold h)) (.foldl (fun h => .journalRecord h) (.foldl id (.hold h)))

theorem State.memOk.freeJournal (h : s.memOk) : (Machine.freeJournal s p).memOk :=
  .foldl (fun h => .foldl id (.unhold h)) h

theorem State.memOk.setEntry (h : s.memOk) : (Machine.setEntry s a e d).memOk := .store h

theorem State.memOk.setCount (h : s.memOk) : (Machine.setCount s a n).memOk := .notePage (.store h)

theorem State.memOk.rcSet {k : KvCfg} (h : s.memOk) : (Machine.rcSet s k i n).memOk := .store h

theorem State.memOk.add {w : Work} {e : List Byte} (h : w.s.memOk) : (w.add e).s.memOk := h

theorem State.memOk.setSeq {w : Work} {x : Seq} (h : w.s.memOk) : (w.setSeq x).s.memOk := h

theorem State.memOk.dropPage {w : Work} {fmt : Nat} (h : w.s.memOk) : (w.dropPage fmt d).s.memOk := by
  unfold Work.dropPage
  dsimp only
  split
  · exact h
  · split
    · exact .ite h (.rcSet h)
    · split <;> exact .ite h (.rcSet h)

theorem State.memOk.freeSeq {w : Work} {f : PlanFree} (h : w.s.memOk) : (w.freeSeq f).s.memOk := by
  unfold Work.freeSeq
  split
  · exact h
  · exact .foldlWork (fun h => .foldlWork (fun h => .dropPage h) h) h

theorem State.memOk.stall {w : Work} (h : w.s.memOk) : (w.stall q).s.memOk := h

theorem State.memOk.copyTo {w : Work} {layer head orig : Nat} (h : w.s.memOk) :
    (w.copyTo q a layer head e d orig n).s.memOk := by
  unfold Work.copyTo
  dsimp only
  exact .add h

theorem State.memOk.sharePage {w : Work} {placed : List (List Byte)} {src dst layer head P : Nat} (h : w.s.memOk) :
    (w.sharePage placed q src dst layer head P e).s.memOk := by
  unfold Work.sharePage
  dsimp only
  split
  · exact .setCount (.setEntry (.setEntry (.rcSet h)))
  · split
    · exact .stall h
    · exact .copyTo (.setCount (.setEntry h))

theorem State.memOk.newTable {w : Work} {t : TablePlace} (h : w.s.memOk) : (w.newTable t c).s.memOk := .writeBytes h

theorem State.memOk.admitEntry {w : Work} {placed : List (List Byte)} {tables : List TablePlace} {tag : Nat}
    {e : List Byte} (h : w.s.memOk) : (w.admitEntry placed tables tag e).s.memOk := by
  unfold Work.admitEntry
  extract_lets q src P mine key tabs w1 y planner w2
  have tabled : w2.s.memOk := State.memOk.foldlWork (fun h => .newTable h) h
  clear_value src w2
  split
  · exact tabled
  · split
    · exact tabled
    · extract_lets w3
      have shared : w3.s.memOk := by
        refine .foldlWork (fun h => ?_) tabled
        split
        · exact h
        · exact .foldlWork (fun h => .sharePage h) h
      split
      · exact shared
      · exact .freeSeq tabled

theorem State.memOk.note {w : Work} {e : List Byte} (h : w.s.memOk) : (w.note e).s.memOk := by
  unfold Work.note
  dsimp only
  split
  · exact .add h
  · split
    · exact .setSeq (.add h)
    · split
      · exact .setSeq (.add h)
      · exact .add h

theorem State.memOk.stage2 {w : Work} {placed : List (List Byte)} {tables : List TablePlace} {x : Nat × List Byte}
    (h : w.s.memOk) :
    (w.stage2 placed tables x).s.memOk := by
  unfold Work.stage2
  split
  · exact .admitEntry h
  · exact .note h

theorem State.memOk.cowEntry {w : Work} {placed : List (List Byte)} {x : Seq} {layer head : Nat} (h : w.s.memOk) :
    (w.cowEntry placed x a layer head e).s.memOk := by
  unfold Work.cowEntry
  dsimp only
  split
  · exact h
  · split
    · split
      · exact .stall h
      · exact .rcSet h
    · exact .ite h (.rcSet h)

theorem State.memOk.cowSeq {w : Work} {placed : List (List Byte)} {x : Seq} (h : w.s.memOk) :
    (w.cowSeq placed n x).s.memOk := by
  unfold Work.cowSeq
  dsimp only
  refine .foldlWork (fun h => .foldlWork (fun h => ?_) h) h
  split
  · exact .cowEntry h
  · exact h

theorem State.memOk.growEntry {w : Work} {placed : List (List Byte)} {x : Seq} {layer head : Nat} (h : w.s.memOk) :
    (w.growEntry placed x a layer head e).s.memOk := by
  unfold Work.growEntry
  dsimp only
  split
  · exact h
  · split
    · exact .stall h
    · split
      · exact .stall h
      · exact h

theorem State.memOk.growSeq {w : Work} {placed : List (List Byte)} {x : Seq} (h : w.s.memOk) :
    (w.growSeq placed n x).s.memOk :=
  .foldlWork (fun h => .foldlWork (fun h => .growEntry h) h) h

theorem State.memOk.applyAct {w : Work} {a : Act} (h : w.s.memOk) : (w.applyAct a).s.memOk := by
  unfold Work.applyAct
  dsimp only
  split
  · exact .copyTo h
  · split
    · exact .setEntry h
    · exact .setCount (.setEntry h)

theorem State.memOk.closeSeq {w : Work} {x : Seq} (h : w.s.memOk) : (w.closeSeq n x).s.memOk := by
  unfold Work.closeSeq
  split
  · exact h
  · have acted : ((w.acts.filter fun a => a.seq == x.id && a.typ == 0x10).foldl Work.applyAct w).s.memOk :=
      .foldlWork (fun h => .applyAct h) h
    dsimp only
    split <;> exact acted

theorem State.memOk.coldCopy {src dst fmt : Nat} (h : s.memOk) : (Machine.Work.coldCopy s src dst fmt d).memOk :=
  .foldl (fun h => .foldl (fun h => .writeBytes h) h) h

theorem State.memOk.migrateEntry {w : Work} {ask : PlanAsk} {x : Seq} {layer head : Nat} (h : w.s.memOk) :
    (w.migrateEntry ask x a layer head e).s.memOk := by
  unfold Work.migrateEntry
  dsimp only
  split
  · split
    · exact h
    · split
      · exact .stall h
      · exact .add (.dropPage h)
  · split
    · exact h
    · split
      · exact h
      · exact .add (.dropPage h)

theorem State.memOk.migrateSeq {ask : PlanAsk} {w : Work} {x : Seq} (h : w.s.memOk) : (w.migrateSeq ask x).s.memOk :=
  .foldlWork (fun h => .foldlWork (fun h => .migrateEntry h) h) h

theorem State.memOk.writeCopy {step : W64} (h : s.memOk) : (Machine.Work.writeCopy s step a c).memOk := .store h

theorem State.memOk.planOnce {x : Ctx} {step : W64} {inp : PlanIn} {ask : PlanAsk} {stalled : List Nat}
    (h : s.memOk) :
    (Machine.planOnce s x step inp ask stalled).s.memOk := by
  unfold Machine.planOnce
  dsimp only
  refine .foldl (fun h => .foldl (fun h => .writeCopy h) h) ?_
  split
  · exact .foldlWork (fun h => .closeSeq h) (.foldlWork (fun h => .applyAct h)
      (.foldlWork (fun h => .growSeq h) (.foldlWork (fun h => .cowSeq h)
      (.foldlWork (fun h => .stage2 h) (.foldlWork (fun h => .freeSeq h) h)))))
  · exact .foldlWork (fun h => .migrateSeq h) (.foldlWork (fun h => .closeSeq h)
      (.foldlWork (fun h => .applyAct h) (.foldlWork (fun h => .growSeq h)
      (.foldlWork (fun h => .cowSeq h) (.foldlWork (fun h => .stage2 h) (.foldlWork (fun h => .freeSeq h) h))))))

theorem State.memOk.planAgain {x : Ctx} {step : W64} {inp : PlanIn} {ask : PlanAsk} {fuel : Nat}
    {stalled : List Nat} (h : s.memOk) :
    (Machine.planAgain s x step inp ask fuel stalled).s.memOk := by
  induction fuel generalizing stalled with
  | zero => exact .planOnce h
  | succ fuel ih =>
    unfold Machine.planAgain
    dsimp only
    split
    · exact .planOnce h
    · exact ih

theorem State.memOk.runPlan {x : Ctx} {step : W64} {inp : PlanIn} {ask : PlanAsk} (h : s.memOk) :
    (Machine.runPlan s x step inp ask).s.memOk :=
  .planAgain h

theorem State.memOk.postCopies {q : StepPlan} (h : s.memOk) : (Machine.postCopies s c q).memOk := by
  unfold Machine.postCopies
  dsimp only
  split
  · exact .addHead (.foldl (fun h => .writeBytes h) (.dropCopies h))
  · exact h

theorem State.memOk.makeMove {m : PageMove} (h : s.memOk) : (Machine.makeMove c s m).memOk := by
  unfold Machine.makeMove
  dsimp only
  refine .setEntry (.ite h ?_)
  split
  · exact .coldCopy h
  · exact .ite (.writeBytes h) (.writeBytes (.draw h))

theorem State.memOk.makeMoves (h : s.memOk) : (Machine.makeMoves s c).memOk := by
  unfold Machine.makeMoves
  split
  · exact h
  · exact .foldl (fun h => .makeMove h) h

theorem State.memOk.repostCopies (h : s.memOk) : (Machine.repostCopies s p).memOk := by
  unfold Machine.repostCopies
  refine .foldl (fun h => ?_) h
  split
  · exact .postCopies h
  · exact h

theorem State.memOk.takePlan {x : Ctx} {w : Work} (h : w.s.memOk) : (Machine.takePlan c x w).memOk := .postCopies h

theorem State.memOk.haltReplay {step : W64} (h : s.memOk) : (Machine.haltReplay s c status step).memOk := .updCtx h

theorem State.memOk.replayPlan {x : Ctx} {g : Regen} {inp : PlanIn} (h : s.memOk) :
    (Machine.replayPlan s c x g inp).memOk :=
  .ite (.haltReplay h) (.ite (.haltReplay h) (.ite (.haltReplay h)
    (.showKv (.ite (.setFld (.bump (.setReg (.takePlan (.runPlan h))))) (.bump (.setReg (.takePlan (.runPlan h))))))))

theorem State.memOk.setCommitted {x : Nat} (h : s.memOk) : (Machine.setCommitted s a x).memOk := .store h

theorem State.memOk.foldLengths (h : s.memOk) : (Machine.foldLengths s c).memOk := by
  unfold Machine.foldLengths
  split
  · exact h
  · exact .foldl (fun h => .setCommitted h) h

theorem EndsOk.execPlanStep {c : CtxId} {inp : PlanIn} (h : s.memOk) : EndsOk (Machine.execPlanStep c inp s) := by
  unfold Machine.execPlanStep
  dsimp only
  refine .next ?_
  split
  · exact .foldLengths h
  · refine .ite (.foldLengths h) ?_
    split
    · exact .replayPlan (.foldLengths h)
    · exact .ite (.holdJournal (.foldLengths h)) (.ite (.hold (.foldLengths h))
        (.ite (.showKv (.setFld (.takePlan (.runPlan (.foldLengths h))))) (.setCtx (.foldl id (.foldLengths h)))))

theorem EndsOk.execStallSetExchange {c : CtxId} {device : BitVec 12} {seqs : List (BitVec 24)} (h : s.memOk) :
    EndsOk (Machine.execStallSetExchange c device seqs s) := by
  unfold Machine.execStallSetExchange
  dsimp only
  refine .next ?_
  split
  · exact h
  · refine .ite h ?_
    split
    · exact h
    · exact .ite h (.showKv (.setFld (.takePlan (.runPlan h))))

end Sys2Proof.Machine
end

section
/-! O4. Canonical memory is kept: contexts. -/

namespace Sys2Proof.Machine

variable {s : State} {a c k p t : Nat}

theorem EndsOk.execLoadContext {c : Cmd} {addr : BitVec 64} {k : BitVec 8} {recent : List CtxId}
    {inbound : List (BitVec 17 × Bool)} (h : s.memOk) :
    EndsOk (Machine.execLoadContext c addr k recent inbound s) := by
  unfold Machine.execLoadContext
  dsimp only
  refine .next (.mgmt (fun h => ?_) h)
  split
  · exact h
  · split
    · exact h
    · split <;> exact h

theorem State.memOk.assignPart {r : Rec} {ws : SMap Window} (h : s.memOk) : (Machine.assignPart s c r ws p).memOk :=
  .foldl (fun h => .foldl id h) (.foldl (fun h => .setWay h) (.foldl (fun h => .setWay h) h))

theorem State.memOk.assignQueue {x : Ctx} (h : s.memOk) : (Machine.assignQueue s c x p).1.memOk := by
  unfold Machine.assignQueue
  dsimp only
  split <;> exact h

theorem State.memOk.setUp {x : Ctx} (h : s.memOk) : (Machine.setUp s c x).memOk := by
  unfold Machine.setUp
  split
  · dsimp only
    exact .startRecord (.setCtxSt (.setFld (.setFld (.setReg
      (.setReg (.setReg (.setCtx (.writeBytes (.foldl id (.foldlFst (fun h => .assignQueue h)
      (.foldl (fun h => .assignPart h) h)))))))))))
  · dsimp only
    exact .startRecord (.setCtxSt (.setFld (.setFld (.setReg
      (.setReg (.setReg (.setCtx (.writeBytes (.setReg (.setReg
      (.setFld (.setFld (.setFld (.foldl id (.foldlFst (fun h => .assignQueue h)
      (.foldl (fun h => .assignPart h) h))))))))))))))))
  · dsimp only
    exact .startRecord (.setCtxSt (.setFld (.setFld (.setReg
      (.setReg (.setReg (.setCtx (.writeBytes (.foldl id (.foldlFst (fun h => .assignQueue h)
      (.foldl (fun h => .assignPart h) h)))))))))))

theorem EndsOk.execLoadComplete {c : CtxId} (h : s.memOk) : EndsOk (Machine.execLoadComplete c s) := by
  unfold Machine.execLoadComplete
  dsimp only
  refine .next ?_
  split
  · exact h
  · exact .ite h (.ite h (.ite (.ite (.ite (.hold (.setUp h)) (.setUp h))
      (.updCtx (.ite (.hold (.setUp h)) (.setUp h)))) (.foldl (fun h => .reply h) h)))

theorem SomeOk.startCtx (h : s.memOk) : SomeOk (Machine.startCtx s k) := .ite (.some (.updCtx h)) .none

theorem SomeOk.holdCtx (h : s.memOk) : SomeOk (Machine.holdCtx s k) := .ite (.some (.settleHold (.hold h))) .none

theorem SomeOk.releaseCtx (h : s.memOk) : SomeOk (Machine.releaseCtx s k) := by
  unfold Machine.releaseCtx
  dsimp only
  refine .ite (.some ?_) .none
  split
  · exact .ite (.resumeWaiting (.ite (.unhold (.unhold (.unhold h))) (.unhold (.unhold (.unhold (.unhold h))))))
      (.ite (.unhold (.unhold (.unhold h))) (.unhold (.unhold (.unhold (.unhold h)))))
  · exact .ite (.unhold (.unhold (.unhold h))) (.unhold (.unhold (.unhold (.unhold h))))

theorem SomeOk.preemptCtx {urgent : Bool} (h : s.memOk) : SomeOk (Machine.preemptCtx s k urgent) :=
  .ite (.some (.updCtx (.foldl (fun h => .requestSave h) h))) .none

theorem State.memOk.restoreTile (h : s.memOk) : (Machine.restoreTile s t).memOk := .ite h h

theorem SomeOk.resumeCtx (h : s.memOk) : SomeOk (Machine.resumeCtx s k) :=
  .ite (.some (.foldl (fun h => .restoreTile h) h)) .none

theorem SomeOk.tearDownCtx (h : s.memOk) : SomeOk (Machine.tearDownCtx s k) := .ite (.some (.startTeardown h)) .none

theorem EndsOk.ctxCommand {code : Nat} {c : Cmd} {f : State → Nat → Option State}
    (step : ∀ {u k}, u.memOk → SomeOk (f u k)) (h : s.memOk) :
    EndsOk (Machine.ctxCommand code c s f) := by
  refine .next (.mgmt (fun h => ?_) h)
  split
  · exact h
  · split
    · exact h
    · next eq => exact step h _ eq

theorem EndsOk.execStartContext {c : Cmd} (h : s.memOk) : EndsOk (Machine.execStartContext c s) := by
  unfold Machine.execStartContext
  split
  · exact .ite (.next (.updCtx h)) (.ctxCommand (fun h => .startCtx h) h)
  · exact .ctxCommand (fun h => .startCtx h) h

theorem SomeOk.updateWindows (h : s.memOk) : SomeOk (Machine.updateWindows s k a) := by
  unfold Machine.updateWindows
  dsimp only
  split
  · exact .none
  · exact .ite (.some h) .none

theorem State.memOk.clearLeft {owner : Nat} {old : SMap Window} (h : s.memOk) :
    (Machine.clearLeft s owner old).memOk := by
  unfold Machine.clearLeft
  dsimp only
  exact .foldl (fun h => .clearRegion h) h

theorem State.memOk.applyWindows (h : s.memOk) : (Machine.applyWindows s k).memOk := by
  unfold Machine.applyWindows
  split
  · exact h
  · split
    · exact h
    · exact .ite h (.retireMoved (.clearLeft h))

theorem State.memOk.dropCtx {b : Board} {ctxs : SMap Ctx} (h : s.memOk) : { s with ctxs := ctxs, board := b }.memOk :=
  h

theorem State.memOk.freeCtx {x : Ctx} (h : s.memOk) : (Machine.freeCtx s k x).memOk := by
  unfold Machine.freeCtx
  dsimp only
  refine .showKv (.retireMoved (.foldl (fun h => .showHeld h) (.setReg (.setReg (.setFld (.setFld (.setCtxSt
    (.clearLeft (.dropCtx (.setReg (.setReg (.setReg ?_))))))))))))
  refine .foldl (fun h => .foldl (fun h => .ite (.setFld (.setFld h)) h) h)
    (.foldl (fun h => .foldl (fun h => .ite (.setReg h) h) h) (.foldl (fun h => .setTile (.clearTile h)) ?_))
  exact .endRecord (.foldl (fun h => .reply h) h)

theorem EndsOk.execTeardownComplete {c : CtxId} (h : s.memOk) : EndsOk (Machine.execTeardownComplete c s) := by
  unfold Machine.execTeardownComplete
  dsimp only
  refine .next ?_
  split
  · exact h
  · exact .ite (.freeCtx h) h

theorem State.memOk.ctxCmd {path : RegPath} {cmd : Nat} (h : s.memOk) : (Machine.ctxCmd s path k cmd).memOk := by
  unfold Machine.ctxCmd
  dsimp only
  refine .getD ?_ (.rejectReg h)
  split
  · exact .ite (.some h) .none
  · exact .startCtx h
  · exact .holdCtx h
  · exact .releaseCtx h
  · exact .preemptCtx h
  · exact .preemptCtx h
  · exact .resumeCtx h
  · exact .tearDownCtx h
  · exact .updateWindows h
  · exact .none

theorem EndsOk.execLoadModelKey {c : Cmd} {slot : BitVec 8} {counter : BitVec 64} {ct wrapped : List Byte}
    (h : s.memOk) :
    EndsOk (Machine.execLoadModelKey c slot counter ct wrapped s) := by
  unfold Machine.execLoadModelKey
  dsimp only
  refine .next (.mgmt (fun h => ?_) h)
  split
  · split
    · exact h
    · split
      · exact h
      · exact .ite h h
  · exact h

theorem EndsOk.execUnloadModelKey {c : Cmd} {slot : BitVec 8} (h : s.memOk) :
    EndsOk (Machine.execUnloadModelKey c slot s) := by
  unfold Machine.execUnloadModelKey
  dsimp only
  refine .next (.mgmt (fun h => ?_) h)
  split
  · exact h
  · split <;> exact h

theorem EndsOk.execLoadModelImage {c : Cmd} {slot : BitVec 8} {img len dst : BitVec 64} {ext : List Byte}
    (h : s.memOk) :
    EndsOk (Machine.execLoadModelImage c slot img len dst ext s) := by
  unfold Machine.execLoadModelImage
  dsimp only
  refine .next (.mgmt (fun h => ?_) h)
  split
  · exact h
  · split
    · split
      · exact h
      · split
        · split
          · exact h
          · exact .writeBytes (.homeRange h)
        · split
          · exact h
          · exact .writeBytes (.homeRange h)
        · exact h
    · exact h

theorem EndsOk.execGetWrapKey {c : Cmd} (h : s.memOk) : EndsOk (Machine.execGetWrapKey c s) := by
  unfold Machine.execGetWrapKey
  dsimp only
  refine .next (.mgmt (fun h => ?_) h)
  split
  · exact h
  · exact .draw h

theorem State.memOk.writeAlarmPolicy {path : RegPath} {x m : W64} (h : s.memOk) :
    (Machine.writeAlarmPolicy s path x m).memOk :=
  .ite (.rejectReg h) (.markLevel h)

theorem EndsOk.execSetAlarmPolicy {c : Cmd} {items : List Item} (h : s.memOk) :
    EndsOk (Machine.execSetAlarmPolicy c items s) := by
  unfold Machine.execSetAlarmPolicy
  dsimp only
  refine .next (.mgmt (fun h => ?_) h)
  split
  · split <;> exact .writeAlarmPolicy h
  · exact h

theorem State.memOk.liftFence (h : s.memOk) : (Machine.liftFence s p).memOk := by
  unfold Machine.liftFence
  dsimp only
  exact .ite (.foldl (fun h => .clearRegion h) (.draw h)) (.foldl (fun h => .clearRegion h) h)

theorem EndsOk.execClearFence {c : Cmd} (h : s.memOk) : EndsOk (Machine.execClearFence c s) := by
  unfold Machine.execClearFence
  dsimp only
  refine .next (.mgmt (fun h => ?_) h)
  split
  · split
    · exact h
    · exact .foldl (fun h => .liftFence h) h
  · split
    · exact h
    · exact .foldl (fun h => .liftFence h) h
  · split
    · exact h
    · exact .foldl (fun h => .liftFence h) h

end Sys2Proof.Machine
end

section
/-! O4. Canonical memory is kept: ticks and revival. -/

namespace Sys2Proof.Machine

variable {s : State} {c n p : Nat}

theorem State.memOk.scheduleTick {period master countdown : Nat} (h : s.memOk) :
    (Machine.scheduleTick s n period master countdown).memOk :=
  .foldl (fun h => .emitLink h) h

theorem State.memOk.announce (h : s.memOk) : (Machine.announce s).memOk := .scheduleTick h

theorem State.memOk.reportUnready (h : s.memOk) : (Machine.reportUnready s n).memOk := by
  unfold Machine.reportUnready
  dsimp only
  refine .ite h (.ite h ?_)
  split
  · exact .emitLink h
  · exact h

theorem EndsOk.execReadyCheck (h : s.memOk) : EndsOk (Machine.execReadyCheck s) := by
  unfold Machine.execReadyCheck
  dsimp only
  refine .next ?_
  split
  · exact h
  · exact .ite h (.reportUnready h)

theorem EndsOk.execSlipDecision (h : s.memOk) : EndsOk (Machine.execSlipDecision s) := by
  unfold Machine.execSlipDecision
  dsimp only
  refine .next ?_
  split
  · exact h
  · exact .ite h (.ite h (.foldl (fun h => .emitLink h) h))

theorem State.memOk.armInbound {odd : Bool} (h : s.memOk) : (Machine.armInbound s c odd).memOk := by
  unfold Machine.armInbound
  split
  · exact h
  · exact .foldl id h

theorem State.memOk.snapshot (h : s.memOk) : (Machine.snapshot s c).memOk := .updCtx h

theorem State.memOk.beginStep (h : s.memOk) : (Machine.beginStep s c n).memOk := .updCtx (.snapshot (.armInbound h))

theorem State.memOk.takePoint {step : W64} (h : s.memOk) : (Machine.takePoint s c step).memOk := by
  unfold Machine.takePoint
  dsimp only
  split
  · exact h
  · split
    · exact h
    · exact .ite h h

theorem State.memOk.advanceTiles {l : List Nat} {step : W64} (h : s.memOk) : (Machine.advanceTiles s l step).memOk :=
  .foldl id h

theorem State.memOk.commitStep (h : s.memOk) : (Machine.commitStep s c n).memOk := by
  unfold Machine.commitStep
  dsimp only
  split
  · exact h
  · split
    · exact h
    · exact .takePoint (.beginStep (.applyWindows (.advanceTiles
        (.showKv (.makeMoves (.updCtx (.updCtx (.foldLengths
        (.setFld (.setFld (.showCompletions (.setReg (.commitRecords h)))))))))))))

theorem State.memOk.startStep (h : s.memOk) : (Machine.startStep s c n).memOk := by
  unfold Machine.startStep
  dsimp only
  split
  · exact h
  · exact .ite (.beginStep (.applyWindows (.makeMoves (.foldl id (.updCtx (.foldl (fun h => .reply h) h))))))
      (.ite (.applyWindows h) h)

theorem State.memOk.releaseHeld (h : s.memOk) : (Machine.releaseHeld s c).memOk := by
  unfold Machine.releaseHeld
  split
  · exact h
  · exact .ite (.resumeWaiting h) h

theorem State.memOk.reviveMissed (h : s.memOk) : (Machine.reviveMissed s c).memOk := .ite (.startRevival h) h

theorem State.memOk.fireTick (h : s.memOk) : (Machine.fireTick s n).memOk := by
  unfold Machine.fireTick
  extract_lets s1 s2 ready s3 s4 s5 s6
  have applied : s2.memOk := .applyWays (.applySettings (.foldl (fun h => .releaseHeld h) h))
  have revived : s3.memOk := .ite (.foldl (fun h => .ite h (.reviveMissed h)) applied) applied
  have started : s5.memOk := .foldl (fun h => .ite h (.startStep h)) (.foldl (fun h => .commitStep h) revived)
  exact .setTicks (.clearStep started)

theorem EndsOk.execTickFire (h : s.memOk) : EndsOk (Machine.execTickFire s) := by
  unfold Machine.execTickFire
  refine .next ?_
  split
  · exact h
  · exact .fireTick h

theorem State.memOk.dropWork (h : s.memOk) : (Machine.dropWork s c).memOk :=
  .foldl (fun h => .dropReq h) (.foldl id (.foldl (fun h => .cancelLaunch h) (.foldl (fun h => .dropQueue h) h)))

theorem State.memOk.rollBack {x : Ctx} (h : s.memOk) : (Machine.rollBack s c x).memOk :=
  .updCtx (.foldl id (.foldl id (.foldl (fun h => .writeCopy h) (.foldLengths h))))

theorem State.memOk.withdraw (h : s.memOk) : (Machine.withdraw s c).memOk := .updCtx h

theorem State.memOk.restartTiles {x : Ctx} (h : s.memOk) : (Machine.restartTiles s c x).memOk :=
  .foldl (fun h => .clearTile h) h

theorem EndsOk.execRevivalRestart {c : CtxId} (h : s.memOk) : EndsOk (Machine.execRevivalRestart c s) := by
  unfold Machine.execRevivalRestart
  dsimp only
  refine .next ?_
  split
  · exact h
  · exact .ite h (.restartTiles (.withdraw (.rollBack (.dropWork h))))

theorem EndsOk.execRevivalProbe {c : CtxId} {handle : BitVec 64} (h : s.memOk) :
    EndsOk (Machine.execRevivalProbe c handle s) := by
  unfold Machine.execRevivalProbe
  dsimp only
  refine .next ?_
  split
  · exact h
  · exact .ite h (.sendRequest h)

theorem EndsOk.execReviveStep {c : Cmd} {first last : BitVec 64} (h : s.memOk) :
    EndsOk (Machine.execReviveStep c first last s) := by
  unfold Machine.execReviveStep
  refine .next (.mgmt (fun h => ?_) h)
  split
  · exact h
  · split
    · exact h
    · exact .startRevival h

theorem EndsOk.execRegenerateSteps {c : Cmd} {first last addr : BitVec 64} (h : s.memOk) :
    EndsOk (Machine.execRegenerateSteps c first last addr s) := by
  unfold Machine.execRegenerateSteps
  dsimp only
  refine .next (.mgmt (fun h => ?_) h)
  split
  · exact h
  · split
    · exact h
    · split <;> exact h

theorem EndsOk.execRecoveryPointComplete {c : CtxId} {all : Bool} (h : s.memOk) :
    EndsOk (Machine.execRecoveryPointComplete c all s) := by
  unfold Machine.execRecoveryPointComplete
  dsimp only
  refine .next ?_
  split
  · exact h
  · split
    · exact h
    · exact .ite h h

theorem EndsOk.execRollbackToRecoveryPoint {c : CtxId} {pages : List (BitVec 44 × List Byte)} (h : s.memOk) :
    EndsOk (Machine.execRollbackToRecoveryPoint c pages s) := by
  unfold Machine.execRollbackToRecoveryPoint
  dsimp only
  refine .next ?_
  split
  · exact h
  · split
    · exact h
    · exact .ite h (.snapshot (.restartTiles (.foldl id (.foldl (fun h => .setCommitted h)
        (.foldl (fun h => .writeBytes h) (.dropCopies (.dropWork h)))))))

theorem State.memOk.lossAlert (h : s.memOk) : (Machine.lossAlert s p).memOk := .ite h h

theorem EndsOk.execPeerLossLimit {c : CtxId} {device : BitVec 12} (h : s.memOk) :
    EndsOk (Machine.execPeerLossLimit c device s) := by
  unfold Machine.execPeerLossLimit
  dsimp only
  refine .next ?_
  split
  · exact h
  · exact .ite (.lossAlert (.record h)) h

end Sys2Proof.Machine
end

section
/-! O4. Canonical memory is kept: resets and repairs. -/

namespace Sys2Proof.Machine

variable {s : State} {cause e i index k kind m p sev : Nat}

theorem State.memOk.clearPort (h : s.memOk) : (Machine.clearPort s k).memOk := .portDown h

theorem State.memOk.clearEngine (h : s.memOk) : (Machine.clearEngine s p kind index).memOk := by
  unfold Machine.clearEngine
  split
  · exact .clearTile h
  · exact .dropQueue h
  · exact h
  · exact .dropQueue h
  · exact .foldl id h
  · exact .clearPort h
  · exact h

theorem SomeOk.engRst (h : s.memOk) : SomeOk (Machine.engRst s p kind index) :=
  .ite .none (.some (.startEngineReset (.foldl (fun h => .startRevival h) h)))

theorem EndsOk.execResetEngine {c : Cmd} {kind : BitVec 8} {index : BitVec 24} (h : s.memOk) :
    EndsOk (Machine.execResetEngine c kind index s) := by
  unfold Machine.execResetEngine
  refine .next (.mgmt (fun h => ?_) h)
  split
  · exact h
  · split
    · exact .rejectReg h
    · next eq => exact SomeOk.engRst h _ eq

theorem State.memOk.endRecord' {level us : Nat} (h : s.memOk) :
    (Machine.endRecord' s p kind index level cause us).memOk :=
  .record h

theorem State.memOk.disableEngine (h : s.memOk) : (Machine.disableEngine s p kind index).memOk :=
  .repairRecord (.ite h h)

theorem State.memOk.enableEngine (h : s.memOk) : (Machine.enableEngine s p kind index).memOk := .ite h h

theorem SomeOk.resetTest (h : s.memOk) : SomeOk (Machine.resetTest s k i) := .ite (.some h) (.ite (.some h) .none)

theorem EndsOk.execEngineResetComplete {p : PartId} {kind : BitVec 8} {index : BitVec 24} {pass : Bool} {us : BitVec 32}
    (h : s.memOk) : EndsOk (Machine.execEngineResetComplete p kind index pass us s) := by
  unfold Machine.execEngineResetComplete
  extract_lets k i
  refine .next ?_
  split
  · exact h
  · refine .ite h ?_
    split
    · next eq => exact SomeOk.resetTest h _ eq
    · extract_lets s1 s2 s3 tile s4
      have cleared : s2.memOk := .endRecord' (.clearEngine h)
      have enabled : s3.memOk := .setFld (.enableEngine cleared)
      have disabled : s4.memOk := .setFld (.disableEngine cleared)
      exact .ite (.ite (.setTile enabled) (.ite (.setPortState enabled) (.ite (.repostCopies enabled) enabled)))
        (.ite (.startPartitionReset (.markTile disabled)) disabled)

theorem State.memOk.timeoutQueue (h : s.memOk) : (Machine.timeoutQueue s k).memOk := by
  unfold Machine.timeoutQueue
  dsimp only
  split
  · exact .missRecord h
  · exact .failActive h
  · exact .endDescriptor h
  · exact .endDescriptor h
  · exact h

theorem State.memOk.timeoutEngine (h : s.memOk) : (Machine.timeoutEngine s p kind index).memOk := by
  unfold Machine.timeoutEngine
  split
  · exact .timeoutQueue h
  · refine .foldl (fun h => ?_) h
    split
    · exact .abortUnit h
    · exact .abortUnit h
    · exact h
  · exact .timeoutQueue h
  · exact .foldl (fun h => .haltColl h) h
  · exact h

theorem State.memOk.hangRecord {what level : Nat} (h : s.memOk) :
    (Machine.hangRecord s p kind index what level).memOk :=
  .record h

theorem EndsOk.execResetDeadlineExpire {level : BitVec 2} {p : PartId} {kind : BitVec 8} {index : BitVec 24}
    (h : s.memOk) :
    EndsOk (Machine.execResetDeadlineExpire level p kind index s) := by
  unfold Machine.execResetDeadlineExpire
  refine .next ?_
  dsimp only
  split
  · exact .ite (.startPartitionReset (.setFld (.hangRecord h))) h
  · exact .ite (.startChipReset (.hangRecord h)) h
  · refine .ite ?_ h
    unfold State.memOk
    dsimp only
    exact State.memOk.requestPowerCycle (.recordAll h)
  · exact h

theorem State.memOk.retireTile {badSlice : Bool} (h : s.memOk) : (Machine.retireTile s t badSlice).memOk := by
  unfold Machine.retireTile
  extract_lets home put posT board s0 s1 place s2 s3
  split
  · extract_lets o posS slot s2 s3 s4 s5 s6 s7 s8
    have cleared : s3.memOk := State.memOk.of_mem (s := s2) (.clearRange h) rfl
    have placed : s4.memOk := .setFld (.setFld (.setFld cleared))
    have spare : s5.memOk := .setFld (.setFld (.setFld (.setFld placed)))
    have repaired : s7.memOk := .setFld (.setReg (.setFld (.setFld spare)))
    exact .lowerGrade (.setTile (.repairRecord (.showSlice (.addMapRec (.ite (.setFld repaired) repaired)))))
  · exact .lowerGrade (.setTile (.repairRecord (.foldl (fun h => .hold h) h)))

theorem State.memOk.failSliceAt {pos : Nat} (h : s.memOk) : (Machine.failSliceAt s p pos).memOk := by
  unfold Machine.failSliceAt
  split
  · exact h
  · exact .elim h h

theorem State.memOk.applyRepair {r : MapRec} (h : s.memOk) : (Machine.applyRepair s r).memOk := by
  unfold Machine.applyRepair
  dsimp only
  split
  · refine .ite (.failSliceAt h) (.repairRecord ?_)
    split <;> exact h
  · exact .failSliceAt h
  · exact .failStack h
  · exact .repairRecord h
  · exact .repairRecord h

theorem State.memOk.flushDie (h : s.memOk) : (Machine.flushDie s p).memOk := .foldl (fun h => .writeBack h) h

theorem State.memOk.gateTiles (h : s.memOk) : (Machine.gateTiles s p).memOk := .foldl (fun h => .ite h h) h

theorem State.memOk.clearPart (h : s.memOk) : (Machine.clearPart s p).memOk :=
  .setFld (.foldl id (.foldl id (.foldl (fun h => .dropLaunch h)
    (.foldl (fun h => .ite (.clearTile h) (.clearTile h)) (.foldl (fun h => .dropQueue h) h)))))

theorem State.memOk.powerWave {w : Nat} (h : s.memOk) : (Machine.powerWave s p w).memOk := by
  unfold Machine.powerWave
  dsimp only
  refine .foldl (fun h => ?_) h
  split
  · exact h
  · exact .ite h h

theorem State.memOk.takeTests {fails : List (Nat × Nat)} (h : s.memOk) : (Machine.takeTests s p fails).memOk :=
  .foldl (fun h => .ite h h) (.foldl (fun h => .enableEngine h)
    (.foldl (fun h => .ite h (.ite (.disableEngine h) h)) (.foldl id h)))

theorem State.memOk.doRepairs {fails : List (Nat × Nat)} (h : s.memOk) : (Machine.doRepairs s p fails).memOk :=
  .foldl (fun h => .retireTile h) (.foldl (fun h => .applyRepair h) h)

theorem State.memOk.placeFirmware (h : s.memOk) : (Machine.placeFirmware s p).memOk := by
  unfold Machine.placeFirmware
  dsimp only
  split
  · exact h
  · exact .foldl id (.writeBytes h)

theorem State.memOk.restorePart (h : s.memOk) : (Machine.restorePart s p).memOk := by
  unfold Machine.restorePart
  dsimp only
  split
  · refine .foldl (fun h => ?_) (.foldl (fun h => .ite (.zeroScratch h) h) (.placeFirmware h))
    split
    · exact h
    · split <;> exact .ite (.foldl id h) (.foldl id h)
  · refine .foldl (fun h => ?_) (.foldl (fun h => .ite (.zeroScratch h) h) (.placeFirmware h))
    split
    · exact h
    · split <;> exact .ite (.foldl id h) (.foldl id h)

theorem State.memOk.endPartitionReset {us : Nat} (h : s.memOk) : (Machine.endPartitionReset s p us).memOk :=
  .foldl (fun h => .resetRevival h) (.flushRing (.endRecord'
    (.setFld (.setFld (.repostCopies (.lockPlls (.restorePart h)))))))

theorem EndsOk.execPartitionResetPhaseEnd {p : PartId} {fails : List (BitVec 8 × BitVec 24)} {us : BitVec 32}
    (h : s.memOk) :
    EndsOk (Machine.execPartitionResetPhaseEnd p fails us s) := by
  unfold Machine.execPartitionResetPhaseEnd
  dsimp only
  refine .next ?_
  split
  · exact h
  · exact .setFld (.flushDie h)
  · exact .setFld (.clearPart h)
  · exact .setFld (.gateTiles h)
  · exact .ite h (.setFld (.takeTests h))
  · exact .setFld (.doRepairs h)
  · exact .endPartitionReset h
  · exact h

theorem EndsOk.execResetPartition {c : Cmd} (h : s.memOk) : EndsOk (Machine.execResetPartition c s) := by
  unfold Machine.execResetPartition
  refine .next (.mgmt (fun h => ?_) h)
  split
  · exact h
  · exact .startPartitionReset h

theorem State.memOk.endFwHolds (h : s.memOk) : (Machine.endFwHolds s).memOk := .foldl (fun h => .unhold h) h

theorem State.memOk.failActivation (h : s.memOk) : (Machine.failActivation s).memOk := by
  unfold Machine.failActivation
  dsimp only
  split
  · exact h
  · exact .endFwHolds h

theorem State.memOk.chipClear (h : s.memOk) : (Machine.chipClear s).memOk := by
  unfold Machine.chipClear
  dsimp only
  unfold State.memOk
  dsimp only
  refine State.memOk.setReg (.setFld (.setFld (.setFld (.bump
    (.setFld (.setFld (.setFld (.foldl (fun h => .setFld h) ?_))))))))
  unfold State.memOk
  dsimp only
  exact State.memOk.foldl (fun h => .gateTiles (.clearPart (.flushDie h))) (.failActivation h)

theorem EndsOk.execChipResetPhaseEnd {us : BitVec 32} (h : s.memOk) : EndsOk (Machine.execChipResetPhaseEnd us s) := by
  unfold Machine.execChipResetPhaseEnd
  dsimp only
  refine .next ?_
  split
  · exact .setFld (.chipClear h)
  · exact .ite h h
  · exact .foldl (fun h => .resetRevival h) (.foldl (fun h => .flushRing h)
      (.recordAll (.setFld (.setFld (.foldl (fun h => .restorePart h) h)))))
  · exact h

theorem State.memOk.edgeRecord {event module lane : Nat} (h : s.memOk) :
    (Machine.edgeRecord s e sev event module lane).memOk :=
  .foldl (fun h => .record h) h

theorem State.memOk.moduleOut (h : s.memOk) : (Machine.moduleOut s e m).memOk := .edgeRecord (.ite h h)

theorem State.memOk.repairWire {r : MapRec} (h : s.memOk) : (Machine.repairWire s r).memOk :=
  .ite h (.ite h (.ite h (.ite h h)))

theorem EndsOk.execD2dFlitReceive {edge : Fin 12} {module : Fin 16} {ok : Bool} {resent : BitVec 8}
    {laneErrors : BitVec 16} {marked : Option (Bool × BitVec 8)} (h : s.memOk) :
    EndsOk (Machine.execD2dFlitReceive edge module ok resent laneErrors marked s) := by
  unfold Machine.execD2dFlitReceive
  dsimp only
  refine .next (.ite h (.ite ?_ (.ite ?_ (.moduleOut (.edgeRecord ?_)))))
  · split
    · exact h
    · exact .edgeRecord h
  · split
    · exact h
    · exact .edgeRecord h
  · split
    · exact h
    · exact .edgeRecord h

end Sys2Proof.Machine
end

section
/-! O4. Canonical memory is kept: the host link, the bus and the firmware. -/

namespace Sys2Proof.Machine

variable {s : State} {n off sev : Nat}

theorem State.memOk.bar2Record {check : Nat} {a : Option Nat} (h : s.memOk) :
    (Machine.bar2Record s off check a).memOk :=
  .record h

theorem EndsOk.execBar2Read {off : BitVec 36} {n : BitVec 12} {x : LineFault} (h : s.memOk) :
    EndsOk (Machine.execBar2Read off n x s) := by
  unfold Machine.execBar2Read
  dsimp only
  refine .next (.ite h ?_)
  split
  · exact .bar2Record h
  · exact .ite (.holdAt h) (.homeRange (.readRecords (.homeFault h)))

theorem EndsOk.execBar2Write {off : BitVec 36} {bytes : List Byte} (h : s.memOk) :
    EndsOk (Machine.execBar2Write off bytes s) := by
  unfold Machine.execBar2Write
  dsimp only
  refine .next (.ite h ?_)
  split
  · exact .bar2Record h
  · exact .ite (.holdAt h) (.writeBytes (.homeRange h))

theorem State.memOk.hostTimeoutRecord {c : Option Nat} (h : s.memOk) : (Machine.hostTimeoutRecord s sev c).memOk :=
  .recordAll h

theorem State.memOk.loadTimeoutRecord {q : MemReq} (h : s.memOk) : (Machine.loadTimeoutRecord s q).memOk :=
  .recordAll h

theorem EndsOk.execHostReadTimeout {x : HostRead} (h : s.memOk) : EndsOk (Machine.execHostReadTimeout x s) := by
  unfold Machine.execHostReadTimeout
  dsimp only
  refine .next ?_
  split
  · split
    · split
      · exact .answer (.loadTimeoutRecord h)
      · exact h
    · exact h
  · split
    · exact .ite (.failActive (.hostTimeoutRecord h)) h
    · exact h

theorem State.memOk.linkEvent {event : Nat} (h : s.memOk) : (Machine.linkEvent s event).memOk := .emit (.recordAll h)

theorem State.memOk.hostDown (h : s.memOk) : (Machine.hostDown s).memOk := by
  unfold Machine.hostDown
  dsimp only
  refine .ite h (.foldl (fun h => ?_) (.foldl (fun h => .hold h) (.linkEvent h)))
  split
  · exact .failActive h
  · exact h

theorem EndsOk.execSetHostRegion {c : Cmd} {region : BitVec 8} {value : BitVec 64} (h : s.memOk) :
    EndsOk (Machine.execSetHostRegion c region value s) := by
  unfold Machine.execSetHostRegion
  dsimp only
  refine .next (.mgmt (fun h => ?_) h)
  split
  · exact .markLevel (.applyItem h)
  · exact .rejectReg h

theorem State.memOk.drawnBytes (h : s.memOk) : (Machine.drawnBytes s n).2.memOk := by
  unfold Machine.drawnBytes
  dsimp only
  exact .draw h

theorem State.memOk.spdmAnswer {f : State → Option (List Byte × State)}
    (step : ∀ {u bs}, f s = some (bs, u) → u.memOk) (h : s.memOk) :
    (Machine.spdmAnswer s f).memOk := by
  unfold Machine.spdmAnswer
  refine .ite h ?_
  split
  · next eq => exact .emit (step eq)
  · exact h

theorem EndsOk.execGetCertificate {slot : BitVec 4} {n : BitVec 16} (h : s.memOk) :
    EndsOk (Machine.execGetCertificate slot n s) := by
  refine .next (.spdmAnswer (fun {u bs} eq => ?_) h)
  split at eq <;> cases eq
  exact h

theorem EndsOk.execChallenge {slot : BitVec 4} {nonce : List Byte} (h : s.memOk) :
    EndsOk (Machine.execChallenge slot nonce s) := by
  refine .next (.spdmAnswer (fun {u bs} eq => ?_) h)
  split at eq <;> cases eq
  exact .drawnBytes (n := 96) h

theorem EndsOk.execGetMeasurements {index : BitVec 8} (h : s.memOk) : EndsOk (Machine.execGetMeasurements index s) := by
  refine .next (.spdmAnswer (fun {u bs} eq => ?_) h)
  split at eq <;> cases eq <;> exact h

theorem State.memOk.showChunks (h : s.memOk) : (Machine.showChunks s).memOk := by
  unfold Machine.showChunks
  dsimp only
  refine .ite h ?_
  split <;> exact h

theorem State.memOk.takeManifest {bytes : List Byte} {m : Manifest} (h : s.memOk) :
    (Machine.takeManifest s bytes m).memOk :=
  .showChunks h

theorem EndsOk.execFirmwareChunkReceive {i : BitVec 16} {bytes : List Byte} {m : Option Manifest} (h : s.memOk) :
    EndsOk (Machine.execFirmwareChunkReceive i bytes m s) := by
  unfold Machine.execFirmwareChunkReceive
  dsimp only
  refine .next (.ite h (.ite ?_ (.ite h (.ite (.showChunks h) h))))
  split
  · exact .ite (.takeManifest h) h
  · exact h

theorem State.memOk.nextProcessor (h : s.memOk) : (Machine.nextProcessor s).memOk := by
  unfold Machine.nextProcessor
  dsimp only
  split
  · exact h
  · exact .foldl (fun h => .hold h) h

theorem EndsOk.execProcessorRestartDone (h : s.memOk) : EndsOk (Machine.execProcessorRestartDone s) := by
  unfold Machine.execProcessorRestartDone
  dsimp only
  refine .next ?_
  split
  · exact h
  · exact .ite h (.nextProcessor (.endFwHolds h))

end Sys2Proof.Machine
end

section
/-! O4. Canonical memory is kept: power and temperatures. -/

namespace Sys2Proof.Machine

variable {s : State} {i index n p t : Nat}

theorem State.memOk.sensorRecord {event : Nat} {x : ℤ} {other : Option (Nat × ℤ)} (h : s.memOk) :
    (Machine.sensorRecord s i event x other).memOk := by
  unfold Machine.sensorRecord
  dsimp only
  split
  · exact .record h
  · exact .recordAll h

theorem State.memOk.thermalRecord {event : Nat} {x : ℤ} (h : s.memOk) : (Machine.thermalRecord s event x).memOk :=
  .recordAll h

theorem State.memOk.powerRecord {event value : Nat} (h : s.memOk) : (Machine.powerRecord s event index value).memOk :=
  .recordAll h

theorem State.memOk.powerRecordAt {event value : Nat} (h : s.memOk) :
    (Machine.powerRecordAt s p event index value).memOk :=
  .record h

theorem State.memOk.showLimit (h : s.memOk) : (Machine.showLimit s).memOk := .ite h h

theorem State.memOk.ladderWindow {share : Nat} {d : PartDraw} {w : Nat} (h : s.memOk) :
    (Machine.ladderWindow s p share d w).memOk :=
  .ite (.powerRecordAt h) h

theorem State.memOk.stopFlow (h : s.memOk) : (Machine.stopFlow s).memOk :=
  .ite h (.powerRecord (.thermalRecord (.foldl (fun h => .hold h) (.foldl id (.showLimit h)))))

theorem State.memOk.resumeFlow (h : s.memOk) : (Machine.resumeFlow s).memOk :=
  .powerRecord (.foldl (fun h => .unhold h) (.showLimit h))

theorem State.memOk.haltTiles (h : s.memOk) : (Machine.haltTiles s).memOk := .foldl id h

theorem EndsOk.execFlowStopTimeout (h : s.memOk) : EndsOk (Machine.execFlowStopTimeout s) := by
  unfold Machine.execFlowStopTimeout
  dsimp only
  refine .next (.ite (.requestPowerCycle (.powerRecord ?_)) h)
  unfold State.memOk
  dsimp only
  exact State.memOk.haltTiles (.foldl (fun h => .flushDie h) h)

theorem EndsOk.execRegulatorFault {rail : BitVec 8} {amps : BitVec 16} (h : s.memOk) :
    EndsOk (Machine.execRegulatorFault rail amps s) :=
  .next (.ite (.startChipReset (.powerRecord h)) (.ite (.startPartitionReset (.powerRecordAt h))
    (.ite (.startPartitionReset (.powerRecordAt h)) (.powerRecord h))))

theorem EndsOk.execCoolantReport {c : Cmd} {w : BitVec 64} {_seq : BitVec 32} (h : s.memOk) :
    EndsOk (Machine.execCoolantReport c w _seq s) := by
  refine .next (.mgmt (fun {u} h => ?_) h)
  extract_lets inlet outlet flow vIn vOut vFlow
  split
  · exact h
  · next s1 s2 cold s3 s4 hot _ s5 s6 good _ s7 _ =>
    have shown : s2.memOk := .ite h h
    have coldKept : s3.memOk := .ite (.thermalRecord shown) shown
    have limited : s4.memOk := .ite coldKept coldKept
    have outletKept : s5.memOk := .ite limited limited
    have hotKept : s6.memOk := .ite (.thermalRecord outletKept) outletKept
    have counted : s7.memOk := .showLimit hotKept
    exact .ite (.stopFlow counted) counted

theorem State.memOk.resumeAll (h : s.memOk) : (Machine.resumeAll s).memOk :=
  .foldl (fun h => .ite (.resumeWaiting h) h) h

theorem State.memOk.updateSlice (h : s.memOk) : (Machine.updateSlice s t).memOk := by
  unfold Machine.updateSlice
  dsimp only
  exact .ite (.sensorRecord h) (.ite (.resumeAll (.sensorRecord h)) h)

theorem State.memOk.updateStack (h : s.memOk) : (Machine.updateStack s n).memOk := by
  unfold Machine.updateStack
  dsimp only
  exact .ite (.sensorRecord h) (.ite (.resumeAll (.sensorRecord h)) h)

theorem State.memOk.followSensor (h : s.memOk) : (Machine.followSensor s i).memOk := by
  unfold Machine.followSensor
  split
  · exact .foldl (fun h => .updateSlice h) h
  · exact .ite (.updateStack h) h
  · exact .ite h h
  · exact h

theorem State.memOk.showSensor {ok : Bool} (h : s.memOk) : (Machine.showSensor s i ok).memOk :=
  .ite (.sensorRecord h) h

theorem State.memOk.showThermal (h : s.memOk) : (Machine.showThermal s).memOk := by
  unfold Machine.showThermal
  dsimp only
  exact h

/-- What the supply leaves is the memory after reset. -/
theorem State.memOk.powerOff {s0 : State} {part : Part} {b : Board → Board} : (Machine.powerOff s0 part b).memOk := by
  have dark : ∀ u : State, u.mem = State.reset.mem → u.memOk := fun u same =>
    State.memOk.of_mem (s := State.reset) rfl same
  unfold Machine.powerOff
  dsimp only
  exact .setReg (.ite (dark _ rfl) (.setFld (dark _ rfl)))

theorem State.memOk.thermTrip : (Machine.thermTrip s).memOk := .powerOff

theorem EndsOk.execSensorSample {samples : List (BitVec 12 × BitVec 16 × Bool)} (h : s.memOk) :
    EndsOk (Machine.execSensorSample samples s) :=
  .next (.ite .thermTrip (.showThermal (.foldl (fun h => .followSensor h) (.foldl (fun h => .ite (.showSensor h) h)
    (.foldl (fun h => .showSensor h) h)))))

theorem State.memOk.substWrite {path : RegPath} {x : W64} (h : s.memOk) : (Machine.substWrite s path k x).memOk := by
  unfold Machine.substWrite
  extract_lets r failed sub old show' was s1 s2 s3
  have shows : ∀ {u i}, u.memOk → (show' u i).memOk := fun h => .followSensor (.showSensor h)
  have before : s2.memOk := .ite (shows (.markLevel h)) (.markLevel h)
  have after : s3.memOk := .ite (shows before) before
  exact .ite (.rejectReg h) (.ite (.showThermal after) after)

theorem EndsOk.execRefreshRateLower {u : HotUnit} (h : s.memOk) : EndsOk (Machine.execRefreshRateLower u s) := by
  unfold Machine.execRefreshRateLower
  dsimp only
  refine .next ?_
  split <;> exact .ite h h

theorem EndsOk.execQuiesceCoolantTimeout {addr : BitVec 44} (h : s.memOk) :
    EndsOk (Machine.execQuiesceCoolantTimeout addr s) := by
  unfold Machine.execQuiesceCoolantTimeout
  dsimp only
  exact .next (.ite (.stopFlow (.sensorRecord h)) h)

end Sys2Proof.Machine
end

section
/-! O4. Canonical memory is kept: the start sequence. -/

namespace Sys2Proof.Machine

variable {s : State} {k p : Nat}

theorem State.memOk.takeBanks {active other : Nat} (h : s.memOk) : (Machine.takeBanks s active other).memOk :=
  .ite h (.ite h h)

theorem State.memOk.takeStrap {x : PartId × Fin 11 × Option (BitVec 6 × Bool)} (h : s.memOk) :
    (Machine.takeStrap s x).memOk :=
  .ite (.record h) (.ite (.record h) (.record h))

theorem State.memOk.takeStraps {sites : List (PartId × Fin 11 × Option (BitVec 6 × Bool))} (h : s.memOk) :
    (Machine.takeStraps s sites).memOk :=
  .ite (.failStart (.foldl (fun h => .takeStrap h) (.setFld (.foldl (fun h => .foldl id h) h))))
    (.goStep (.foldl (fun h => .takeStrap h) (.setFld (.foldl (fun h => .foldl id h) h))))

theorem State.memOk.numberTiles (h : s.memOk) : (Machine.numberTiles s).memOk :=
  .foldl (fun h => .ite h (.foldl id (.foldl id h))) h

theorem State.memOk.applyMapRec {r : MapRec} (h : s.memOk) : (Machine.applyMapRec s r).memOk := by
  unfold Machine.applyMapRec
  dsimp only
  split
  · exact .setFld h
  · exact .setReg (.setFld (.setFld (.setFld (.setFld (.setFld
      (.setFld (.setFld (.setFld (.setFld (.setFld h))))))))))
  all_goals exact h

theorem State.memOk.showSlices (h : s.memOk) : (Machine.showSlices s).memOk := .foldl (fun h => .ite (.elim h h) h) h

theorem State.memOk.showRowRepairs (h : s.memOk) : (Machine.showRowRepairs s).memOk := .foldl id h

theorem State.memOk.deriveMap (h : s.memOk) : (Machine.deriveMap s).memOk :=
  .showRowRepairs (.showSlices (.foldl (fun h => .applyMapRec h) (.numberTiles h)))

theorem State.memOk.showMismatch {j : Nat} (h : s.memOk) : (Machine.showMismatch s p j).memOk := .ite h h

theorem State.memOk.retireAbsent (h : s.memOk) : (Machine.retireAbsent s).memOk :=
  .foldl (fun h => .ite (.retireStack h) h) h

theorem State.memOk.noteUntrained {untrained : Bool} (h : s.memOk) : (Machine.noteUntrained s untrained).memOk :=
  .ite h (.ite h h)

theorem State.memOk.takeMap {a b : List (BitVec 18 × Byte)} {untrained : Bool} (h : s.memOk) :
    (Machine.takeMap s a b untrained).memOk := by
  unfold Machine.takeMap
  extract_lets f f1 s1 same s2 s3 s4
  have read : s1.memOk := .noteUntrained h
  have derived : s2.memOk := .ite read (.deriveMap read)
  have shown : s3.memOk := .foldl (fun h => .foldl (fun h => .showMismatch h) h) derived
  exact .ite (.goStep (.retireAbsent shown))
    (.goStep (.retireAbsent (.recordAll (.noteUntrained (.setFld (.setFld shown))))))

theorem State.memOk.drawKeys (h : s.memOk) : (Machine.drawKeys s).memOk := by
  unfold Machine.drawKeys
  dsimp only
  exact .foldl (fun h => .draw h) h

theorem State.memOk.takeBases {failed : List PartId} (h : s.memOk) : (Machine.takeBases s failed).memOk :=
  .ite h (.foldl id (.ite h (.drawKeys h)))

theorem State.memOk.noteFull {full : Bool} (h : s.memOk) : (Machine.noteFull s full).memOk := .ite h (.ite h h)

theorem State.memOk.noteWidth {r : MapRec} (h : s.memOk) : (Machine.noteWidth s r).memOk := .edgeRecord h

theorem State.memOk.takeEdges {dead : List (Fin 12 × Fin 16)} {wires : List Wire} {full : Bool} (h : s.memOk) :
    (Machine.takeEdges s dead wires full).memOk := by
  unfold Machine.takeEdges
  dsimp only
  refine .ite (.failStart (.noteFull ?_)) (.goStep (.noteFull ?_))
  all_goals
    unfold State.memOk
    dsimp only
    exact State.memOk.foldl (fun h => .noteWidth h) (.foldl (fun h => .showEdge h)
      (.foldl (fun h => .ite h (.addMapRec h))
      (.foldl (fun h => .repairWire h) (.foldl (fun h => .foldl (fun h => .repairRecord h) (.repairWire h)) h))))

theorem State.memOk.newMap (h : s.memOk) : (Machine.newMap s).memOk := .ite h h

theorem State.memOk.liftGood {bad : List StackId} {regions : List (BitVec 23)} (h : s.memOk) :
    (Machine.liftGood s bad regions).memOk := by
  unfold Machine.liftGood
  dsimp only
  refine .foldl (fun h => ?_) (.ite h h)
  split <;> exact h

theorem State.memOk.takeMemory {bad : List StackId} {regions : List (BitVec 23)} {full : Bool} (h : s.memOk) :
    (Machine.takeMemory s bad regions full).memOk := by
  unfold Machine.takeMemory
  dsimp only
  refine .goStep ?_
  unfold State.memOk
  dsimp only
  refine State.memOk.noteFull (.newMap (.ite ?_ (Mem.wf_filter _ _ ?_)))
  all_goals
    exact State.memOk.foldl (fun h => .ite (.setFld (.retireStack h)) h)
      (.ite (.foldl (fun h => .ite (.retireRegion h) h) (.liftGood h)) h)

theorem State.memOk.placeHandlers (h : s.memOk) : (Machine.placeHandlers s).memOk :=
  .foldl (fun h => .placeFirmware h) h

theorem State.memOk.dropSpare (h : s.memOk) : (Machine.dropSpare s p k).memOk := .ite h (.repairRecord h)

theorem State.memOk.takeTests10 {tiles' : List TileId} {rows' : List (TileId × BitVec 5)}
    {engines : List (PartId × BitVec 8 × BitVec 24)} {spares' : List (PartId × Fin 48)}
    {slices' : List (PartId × Fin 272)} (h : s.memOk) :
    (Machine.takeTests10 s tiles' rows' engines spares' slices').memOk := by
  have dropped : ∀ {l : List (Nat × Nat)},
      (l.foldl (fun s x => Machine.dropSpare (Machine.dropSlot s x.1 x.2) x.1 x.2) s).memOk :=
    .foldl (fun h => .dropSpare h) h
  unfold Machine.takeTests10
  dsimp only
  refine .goStep (.lowerGrade (State.memOk.foldl (fun h => .ite h h) (.foldl (fun h => .ite h (.disableEngine h))
    (.foldl (fun h => .enableEngine h) (.foldl (fun h => .retireTile h) (.foldl (fun h => .ite h h)
      (.foldl (fun h => .spareIn h) (.ite ?_ (.foldl id ?_)))))))))
  all_goals exact .foldl (fun h => .ite (.dropSpare h) h) dropped

theorem State.memOk.placeAreas (h : s.memOk) : (Machine.placeAreas s).memOk :=
  .setFld (.setFld (.setFld (.foldl id h)))

theorem State.memOk.finishStart {ms : Nat} (h : s.memOk) : (Machine.finishStart s ms).memOk := by
  unfold Machine.finishStart
  dsimp only
  refine .emit (.foldl (fun h => .flushRing h) (.setFld (.setFld (.setFld (.ite ?_ ?_)))))
  · unfold State.memOk
    dsimp only
    exact State.memOk.setFld (.setFlash (.ite h (.setTickTimes (.placeAreas h))))
  · exact .ite h (.setTickTimes (.placeAreas h))

theorem EndsOk.execStartStepDone {x : StepFind} {ms : BitVec 32} (h : s.memOk) :
    EndsOk (Machine.execStartStepDone x ms s) := by
  unfold Machine.execStartStepDone
  refine .next (.ite h ?_)
  split
  · exact h
  · exact .takeBanks h
  · exact .takeStraps h
  · exact .takeMap h
  · exact .takeMap h
  · exact .takeBases h
  · exact .takeEdges h
  · exact .takeMemory h
  · exact .ite (.goStep (.placeHandlers h)) h
  · exact h
  · exact .ite h (.takeTests10 h)
  · exact .goStep (.noteFull h)
  · exact .finishStart h
  · exact h

theorem EndsOk.execRestartSupervisionTimeout (h : s.memOk) : EndsOk (Machine.execRestartSupervisionTimeout s) := by
  unfold Machine.execRestartSupervisionTimeout
  refine .next (.ite ?_ h)
  unfold State.memOk
  dsimp only
  exact State.memOk.requestPowerCycle h

theorem EndsOk.execCrozierWave {p : Option PartId} {w : Fin 8} (h : s.memOk) :
    EndsOk (Machine.execCrozierWave p w s) := by
  unfold Machine.execCrozierWave
  refine .next ?_
  split
  · refine .ite ?_ h
    unfold State.memOk
    dsimp only
    exact State.memOk.foldl (fun h => .powerWave h) h
  · exact .ite (.powerWave h) h

theorem State.memOk.unlock {f : Fld} {code : Nat} {chip : Bool} (h : s.memOk) :
    (Machine.unlock s f p code chip).memOk :=
  .ite (.startChipResetOf h) (.startPartitionResetOf h)

theorem State.memOk.stopUnit (h : s.memOk) : (Machine.stopUnit s k).memOk := by
  unfold Machine.stopUnit
  dsimp only
  refine .disableEngine ?_
  split
  · exact .abortUnit h
  · exact .abortUnit h
  · exact h

theorem EndsOk.execPllLockLoss {x : Pll} (h : s.memOk) : EndsOk (Machine.execPllLockLoss x s) := by
  unfold Machine.execPllLockLoss
  refine .next (.ite h ?_)
  split
  · exact .unlock h
  · exact .unlock h
  · exact .unlock h
  · exact .ite (.moduleOut h) h
  · exact .ite (.retireStack h) h
  · exact .ite (.foldl (fun h => .stopUnit h) h) h
  · exact .foldl (fun h => .portDown h) h

theorem State.memOk.switchOff : (Machine.switchOff s).memOk := .powerOff

end Sys2Proof.Machine
end

section
/-! O4. Canonical memory is kept: special accesses. -/

namespace Sys2Proof.Machine

variable {s : State} {k off t : Nat}

theorem State.memOk.commitShadows {x : W64} (h : s.memOk) : (Machine.commitShadows s x).memOk := .applySettings h

theorem State.memOk.startMeter {path : RegPath} {m x : W64} (h : s.memOk) : (Machine.startMeter s path m x).memOk :=
  .ite (.rejectReg h) h

theorem State.memOk.bistWrite {path : RegPath} {pattern : Nat} (h : s.memOk) :
    (Machine.bistWrite s path t pattern).memOk :=
  .ite (.rejectReg h) h

theorem State.memOk.keyedReset {path : RegPath} {p : Option Nat} {x : W64} {go : State → State}
    (step : ∀ {u}, u.memOk → (go u).memOk) (h : s.memOk) :
    (Machine.keyedReset s path off p x go).memOk :=
  .ite (.rejectReg h) (.ite (step h) h)

theorem State.memOk.portWrite {base : Nat} {d : RegDef} {x m : W64} (h : s.memOk) :
    (Machine.portWrite s base k d x m).memOk := by
  unfold Machine.portWrite
  dsimp only
  split
  · exact .portDown (.applyFields h)
  · exact .portDown (.applyFields h)
  · exact .applyFields h

theorem State.memOk.queueWrite {base : Nat} {d : RegDef} {x m : W64} (h : s.memOk) :
    (Machine.queueWrite s base k d x m).memOk := by
  unfold Machine.queueWrite
  dsimp only
  split
  · exact .resumeQueue (.ite (.applyFields h) (.applyFields h))
  · exact .cancelQueue (.ite (.applyFields h) (.applyFields h))
  · exact .ite (.applyFields h) (.applyFields h)

theorem State.memOk.preemptWrite {x : W64} (h : s.memOk) : (Machine.preemptWrite s t x).memOk := by
  unfold Machine.preemptWrite
  dsimp only
  split
  · exact .requestSave h
  · exact .requestSave h
  · exact .ite h h
  · exact h

theorem SomeOk.specialWrite {path : RegPath} {base : Nat} {d : RegDef} {idx : List Nat} {x m : W64} (h : s.memOk) :
    SomeOk (Machine.specialWrite s path base d idx x m) :=
  .ite (.some (.commitShadows h)) (.ite (.some (.ite (.keyedReset (fun h => .startChipReset h) h) h))
    (.ite (.some (.ite (.keyedReset (fun h => .startPartitionReset h) h) h))
    (.ite (.some (.ite (.ctxCmd h) h)) (.ite (.some (.ite (.getD (.engRst h) (.rejectReg h)) h))
    (.ite (.some (.getD (.genClear h) (.rejectReg h))) (.ite (.some (.capRetire h))
    (.ite (.some h) (.ite (.some h) (.ite (.some (.ite (.rejectReg h) (.addHead h)))
    (.ite (.some (.queueWrite h)) (.ite (.some (.queueWrite h))
    (.ite (.some (.portWrite h)) (.ite (.some (.preemptWrite h))
    (.ite (.ite (.some (.bistWrite h)) .none) (.ite (.some (.writeAlarmPolicy h))
    (.ite (.some (.ite (.getD (.regroup h) (.rejectReg h)) h))
    (.ite (.some (.ite (.ite h (.rejectReg h)) h)) (.ite (.some (.ite h (.ite (.rejectReg h) h)))
    (.ite (.some (.ite (.unhold h) h)) (.ite (.some (.ite (.rejectReg h) (.freeJournal h)))
    (.ite (.some (.ite h h)) (.ite (.some (.substWrite h)) (.ite (.ite (.some (.startMeter h)) .none)
    .none)))))))))))))))))))))))

theorem State.memOk.regWrite {path : RegPath} {size : Nat} {v : W64} (h : s.memOk) :
    (Machine.regWrite s path off size v).memOk := by
  unfold Machine.regWrite
  dsimp only
  refine .ite h ?_
  split
  · exact .ite h h
  · refine .ite (.rejectReg h) ?_
    split
    · next eq => exact .ite (.rejectReg h) (.ite (.markLevel (SomeOk.specialWrite h _ eq))
        (SomeOk.specialWrite h _ eq))
    · exact .ite (.markLevel (.writeReg h)) (.writeReg h)

theorem State.memOk.regRead {path : RegPath} {size : Nat} (h : s.memOk) :
    (Machine.regRead s path off size).2.memOk := by
  unfold Machine.regRead
  dsimp only
  split
  · exact h
  · exact .readReg h

theorem EndsOk.execRegisterRead {path : RegPath} {off : BitVec 28} {size : BitVec 4} (h : s.memOk) :
    EndsOk (Machine.execRegisterRead path off size s) := by
  unfold Machine.execRegisterRead
  dsimp only
  exact .next (.regRead h)

theorem EndsOk.execMemRequestArrive {r : BitVec 32} {x : LineFault} (h : s.memOk) :
    EndsOk (Machine.execMemRequestArrive r x s) := by
  unfold Machine.execMemRequestArrive
  dsimp only
  refine .next ?_
  split
  · exact h
  · refine .ite h (.ite h (.ite h (.ite (.raiseAlarm h) (.ite (.rejectReg h) ?_))))
    split
    · exact .regRead h
    · exact .regWrite h
    · exact .ite h (.sendMem h)
    · exact .hostMem h
    · exact .performReq h
    · exact .performReq h
    · exact .performReq h
    · exact .ite h (.ite (.holdAt h) (.performReq (.lineFault h)))

end Sys2Proof.Machine
end

section
/-! O4. Canonical memory is kept: near-memory units. -/

namespace Sys2Proof.Machine

variable {s : State} {a c k n status t : Nat}

theorem State.memOk.stateOf {o : Host.Outcome State Fault Refusal} (h : s.memOk) (ends : EndsOk o) :
    (Machine.stateOf s o).memOk := by
  cases o with
  | next t => exact ends t rfl
  | fault f => exact h
  | refused r => exact h

theorem State.memOk.performAccess {x : HeldAccess} (h : s.memOk) : (Machine.performAccess s x).memOk := by
  unfold Machine.performAccess
  split
  · split
    · exact h
    · exact .stateOf h (.execMemRequestArrive h)
  · exact .stateOf h (.execDmaLineReturn h)
  · exact .stateOf h (.execDescriptorFetchReturn h)
  · exact .stateOf h (.execDescriptorComplete h)
  · exact .stateOf h (.execKvWalkEntryReturn h)
  · exact .stateOf h (.execCollPush h)
  · exact .stateOf h (.execCollSend h)
  · exact .stateOf h (.execCollectiveCommandComplete h)
  · exact .stateOf h (.execBar2Read h)
  · exact .stateOf h (.execBar2Write h)
  · exact .settleDepart (.inOrder h)
  · exact .ite (.holdWord h) h
  · exact .clearHeld h
  · exact .endPass h

theorem State.memOk.performHeld (h : s.memOk) : (Machine.performHeld s k).memOk :=
  .foldl (fun h => .performAccess h) h

theorem State.memOk.abortHere {faulty : Bool} (h : s.memOk) : (Machine.abortHere s k status faulty).memOk :=
  .performHeld (.abortUnit h)

theorem State.memOk.parityRecord (h : s.memOk) : (Machine.parityRecord s k).memOk := by
  unfold Machine.parityRecord
  dsimp only
  exact .record (.sramSyndrome h)

theorem State.memOk.issue {n : StackId} {c : UnitAt} {body : Nat → CruUnit → State → State}
    (step : ∀ {k u v}, v.memOk → (body k u v).memOk) (h : s.memOk) :
    (Machine.issue n c s body).memOk := by
  unfold Machine.issue
  dsimp only
  split
  · exact h
  · split
    · exact step h
    · exact .abortHere h
    · exact step (.parityRecord h)

theorem State.memOk.unitStep {n : StackId} {c : UnitAt} {f : CruUnit → CruUnit} (h : s.memOk) :
    (Machine.unitStep n c s f).memOk :=
  .issue (fun h => h) h

theorem State.memOk.unitStoreStep {n : StackId} {c : UnitAt} {ranges : CruUnit → List (Nat × Nat × Nat)}
    {f : CruUnit → CruUnit} (h : s.memOk) :
    (Machine.unitStoreStep n c s ranges f).memOk :=
  .issue (fun h => .ite (.abortHere h) (.ite h h)) h

theorem EndsOk.execCruAlu {n : StackId} {c : UnitAt} {op : CruAluOp} {d a b : BitVec 4} (h : s.memOk) :
    EndsOk (Machine.execCruAlu n c op d a b s) :=
  .next (.unitStep h)

theorem EndsOk.execCruAddi {n : StackId} {c : UnitAt} {d a : BitVec 4} {imm : BitVec 18} (h : s.memOk) :
    EndsOk (Machine.execCruAddi n c d a imm s) :=
  .next (.unitStep h)

theorem EndsOk.execCruLi {n : StackId} {c : UnitAt} {d : BitVec 4} {imm : BitVec 18} (h : s.memOk) :
    EndsOk (Machine.execCruLi n c d imm s) :=
  .next (.unitStep h)

theorem EndsOk.execCruLui {n : StackId} {c : UnitAt} {d : BitVec 4} {imm : BitVec 18} (h : s.memOk) :
    EndsOk (Machine.execCruLui n c d imm s) :=
  .next (.unitStep h)

theorem EndsOk.execCruNop {n : StackId} {c : UnitAt} (h : s.memOk) : EndsOk (Machine.execCruNop n c s) :=
  .next (.unitStep h)

theorem EndsOk.execCruBranch {n : StackId} {c : UnitAt} {cnd : CruCond} {a b : BitVec 4} {off : BitVec 18}
    (h : s.memOk) :
    EndsOk (Machine.execCruBranch n c cnd a b off s) :=
  .next (.issue (fun h => h) h)

theorem EndsOk.execCruJmp {n : StackId} {c : UnitAt} {off : BitVec 18} (h : s.memOk) :
    EndsOk (Machine.execCruJmp n c off s) :=
  .next (.issue (fun h => h) h)

theorem EndsOk.execLdS {n : StackId} {c : UnitAt} {d a : BitVec 4} {imm : BitVec 18} (h : s.memOk) :
    EndsOk (Machine.execLdS n c d a imm s) :=
  .next (.unitStoreStep h)

theorem EndsOk.execStS {n : StackId} {c : UnitAt} {d a : BitVec 4} {imm : BitVec 18} (h : s.memOk) :
    EndsOk (Machine.execStS n c d a imm s) :=
  .next (.unitStoreStep h)

theorem EndsOk.execFld {n : StackId} {c : UnitAt} {fd a : BitVec 4} {imm : BitVec 18} (h : s.memOk) :
    EndsOk (Machine.execFld n c fd a imm s) :=
  .next (.unitStoreStep h)

theorem EndsOk.execFst {n : StackId} {c : UnitAt} {fs a : BitVec 4} {imm : BitVec 18} (h : s.memOk) :
    EndsOk (Machine.execFst n c fs a imm s) :=
  .next (.unitStoreStep h)

theorem State.memOk.unitBound {inWin : Bool} (h : s.memOk) : (Machine.unitBound s k inWin).memOk := by
  unfold Machine.unitBound
  dsimp only
  split
  · exact .windowViolation (.abortHere h)
  · exact .abortHere h

theorem EndsOk.execCmIn {n : StackId} {c : UnitAt} {d a b : BitVec 4} (h : s.memOk) :
    EndsOk (Machine.execCmIn n c d a b s) :=
  .next (.issue (fun h => .ite (.unitBound h) (.ite h h)) h)

theorem State.memOk.unitRead {x : LineFault} (h : s.memOk) : (Machine.unitRead s a x).2.memOk := by
  unfold Machine.unitRead
  dsimp only
  split
  · exact .scrubRead h
  · exact .holdIn (.holdWord (.scrubRead h))

theorem EndsOk.execCmInData {n : StackId} {c : Fin 32} {xs : List LineFault} (h : s.memOk) :
    EndsOk (Machine.execCmInData n c xs s) := by
  unfold Machine.execCmInData
  refine .next ?_
  dsimp only
  split
  · exact h
  · refine .ite h (.ite (.abortHere (.accessRecord h)) (.ite (.abortHere (.foldl (fun h => .readRecords h) ?_))
      (.setUnit ?_)))
    all_goals
      exact List.foldlRecOn (motive := fun v : List (LineSt × List Byte) × State => v.2.memOk) _ _ h
        fun _ kept _ _ => .unitRead kept

theorem EndsOk.execCmOut {n : StackId} {c : UnitAt} {d a b : BitVec 4} (h : s.memOk) :
    EndsOk (Machine.execCmOut n c d a b s) :=
  .next (.issue (fun h => .ite (.unitBound h) (.ite h (.ite (.abortHere (.accessRecord h))
    (.foldl (fun h => .writeBytes h) h)))) h)

theorem State.memOk.flushGranules {g cnt : Nat} (h : s.memOk) : (Machine.flushGranules s n c g cnt).memOk :=
  .evictAll h

theorem EndsOk.execLease {n : StackId} {c : UnitAt} {a b : BitVec 4} {slot : BitVec 2} (h : s.memOk) :
    EndsOk (Machine.execLease n c a b slot s) :=
  .next (.issue (fun h => .ite (.abortHere h) (.ite h (.flushGranules h))) h)

theorem EndsOk.execQend {n : StackId} {c : UnitAt} (h : s.memOk) : EndsOk (Machine.execQend n c s) :=
  .next (.unitStep h)

theorem EndsOk.execQuantumBoundary {n : StackId} {c : Fin 32} (h : s.memOk) :
    EndsOk (Machine.execQuantumBoundary n c s) :=
  .next (.ite h (.ite (.ite h (.ite (.abortHere h) (.ite (.abortHere h) (.ite (.performHeld h) (.performHeld h)))))
    (.performHeld h)))

theorem EndsOk.execCruEnd {n : StackId} {c : UnitAt} (h : s.memOk) : EndsOk (Machine.execCruEnd n c s) :=
  .next (.issue (fun h => .ite (.performHeld h) h) h)

theorem EndsOk.execBusPut {n : StackId} {c : UnitAt} {d a b : BitVec 4} (h : s.memOk) :
    EndsOk (Machine.execBusPut n c d a b s) :=
  .next (.issue (fun h => .ite (.abortHere h) (.ite h h)) h)

theorem EndsOk.execBusLineReceive {n : StackId} {c : Fin 32} (h : s.memOk) :
    EndsOk (Machine.execBusLineReceive n c s) := by
  unfold Machine.execBusLineReceive
  dsimp only
  refine .next ?_
  split
  · exact .ite h h
  · exact h

theorem EndsOk.execBusWait {n : StackId} {c : UnitAt} {a : BitVec 4} (h : s.memOk) :
    EndsOk (Machine.execBusWait n c a s) :=
  .next (.issue (fun h => .ite h h) h)

theorem EndsOk.execCdSet {n : StackId} {c : UnitAt} {acc wfmt ifmt : BitVec 3} (h : s.memOk) :
    EndsOk (Machine.execCdSet n c acc wfmt ifmt s) :=
  .next (.issue (fun h => .ite (.abortHere h) h) h)

theorem EndsOk.execCdStep {n : StackId} {c : UnitAt} {acc : BitVec 3} {a b : BitVec 4} (h : s.memOk) :
    EndsOk (Machine.execCdStep n c acc a b s) :=
  .next (.unitStoreStep h)

theorem EndsOk.execCdFin {n : StackId} {c : UnitAt} {acc : BitVec 3} {a b d : BitVec 4} {init : Bool} (h : s.memOk) :
    EndsOk (Machine.execCdFin n c acc a b d init s) :=
  .next (.issue (fun h => .ite (.abortHere h) (.ite h h)) h)

theorem EndsOk.execCvArith {n : StackId} {c : UnitAt} {op : CvOp} {fd fa fb fc : BitVec 4} (h : s.memOk) :
    EndsOk (Machine.execCvArith n c op fd fa fb fc s) :=
  .next (.unitStep h)

theorem EndsOk.execCvExp2 {n : StackId} {c : UnitAt} {fd fa : BitVec 4} (h : s.memOk) :
    EndsOk (Machine.execCvExp2 n c fd fa s) :=
  .next (.unitStep h)

theorem EndsOk.execCvRmax {n : StackId} {c : UnitAt} {fd fa : BitVec 4} (h : s.memOk) :
    EndsOk (Machine.execCvRmax n c fd fa s) :=
  .next (.unitStep h)

theorem EndsOk.execCvBcast {n : StackId} {c : UnitAt} {fd fa lane : BitVec 4} (h : s.memOk) :
    EndsOk (Machine.execCvBcast n c fd fa lane s) :=
  .next (.unitStep h)

theorem State.memOk.unitBad {n : StackId} {c : UnitAt} (h : s.memOk) : (Machine.unitBad n c s).memOk :=
  .issue (fun h => .abortHere h) h

theorem EndsOk.execCvSum {n : StackId} {c : UnitAt} {fd a b : BitVec 4} (h : s.memOk) :
    EndsOk (Machine.execCvSum n c fd a b s) :=
  .next (.ite (.unitBad h) (.unitStoreStep h))

theorem EndsOk.execCvCvt {n : StackId} {c : UnitAt} {d a b : BitVec 4} {fmt : BitVec 3} {g : Bool} (h : s.memOk) :
    EndsOk (Machine.execCvCvt n c d a b fmt g s) :=
  .next (.ite (.unitBad h) (.unitStoreStep h))

theorem EndsOk.execCvUnpk {n : StackId} {c : UnitAt} {d a b : BitVec 4} {fmt : BitVec 3} {g : Bool} (h : s.memOk) :
    EndsOk (Machine.execCvUnpk n c d a b fmt g s) :=
  .next (.ite (.unitBad h) (.unitStoreStep h))

theorem State.memOk.slotWord {more : Bool} {op : TileOp} (h : s.memOk) : (Machine.slotWord t more op s).memOk :=
  .ite (.ite h (.tryIssue h)) (.slotStep h)

theorem EndsOk.unitWord {n : StackId} {c : UnitAt} {w : W32} (h : s.memOk) : EndsOk (Machine.unitWord n c w s) := by
  unfold Machine.unitWord
  dsimp only
  split
  · exact .execCruNop h
  iterate 8 exact .execCruAlu h
  · exact .execCruAddi h
  · exact .execCruLi h
  · exact .execCruLui h
  iterate 4 exact .execCruBranch h
  · exact .execCruJmp h
  · exact .execLdS h
  · exact .execStS h
  · exact .execFld h
  · exact .execFst h
  · exact .execCmIn h
  · exact .execCmOut h
  · exact .execLease h
  · exact .execQend h
  · exact .execCruEnd h
  · exact .execBusPut h
  · exact .execBusWait h
  · exact .execCdSet h
  · exact .execCdStep h
  · exact .execCdFin h
  iterate 5 exact .execCvArith h
  · exact .execCvExp2 h
  · exact .execCvRmax h
  · exact .execCvBcast h
  · exact .execCvSum h
  · exact .execCvCvt h
  · exact .execCvUnpk h
  · exact .next h

theorem EndsOk.execReservedOpcode {x : OpTarget} {w : BitVec 32} (h : s.memOk) :
    EndsOk (Machine.execReservedOpcode x w s) := by
  unfold Machine.execReservedOpcode
  split
  · exact .next (.slotWord h)
  · exact .ite (.next (.unitBad h)) (.unitWord h)

theorem State.memOk.launchStatus {x : Launch} {reruns failed : Nat} (h : s.memOk) :
    (Machine.launchStatus s x status reruns failed).memOk :=
  .store h

theorem State.memOk.refuseLaunch {x : Launch} (h : s.memOk) : (Machine.refuseLaunch s x).memOk :=
  .startRevival (.ite (.ite (.engineSignal (.launchStatus h)) (.launchStatus h))
    (.windowViolation (.ite (.engineSignal (.launchStatus h)) (.launchStatus h))))

theorem EndsOk.execLaunchRecordRead {c : CtxId} {p : PartId} (h : s.memOk) :
    EndsOk (Machine.execLaunchRecordRead c p s) := by
  unfold Machine.execLaunchRecordRead
  dsimp only
  refine .next ?_
  split
  · exact h
  · exact .ite h (.ite (.updCtx h) (.refuseLaunch (.updCtx h)))

theorem State.memOk.cleanStack (h : s.memOk) : (s.cleanStack c n).memOk := .foldl (fun h => .writeBack h) h

theorem EndsOk.execLaunchStart {l : BitVec 32} (h : s.memOk) : EndsOk (Machine.execLaunchStart l s) := by
  unfold Machine.execLaunchStart
  dsimp only
  refine .next ?_
  split
  · exact h
  · exact .ite h (.ite (.refuseLaunch h) (.foldl id (.cleanStack h)))

theorem State.memOk.catchFaults {x : Launch} {faults : BitVec 32} (h : s.memOk) :
    (Machine.catchFaults s x faults).memOk := by
  unfold Machine.catchFaults
  refine .foldl (fun h => ?_) h
  split
  · exact h
  · exact h
  · exact .abortHere h

theorem State.memOk.failUnit (h : s.memOk) : (Machine.failUnit s k).memOk := .startEngineReset h

theorem EndsOk.execLaunchEnd {l faults : BitVec 32} (h : s.memOk) : EndsOk (Machine.execLaunchEnd l faults s) := by
  unfold Machine.execLaunchEnd
  dsimp only
  refine .next ?_
  split
  · exact h
  · exact .ite h (.ite h (.ite (.foldl id (.catchFaults h)) (.ite
      (.foldl id (.foldl (fun h => .failUnit h) (.engineSignal (.launchStatus (.catchFaults h)))))
      (.startRevival (.foldl id (.foldl (fun h => .failUnit h) (.engineSignal (.launchStatus (.catchFaults h)))))))))

theorem EndsOk.execLaunchBudgetExpire {l : BitVec 32} (h : s.memOk) : EndsOk (Machine.execLaunchBudgetExpire l s) := by
  unfold Machine.execLaunchBudgetExpire
  refine .next ?_
  split
  · exact h
  · refine .ite (.foldl (fun h => ?_) h) h
    split
    · exact .abortHere h
    · exact .abortHere h
    · exact h

end Sys2Proof.Machine
end

section
/-! O4. Canonical memory is kept: commands. -/

namespace Sys2Proof.Machine

variable {s : State}

theorem EndsOk.exec {i : Instr} (h : s.memOk) : EndsOk (Machine.exec i s) := by
  unfold Machine.exec
  cases i with
  | add | sub | and | or | xor | sll | srl | sra | slt | sltu | min | max | minu | maxu | mul | mulh | mulhu | addi
    | andi | ori | xori | slli | srli | srai | slti | sltiu | li | insh | aSet | aGet | aAddi | aAdd | brEq | brNe
    | brLt | brGe | brLtu | brGeu | brPany | brPnone | jmp | jal | jr | loopSet | loopSeti | loopBr | loopGet | rdsr
    | stepWait | fret | fretReplay | vAdd | vSub | vMul | vFma | vFms | vFnma | vMax | vMin | vAbs | vNeg | vCmp
    | vIcmp | vIadd | vIsub | vImul | vImulh | vIand | vIor | vIxor | vIshl | vIshr | vIsar | vImax | vImin | vImac
    | vCvt | vCvtMx | vCvtMxs | vCvtMxf | vExp2 | vLog2 | vRcp | vRsqrt | vOsm | vRsum | vRmax | vRmin | vIrsum
    | vScan | vIscan | vPerm | vRot | vBfly | vSel | vBcast | vBcastl | vIns | vExt | vIota | vMov | vPand | vPor
    | vPxor | vPandn | vPs2p | vPp2s | vPcnt | vRng | vRngU | mxaWload | mxaPass | mxaAccMv | mxaAccSt | mxaAccStt
    | mxaAccZero | lsLd | lsSt | lsVld | lsVst | lsClaim | lsPublish | lsRelease | lsZero | memLd | memSt | memPf
    | memDrop | memFence | atom | kvWalk | kvAppend | dmaPost | dmaStat | dmaCancel | sySignal | syWait | syArm
    | syRead | nop => exact .tileSlot h
  | stepWaitRetire => exact .execStepWaitRetire h
  | vTreeInit | vTreePush | vTreeFin => exact .treeSlot h
  | opRetire => exact .execOpRetire h
  | passVerdict => exact .execPassVerdict h
  | smoothFillEnd => exact .next (.ite (.ite h h) h)
  | smoothRampUpEnd => exact .next (.ite (.ite (.tryIssue h) h) h)
  | kvWalkEntryReturn => exact .execKvWalkEntryReturn h
  | releaseWritebackDone => exact .execReleaseWritebackDone h
  | memRequestArrive => exact .execMemRequestArrive h
  | objectUpdateArrive => exact .next (.foldl (fun h => .applyUpdate h) h)
  | memDataArrive => exact .execMemDataArrive h
  | memAckReturn => exact .execMemAckReturn h
  | ibufLineArrive => exact .execIbufLineArrive h
  | deferredTrapTaken => exact .execDeferredTrapTaken h
  | tagStallTimeout | syncWaitTimeout => exact .next (.stallTrap h)
  | tileHang => exact .execTileHang h
  | stepSaveRequest | urgentSaveRequest => exact .next (.requestSave h)
  | restoreRequest | laneLockLoss | thermalGapStep | dieFrequencyStep | meterComplete | entdaa | tilePowerGoodTimeout
    | refclkStop | auxPowerUp | smoothRampDownEnd | mctpEndpointIdAssign => exact .next (.ite h h)
  | preemptDrainDone | preemptDefer => exact .next (.ite (.setTile (.foldl (fun h => .ite h h) h)) h)
  | saveComplete => exact .execSaveComplete h
  | restoreComplete => exact .execRestoreComplete h
  | descriptorFetchReturn => exact .execDescriptorFetchReturn h
  | descriptorStart => exact .execDescriptorStart h
  | dmaLineReturn => exact .execDmaLineReturn h
  | descriptorComplete => exact .execDescriptorComplete h
  | dmaTagWaitTimeout => exact .execDmaTagWaitTimeout h
  | ringFullTimeout => exact .execRingFullTimeout h
  | dmaQueueResume | bulkQueueResume => exact .next (.resumeQueue h)
  | dmaQueueCancel | bulkQueueCancel => exact .next (.cancelQueue h)
  | cancelComplete => exact .execCancelComplete h
  | bulkQpost => exact .next (.ite (.rejectReg h) (.addHead h))
  | bulkPostFetch => exact .execBulkPostFetch h
  | launchRecordRead => exact .execLaunchRecordRead h
  | launchStart => exact .execLaunchStart h
  | launchEnd => exact .execLaunchEnd h
  | quantumBoundary => exact .execQuantumBoundary h
  | leaseLimitExpire => exact .next (.ite (.performHeld h) h)
  | launchBudgetExpire => exact .execLaunchBudgetExpire h
  | cruAlu | cruAddi | cruLi | cruLui | qend | cvArith | cvExp2 | cvRmax | cvBcast | cruNop
    => exact .next (.unitStep h)
  | cruBranch | cruJmp => exact .next (.issue (fun h => h) h)
  | ldS | stS | fld | fst | cdStep => exact .next (.unitStoreStep h)
  | cmIn => exact .next (.issue (fun h => .ite (.unitBound h) (.ite h h)) h)
  | cmInData => exact .execCmInData h
  | cmOut => exact .execCmOut h
  | lease => exact .next (.issue (fun h => .ite (.abortHere h) (.ite h (.flushGranules h))) h)
  | cruEnd => exact .next (.issue (fun h => .ite (.performHeld h) h) h)
  | busPut | cdFin => exact .next (.issue (fun h => .ite (.abortHere h) (.ite h h)) h)
  | busLineReceive => exact .execBusLineReceive h
  | busWait => exact .next (.issue (fun h => .ite h h) h)
  | cdSet => exact .next (.issue (fun h => .ite (.abortHere h) h) h)
  | cvSum | cvCvt | cvUnpk => exact .next (.ite (.unitBad h) (.unitStoreStep h))
  | collInit => exact .next (.withColl (fun h => .ite (.haltColl h) h) h)
  | collPush => exact .next (.withColl (fun h => .ite (.haltColl h) (.collRead h)) h)
  | collRecv => exact .next (.withColl (fun h => .ite (.haltColl h) (.takeMessage h)) h)
  | collSend => exact .execCollSend h
  | collFin => exact .execCollFin h
  | collRecvw => exact .execCollRecvw h
  | collSignal => exact .execCollSignal h
  | collWait => exact .next (.withColl (fun h => .ite (.haltColl h) (.ite h h)) h)
  | rd | wr | atomPkt | sig | rdRsp | wrAck | atomRsp | sigAck | cts | cdata | cack => exact .packetCmd h
  | transportResendTimeout => exact .execTransportResendTimeout h
  | flitReceive => exact .ite .fault (.next (.ite h (.ite (.ite h h) (.ite h (.drainLink (.ite h h))))))
  | retryRequest => exact .execRetryRequest h
  | portTrainingDone => exact .execPortTrainingDone h
  | portDown => exact .next (.portDown h)
  | portRetrain | portTakeDown => exact .next (.ite (.rejectReg h) (.portDown h))
  | hello => exact .ite .fault (.next (.ite h (.ite h h)))
  | depart | probeRsp => exact .ite .fault (.next (.ite h h))
  | probeTimer => exact .execProbeTimer h
  | probe => exact .ite .fault (.next (.ite h (.emitPacket h)))
  | tickAnnounce | backupMasterTakeover => exact .next (.ite (.announce h) h)
  | tick => exact .ite .fault (.next (.ite h (.scheduleTick h)))
  | readyCheck => exact .execReadyCheck h
  | notReady => exact .ite .fault (.next (.ite h (.ite (.ite h h) (.reportUnready h))))
  | slipDecision => exact .execSlipDecision h
  | slip => exact .ite .fault (.next (.ite h (.foldl (fun h => .emitLink h) h)))
  | tickFire => exact .execTickFire h
  | recoveryPointComplete => exact .execRecoveryPointComplete h
  | planStep => exact .execPlanStep h
  | stallSetExchange => exact .execStallSetExchange h
  | stepRecordAppend => exact .execStepRecordAppend h
  | revivalRestart => exact .execRevivalRestart h
  | revivalProbe => exact .execRevivalProbe h
  | rollbackToRecoveryPoint => exact .execRollbackToRecoveryPoint h
  | engineWatchdogExpire => exact .next (.ite (.startEngineReset (.hangRecord (.timeoutEngine h))) h)
  | engineResetComplete => exact .execEngineResetComplete h
  | partitionHeartbeatMissing => exact .next (.startPartitionReset (.hangRecord h))
  | deviceHeartbeatMissing => exact .next (.startChipReset (.recordAll h))
  | resetDeadlineExpire => exact .execResetDeadlineExpire h
  | partitionResetPhaseEnd => exact .execPartitionResetPhaseEnd h
  | chipResetPhaseEnd => exact .execChipResetPhaseEnd h
  | teardownComplete => exact .execTeardownComplete h
  | teardownDeadline => exact .next (.ite (.foldl (fun h => .startEngineReset h) h) h)
  | loadComplete => exact .execLoadComplete h
  | peerLossLimit => exact .execPeerLossLimit h
  | neighbourPortsDown => exact .next (.ite (.lossAlert (.record h)) h)
  | debugUnlockFailure | lidTamper | voltageGlitch => exact .next (.raiseAlarm h)
  | d2dFlitReceive => exact .execD2dFlitReceive h
  | sensorSample => exact .execSensorSample h
  | refreshRateLower => exact .execRefreshRateLower h
  | sensorStuckCheck => exact .next (.ite (.showThermal (.followSensor (.showSensor h))) h)
  | pairDisagreement => exact .next (.ite (.ite h (.sensorRecord h)) h)
  | quiesceCoolantTimeout => exact .execQuiesceCoolantTimeout h
  | limiterWindow => exact .next (.foldl (fun h => .ladderWindow h) (.showLimit (.showLimit h)))
  | flowFaultAssert => exact .next (.ite (.stopFlow h) h)
  | inputUndervoltage => exact .next (.ite h (.powerRecord (.showLimit h)))
  | undervoltageRecover => exact .next (.ite (.showLimit h) h)
  | flowRecovery => exact .next (.ite (.resumeFlow h) h)
  | flowStopTimeout => exact .execFlowStopTimeout h
  | regulatorFault => exact .execRegulatorFault h
  | coolantReport => exact .execCoolantReport h
  | coolantReportStale => exact .next (.showLimit (.thermalRecord h))
  | thmSubstWrite => exact .next (.substWrite h)
  | patrolScrubStart => exact .next (.ite (.startScrub h) h)
  | scrubPassEnd => exact .next (.endPass h)
  | clearAccept => exact .next (.retryClears h)
  | regionRetire => exact .next (.capRetire h)
  | wayWritebackDone => exact .next (.ite (.flushWay h) h)
  | synObjWrite | synSigWrite | perstDeassert | clkOkRise | capWindowEnd | configurationRequest => exact .next h
  | devCommit => exact .next (.commitShadows h)
  | secAlarmpolWrite => exact .next (.writeAlarmPolicy h)
  | hifRqProdWrite => exact .next (.ite (.rejectReg h) h)
  | hifCqConsWrite => exact .next (.unhold h)
  | partJtailWrite => exact .next (.ite (.rejectReg h) (.freeJournal h))
  | clkMeterStart => exact .next (.startMeter h)
  | mxaBistStart => exact .next (.bistWrite h)
  | bistComplete => exact .execBistComplete h
  | registerWrite => exact .next (.regWrite h)
  | bar2Read => exact .execBar2Read h
  | bar2Write => exact .execBar2Write h
  | hostReadTimeout => exact .execHostReadTimeout h
  | hostLinkChange => exact .next (.ite (.hostDown h) (.ite h (.ite h (.linkEvent h))))
  | perstAssert => exact .next (.hostDown h)
  | getInventory | getFirmwareStatus | getPackageMap => exact .next (.mgmt (fun h => h) h)
  | setHostRegion => exact .execSetHostRegion h
  | confirmUpdate => exact .next (.mgmt (fun h => .ite h h) h)
  | setPowerLimit | setMemoryPolicy | setTickPeriod => exact .next (.mgmt (fun h => .applyItems h) h)
  | setStepPolicy | setArraySmoothing | setKvPolicy | setScrubPolicy | setNearMemoryPolicy | setBulkPolicy
    | setPortPolicy | setTickPolicy | setFabricPolicy | setContextShare | setJournal | setErrorPolicy
    => exact .settings h
  | runArrayTest => exact .execRunArrayTest h
  | getArithCounters => exact .execGetArithCounters h
  | clearMemory => exact .execClearMemory h
  | retireMemory => exact .execRetireMemory h
  | runInterconnectTest => exact .next (.mgmt (fun h => .markLevel h) h)
  | setFabricIdentity => exact .execSetFabricIdentity h
  | setFabricTopology => exact .execSetFabricTopology h
  | setTickRoles => exact .execSetTickRoles h
  | departDevice => exact .execDepartDevice h
  | declareDeviceLost => exact .execDeclareDeviceLost h
  | setPartitionGroups => exact .execSetPartitionGroups h
  | setPortOwner => exact .execSetPortOwner h
  | loadContext => exact .execLoadContext h
  | startContext => exact .execStartContext h
  | holdContext => exact .ctxCommand (fun h => .holdCtx h) h
  | releaseContext => exact .ctxCommand (fun h => .releaseCtx h) h
  | preemptContext => exact .ctxCommand (fun h => .preemptCtx h) h
  | resumeContext => exact .ctxCommand (fun h => .resumeCtx h) h
  | tearDownContext => exact .ctxCommand (fun h => .tearDownCtx h) h
  | updateContextWindows => exact .ctxCommand (fun h => .updateWindows h) h
  | loadModelKey => exact .execLoadModelKey h
  | unloadModelKey => exact .execUnloadModelKey h
  | loadModelImage => exact .execLoadModelImage h
  | setAlarmPolicy => exact .execSetAlarmPolicy h
  | clearFence => exact .execClearFence h
  | getWrapKey => exact .execGetWrapKey h
  | regenerateSteps => exact .execRegenerateSteps h
  | reviveStep => exact .execReviveStep h
  | resetEngine => exact .execResetEngine h
  | resetPartition => exact .execResetPartition h
  | resetDevice => exact .next (.mgmt (fun h => .startChipReset h) h)
  | setRecoveryPolicy => exact .execSetRecoveryPolicy h
  | getCertificate => exact .execGetCertificate h
  | challenge => exact .execChallenge h
  | getMeasurements => exact .execGetMeasurements h
  | firmwareChunkReceive => exact .execFirmwareChunkReceive h
  | activateFirmware => exact .next (.ite h (.nextProcessor h))
  | processorRestartDone => exact .execProcessorRestartDone h
  | processorRestartTimeout => exact .next (.failActivation h)
  | settleCountDone => exact .next (.ite h (.ite (.ite (.thermalRecord h) h) (.ite (.thermalRecord h) h)))
  | startStepDone => exact .execStartStepDone h
  | startStepTimeout => exact .next (.ite h (.ite h h))
  | restartSupervisionTimeout => exact .execRestartSupervisionTimeout h
  | crozierWave => exact .execCrozierWave h
  | tileFirmwareBlock => exact .next (.ite h (.ite h (.ite h h)))
  | refclkGlitch => exact .next (.ite (.raiseAlarm h) h)
  | clkOkFall => exact .next (.ite (.powerRecord h) h)
  | pllLockLoss => exact .execPllLockLoss h
  | pwrEnAssert => exact .next (.ite h (.ite (.stopFlow h) h))
  | pwrEnDeassert => exact .next (.ite h .powerOff)
  | efuseSwitchOff | p3v3AuxLoss => exact .next (.ite .switchOff h)
  | surpriseRemoval => exact .next .powerOff
  | registerRead => exact .execRegisterRead h
  | reservedOpcode => exact .execReservedOpcode h
  | collectiveCommandComplete => exact .execCollectiveCommandComplete h

end Sys2Proof.Machine
end

section
/-! O4: a step performs the command at the front of the queue. -/

namespace Sys2Proof.Machine

/-- Settles O4: a step performs the front command on the state with the queue's rest, and every command keeps canonical memory
(`EndsOk.exec`). -/
theorem memoryStaysCanonical : Obligations.MemoryStaysCanonical := by
  unfold Obligations.MemoryStaysCanonical
  intro s t canonical run
  unfold step at run
  split at run
  · exact EndsOk.next canonical t run
  · next c rest _ => exact EndsOk.exec (s := { s with pending := rest }) canonical t run

end Sys2Proof.Machine
end

section
/-! O5. Memory after reset. -/

namespace Sys2Proof.Machine

/-- Settles O5: the memory after reset is the empty map. -/
theorem resetMemoryCanonical : Obligations.ResetMemoryCanonical := by
  unfold Obligations.ResetMemoryCanonical
  exact ⟨rfl, fun _ => rfl⟩

end Sys2Proof.Machine
end

section
/-! O51. Sensors, refresh rates and thermal gaps. -/

namespace Sys2Proof.Machine

/-! ### What a sample leaves alone -/

namespace CacheWork

theorem recordAll (s : State) (r : ErrRec) : CacheWork s (s.recordAll r) := foldl (fun s _ => record s _ _) _ s

theorem sensorRecord (s : State) (i event : Nat) (x : Int) (other : Option (Nat × Int)) :
    CacheWork s (sensorRecord s i event x other) := by
  unfold Machine.sensorRecord
  dsimp only
  split
  · exact record s _ _
  · exact recordAll s _

theorem showSensor (s : State) (i : Nat) (ok : Bool) : CacheWork s (showSensor s i ok) := by
  unfold Machine.showSensor
  extract_lets raw valid sub failed x bit was s1
  exact ite (CacheWork.trans (u := s1) rfl (sensorRecord s1 _ _ _ _)) rfl

theorem pending {s u : State} (h : CacheWork s u) : u.pending = s.pending := by rw [h]
theorem part {s u : State} (h : CacheWork s u) : u.part = s.part := by rw [h]
theorem board {s u : State} (h : CacheWork s u) : u.board = s.board := by rw [h]

end CacheWork

/-! ### One sample (R616 to R619, R623) -/

/-- The readings that come from substitutes follow them. -/
def substituted (s : State) : State :=
  (List.range 64).foldl (fun s k =>
    if s.fld (R.thmSubst k) F.thmSubst_valid = 1 ∧ s.board.raw.has (s.fld (R.thmSubst k) F.thmSubst_failed) = true then
      showSensor s (s.fld (R.thmSubst k) F.thmSubst_failed) (s.sensValid (s.fld (R.thmSubst k) F.thmSubst_failed)) else s) s

/-- The state after the readings of one good sample. -/
def sampled (s : State) (i : Nat) (x : BitVec 16) : State := substituted (showSensor (countHot s i x true) i true)

theorem sensorSample_eq (s : State) (i : BitVec 12) (x : BitVec 16) (inside : i.toNat < 3344) :
    exec (.sensorSample [(i, x, true)]) s = .next (if 3 ≤ (sampled s i.toNat x).board.hot.getD i.toNat 0
      then thermTrip (sampled s i.toNat x) else showThermal (followSensor (sampled s i.toNat x) i.toNat)) := by
  have one : [(i, x, true)].filter (fun y => decide (y.1.toNat < 3344)) = [(i, x, true)] := by simp [inside]
  change execSensorSample [(i, x, true)] s = _
  unfold execSensorSample
  rw [one]
  simp only [List.foldl_cons, List.foldl_nil, List.any_cons, List.any_nil, Bool.or_false]
  exact congrArg Host.Outcome.next (if_congr decide_eq_true_iff rfl rfl)

theorem substituted_cacheWork (s : State) : CacheWork s (substituted s) :=
  CacheWork.foldl (fun s _ => .ite (.showSensor s _ _) (.refl s)) _ s

theorem sampled_cacheWork (s : State) (i : Nat) (x : BitVec 16) : CacheWork (countHot s i x true) (sampled s i x) :=
  (CacheWork.showSensor _ _ _).trans (substituted_cacheWork _)

theorem hot_sampled (s : State) (i : Nat) (x : BitVec 16) : (sampled s i x).board.hot.getD i 0
    = if tripSensor i = true ∧ 460 ≤ x.toInt then s.board.hot.getD i 0 + 1 else 0 := by
  rw [(sampled_cacheWork s i x).board, countHot]
  simp only [true_and, SMap.getD_set_self]

theorem endFwHolds_pending (s : State) : (endFwHolds s).pending = s.pending := by
  refine foldl_keeps State.pending (fun s c => ?_) _ s
  unfold State.unhold
  split
  · rfl
  · dsimp only
    split <;> rfl

theorem failActivation_pending (s : State) : (failActivation s).pending = s.pending := by
  unfold failActivation
  split
  · rfl
  · exact endFwHolds_pending _

/-- The supplies are off: nothing but the queue of commands is left of the tiles and of memory. -/
theorem thermTrip_off (s : State) : (thermTrip s).board.tripped = true ∧ (thermTrip s).part.trip = true
    ∧ (thermTrip s).tiles = SMap.empty ∧ (thermTrip s).mem = [] ∧ (thermTrip s).pending = s.pending := by
  have kept := failActivation_pending s
  unfold thermTrip powerOff
  dsimp only
  split <;> exact ⟨rfl, rfl, rfl, rfl, kept⟩

/-- The third sample in a row at 115 °C. -/
theorem sensorSample_trips {s : State} {i : BitVec 12} {x : BitVec 16} (second : s.board.hot.getD i.toNat 0 = 2)
    (logic : tripSensor i.toNat = true) (hot : 460 ≤ x.toInt) (inside : i.toNat < 3344) :
    exec (.sensorSample [(i, x, true)]) s = .next (thermTrip (sampled s i.toNat x)) := by
  have third : (sampled s i.toNat x).board.hot.getD i.toNat 0 = 3 := by
    rw [hot_sampled, if_pos ⟨logic, hot⟩, second]
  rw [sensorSample_eq s i x inside, third, if_pos (Nat.le_refl 3)]

theorem substOf_none {s : State} (unused : ∀ e, e < 64 → s.fld (R.thmSubst e) F.thmSubst_valid = 0) (i : Nat) :
    substOf s i = none := by
  refine List.find?_eq_none.mpr fun e he => ?_
  simp [unused e (List.mem_range.mp he)]

theorem substituted_unused {s : State} (unused : ∀ e, e < 64 → s.fld (R.thmSubst e) F.thmSubst_valid = 0) :
    substituted s = s := by
  refine List.foldlRecOn (motive := fun u => u = s) _ _ rfl fun u same e he => ?_
  rw [same, unused e (List.mem_range.mp he)]
  exact if_neg fun valid => absurd valid.1 (by decide)

/-- A sample in the range of a sensor that is neither stuck nor substituted. -/
theorem showSensor_good {s : State} {i : Nat} {x : BitVec 16} (raw : s.board.raw.getD i 0 = x) (low : -160 ≤ x.toInt)
    (high : x.toInt ≤ 600) (moves : s.board.stuck.contains i = false) (unused : substOf s i = none) :
    showSensor s i true = s.setReg (R.thmSens i) (BitVec.ofNat 64 (2 ^ 31 + x.toNat)) := by
  unfold showSensor
  rw [raw, unused]
  simp only [low, high, moves]
  simp [reading16]

theorem spotOf_tile {i : Nat} (tile : i < 2176) : spotOf i = .tile (i / 272) (i % 272) := by
  rw [spotOf, if_pos tile]

theorem followSensor_tile (s : State) {i : Nat} (tile : i < 2176) : followSensor s i = s := by
  rw [followSensor, spotOf_tile tile]

theorem sampled_good {s : State} {i : Nat} {x : BitVec 16} (low : -160 ≤ x.toInt) (high : x.toInt < 460)
    (moves : s.board.stuck.contains i = false) (unused : ∀ e, e < 64 → s.fld (R.thmSubst e) F.thmSubst_valid = 0) :
    sampled s i x = (countHot s i x true).setReg (R.thmSens i) (BitVec.ofNat 64 (2 ^ 31 + x.toNat)) := by
  have shown : showSensor (countHot s i x true) i true
      = (countHot s i x true).setReg (R.thmSens i) (BitVec.ofNat 64 (2 ^ 31 + x.toNat)) :=
    showSensor_good (SMap.getD_set_self _ _ _ _) low (by omega) moves (substOf_none unused i)
  rw [sampled, shown]
  refine substituted_unused fun e he => ?_
  have apart : R.thmSubst e ≠ R.thmSens i := by
    unfold R.thmSubst R.thmSens
    omega
  rw [State.fld, State.reg_setReg_ne _ _ _ _ apart]
  exact unused e he

/-- A good sample of a tile's sensor below 115 °C. -/
theorem sensorSample_shows {s : State} {i : BitVec 12} {x : BitVec 16} (tile : i.toNat < 2176) (low : -160 ≤ x.toInt)
    (high : x.toInt < 460) (moves : s.board.stuck.contains i.toNat = false)
    (unused : ∀ e, e < 64 → s.fld (R.thmSubst e) F.thmSubst_valid = 0) :
    exec (.sensorSample [(i, x, true)]) s = .next (showThermal
      ((countHot s i.toNat x true).setReg (R.thmSens i.toNat) (BitVec.ofNat 64 (2 ^ 31 + x.toNat)))) := by
  have cold : (sampled s i.toNat x).board.hot.getD i.toNat 0 = 0 := by
    rw [hot_sampled]
    exact if_neg fun hot => absurd hot.2 (by omega)
  rw [sensorSample_eq s i x (by omega), cold, if_neg (by decide), followSensor_tile _ tile,
    sampled_good low high moves unused]

/-! ### Refresh rates and gaps (R280, R621, R622) -/

/-- A field that is written with one less than it held. -/
theorem fld_pred_lt (s : State) (r : Nat) (f : Fld) : s.fld r f - 1 < 2 ^ (f.hi + 1 - f.lo) :=
  lt_of_le_of_lt (Nat.sub_le _ _) (s.fld_lt r f)

/-- A stack's rate falls by one level, and the cap at 4× ends. -/
theorem refreshRateLower_stack {s : State} {n : StackId} {r v : Nat} (reg : R.capStatus (n.val / 4) (n.val % 4) = r)
    (rate : s.fld r F.capStatus_rate = v) (high : v ≠ 0) (live : stackDead s n.val = false)
    (cool : s.anyAbove (stackSensors n.val) (if v = 2 then 372 else 332) = false) :
    exec (.refreshRateLower (.stack n)) s
      = .next ((s.setFld r F.capStatus_rate (v - 1)).setFld r F.capStatus_capped 0) := by
  subst reg rate
  change execRefreshRateLower (.stack n) s = _
  unfold execRefreshRateLower
  dsimp only
  rw [if_neg]
  rintro (zero | dead | above)
  · exact high zero
  · rw [live] at dead
    cases dead
  · rw [cool] at above
    cases above

/-- The rates of a slice's four layers with that of layer `l` at `v`. -/
def layerRates (s : State) (r l v : Nat) : Nat := setBitsOf (s.fld r F.slcStatus_rate) (2 * l + 1) (2 * l) v

theorem refreshRateLower_layer {s : State} {t : TileId} {l : Fin 4} {v : Nat}
    (rate : bitsOf (s.fld (R.slcStatus t.val) F.slcStatus_rate) (2 * l.val + 1) (2 * l.val) = v) (high : v ≠ 0)
    (may : mayFall s [(s.layersOf t.val).getD l.val 0] v = true) :
    exec (.refreshRateLower (.layer t l)) s
      = .next ((s.setFld (R.slcStatus t.val) F.slcStatus_rate (layerRates s (R.slcStatus t.val) l.val (v - 1))).setFld
          (R.slcStatus t.val) F.slcStatus_capped (if (List.range 4).any (fun j =>
            bitsOf (layerRates s (R.slcStatus t.val) l.val (v - 1)) (2 * j + 1) (2 * j) == 2) then 1 else 0)) := by
  subst rate
  change execRefreshRateLower (.layer t l) s = _
  unfold execRefreshRateLower
  dsimp only
  rw [if_neg]
  · rfl
  · rintro (zero | never)
    · exact high zero
    · rw [may] at never
      cases never

theorem layerRate_lt (x l : Nat) : bitsOf x (2 * l + 1) (2 * l) < 4 := by
  rw [bitsOf, show 2 * l + 1 + 1 - 2 * l = 2 by omega]
  exact Nat.mod_lt _ (by decide)

theorem layerRates_lt (s : State) (r v : Nat) {l : Nat} (inside : l < 4) : layerRates s r l v < 2 ^ 8 := by
  have old : s.fld r F.slcStatus_rate < 2 ^ 8 := s.fld_lt r F.slcStatus_rate
  unfold layerRates setBitsOf
  interval_cases l <;> omega

theorem bitsOf_layerRates (s : State) (r l : Nat) {v : Nat} (fits : v < 4) :
    bitsOf (layerRates s r l v) (2 * l + 1) (2 * l) = v := by
  rw [layerRates, State.bitsOf_setBitsOf, show 2 * l + 1 + 1 - 2 * l = 2 by omega]
  exact Nat.mod_eq_of_lt fits

/-- The thermal gap of a tile falls by 16 cycles. -/
theorem thermalGapStep_cools {s : State} {t : TileId} (cool : s.tileCool t.val = true) :
    exec (.thermalGapStep t) s = .next
      { s with board := { s.board with thermalGap := s.board.thermalGap.set t.val (s.thermalGap t.val - 16) } } := by
  change execThermalGapStep t s = _
  rw [execThermalGapStep, if_pos cool]

theorem dieFrequencyStep_falls {s : State} {p : PartId}
    (hot : (tilesOf s p.val).any (fun y => s.heldGap y == 1023 && s.tileHot y) = true) :
    exec (.dieFrequencyStep p) s = .next (({ s with board := { s.board with
        thermFreq := s.board.thermFreq.set p.val (max 20 (s.fld (R.pwrPctl p.val) F.pwrPctl_freq - 1)) } } : State).setFld
      (R.pwrPctl p.val) F.pwrPctl_freq (max 20 (s.fld (R.pwrPctl p.val) F.pwrPctl_freq - 1))) := by
  change execDieFrequencyStep p s = _
  rw [execDieFrequencyStep, if_pos hot]

/-! ### Sensors that fail or disagree, and substitutes (R617 to R619, R622) -/

/-- A sensor that has stood still while at least two usable neighbours moved is marked stuck. -/
theorem sensorStuckCheck_stuck {s : State} {j : Fin 3344} (many : 2 ≤ ((neighbours j.val).filter s.sensUsable).length)
    (moves : s.board.stuck.contains j.val = false) {v : State}
    (marked : { s with board := { s.board with stuck := s.board.stuck ++ [j.val] } } = v) :
    exec (.sensorStuckCheck j false true) s
      = .next (showThermal (followSensor (showSensor v j.val (v.sensValid j.val)) j.val)) := by
  subst marked
  change execSensorStuckCheck j false true s = _
  rw [execSensorStuckCheck, if_pos ⟨rfl, rfl, many, moves⟩]

theorem pairDisagreement_counts {s : State} {j : Fin 3344} (recent : Bool) (pair : paired j.val = true)
    (usable : s.sensUsable j.val = true) (partner : s.sensUsable (partnerOf j.val) = true)
    (apart : 12 < s.reading j.val - s.reading (partnerOf j.val)) :
    exec (.pairDisagreement ⟨j, recent⟩) s = .next ((if recent then s else sensorRecord s j.val 4 (s.reading j.val)
      (some (partnerOf j.val, s.reading (partnerOf j.val)))).bump R.thmStat F.thmStat_disagree 1) := by
  change execPairDisagreement ⟨j, recent⟩ s = _
  unfold execPairDisagreement
  exact congrArg Host.Outcome.next (if_pos ⟨pair, usable, partner, .inl apart⟩)

theorem quiesceCoolantTimeout_stack {s : State} {n : StackId} {a : BitVec 44} (here : s.region a.toNat = .capacity n.val)
    (quiet : s.quiesced a.toNat = true) :
    exec (.quiesceCoolantTimeout a) s = .next (stopFlow (sensorRecord s (hottest s (stackSensors n.val)).1 10
      (hottest s (stackSensors n.val)).2 none)) := by
  change execQuiesceCoolantTimeout a s = _
  unfold execQuiesceCoolantTimeout
  rw [if_pos quiet, here]

/-- A substitute has to be a neighbour of the failed sensor. -/
theorem thmSubstWrite_rejected {s : State} {path : RegPath} {e : Fin 64} {y : BitVec 64} (valid : y.getLsbD 63 = true)
    (far : (neighbours (bitsOf y.toNat 43 32)).contains (bitsOf y.toNat 55 44) = false) :
    exec (.thmSubstWrite path e y) s = .next (rejectReg s path (R.thmSubst e.val) true none) := by
  change Host.Outcome.next (substWrite s path e.val y) = _
  unfold substWrite
  rw [if_pos ⟨valid, by rw [far]; rfl⟩]

/-- An entry that was not valid and is not made valid changes no reading. -/
theorem thmSubstWrite_plain {s : State} {path : RegPath} {e : Fin 64} {y : BitVec 64} (clear : y.getLsbD 63 = false)
    (free : s.fld (R.thmSubst e.val) F.thmSubst_valid = 0) :
    exec (.thmSubstWrite path e y) s = .next (markLevel (s.setReg (R.thmSubst e.val) (y &&& 0x80FFFFFF0000003F))
      (R.thmSubst e.val) (pathLevel path) (BitVec.allOnes 64)) := by
  change Host.Outcome.next (substWrite s path e.val y) = _
  unfold substWrite
  dsimp only
  rw [clear, free, if_neg fun taken => Bool.noConfusion taken.1, if_neg (by decide)]
  rfl

/-! ### The obligation -/

/-- Settles O51: a sample by `sensorSample_trips` and `sensorSample_shows`; the other commands each by their equation. -/
theorem sensorsAndHeat : Obligations.SensorsAndHeat := by
  unfold Obligations.SensorsAndHeat
  intro s i x j t p n k
  refine ⟨?_, ?_, ?_, ?_, ?_, ?_, ?_, ?_, ?_, ?_, ?_⟩
  · intro second logic hot inside
    refine ⟨_, sensorSample_trips second logic hot inside, ?_⟩
    obtain ⟨tripped, trip, tiles, mem, queue⟩ := thermTrip_off (sampled s k x)
    exact ⟨tripped, trip, tiles, mem, queue.trans (sampled_cacheWork s k x).pending⟩
  · exact fun tile low high moves unused =>
      ⟨_, sensorSample_shows tile low high moves unused, _, rfl, State.reg_setReg _ _ _, rfl⟩
  · intro r v high live cool
    refine ⟨_, refreshRateLower_stack rfl rfl high live cool, ?_, State.fld_setFld _ _ _ _ (by decide), ?_⟩
    · rw [State.fld_setFld_beside _ _ _ _ _ (by decide) (by decide), State.fld_setFld _ _ _ _ (by decide)]
      exact Nat.mod_eq_of_lt (fld_pred_lt s r F.capStatus_rate)
    · exact ((onlyRegs_refl s [r]).setFld r _ _ (List.mem_singleton_self r)).setFld r _ _ (List.mem_singleton_self r)
  · intro l r v high may
    refine ⟨_, refreshRateLower_layer rfl high may, ?_, ?_⟩
    · have fits : v - 1 < 4 := lt_of_le_of_lt (Nat.sub_le _ _) (layerRate_lt _ l.val)
      have kept := Nat.mod_eq_of_lt (layerRates_lt s r (v - 1) l.isLt)
      rw [State.fld_setFld_beside _ _ _ _ _ (by decide) (by decide), State.fld_setFld _ _ _ _ (by decide)]
      exact (congrArg (bitsOf · (2 * l.val + 1) (2 * l.val)) kept).trans (bitsOf_layerRates s r l fits)
    · exact ((onlyRegs_refl s [r]).setFld r _ _ (List.mem_singleton_self r)).setFld r _ _ (List.mem_singleton_self r)
  · exact fun many moves => ⟨_, sensorStuckCheck_stuck many moves rfl, rfl⟩
  · exact fun pair usable partner apart => ⟨⟨_, pairDisagreement_counts false pair usable partner apart, rfl⟩,
      ⟨_, pairDisagreement_counts true pair usable partner apart, rfl⟩⟩
  · exact fun cool => ⟨_, thermalGapStep_cools cool, SMap.getD_set_self _ _ _ _, rfl⟩
  · intro hot
    refine ⟨_, dieFrequencyStep_falls hot, ?_, rfl⟩
    rw [State.fld_setFld _ _ _ _ (by decide)]
    exact Nat.mod_eq_of_lt (max_lt (by decide) (fld_pred_lt s _ F.pwrPctl_freq))
  · exact fun a here quiet => ⟨_, quiesceCoolantTimeout_stack here quiet, rfl⟩
  · exact fun path e y valid far => ⟨_, thmSubstWrite_rejected valid far, rfl⟩
  · exact fun path e y clear free => ⟨_, thmSubstWrite_plain clear free, rfl⟩

end Sys2Proof.Machine
end

section
/-! O45. Upkeep of the memories: clears. A clear changes no register that the address map reads. -/

namespace Sys2Proof.Machine

/-- A register that the device address map reads (R273, R284). -/
def MapReg (r : Nat) : Prop := r = R.devStacks ∨ (∃ p, r = R.capOrphan p) ∨ ∃ p i, r = R.nocTmap p i

/-- The address map of `u` is that of `s`. -/
structure SameMap (s u : State) : Prop where
  holes : u.holes = s.holes
  part : u.part = s.part
  regs : ∀ r, MapReg r → u.reg r = s.reg r

namespace SameMap

variable {s u v : State}

theorem refl (s : State) : SameMap s s := ⟨rfl, rfl, fun _ _ => rfl⟩

theorem trans (h : SameMap s u) (g : SameMap u v) : SameMap s v :=
  ⟨g.holes.trans h.holes, g.part.trans h.part, fun r hr => (g.regs r hr).trans (h.regs r hr)⟩

theorem setFld {r : Nat} (other : ¬ MapReg r) (s : State) (f : Fld) (x : Nat) : SameMap s (s.setFld r f x) :=
  ⟨rfl, rfl, fun q hq => State.reg_setFld_ne s r q f x fun same => other (same ▸ hq)⟩

theorem fld (h : SameMap s u) {r : Nat} (map : MapReg r) (f : Fld) : u.fld r f = s.fld r f := by
  rw [State.fld, h.regs r map, State.fld]

theorem region (h : SameMap s u) (a : Nat) : u.region a = s.region a := by
  have served : ∀ n, u.stackOn n = s.stackOn n := fun n => by
    rw [State.stackOn, h.fld (.inl rfl), h.fld (.inl rfl), State.stackOn]
  have mapped : ∀ p i, u.mapped p i = s.mapped p i := fun p i => by
    rw [State.mapped, h.fld (.inr (.inr ⟨p, i, rfl⟩)), State.mapped]
  have orphan : ∀ p f, u.fld (R.capOrphan p) f = s.fld (R.capOrphan p) f := fun p f => h.fld (.inr (.inl ⟨p, rfl⟩)) f
  simp only [State.region, served, mapped, orphan, h.holes, h.part]

theorem isDram (h : SameMap s u) (a : Nat) : u.isDram a = s.isDram a := by rw [State.isDram, h.region, State.isDram]

theorem regionHolder (h : SameMap s u) (units : u.units = s.units) (r : Nat) (past : List Nat) :
    regionHolder u r past = regionHolder s r past := by
  simp only [Machine.regionHolder, h.region, State.unit, units]

end SameMap

theorem not_mapReg_capGenstat {p : Nat} (inside : p < 8) : ¬ MapReg (R.capGenstat p) := by
  unfold MapReg R.capGenstat R.devStacks R.capOrphan R.nocTmap
  rintro (eq | ⟨q, eq⟩ | ⟨q, i, eq⟩) <;> omega

theorem not_mapReg_capScrub {p : Nat} (inside : p < 8) : ¬ MapReg (R.capScrub p) := by
  unfold MapReg R.capScrub R.devStacks R.capOrphan R.nocTmap
  rintro (eq | ⟨q, eq⟩ | ⟨q, i, eq⟩) <;> omega

theorem capScrub_ne_capGenstat (p q : Nat) : R.capGenstat q ≠ R.capScrub p := by
  unfold R.capScrub R.capGenstat
  omega

/-- The home of an address is one of the eight partitions. -/
theorem homeOf_lt (s : State) (a : Nat) : s.homeOf a < 8 := by
  unfold State.homeOf
  generalize there : s.region a = x
  unfold State.region at there
  dsimp only at there
  split_ifs at there <;> subst there <;> simp only <;> omega

/-! ### Clears (R310, R311) -/

/-- `u` has the memory, the waiting clears and the CAP.GENSTAT registers of `s`. -/
structure BesideClears (s u : State) : Prop where
  mem : u.mem = s.mem
  waits : u.board.clearWait = s.board.clearWait
  regs : ∀ q, u.reg (R.capGenstat q) = s.reg (R.capGenstat q)

theorem BesideClears.trans {s u v : State} (h : BesideClears s u) (g : BesideClears u v) : BesideClears s v :=
  ⟨g.mem.trans h.mem, g.waits.trans h.waits, fun q => (g.regs q).trans (h.regs q)⟩

theorem startScrub_has (s : State) (r : Nat) : (startScrub s r).board.scrubs.has r = true := by
  unfold startScrub
  split
  · assumption
  · dsimp only
    rw [SMap.has_set, decide_eq_true rfl, Bool.true_or]

theorem urgentScrub_has (s : State) (r : Nat) : (urgentScrub s r).board.scrubs.has r = true := by
  unfold urgentScrub
  split
  · assumption
  · exact startScrub_has s r

theorem startScrub_gens (s : State) (r : Nat) : (startScrub s r).gens = s.gens := by
  unfold startScrub
  split <;> rfl

theorem urgentScrub_gens (s : State) (r : Nat) : (urgentScrub s r).gens = s.gens := by
  unfold urgentScrub
  split
  · rfl
  · exact startScrub_gens s r

theorem startScrub_besideClears (s : State) (r : Nat) : BesideClears s (startScrub s r) := by
  unfold startScrub
  split <;> exact ⟨rfl, rfl, fun _ => rfl⟩

theorem urgentScrub_besideClears (s : State) (r : Nat) : BesideClears s (urgentScrub s r) := by
  unfold urgentScrub
  split
  · exact ⟨rfl, rfl, fun _ => rfl⟩
  · refine (startScrub_besideClears s r).trans ⟨rfl, rfl, fun q => ?_⟩
    exact State.reg_setFld_ne _ _ _ _ _ (capScrub_ne_capGenstat _ q)

/-- An accepted clear moves the region to its next generation and leaves its floor, the memory and what waits. -/
theorem acceptClear_frame (s : State) (r : Nat) :
    (acceptClear s r).gen r = (((s.gen r).1 + 1) % 16, (s.gen r).2) ∧ BesideClears s (acceptClear s r) := by
  obtain ⟨v, eq, gen, beside⟩ : ∃ v,
      acceptClear s r = (if (((s.gen r).1 + 1) % 16 + 16 - (s.gen r).2) % 16 ≥ 12 then urgentScrub v r else v)
        ∧ v.gen r = (((s.gen r).1 + 1) % 16, (s.gen r).2) ∧ BesideClears s v :=
    ⟨_, rfl, SMap.getD_set_self _ _ _ _, ⟨rfl, rfl, fun _ => rfl⟩⟩
  rw [eq]
  split
  · exact ⟨by rw [State.gen, urgentScrub_gens, ← State.gen, gen], beside.trans (urgentScrub_besideClears v r)⟩
  · exact ⟨gen, beside⟩

theorem gen_setFld (s : State) (q r : Nat) (f : Fld) (x : Nat) : (s.setFld q f x).gen r = s.gen r := rfl

section OneClear

variable {s : State} {p r : Nat} (front : ∀ e ∈ s.board.clearWait, e.1 ≠ p)
include front

theorem not_behind (P : Nat × Nat × Bool → Bool) : (s.board.clearWait.any fun e => e.1 == p && P e) = false :=
  List.any_eq_false.2 fun e mem both => front e mem (eq_of_beq (Bool.and_eq_true_iff.1 both).1)

/-- A clear at the front of its partition that nothing holds back is accepted and counted. -/
theorem tryClear_accepts (can : canClear s r = true) (free : regionLeased s r = false) :
    tryClear [] s (p, r, true) = (acceptClear s r).setFld (R.capGenstat p) F.capGenstat_done
      (s.fld (R.capGenstat p) F.capGenstat_done + 1) := by
  have unleased : regionHolder s r [] = none := Option.isNone_iff_eq_none.1 (by simpa [regionLeased] using free)
  simp [tryClear, not_behind front, can, unleased]

/-- A clear that the floor holds back waits for an urgent pass. -/
theorem tryClear_floor (at_floor : canClear s r = false) : tryClear [] s (p, r, true)
    = { urgentScrub s r with board := { (urgentScrub s r).board with
          clearWait := (urgentScrub s r).board.clearWait ++ [(p, r, true)] } } := by
  simp [tryClear, not_behind front, at_floor]

/-- A clear of a region that unit `k` leases waits to a boundary of it. -/
theorem tryClear_leased (can : canClear s r = true) {k : Nat} (leased : regionHolder s r [] = some k) :
    tryClear [] s (p, r, true)
      = holdIn { s with board := { s.board with clearWait := s.board.clearWait ++ [(p, r, true)] } } k
          (.clear p r true []) := by
  simp [tryClear, not_behind front, can, leased]

/-- What a request to clear one region leaves that waits: memory and generations stay, and the partition is busy. -/
theorem runClears_waits (busy : s.fld (R.capGenstat p) F.capGenstat_busy = 1)
    (held : canClear s r = false ∨ regionLeased s r = true) :
    let u := runClears s p [(p, r, true)]
    u.gens = s.gens ∧ u.mem = s.mem ∧ u.fld (R.capGenstat p) F.capGenstat_busy = 1 ∧ (p, r, true) ∈ u.board.clearWait
      ∧ (canClear s r = false → u.board.scrubs.has r = true)
      ∧ u.fld (R.capGenstat p) F.capGenstat_scrub_wait = if canClear s r then 0 else 1 := by
  intro u
  obtain ⟨v, tried, gens, kept, waits, scrub⟩ : ∃ v, tryClear [] s (p, r, true) = v ∧ v.gens = s.gens
      ∧ (v.mem = s.mem ∧ ∀ q, v.reg (R.capGenstat q) = s.reg (R.capGenstat q))
      ∧ v.board.clearWait = s.board.clearWait ++ [(p, r, true)]
      ∧ (canClear s r = false → v.board.scrubs.has r = true) := by
    by_cases can : canClear s r = true
    · obtain ⟨k, leased⟩ := Option.isSome_iff_exists.1 (held.resolve_left (by simp [can]))
      refine ⟨_, tryClear_leased front can leased, ?_⟩
      unfold holdIn
      split <;> exact ⟨rfl, ⟨rfl, fun _ => rfl⟩, rfl, fun no => absurd can (by simp [no])⟩
    · have beside := urgentScrub_besideClears s r
      refine ⟨_, tryClear_floor front (Bool.eq_false_iff.2 can), urgentScrub_gens s r, ⟨beside.mem, beside.regs⟩, ?_,
        fun _ => urgentScrub_has s r⟩
      dsimp only
      rw [beside.waits]
  have canV : canClear v r = canClear s r := by rw [canClear, State.gen, gens, ← State.gen, canClear]
  have stays : (v.board.clearWait.any fun e => e.1 == p && e.2.2) = true := by simp [waits]
  have shown : showWait v p = v.setFld (R.capGenstat p) F.capGenstat_scrub_wait (if canClear s r then 0 else 1) := by
    have alone : (v.board.clearWait.any fun e => e.1 == p && !(canClear v e.2.1)) = !canClear s r := by
      rw [waits, List.any_append, not_behind front]
      simp [canV]
    rw [showWait, alone]
    cases canClear s r <;> rfl
  have eq : u = v.setFld (R.capGenstat p) F.capGenstat_scrub_wait (if canClear s r then 0 else 1) := by
    have same : u = showWait v p := by
      change runClears s p [(p, r, true)] = _
      unfold runClears
      rw [List.foldl_cons, List.foldl_nil, tried]
      exact if_neg fun both => absurd both.2 (by
        change ¬ (v.board.clearWait.any fun e => e.1 == p && e.2.2) = false
        rw [stays]; decide)
    exact same.trans shown
  rw [eq]
  refine ⟨gens, kept.1, ?_, ?_, scrub, ?_⟩
  · rw [State.fld_setFld_beside _ _ _ _ _ (by decide) (by decide), fld_of_reg_eq (kept.2 p), busy]
  · change _ ∈ v.board.clearWait
    simp [waits]
  · rw [State.fld_setFld _ _ _ _ (by decide)]
    cases canClear s r <;> rfl

/-- What a request to clear one region leaves that nothing holds back. -/
theorem runClears_accepts (can : canClear s r = true) (free : regionLeased s r = false) :
    let u := runClears s p [(p, r, true)]
    (u.gen r = (((s.gen r).1 + 1) % 16, (s.gen r).2) ∧ u.mem = s.mem)
      ∧ u.fld (R.capGenstat p) F.capGenstat_scrub_wait = 0 ∧ u.fld (R.capGenstat p) F.capGenstat_busy = 0
      ∧ (s.fld (R.capGenstat p) F.capGenstat_busy = 1 → u.fld (R.capGenstat p) F.capGenstat_result = 1)
      ∧ u.fld (R.capGenstat p) F.capGenstat_done = (s.fld (R.capGenstat p) F.capGenstat_done + 1) % 2 ^ 16 := by
  intro u
  set v := ((acceptClear s r).setFld (R.capGenstat p) F.capGenstat_done
    (s.fld (R.capGenstat p) F.capGenstat_done + 1)).setFld (R.capGenstat p) F.capGenstat_scrub_wait 0 with hv
  obtain ⟨gen, beside⟩ := acceptClear_frame s r
  have frontV : ∀ e ∈ v.board.clearWait, e.1 ≠ p := fun e mem => front e (beside.waits ▸ mem)
  have shown : showWait (tryClear [] s (p, r, true)) p = v := by
    rw [tryClear_accepts front can free, showWait]
    congr 1
    exact (congrArg (bit · 0) (not_behind (s := v) frontV _)).trans rfl
  have busyV : v.fld (R.capGenstat p) F.capGenstat_busy = s.fld (R.capGenstat p) F.capGenstat_busy := by
    rw [hv, State.fld_setFld_beside _ _ _ _ _ (by decide) (by decide),
      State.fld_setFld_beside _ _ _ _ _ (by decide) (by decide),
      fld_of_reg_eq (beside.regs p)]
  have eq : u = if v.fld (R.capGenstat p) F.capGenstat_busy = 1
      then (v.setFld (R.capGenstat p) F.capGenstat_busy 0).setFld (R.capGenstat p) F.capGenstat_result 1 else v := by
    change runClears s p [(p, r, true)] = _
    unfold runClears
    rw [List.foldl_cons, List.foldl_nil, shown]
    exact if_congr (and_iff_left (not_behind frontV _)) rfl rfl
  have doneV : v.fld (R.capGenstat p) F.capGenstat_done = (s.fld (R.capGenstat p) F.capGenstat_done + 1) % 2 ^ 16 := by
    rw [hv, State.fld_setFld_beside _ _ _ _ _ (by decide) (by decide), State.fld_setFld _ _ _ _ (by decide)]
    rfl
  have waitV : v.fld (R.capGenstat p) F.capGenstat_scrub_wait = 0 := by rw [hv, State.fld_setFld _ _ _ _ (by decide)]; rfl
  have genV : v.gen r = (((s.gen r).1 + 1) % 16, (s.gen r).2) ∧ v.mem = s.mem := by
    rw [hv, gen_setFld, gen_setFld, State.setFld_mem, State.setFld_mem]
    exact ⟨gen, beside.mem⟩
  rw [eq]
  by_cases busy : s.fld (R.capGenstat p) F.capGenstat_busy = 1
  · rw [if_pos (busyV.trans busy)]
    refine ⟨by rw [gen_setFld, gen_setFld, State.setFld_mem, State.setFld_mem]; exact genV, ?_, ?_, fun _ => ?_, ?_⟩
    · rw [State.fld_setFld_beside _ _ _ _ _ (by decide) (by decide),
        State.fld_setFld_beside _ _ _ _ _ (by decide) (by decide), waitV]
    · rw [State.fld_setFld_beside _ _ _ _ _ (by decide) (by decide), State.fld_setFld _ _ _ _ (by decide)]; rfl
    · rw [State.fld_setFld _ _ _ _ (by decide)]; rfl
    · rw [State.fld_setFld_beside _ _ _ _ _ (by decide) (by decide),
        State.fld_setFld_beside _ _ _ _ _ (by decide) (by decide), doneV]
  · rw [if_neg (busyV ▸ busy)]
    refine ⟨genV, waitV, busyV.trans ?_, fun yes => absurd yes busy, doneV⟩
    have bit1 : s.fld (R.capGenstat p) F.capGenstat_busy < 2 := Nat.mod_lt _ (by decide)
    omega

end OneClear

/-- A partition that has taken a request to clear: busy, with nothing done yet. -/
def clearBegun (s : State) (p : Nat) : State :=
  ((s.setFld (R.capGenstat p) F.capGenstat_done 0).setFld (R.capGenstat p) F.capGenstat_result 0).setFld (R.capGenstat p)
    F.capGenstat_busy 1

theorem clearBegun_busy (s : State) (p : Nat) : (clearBegun s p).fld (R.capGenstat p) F.capGenstat_busy = 1 := by
  rw [clearBegun, State.fld_setFld _ _ _ _ (by decide)]
  rfl

theorem clearBegun_done (s : State) (p : Nat) : (clearBegun s p).fld (R.capGenstat p) F.capGenstat_done = 0 := by
  rw [clearBegun, State.fld_setFld_beside _ _ _ _ _ (by decide) (by decide),
    State.fld_setFld_beside _ _ _ _ _ (by decide) (by decide), State.fld_setFld _ _ _ _ (by decide)]
  rfl

theorem clearBegun_gen (s : State) (p r : Nat) : (clearBegun s p).gen r = s.gen r := by
  rw [clearBegun, gen_setFld, gen_setFld, gen_setFld]

theorem clearBegun_canClear (s : State) (p r : Nat) : canClear (clearBegun s p) r = canClear s r := by
  rw [canClear, clearBegun_gen, canClear]

theorem clearBegun_leased (s : State) {p : Nat} (inside : p < 8) (r : Nat) :
    regionLeased (clearBegun s p) r = regionLeased s r := by
  have other := not_mapReg_capGenstat inside
  have map : SameMap s (clearBegun s p) :=
    ((SameMap.setFld other s _ _).trans (.setFld other _ _ _)).trans (.setFld other _ _ _)
  rw [regionLeased, map.regionHolder rfl, regionLeased]

/-- CLEAR_MEMORY of one region of the scoped partition. -/
theorem clearMemory_replies {s : State} {c : Cmd} {p : Nat} {r : BitVec 23} (taken : Taken 0x0204 .both false c s)
    (scope : scopePart c = some p) (range : regionOf s p r.toNat = true)
    (idle : s.fld (R.capGenstat p) F.capGenstat_busy = 0) :
    Replies (.clearMemory c r 0) 0x0204 c s St.ok [] (runClears (clearBegun s p) p [(p, r.toNat, true)]) := by
  have begun : genClear s p r.toNat ((0 : BitVec 16).toNat + 1) = some (runClears (clearBegun s p) p [(p, r.toNat, true)]) :=
    if_neg (by simp [idle, range])
  refine replies_of_mgmt rfl taken ?_
  rw [scope]
  dsimp only
  rw [begun]

/-- CLEAR_ACCEPT with one clear of the partition waiting that nothing holds back any longer. -/
theorem retryClears_accepts {s : State} {p r : Nat} (one : s.board.clearWait.filter (·.1 == p) = [(p, r, true)])
    (can : canClear s r = true) (free : regionLeased s r = false) :
    ((retryClears s p).gen r = (((s.gen r).1 + 1) % 16, (s.gen r).2) ∧ (retryClears s p).mem = s.mem)
      ∧ (retryClears s p).fld (R.capGenstat p) F.capGenstat_scrub_wait = 0
      ∧ (retryClears s p).fld (R.capGenstat p) F.capGenstat_busy = 0 := by
  set v : State := { s with board := { s.board with clearWait := s.board.clearWait.filter (·.1 != p) } } with hv
  have eq : retryClears s p = runClears v p [(p, r, true)] := by
    unfold retryClears
    rw [one]
    exact if_neg (by simp)
  have front : ∀ e ∈ v.board.clearWait, e.1 ≠ p := fun e mem => by simpa using (List.mem_filter.1 mem).2
  obtain ⟨moved, wait, busy, -, -⟩ := runClears_accepts front can free
  rw [eq]
  exact ⟨moved, wait, busy⟩

end Sys2Proof.Machine
end

section
/-! O45. Upkeep of the memories: scrub passes. -/

namespace Sys2Proof

namespace SMap

variable {α : Type}

theorem lookupRows_map (f : Nat → α → α) (l : List (Nat × α)) (i : Nat) :
    lookupRows (l.map fun x => (x.1, f x.1 x.2)) i = (lookupRows l i).map (f i) := by
  induction l with
  | nil => rfl
  | cons x l ih =>
    obtain ⟨k, v⟩ := x
    by_cases here : k = i
    · subst here; simp [lookupRows]
    · simpa [lookupRows, here] using ih

theorem get?_mapKV (m : SMap α) (f : Nat → α → α) (i : Nat) : (m.mapKV f).get? i = (m.get? i).map (f i) :=
  lookupRows_map f m.rows i

end SMap

namespace Machine

/-- Cells dropped by their address read as 0, the others as before. -/
theorem Mem.read_filter (m : List Host.Cell) (keep : Nat → Bool) (a : Nat) :
    Mem.read (m.filter fun c => keep c.1) a = if keep a then Mem.read m a else 0 := by
  induction m with
  | nil => simp [Mem.read]
  | cons c m ih =>
    obtain ⟨k, b⟩ := c
    by_cases here : k = a
    · subst here
      cases kept : keep k <;> simp [kept, Mem.read, ih]
    · cases kept : keep k <;> simp [kept, Mem.read, ih, here]

/-! ### Scrub passes (R307, R312) -/

/-- A read delivers the same bytes where the map, the lines, their bytes and the generations in force are the same. -/
theorem byteAt_congr {s u : State} (map : SameMap s u) (mem : u.mem = s.mem) (lines : u.lines = s.lines)
    (base : u.baseGens = s.baseGens) (gens : ∀ r, (u.gen r).1 = (s.gen r).1) (a : Nat) : u.byteAt a = s.byteAt a := by
  simp only [State.byteAt, State.readByte, State.stale, State.lineMeta, State.genOfLine, map.isDram, mem, lines, base, gens]
  rfl

/-- The lines that a pass of region `r` rewrites. -/
def staleIn (s : State) (r l : Nat) : Bool := l / 32768 == r && !(s.lineMeta l).ue && s.stale l

theorem scrubLines_readByte (s : State) (r a : Nat) :
    (scrubLines s r).readByte a = if staleIn s r (a / 64) then 0 else s.readByte a := by
  refine (Mem.read_filter s.mem (fun b => !staleIn s r (b / 64)) a).trans ?_
  cases staleIn s r (a / 64) <;> rfl

theorem scrubLines_lineMeta_listed {s : State} {r l : Nat} {m : LineMeta} (listed : s.lines.get? l = some m) :
    (scrubLines s r).lineMeta l = if staleIn s r l then LineMeta.good (s.gen r).1 else m := by
  have now : (scrubLines s r).lines.get? l = some (if staleIn s r l then LineMeta.good (s.gen r).1 else m) :=
    (SMap.get?_mapKV _ _ _).trans (by rw [listed]; rfl)
  rw [State.lineMeta, SMap.getD, now, Option.getD_some]

theorem scrubLines_lineMeta_unlisted {s : State} {r l : Nat} (unlisted : s.lines.get? l = none) :
    (scrubLines s r).lineMeta l = if l / 32768 = r then LineMeta.good (s.gen r).1 else s.lineMeta l := by
  have now : (scrubLines s r).lines.get? l = none := (SMap.get?_mapKV _ _ _).trans (by rw [unlisted]; rfl)
  have base : (scrubLines s r).baseGens.getD (l / 32768) 0
      = if l / 32768 = r then (s.gen r).1 else s.baseGens.getD (l / 32768) 0 :=
    SMap.getD_set _ _ _ _ _
  rw [State.lineMeta, SMap.getD, now, Option.getD_none, base]
  split
  · rfl
  · rw [State.lineMeta, SMap.getD.eq_1 s.lines, unlisted, Option.getD_none]

theorem scrubLines_stale (s : State) (r l : Nat) : (scrubLines s r).stale l
    = (s.isDram (64 * l) && ((scrubLines s r).lineMeta l).gen != s.genOfLine l) := by
  have map : SameMap s (scrubLines s r) := ⟨rfl, rfl, fun _ _ => rfl⟩
  exact congrArg (· && _) (map.isDram _)

/-- Whether a line reads as zeros because it is stale. -/
def readsZero (s : State) (l : Nat) : Bool := !(s.lineMeta l).ue && s.stale l

theorem byteAt_eq (s : State) (a : Nat) : s.byteAt a = if readsZero s (a / 64) then 0 else s.readByte a := by
  unfold State.byteAt readsZero
  cases (s.lineMeta (a / 64)).ue <;> cases s.stale (a / 64) <;> rfl

/-- A line in force is not stale. -/
theorem readsZero_of_good {s u : State} {l : Nat} (line : u.lineMeta l = LineMeta.good (s.genOfLine l))
    (stale : u.stale l = (s.isDram (64 * l) && (u.lineMeta l).gen != s.genOfLine l)) : readsZero u l = false := by
  rw [readsZero, stale, line]
  simp [LineMeta.good]

/-- A line that a pass does not rewrite reads as zeros after it exactly where it did before. -/
theorem scrubLines_readsZero {s : State} {r l : Nat} (kept : staleIn s r l = false) :
    readsZero (scrubLines s r) l = readsZero s l := by
  have same : (scrubLines s r).lineMeta l = s.lineMeta l → readsZero (scrubLines s r) l = readsZero s l := fun eq => by
    rw [readsZero, scrubLines_stale, eq, readsZero, State.stale]
  cases listed : s.lines.get? l with
  | some m =>
    refine same ?_
    rw [scrubLines_lineMeta_listed listed, kept, State.lineMeta, SMap.getD, listed]
    rfl
  | none =>
    by_cases inside : l / 32768 = r
    · have now : readsZero (scrubLines s r) l = false := by
        refine readsZero_of_good (s := s) ?_ (scrubLines_stale s r l)
        rw [scrubLines_lineMeta_unlisted listed, if_pos inside, State.genOfLine, inside]
      rw [now]
      exact (by simpa [staleIn, readsZero, inside] using kept : readsZero s l = false).symm
    · exact same (by rw [scrubLines_lineMeta_unlisted listed, if_neg inside])

/-- A pass changes no byte that a read delivers. -/
theorem byteAt_scrubLines (s : State) (r a : Nat) : (scrubLines s r).byteAt a = s.byteAt a := by
  rw [byteAt_eq, byteAt_eq, scrubLines_readByte]
  by_cases old : staleIn s r (a / 64) = true
  · have zero : readsZero s (a / 64) = true := by
      unfold staleIn at old
      unfold readsZero
      simp only [Bool.and_eq_true] at old ⊢
      exact ⟨old.1.2, old.2⟩
    rw [if_pos old, if_pos zero, ite_self]
  · rw [if_neg old, scrubLines_readsZero (Bool.eq_false_iff.2 old)]

theorem linesOf_line (l : Nat) : State.linesOf (64 * l) 64 = [l] := by
  have first : 64 * l / 64 = l := by omega
  have last : (64 * l + 64 - 1) / 64 + 1 - l = 1 := by omega
  rw [State.linesOf, if_neg (by decide), first, last]
  rfl

/-- A pass over lines that read as good records nothing. -/
theorem readRecords_ok (s : State) (ring l : Nat) (c : Option Nat) (sev : Nat) (ok : s.lineSt l = .ok) :
    s.readRecords ring (64 * l) 64 c sev = s := by
  rw [State.readRecords, linesOf_line, List.foldl_cons, List.foldl_nil, ok]

theorem passReads_ok {s : State} {l : List Nat} (ring : Nat) (ok : ∀ i ∈ l, s.lineSt i = .ok) :
    l.foldl (fun u i => u.readRecords ring (64 * i) 64 none 1) s = s :=
  List.foldlRecOn (motive := fun u => u = s) l _ rfl fun u same i mem => by
    rw [same, readRecords_ok s ring i none 1 (ok i mem)]

/-- A region whose lines all read as good has its entry of the generation table. -/
theorem genBad_of_ok {s : State} {i : Nat} (ok : ∀ l ∈ scrubbed s i, s.lineSt l = .ok) : s.genBad.contains i = false := by
  refine Bool.eq_false_iff.2 fun bad => ?_
  have mem : i * 32768 ∈ scrubbed s i := by
    rw [scrubbed, if_pos bad]
    exact List.mem_map.2 ⟨0, List.mem_range.2 (Nat.succ_pos _), Nat.add_zero _⟩
  have ue : s.lineSt (i * 32768) = .ue := by
    rw [State.lineSt]
    refine if_pos ?_
    rw [Nat.mul_div_cancel _ (by decide), bad, Bool.or_true]
  exact absurd ((ok _ mem).symm.trans ue) (by decide)

/-- The state after the lines of a pass without errors. -/
def passed (s : State) (i : Nat) : State :=
  { scrubLines s i with board := { s.board with scrubs := s.board.scrubs.erase i } }

theorem passed_gen (s : State) (i r : Nat) : (passed s i).gen r = s.gen r := rfl

theorem passed_byteAt (s : State) (i a : Nat) : (passed s i).byteAt a = s.byteAt a :=
  (byteAt_congr (s := scrubLines s i) ⟨rfl, rfl, fun _ _ => rfl⟩ rfl rfl rfl (fun _ => rfl) a).trans (byteAt_scrubLines s i a)

/-- The end of a pass of region `i`, once its lines are rewritten in `u`. -/
def passEnds (u : State) (i g0 : Nat) (cleared : Bool) : State :=
  if cleared then
    (if ((u.gen i).1 + 16 - (u.gen i).2) % 16 ≥ 12 ∨ canClear u i = false then urgentScrub u i else u)
  else setGen u i (u.gen i).1 g0

/-- The end of a pass that meets no error. -/
theorem endPass_ok {s : State} {r : BitVec 23} {g0 : Nat} {cleared : Bool}
    (started : s.board.scrubs.get? r.toNat = some (g0, cleared)) (free : regionLeased s r.toNat = false)
    (ok : ∀ l ∈ scrubbed s r.toNat, s.lineSt l = .ok) :
    endPass s ⟨r, []⟩ [] = passEnds (passed s r.toNat) r.toNat g0 cleared := by
  have unleased : regionHolder s r.toNat [] = none := Option.isNone_iff_eq_none.1 (by simpa [regionLeased] using free)
  have reads : ∀ s1, (scrubbed s r.toNat).foldl
      (fun u l => u.readRecords (s.homeOf (r.toNat * 0x200000)) (64 * l) 64 none 1) s = s1 →
      endPass s ⟨r, []⟩ [] = (fun s2 : State =>
        passEnds { s2 with board := { s2.board with scrubs := s2.board.scrubs.erase r.toNat } } r.toNat g0 cleared)
        (if s1.genBad.contains r.toNat then s1 else scrubLines s1 r.toNat) := by
    rintro _ rfl
    unfold endPass
    dsimp only
    rw [started]
    dsimp only
    rw [unleased]
    rfl
  rw [reads s (passReads_ok _ ok), if_neg (by rw [genBad_of_ok ok]; decide)]
  rfl

theorem urgentScrub_byteAt (s : State) (r a : Nat) : (urgentScrub s r).byteAt a = s.byteAt a := by
  unfold urgentScrub
  split
  · rfl
  · rename_i idle
    have start : (startScrub s r).byteAt a = s.byteAt a := by
      rw [startScrub, if_neg idle]
      exact byteAt_congr ⟨rfl, rfl, fun _ _ => rfl⟩ rfl rfl rfl (fun _ => rfl) a
    exact (byteAt_congr (.setFld (not_mapReg_capScrub (homeOf_lt _ _)) _ _ _) rfl rfl rfl (fun _ => rfl) a).trans start

theorem setGen_gen (s : State) (i g f r : Nat) : (setGen s i g f).gen r = if r = i then (g, f) else s.gen r :=
  SMap.getD_set _ _ _ _ _

/-- The floor moves without a change of what a read delivers. -/
theorem setGen_byteAt (s : State) (i f a : Nat) : (setGen s i (s.gen i).1 f).byteAt a = s.byteAt a :=
  byteAt_congr (s := s) (u := setGen s i (s.gen i).1 f) ⟨rfl, rfl, fun _ _ => rfl⟩ rfl rfl rfl (fun r => by
    rw [setGen_gen, apply_ite Prod.fst]
    exact ite_eq_right_iff.2 fun same => same ▸ rfl) a

/-- The end of a pass without errors: no byte changes, and the floor moves unless a clear was accepted meanwhile. -/
theorem endPass_keeps {s : State} {r : BitVec 23} {g0 : Nat} {cleared : Bool}
    (started : s.board.scrubs.get? r.toNat = some (g0, cleared)) (free : regionLeased s r.toNat = false)
    (ok : ∀ l ∈ scrubbed s r.toNat, s.lineSt l = .ok) :
    (∀ a, (endPass s ⟨r, []⟩ []).byteAt a = s.byteAt a)
      ∧ (endPass s ⟨r, []⟩ []).gen r.toNat = ((s.gen r.toNat).1, if cleared then (s.gen r.toNat).2 else g0) := by
  rw [endPass_ok started free ok, passEnds]
  cases cleared with
  | false =>
    rw [if_neg Bool.false_ne_true, if_neg Bool.false_ne_true]
    refine ⟨fun a => ?_, ?_⟩
    · rw [setGen_byteAt, passed_byteAt]
    · rw [setGen_gen, if_pos rfl, passed_gen]
  | true =>
    rw [if_pos rfl, if_pos rfl]
    split
    · exact ⟨fun a => (urgentScrub_byteAt _ _ a).trans (passed_byteAt s _ a), by rw [State.gen, urgentScrub_gens]; rfl⟩
    · exact ⟨fun a => passed_byteAt s _ a, rfl⟩

/-- The end of a pass of a region that unit `k` leases. -/
theorem endPass_leased {s : State} {r : BitVec 23} {k : Nat} (started : s.board.scrubs.has r.toNat = true)
    (leased : regionHolder s r.toNat [] = some k) :
    endPass s ⟨r, []⟩ [] = if urgentPass s r.toNat then holdIn s k (.scrub ⟨r, []⟩ []) else s := by
  obtain ⟨⟨g0, cleared⟩, start⟩ := Option.isSome_iff_exists.1 started
  unfold endPass
  dsimp only
  rw [start]
  dsimp only
  rw [leased]

end Machine
end Sys2Proof
end

section
/-! O45. Upkeep of the memories: retirement, cache ways, and the statement. -/

namespace Sys2Proof.Machine

/-! ### Retirement (R283, R316, R317) -/

/-- A map that is not too long governs once it is written. -/
theorem mapRecs_writeMap {f : Flash} {recs : List MapRec} (fits : recs.length ≤ 8190) :
    (f.writeMap recs).mapRecs = recs := by
  unfold Flash.writeMap
  rw [if_neg (Nat.not_lt.2 fits)]
  cases newer : f.newer with
  | false =>
    have seq : f.mapSeq = f.mapA.seq := by rw [Flash.mapSeq, Flash.governing, newer]; rfl
    have governs : Flash.newer { f with mapB := ⟨true, f.mapSeq + 1, recs⟩ } = true := by simp [Flash.newer, seq]
    rw [if_neg Bool.false_ne_true, Flash.mapRecs, Flash.governing, if_pos governs]
    exact if_pos (Bool.or_true _)
  | true =>
    have seq : f.mapSeq = f.mapB.seq := by rw [Flash.mapSeq, Flash.governing, newer]; rfl
    have governs : Flash.newer { f with mapA := ⟨true, f.mapSeq + 1, recs⟩ } = false := by simp [Flash.newer, seq]
    rw [if_pos rfl, Flash.mapRecs, Flash.governing, governs]
    rfl

theorem mapRecs_addMapRec {s : State} (room : s.board.flash.mapRecs.length < 8190) (r : MapRec) :
    (addMapRec s r).board.flash.mapRecs = s.board.flash.mapRecs ++ [r] :=
  mapRecs_writeMap (by simpa using room)

theorem region_of_hole {s : State} {i : Nat} (hole : i ∈ s.holes) : s.region (i * 0x200000) = .hole := by
  have here : s.holes.contains (i * 0x200000 / 0x200000) = true := by
    rw [Nat.mul_div_cancel _ (by decide)]
    exact List.contains_iff_mem.2 hole
  exact if_pos here

/-- Region `i` of `s` is a hole from now on. -/
def holed (s : State) (i : Nat) : State := { s with holes := (i :: s.holes).dedup }

theorem mem_holed (s : State) (i : Nat) : i ∈ (holed s i).holes := List.mem_dedup.2 List.mem_cons_self

/-- A region that no window covers is recorded in the package map at once. -/
theorem retireRegion_unwindowed {s : State} {i : Nat} (moved : unwindowed s (i * 0x200000) (i * 0x200000 + 0x1FFFFF) = true) :
    retireRegion s i = repairRecord (addMapRec (holed s i) (MapRec.field 9 (i * 0x200000) 0))
      (homeOfRetired s (i * 0x200000)) (s.memUnit (i * 0x200000)).1 (s.memUnit (i * 0x200000)).2 9 true :=
  if_pos moved

/-- A region that a window covers is recorded later. -/
theorem retireRegion_windowed {s : State} {i : Nat} (covered : unwindowed s (i * 0x200000) (i * 0x200000 + 0x1FFFFF) = false) :
    retireRegion s i = deferRepair (holed s i)
      (MapRec.field 9 (i * 0x200000) ((s.memUnit (i * 0x200000)).1 * 2 ^ 24 + (s.memUnit (i * 0x200000)).2)) :=
  if_neg (by rw [Bool.not_eq_true]; exact covered)

theorem deferRepair_frame (s : State) (r : MapRec) :
    (deferRepair s r).holes = s.holes ∧ (deferRepair s r).mem = s.mem ∧ (deferRepair s r).board.flash = s.board.flash
      ∧ r ∈ (deferRepair s r).board.repairs := by
  unfold deferRepair
  split
  · next listed => exact ⟨rfl, rfl, rfl, List.contains_iff_mem.1 listed⟩
  · exact ⟨rfl, rfl, rfl, List.mem_append_right _ (List.mem_singleton.2 rfl)⟩

/-! ### Cache ways (R297) -/

/-- Where the lines of the shared cache lie: base die, way and line. -/
def CacheLine.slot (x : CacheLine) : Nat × Nat × Nat := (x.die, x.way, x.line)

theorem CacheLine.same_iff {x y : CacheLine} : State.CacheLine.same x y = true ↔ x.slot = y.slot := by
  simp [State.CacheLine.same, CacheLine.slot, and_assoc]

/-- The lines of the shared cache lie in `u` where they lie in `s`. -/
def SameSlots (s u : State) : Prop := u.cache.map CacheLine.slot = s.cache.map CacheLine.slot

namespace SameSlots

theorem of_cache {s u : State} (h : u.cache = s.cache) : SameSlots s u := congrArg _ h

theorem refl (s : State) : SameSlots s s := rfl

theorem trans {s u v : State} (h : SameSlots s u) (g : SameSlots u v) : SameSlots s v := Eq.trans g h

theorem ite {c : Prop} [Decidable c] {s u v : State} (yes : SameSlots s u) (no : SameSlots s v) :
    SameSlots s (if c then u else v) := by
  split
  · exact yes
  · exact no

theorem foldl {α : Type} {f : State → α → State} (h : ∀ s a, SameSlots s (f s a)) (l : List α) (s : State) :
    SameSlots s (l.foldl f s) :=
  foldl_keeps (fun s => s.cache.map CacheLine.slot) h l s

theorem writeBytes (s : State) (a : Nat) (bs : List Byte) : SameSlots s (s.writeBytes a bs) :=
  of_cache (by rw [BytesOnly.writeBytes s a bs])

theorem setReg (s : State) (r : Nat) (x : W64) : SameSlots s (s.setReg r x) := rfl

theorem bump (s : State) (r : Nat) (f : Fld) (n : Nat) : SameSlots s (s.bump r f n) := rfl

theorem ringPut (s : State) (p : Nat) (bs : List Byte) : SameSlots s (s.ringPut p bs) :=
  (ite (bump s _ _ _) (refl s)).trans ((writeBytes _ _ _).trans (setReg _ _ _))

theorem raiseAlert (s : State) (p sev : Nat) : SameSlots s (s.raiseAlert p sev) := ite (of_cache rfl) (refl s)

theorem record (s : State) (p : Nat) (r : ErrRec) : SameSlots s (s.record p r) := by
  have drawn : SameSlots s s.draw.2 := of_cache rfl
  unfold State.record
  dsimp only
  split
  · split
    · exact drawn.trans (of_cache rfl)
    · exact drawn.trans (writeBytes _ _ _)
  · refine ite ?_ (ite ?_ (drawn.trans (of_cache rfl)))
    · exact SameSlots.trans (u := s.draw.2.setRing p _) (of_cache rfl) ((ringPut _ _ _).trans (raiseAlert _ _ _))
    · exact SameSlots.trans (u := (s.draw.2.setRing p _).setFld (R.errStat p) F.errStat_buffered _) (of_cache rfl)
        (raiseAlert _ _ _)

theorem sramLine (s : State) (p n l : Nat) : SameSlots s (s.sramLine p n l) :=
  SameSlots.trans (u := (s.sramSyndrome n).2) (of_cache rfl) (record _ _ _)

theorem setLine (s : State) (x : CacheLine) : SameSlots s (s.setLine x) := by
  refine (List.map_map ..).trans (List.map_congr_left fun y _ => ?_)
  by_cases same : State.CacheLine.same y x = true
  · exact (congrArg CacheLine.slot (if_pos same)).trans (CacheLine.same_iff.1 same).symm
  · exact congrArg CacheLine.slot (if_neg same)

theorem markDirty (s : State) (l : Nat) (mask : BitVec 64) : SameSlots s (s.markDirty l mask) := by
  unfold State.markDirty
  split
  · exact refl s
  · exact setLine s _

theorem writeBack (s : State) (x : CacheLine) : SameSlots s (s.writeBack x) := by
  refine ite (refl s) (ite (record s _ _) (ite (ite (of_cache rfl) (refl s)) ((markDirty s _ _).trans (foldl ?_ _ _))))
  exact fun u _ => ite (writeBytes u _ _) (refl u)

theorem writeBackBad (s : State) (x : CacheLine) : SameSlots s (s.writeBackBad x) :=
  (bump s _ _ _).trans ((sramLine _ _ _ _).trans ((writeBack _ x).trans (of_cache rfl)))

theorem writeBackAll (s : State) (l : List CacheLine) (bad : List Nat) : SameSlots s (s.writeBackAll l bad) :=
  foldl (fun u x => ite (writeBackBad u x) (writeBack u x)) l s

end SameSlots

/-- A line that lies in the cache after lines have been dropped lay there before, and in no place of theirs. -/
theorem mem_dropLines {gone : List CacheLine} {s : State} {x : CacheLine} (left : x ∈ (gone.foldl State.dropLine s).cache) :
    x ∈ s.cache ∧ ∀ y ∈ gone, x.slot ≠ y.slot := by
  induction gone generalizing s with
  | nil => exact ⟨left, fun y listed => absurd listed List.not_mem_nil⟩
  | cons z gone ih =>
    obtain ⟨kept, others⟩ := ih left
    obtain ⟨here, apart⟩ := List.mem_filter.1 kept
    have elsewhere : x.slot ≠ z.slot := fun same => by simp [CacheLine.same_iff.2 same] at apart
    exact ⟨here, fun y listed => (List.mem_cons.1 listed).elim (fun eq => eq ▸ elsewhere) (others y)⟩

/-- A way whose lines have been written back holds none. -/
theorem flushWay_empty {s : State} {p w : Nat} {bad : List Nat} {x : CacheLine} (left : x ∈ (s.flushWay p w bad).cache) :
    ¬ (x.die = p ∧ x.way = w) := by
  rintro ⟨die, way⟩
  obtain ⟨stored, apart⟩ := mem_dropLines left
  have lay : x.slot ∈ s.cache.map CacheLine.slot := by
    rw [← SameSlots.writeBackAll s (s.cache.filter fun y => y.die == p && y.way == w) bad]
    exact List.mem_map_of_mem stored
  obtain ⟨y, there, same⟩ := List.mem_map.1 lay
  obtain ⟨sameDie, sameWay⟩ : y.die = x.die ∧ y.way = x.way :=
    ⟨congrArg Prod.fst same, congrArg (fun z => z.2.1) same⟩
  exact apart y (List.mem_filter.2 ⟨there, by simp [sameDie, sameWay, die, way]⟩) same.symm

/-- The end of a way's write-back. -/
theorem wayWritebackDone_runs {s : State} {p : PartId} {w : Fin 16} {bad : List (BitVec 38)}
    (waits : s.board.wayWait.contains (p.val * 16 + w.val) = true) :
    Runs (.wayWritebackDone p ⟨w, bad⟩) s fun u => u.mem = (s.flushWay p.val w.val (bad.map BitVec.toNat)).mem
      ∧ (∀ l ∈ u.cache, ¬(l.die = p.val ∧ l.way = w.val)) ∧ p.val * 16 + w.val ∉ u.board.wayWait
      ∧ p.val * 16 + w.val ∈ u.board.wayReady := by
  refine ⟨_, congrArg Host.Outcome.next (if_pos waits), rfl, fun l left => flushWay_empty left, ?_, ?_⟩
  · exact fun listed => by simpa using (List.mem_filter.1 listed).2
  · exact List.mem_append_right _ (List.mem_singleton.2 rfl)

/-! ### The statement -/

/-- Settles O45: clears by `runClears_accepts` and `runClears_waits`, passes by `endPass_keeps`, ways by `flushWay_empty`. -/
theorem memoryUpkeep : Obligations.MemoryUpkeep := by
  intro s c p r path i q accepted asked
  refine ⟨?_, ?_, ?_, ?_, ?_, ?_, ?_, ?_, ⟨?_, ?_⟩, ?_, ?_, ?_⟩
  · rintro ⟨taken, scope, range, idle, front⟩ can free
    obtain ⟨⟨gen, mem⟩, -, busy, result, done⟩ := runClears_accepts (s := clearBegun s q) front
      ((clearBegun_canClear s q i).trans can) ((clearBegun_leased s p.isLt i).trans free)
    rw [clearBegun_gen] at gen
    rw [clearBegun_done] at done
    exact ⟨_, clearMemory_replies taken scope range idle, ⟨gen, mem⟩, busy, result (clearBegun_busy s q), done⟩
  · rintro ⟨taken, scope, range, idle, front⟩ held
    rw [← clearBegun_canClear s q, ← clearBegun_leased s p.isLt] at held
    obtain ⟨gens, mem, busy, waits, scrub, wait⟩ := runClears_waits (s := clearBegun s q) front (clearBegun_busy s q) held
    rw [clearBegun_canClear] at scrub wait
    exact ⟨_, clearMemory_replies taken scope range idle, gens, mem, busy, waits, scrub, wait⟩
  · exact fun one can free => ⟨_, rfl, retryClears_accepts one can free⟩
  · intro dram free idle
    refine ⟨_, rfl, (if_pos ⟨dram, free⟩).trans (if_neg ?_)⟩
    rw [idle]
    exact Bool.false_ne_true
  · exact fun g0 cleared started free ok => ⟨_, rfl, endPass_keeps started free ok⟩
  · exact fun k started leased => ⟨_, rfl, endPass_leased started leased⟩
  · intro u s1 taken retired
    refine replies_of_mgmt rfl taken ?_
    rw [retired]
  · exact fun dram => if_pos dram
  · intro moved room
    exact ⟨_, retireRegion_unwindowed moved, region_of_hole (mem_holed s i), rfl, mapRecs_addMapRec (s := holed s i) room _⟩
  · intro covered
    rw [retireRegion_windowed covered]
    obtain ⟨holes, mem, flash, listed⟩ := deferRepair_frame (holed s i)
      (MapRec.field 9 (i * 0x200000) ((s.memUnit (i * 0x200000)).1 * 2 ^ 24 + (s.memUnit (i * 0x200000)).2))
    exact ⟨region_of_hole (holes ▸ mem_holed s i), mem, flash, listed⟩
  · intro range
    refine ⟨_, rfl, if_neg (not_or.2 ⟨by decide, ?_⟩)⟩
    rw [range]
    decide
  · exact fun op other => ⟨_, rfl, if_pos (.inl fun one => other (BitVec.eq_of_toNat_eq one))⟩
  · exact fun w bad waits => wayWritebackDone_runs waits

end Sys2Proof.Machine
end

section
/-! O59. Channel-local addresses. -/

namespace Sys2Proof.Machine

/-- Settles O59, from the digits of `deviceAddr` in base `2 ^ 12`: the unit is the digit that R324 inserts. -/
theorem channelLocalAddresses : Obligations.ChannelLocalAddresses := by
  intro n c l o
  have unit := c.isLt
  refine ⟨fun low => ⟨l / 2 ^ 12 * 2 ^ 17 + c.val * 2 ^ 12 + l % 2 ^ 12, ?_, ?_, ?_, rfl, ?_⟩, fun low mine => ?_⟩
  · unfold deviceAddr
    omega
  · omega
  · omega
  · omega
  · unfold deviceAddr
    omega

end Sys2Proof.Machine
end

section
/-! O30. Near-memory units: reads and updates of a unit, the issue of a running unit, and its register instructions. -/

namespace Sys2Proof.Machine

namespace State

variable (s : State) (k : Nat) (u : CruUnit)

@[simp] theorem unit_setUnit : (s.setUnit k u).unit k = u := SMap.getD_set_self _ _ _ _

theorem unit_setUnit_ne {j : Nat} (other : j ≠ k) : (s.setUnit k u).unit j = s.unit j :=
  (SMap.getD_set _ _ _ _ _).trans (if_neg other)

@[simp] theorem setUnit_setUnit (v : CruUnit) : (s.setUnit k u).setUnit k v = s.setUnit k v := by
  simp [setUnit]

end State

/-- The number of near-memory unit `c` of stack `n`. -/
abbrev keyOf (n : StackId) (c : Fin 32) : Nat := State.unitKey n.val c.val

/-- Near-memory unit `c` of stack `n`. -/
abbrev unitOf (s : State) (n : StackId) (c : Fin 32) : CruUnit := s.unit (keyOf n c)

/-! ### Issue (R341, R346) -/

section Issue

variable {s : State} {n : StackId} {c : Fin 32} {i : Instr} {t : State} {v : CruUnit} {f : CruUnit → CruUnit}
  (running : (unitOf s n c).st = .run)
include running

theorem issue_checked (body : Nat → CruUnit → State → State) :
    issue n ⟨c, .none⟩ s body = body (keyOf n c) (unitOf s n c) s :=
  if_neg (not_not.2 running)

theorem issue_failed (body : Nat → CruUnit → State → State) :
    issue n ⟨c, .failed⟩ s body = abortHere s (keyOf n c) St.poison true :=
  if_neg (not_not.2 running)

theorem issue_parity (body : Nat → CruUnit → State → State) :
    issue n ⟨c, .parity⟩ s body =
      let r := parityRecord (reloadLine s (keyOf n c)) (keyOf n c)
      body (keyOf n c) (r.unit (keyOf n c)) r :=
  if_neg (not_not.2 running)

/-- An instruction that issues does what its body does. -/
theorem runs_of_issue {body : Nat → CruUnit → State → State} (meaning : exec i s = .next (issue n ⟨c, .none⟩ s body))
    (result : body (keyOf n c) (unitOf s n c) s = t) : Runs i s fun u => u = t :=
  ⟨t, meaning.trans (congrArg Host.Outcome.next ((issue_checked running body).trans result)), rfl⟩

/-- An instruction that acts on its unit alone. -/
theorem runs_of_unitStep (meaning : exec i s = .next (unitStep n ⟨c, .none⟩ s f))
    (result : f (unitOf s n c) = v) :
    Runs i s fun u => u = s.setUnit (keyOf n c) { v with pc := (unitOf s n c).pc + 1 } :=
  runs_of_issue running meaning (by rw [result])

end Issue

/-! ### Branches -/

theorem cruTaken_eq (x y : W32) : cruTaken .eq x y = true ↔ x = y := beq_iff_eq
theorem cruTaken_ne (x y : W32) : cruTaken .ne x y = true ↔ x ≠ y := bne_iff_ne
theorem cruTaken_lt (x y : W32) : cruTaken .lt x y = true ↔ x.toInt < y.toInt := BitVec.slt_iff_toInt_lt
theorem cruTaken_ltu (x y : W32) : cruTaken .ltu x y = true ↔ x.toNat < y.toNat := BitVec.ult_iff_lt

/-- A branch goes to its target where its condition holds, and on otherwise. -/
theorem cruBranch_runs {s : State} {n : StackId} {c : Fin 32} {cnd : CruCond} {a b : BitVec 4} {off : BitVec 18} {p : Prop}
    [Decidable p] (running : (unitOf s n c).st = .run)
    (taken : cruTaken cnd ((unitOf s n c).rg a) ((unitOf s n c).rg b) = true ↔ p) :
    Runs (.cruBranch n ⟨c, .none⟩ cnd a b off) s fun v => v = s.setUnit (keyOf n c) { unitOf s n c with
      pc := if p then cruTarget (unitOf s n c).pc off else (unitOf s n c).pc + 1 } :=
  runs_of_issue running rfl (by simp only [taken])

/-! ### The statement -/

/-- Settles O30: the register and lane instructions by `runs_of_unitStep`, branches by `cruBranch_runs`, and what a check does
to a program by the equations of `issue`. -/
theorem unitRegisterInstructions : Obligations.UnitRegisterInstructions := by
  constructor
  · intro s n c d a b imm k ui u x y w go dest running
    have reg {i : Instr} {f : CruUnit → CruUnit} {r : W32} (meaning : exec i s = .next (unitStep n ui s f))
        (result : f u = u.wg d r) : w i r := runs_of_unitStep running meaning result
    refine ⟨reg rfl rfl, reg rfl rfl, reg rfl rfl, reg rfl rfl, reg rfl rfl, reg rfl rfl, reg rfl rfl, reg rfl rfl, reg rfl rfl,
      reg rfl rfl, reg rfl rfl, ?_, ?_, ?_, ?_, ?_, ?_, ?_, ⟨rfl, rfl⟩, ?_, ?_⟩
    · exact runs_of_unitStep running rfl rfl
    · exact runs_of_issue running rfl rfl
    · exact cruBranch_runs running (cruTaken_eq x y)
    · exact cruBranch_runs running (cruTaken_ne x y)
    · exact cruBranch_runs running (cruTaken_lt x y)
    · exact cruBranch_runs running (cruTaken_ltu x y)
    · exact fun arrived => runs_of_issue running rfl (if_pos arrived)
    · exact ⟨_, rfl, issue_failed running _⟩
    · exact ⟨_, rfl, issue_parity running _⟩
  · intro s n c fd fa fb fc k ui u l w running
    have lanes {i : Instr} {f : CruUnit → CruUnit} {g : Nat → W32} (meaning : exec i s = .next (unitStep n ui s f))
        (result : f u = u.wf fd (flanes g)) : w i g := runs_of_unitStep running meaning result
    exact ⟨lanes rfl rfl, lanes rfl rfl, lanes rfl rfl, lanes rfl rfl, lanes rfl rfl, lanes rfl rfl, lanes rfl rfl, lanes rfl rfl⟩

end Sys2Proof.Machine
end

section
/-! O31. Near-memory units: instructions with operands in the store. -/

namespace Sys2Proof.Machine

theorem storeOk_iff {a n align : Nat} : storeOk a n align = true ↔ a + n ≤ 0x10000 ∧ a % align = 0 := by
  simp [storeOk]

/-- Operands without an alignment only have to lie in the store. -/
theorem storeOk_bytes {a n : Nat} (fits : a + n ≤ 0x10000) : storeOk a n 1 = true := storeOk_iff.2 ⟨fits, Nat.mod_one a⟩

/-- Room for the longer of two operands is room for either. -/
theorem storeOk_either {p : Prop} [Decidable p] {a long short : Nat} (fits : a + long ≤ 0x10000)
    (shorter : short ≤ long) : storeOk a (if p then long else short) 1 = true := by
  refine storeOk_bytes ?_
  split
  · exact fits
  · exact (Nat.add_le_add_left shorter a).trans fits

theorem storeBusy_of_noReads {u : CruUnit} (still : u.reads = []) (a n : Nat) : u.storeBusy a n = false := by
  simp [CruUnit.storeBusy, still]

/-! ### Issue (R323, R342) -/

/-- The unit after cd.fin, but for its PC: the sums of the 64 columns in the store, and no step left in the set (R343). -/
def finishedDot (u : CruUnit) (acc : BitVec 3) (a b d : BitVec 4) (init : Bool) : CruUnit :=
  let x := accOf u acc
  let out := (u.rg a).toNat
  let sc := (u.rg b).toNat
  let sa := (u.rg d).toNat
  let col (i : Nat) : W32 :=
    dotColumn x init (BitVec.ofNat 32 (leVal (u.readStore (out + 4 * i) 4))) i
      ((u.readByte sa).toNat, (u.readByte (sa + 1)).toNat)
      ((u.readByte (sc + i)).toNat, (u.readByte (sc + 64 + i)).toNat)
  let u1 := u.writeStore out ((List.range 64).flatMap fun i => leBytes 4 (col i).toNat)
  { u1 with accs := u1.accs.set acc.toNat { x with steps := [] } }

/-- Accumulators and PC set at once, or one after the other: said of a unit that is not unfolded. -/
theorem withAccs_withPc {u v : CruUnit} {m : SMap AccSet} {pc : Nat} (h : { u with accs := m } = v) :
    { u with accs := m, pc := pc } = { v with pc := pc } := by
  rw [← h]

section StoreIssue

variable {s : State} {n : StackId} {c : Fin 32} {i : Instr} {v : CruUnit} {f : CruUnit → CruUnit}
  {ranges : CruUnit → List (Nat × Nat × Nat)} (running : (unitOf s n c).st = .run)
include running

/-- An instruction whose operands lie in the store, and that no cm.in in flight writes. -/
theorem runs_of_unitStoreStep (still : (unitOf s n c).reads = [])
    (meaning : exec i s = .next (unitStoreStep n ⟨c, .none⟩ s ranges f))
    (fits : ∀ r ∈ ranges (unitOf s n c), storeOk r.1 r.2.1 r.2.2 = true)
    (result : f (unitOf s n c) = v) :
    Runs i s fun u => u = s.setUnit (keyOf n c) { v with pc := (unitOf s n c).pc + 1 } := by
  have inside : ¬ ((ranges (unitOf s n c)).any fun r => !storeOk r.1 r.2.1 r.2.2) = true := by
    simpa using fits
  have free : ¬ ((ranges (unitOf s n c)).any fun r =>
      (unitOf s n c).storeBusy r.1 r.2.1) = true := by
    simp [storeBusy_of_noReads still]
  exact runs_of_issue running meaning (by rw [if_neg inside, if_neg free, result])

/-- An operand outside the store aborts the program. -/
theorem aborts_of_unitStoreStep {r : Nat × Nat × Nat}
    (meaning : exec i s = .next (unitStoreStep n ⟨c, .none⟩ s ranges f))
    (named : r ∈ ranges (unitOf s n c)) (outside : storeOk r.1 r.2.1 r.2.2 = false) :
    Runs i s fun u => u = abortHere s (keyOf n c) St.bound false :=
  runs_of_issue running meaning (if_pos (List.any_eq_true.2 ⟨r, named, by rw [outside]; rfl⟩))

/-! ### Sums, conversions and dot products (R342, R343) -/

theorem cvSum_runs {d a b : BitVec 4} {cnt : Nat} (still : (unitOf s n c).reads = [])
    (count : ((unitOf s n c).rg b).toNat = cnt) (least : 1 ≤ cnt) (most : cnt ≤ 4096)
    (fits : ((unitOf s n c).rg a).toNat + 4 * cnt ≤ 0x10000) :
    let u := unitOf s n c
    Runs (.cvSum n ⟨c, .none⟩ d a b) s fun t => t = s.setUnit (keyOf n c)
      { u.wf d (flanes fun _ => Fp.canonSum (storeFloats u (u.rg a).toNat cnt)) with pc := u.pc + 1 } := by
  subst count
  refine runs_of_unitStoreStep running still (congrArg Host.Outcome.next (if_neg ?_))
    (List.forall_mem_singleton.2 (storeOk_bytes fits)) rfl
  exact not_or.2 ⟨Nat.ne_of_gt least, Nat.not_lt.2 most⟩

theorem cvCvt_runs {d a b : BitVec 4} {fmt : BitVec 3} {h : Bool} (still : (unitOf s n c).reads = [])
    (known : blockFmtOk fmt = true) (source : ((unitOf s n c).rg a).toNat + 128 ≤ 0x10000)
    (codes : ((unitOf s n c).rg d).toNat + 32 ≤ 0x10000)
    (scale : ((unitOf s n c).rg b).toNat < 0x10000) :
    let u := unitOf s n c
    let r := Fp.cvtBlock fmt none (storeFloats u (u.rg a).toNat 32)
    Runs (.cvCvt n ⟨c, .none⟩ d a b fmt h) s fun t => t = s.setUnit (keyOf n c)
      { (putCodes u (u.rg d).toNat fmt h r.2).writeByte (u.rg b).toNat (BitVec.ofNat 8 r.1) with pc := u.pc + 1 } :=
  runs_of_unitStoreStep running still (congrArg Host.Outcome.next (if_neg (by simp [known])))
    (List.forall_mem_cons.2 ⟨storeOk_bytes source, List.forall_mem_cons.2 ⟨storeOk_bytes codes,
      List.forall_mem_singleton.2 (storeOk_bytes (Nat.succ_le_of_lt scale))⟩⟩) rfl

theorem cvUnpk_runs {d a b : BitVec 4} {fmt : BitVec 3} {h : Bool} (still : (unitOf s n c).reads = [])
    (known : blockFmtOk fmt = true) (bytes : fmt ≠ 6) (codes : ((unitOf s n c).rg a).toNat + 32 ≤ 0x10000)
    (target : ((unitOf s n c).rg d).toNat + 128 ≤ 0x10000)
    (scale : ((unitOf s n c).rg b).toNat < 0x10000) :
    let u := unitOf s n c
    Runs (.cvUnpk n ⟨c, .none⟩ d a b fmt h) s fun t => t = s.setUnit (keyOf n c)
      { u.writeStore (u.rg d).toNat ((u.readStore (u.rg a).toNat 32).flatMap fun e =>
          leBytes 4 (Fp.mxToF32 fmt e.toNat (u.readByte (u.rg b).toNat).toNat).bits.toNat) with pc := u.pc + 1 } :=
  runs_of_unitStoreStep running still (congrArg Host.Outcome.next (if_neg (by simp [known])))
    (List.forall_mem_cons.2 ⟨storeOk_bytes codes, List.forall_mem_cons.2 ⟨storeOk_bytes target,
      List.forall_mem_singleton.2 (storeOk_bytes (Nat.succ_le_of_lt scale))⟩⟩) (by simp only [if_neg bytes])

theorem cdSet_runs {acc wf xf : BitVec 3} (takes : dotFmtOk wf xf = true) :
    let u := unitOf s n c
    Runs (.cdSet n ⟨c, .none⟩ acc wf xf) s fun t => t = s.setUnit (keyOf n c)
      { u with accs := u.accs.set acc.toNat ⟨wf, xf, []⟩, pc := u.pc + 1 } :=
  runs_of_issue running rfl (if_neg (by simp [takes]))

theorem cdSet_aborts {acc wf xf : BitVec 3} (refuses : dotFmtOk wf xf = false) :
    Runs (.cdSet n ⟨c, .none⟩ acc wf xf) s fun t => t = abortHere s (keyOf n c) St.bound false :=
  runs_of_issue running rfl (if_pos refuses)

theorem cdFin_aborts {acc : BitVec 3} {a b d : BitVec 4} {init : Bool}
    (unfinished : (accOf (unitOf s n c) acc).steps.length ≠ 32) :
    Runs (.cdFin n ⟨c, .none⟩ acc a b d init) s fun t => t = abortHere s (keyOf n c) St.bound false :=
  runs_of_issue running rfl (if_pos (.inl unfinished))

/-- cd.fin of a full set. Operands that hold the scales of FP4 blocks hold those of the other formats. -/
theorem cdFin_runs {acc : BitVec 3} {a b d : BitVec 4} {init : Bool} {v : CruUnit}
    (still : (unitOf s n c).reads = [])
    (full : (accOf (unitOf s n c) acc).steps.length = 32)
    (sums : ((unitOf s n c).rg a).toNat + 256 ≤ 0x10000)
    (scales : ((unitOf s n c).rg b).toNat + 128 ≤ 0x10000)
    (scale : ((unitOf s n c).rg d).toNat + 2 ≤ 0x10000)
    (result : finishedDot (unitOf s n c) acc a b d init = v) :
    Runs (.cdFin n ⟨c, .none⟩ acc a b d init) s fun t => t = s.setUnit (keyOf n c)
      { v with pc := (unitOf s n c).pc + 1 } := by
  refine runs_of_issue running rfl ((if_neg ?_).trans ((if_neg ?_).trans
    (congrArg (s.setUnit _) (withAccs_withPc result))))
  · simp [full, storeOk_bytes sums, storeOk_either scales (by decide : 64 ≤ 128), storeOk_either scale (by decide : 1 ≤ 2)]
  · simp [storeBusy_of_noReads still]

end StoreIssue

/-! ### The statement -/

/-- Settles O31: operands by `storeOk_iff`, and each instruction by `runs_of_unitStoreStep` or its own lemma above. -/
theorem unitStoreAndDotInstructions : Obligations.UnitStoreAndDotInstructions := by
  constructor
  · intro s n c d a b imm acc k ui u e A B ok w running still
    have one {i : Instr} {f : CruUnit → CruUnit} {v : CruUnit} {ranges : CruUnit → List (Nat × Nat × Nat)} {x len align : Nat}
        (fits : ok x len align) (meaning : exec i s = .next (unitStoreStep n ui s ranges f))
        (only : ranges u = [(x, len, align)]) (result : f u = v) : w i v :=
      runs_of_unitStoreStep running still meaning (only ▸ List.forall_mem_singleton.2 (storeOk_iff.2 fits)) result
    refine ⟨fun fits => one fits rfl rfl rfl, fun fits => one fits rfl rfl rfl, fun fits => one fits rfl rfl rfl,
      fun fits => one fits rfl rfl rfl, ?_, ?_, ?_⟩
    · exact fun line element => runs_of_unitStoreStep running still rfl
        (List.forall_mem_cons.2 ⟨storeOk_iff.2 line, List.forall_mem_singleton.2 (storeOk_bytes (Nat.succ_le_of_lt element))⟩) rfl
    · exact fun least most fits => cvSum_runs running still rfl least most fits.1
    · exact fun outside => aborts_of_unitStoreStep running rfl (List.mem_singleton.2 rfl)
        (Bool.eq_false_iff.2 (mt storeOk_iff.1 outside))
  · intro s n c a b d acc wf xf fmt init h k ui u A B D x w running still
    refine ⟨?_, ?_, ?_, ?_, ?_, ?_⟩
    · exact fun takes => cdSet_runs running takes
    · exact fun refuses => cdSet_aborts running refuses
    · exact fun full sums scales scale => cdFin_runs running still full sums scales scale rfl
    · exact fun unfinished => cdFin_aborts running unfinished
    · exact fun known source codes scale => cvCvt_runs running still known source codes scale
    · exact fun known bytes codes target scale => cvUnpk_runs running still known bytes codes target scale

end Sys2Proof.Machine
end

section
/-! O32. Near-memory units: memory, leases, boundaries and the shared bus. -/

namespace Sys2Proof.Machine

/-! ### What updates leave alone -/

namespace State

@[simp] theorem showUnit_mem (s : State) (k : Nat) : (s.showUnit k).mem = s.mem := rfl

@[simp] theorem unit_showUnit (s : State) (k j : Nat) : (s.showUnit k).unit j = s.unit j := rfl

@[simp] theorem isDram_setUnit (s : State) (k a : Nat) (u : CruUnit) : (s.setUnit k u).isDram a = s.isDram a := rfl
@[simp] theorem stale_setUnit (s : State) (k l : Nat) (u : CruUnit) : (s.setUnit k u).stale l = s.stale l := rfl
@[simp] theorem lineMeta_setUnit (s : State) (k l : Nat) (u : CruUnit) : (s.setUnit k u).lineMeta l = s.lineMeta l := rfl
@[simp] theorem lineSt_setUnit (s : State) (k l : Nat) (u : CruUnit) : (s.setUnit k u).lineSt l = s.lineSt l := rfl
@[simp] theorem genOfLine_setUnit (s : State) (k l : Nat) (u : CruUnit) : (s.setUnit k u).genOfLine l = s.genOfLine l := rfl
@[simp] theorem writeRaw_setUnit (s : State) (k a : Nat) (u : CruUnit) (bs : List Byte) :
    (s.setUnit k u).writeRaw a bs = (s.writeRaw a bs).setUnit k u := rfl

/-- Memory and units are written apart: a line written does not ask what the units hold. -/
theorem writeLine_setUnit (s : State) (k a : Nat) (u : CruUnit) (bs : List Byte) :
    (s.setUnit k u).writeLine a bs = (s.writeLine a bs).setUnit k u := by
  by_cases dram : s.isDram a = true
  · by_cases merges : s.stale (a / 64) = true ∧ (s.lineMeta (a / 64)).ue = false
    · simp only [writeLine, isDram_setUnit, stale_setUnit, lineMeta_setUnit, lineSt_setUnit, genOfLine_setUnit,
        writeRaw_setUnit, dram, merges, and_self, if_true]
      rfl
    · simp only [writeLine, isDram_setUnit, stale_setUnit, lineMeta_setUnit, lineSt_setUnit, genOfLine_setUnit,
        writeRaw_setUnit, dram, merges, if_true, if_false]
      rfl
  · by_cases whole : (s.lineMeta (a / 64)).poison = true ∧ bs.length = 64
    · simp only [writeLine, isDram_setUnit, lineMeta_setUnit, writeRaw_setUnit, dram, whole, and_self, Bool.false_eq_true,
        if_true, if_false]
      rfl
    · simp only [writeLine, isDram_setUnit, lineMeta_setUnit, writeRaw_setUnit, dram, whole, Bool.false_eq_true, if_false]

theorem writeLines_setUnit (fuel : Nat) (s : State) (k a : Nat) (u : CruUnit) (bs : List Byte) :
    writeLines fuel (s.setUnit k u) a bs = (writeLines fuel s a bs).setUnit k u := by
  induction fuel generalizing s a bs with
  | zero => rfl
  | succ fuel ih =>
    unfold writeLines
    split
    · rfl
    · dsimp only
      rw [writeLine_setUnit, ih]

theorem writeBytes_setUnit (s : State) (k a : Nat) (u : CruUnit) (bs : List Byte) :
    (s.setUnit k u).writeBytes a bs = (s.writeBytes a bs).setUnit k u := writeLines_setUnit _ _ _ _ _ _

end State

/-- Where no access waits for the unit, none is performed. -/
theorem performHeld_none {s : State} {k : Nat} (noneHeld : ∀ h ∈ s.held, h.1 ≠ k) :
    performHeld s k = s.setUnit k { s.unit k with pass := false } := by
  have mine : s.held.filter (·.1 == k) = [] := List.filter_eq_nil_iff.2 fun h held => by simpa using noneHeld h held
  have others : s.held.filter (·.1 != k) = s.held := List.filter_eq_self.2 fun h held => by simpa using noneHeld h held
  unfold performHeld
  rw [mine, others]
  simp

/-- A unit whose new state is shown, where no access waits for it: memory stays, and the unit passes nothing. -/
theorem performHeld_shown {s : State} {k : Nat} {u : CruUnit} (noneHeld : ∀ h ∈ s.held, h.1 ≠ k) :
    (performHeld ((s.setUnit k u).showUnit k) k).mem = s.mem
      ∧ (performHeld ((s.setUnit k u).showUnit k) k).unit k = { u with pass := false } := by
  rw [performHeld_none (s := (s.setUnit k u).showUnit k) noneHeld]
  exact ⟨rfl, by simp⟩

/-! ### Reads of a unit (R326, R327) -/

/-- A fold that appends what each item gives and leaves the state as it is. -/
theorem foldl_appends {α β γ : Type} {f : List α × β → γ → List α × β} {s : β} {g : γ → α}
    (appends : ∀ got x, f (got, s) x = (got ++ [g x], s)) (l : List γ) (got : List α) :
    l.foldl f (got, s) = (got ++ l.map g, s) := by
  induction l generalizing got with
  | nil => simp
  | cons x l ih => simp [appends, ih]

theorem zipIdx_map_range {α : Type} (g : Nat → α) (n : Nat) :
    ((List.range n).map g).zipIdx = (List.range n).map fun i => (g i, i) :=
  List.ext_getElem (by simp) (by simp)

/-- What a unit reads of a line at which the decoder meets nothing: outcome and bytes. -/
def unitLine (s : State) (a : Nat) : LineSt × List Byte := (unitLineSt s (a / 64), unitLineData s (a / 64))

theorem unitRead_none (s : State) (a : Nat) : unitRead s a .none = (unitLine s a, s) := by
  unfold unitRead
  exact if_pos (.inl rfl)

section Memory

variable {s : State} {n : StackId} {c : Fin 32}

/-- A cm.in whose lines can be read. -/
theorem cmInData_runs {r : CmIn} (asked : (unitOf s n c).reads = [r])
    (awake : s.quiesced (capBase n.val) = false)
    (readable : ∀ i < r.count, unitHole s (deviceAddr n.val c.val (r.addr + 64 * i)) = false
      ∧ unitLineSt s (deviceAddr n.val c.val (r.addr + 64 * i) / 64) = .ok) :
    Runs (.cmInData n c []) s fun t => t = s.setUnit (keyOf n c) ((List.range r.count).foldl (fun v i =>
      v.writeStore (r.store + 64 * i) (unitLineData s (deviceAddr n.val c.val (r.addr + 64 * i) / 64)))
        { unitOf s n c with reads := [] }) := by
  refine ⟨_, rfl, ?_⟩
  have noHole : ¬ ((List.range r.count).any fun i => unitHole s (deviceAddr n.val c.val (r.addr + 64 * i))) = true := by
    simpa using fun i inside => (readable i inside).1
  have sound : ¬ ((List.range r.count).map fun i => unitLine s (deviceAddr n.val c.val (r.addr + 64 * i))).any
      (fun g => g.1 != .ok) = true := by
    simpa [unitLine] using fun i inside => (readable i inside).2
  simp only [asked, awake, Bool.false_eq_true, if_false, if_neg noHole]
  rw [foldl_appends (g := fun i => unitLine s (deviceAddr n.val c.val (r.addr + 64 * i))) fun got i => by
    rw [List.getD_nil, unitRead_none]]
  rw [List.nil_append, if_neg sound, zipIdx_map_range, List.foldl_map]
  rfl

/-- While the stack is quiesced a read of a unit waits. -/
theorem cmInData_waits (closed : s.quiesced (capBase n.val) = true) : Runs (.cmInData n c []) s fun t => t = s := by
  refine ⟨_, rfl, ?_⟩
  dsimp only
  split
  · rfl
  · exact if_pos closed

/-! ### Boundaries and the end of leases (R336 to R338, R340, R342) -/

theorem quantumBoundary_waits (closed : s.quiesced (capBase n.val) = true) :
    Runs (.quantumBoundary n c) s fun t => t = s := ⟨_, rfl, if_pos closed⟩

section Boundary

variable (awake : ¬ s.quiesced (capBase n.val) = true)
  (live : (unitOf s n c).st = .run ∨ (unitOf s n c).st = .boundary)
include awake live

theorem quantumBoundary_reading (reading : (unitOf s n c).reads ≠ []) :
    Runs (.quantumBoundary n c) s fun t =>
      t = s.setUnit (keyOf n c) { unitOf s n c with st := .boundary } :=
  ⟨_, rfl, (if_neg awake).trans ((if_pos live).trans (if_pos reading))⟩

theorem quantumBoundary_expired (still : ¬ (unitOf s n c).reads ≠ [])
    (expired : (unitOf s n c).leaseExpired = true) :
    Runs (.quantumBoundary n c) s fun t => t = abortHere s (keyOf n c) St.timeout false :=
  ⟨_, rfl, (if_neg awake).trans ((if_pos live).trans ((if_neg still).trans (if_pos expired)))⟩

theorem quantumBoundary_erased (still : ¬ (unitOf s n c).reads ≠ [])
    (within : ¬ (unitOf s n c).leaseExpired = true)
    (erased : (s.fld R.secKeystat F.secKeystat_mem_valid).testBit (n.val / 4) = false) :
    Runs (.quantumBoundary n c) s fun t => t = abortHere s (keyOf n c) St.cancelled false :=
  ⟨_, rfl, (if_neg awake).trans ((if_pos live).trans ((if_neg still).trans ((if_neg within).trans (if_pos erased))))⟩

/-- The accesses that waited are performed, and a program that goes on after them begins its next quantum. -/
theorem quantumBoundary_next (still : ¬ (unitOf s n c).reads ≠ [])
    (within : ¬ (unitOf s n c).leaseExpired = true)
    (key : ¬ (s.fld R.secKeystat F.secKeystat_mem_valid).testBit (n.val / 4) = false)
    (goesOn : ((performHeld s (keyOf n c)).unit (keyOf n c)).st = .run
      ∨ ((performHeld s (keyOf n c)).unit (keyOf n c)).st = .boundary) :
    let v := performHeld s (keyOf n c)
    Runs (.quantumBoundary n c) s fun t =>
      t = v.setUnit (keyOf n c) { v.unit (keyOf n c) with st := .run } :=
  ⟨_, rfl, (if_neg awake).trans ((if_pos live).trans ((if_neg still).trans ((if_neg within).trans ((if_neg key).trans
    (if_pos goesOn)))))⟩

theorem quantumBoundary_noneHeld (still : ¬ (unitOf s n c).reads ≠ [])
    (within : ¬ (unitOf s n c).leaseExpired = true)
    (key : ¬ (s.fld R.secKeystat F.secKeystat_mem_valid).testBit (n.val / 4) = false)
    (noneHeld : ∀ h ∈ s.held, h.1 ≠ keyOf n c) :
    Runs (.quantumBoundary n c) s fun t =>
      t = s.setUnit (keyOf n c) { unitOf s n c with st := .run, pass := false } := by
  have next := quantumBoundary_next awake live still within key (by rw [performHeld_none noneHeld, State.unit_setUnit]; exact live)
  simpa only [performHeld_none noneHeld, State.setUnit_setUnit, State.unit_setUnit] using next

omit awake in
theorem leaseLimitExpire_runs (leased : (unitOf s n c).leases.rows ≠ []) :
    Runs (.leaseLimitExpire n c) s fun t => t = performHeld ((s.setUnit (keyOf n c)
      { unitOf s n c with leaseExpired := true, leases := SMap.empty }).showUnit (keyOf n c))
        (keyOf n c) :=
  ⟨_, rfl, if_pos ⟨live, leased⟩⟩

end Boundary

/-! ### The shared bus (R344) -/

section Bus

variable {x : BusLine} {rest : List BusLine} {l : Launch} (sends : (unitOf s n c).bus = x :: rest)
  (launch : unitLaunch s (keyOf n c) = some l)
include sends launch

theorem busLineReceive_waits (others : busServes s l c.val = false) : Runs (.busLineReceive n c) s fun t => t = s := by
  refine ⟨_, rfl, ?_⟩
  simp only [sends, launch, others, if_true]

theorem busLineReceive_runs (turn : busServes s l c.val = true) (other : x.unit ≠ c.val) :
    Runs (.busLineReceive n c) s fun t => t.unit (keyOf n c) = { unitOf s n c with bus := rest }
      ∧ t.unit (State.unitKey n.val x.unit) = { (s.unit (State.unitKey n.val x.unit)).writeStore x.store x.bytes with
          received := (s.unit (State.unitKey n.val x.unit)).received + 1 }
      ∧ t.launches = s.launches.set (unitOf s n c).launch { l with busTurn := c.val } := by
  have apart : State.unitKey n.val x.unit ≠ keyOf n c := fun same => other (Nat.add_left_cancel same)
  refine ⟨_, rfl, ?_⟩
  simp only [sends, launch, turn, Bool.true_eq_false, if_false]
  refine ⟨?_, ?_, rfl⟩
  · exact (State.unit_setUnit_ne _ _ _ apart.symm).trans (State.unit_setUnit s _ _)
  · rw [State.unit_setUnit]
    have before : ({ s.setUnit (keyOf n c) { unitOf s n c with bus := rest } with
        launches := s.launches.set (unitOf s n c).launch { l with busTurn := c.val } } : State).unit
          (State.unitKey n.val x.unit) = s.unit (State.unitKey n.val x.unit) := State.unit_setUnit_ne s _ _ apart
    rw [before]

end Bus

end Memory

/-! ### Instructions of a running unit -/

section Running

variable {s : State} {n : StackId} {c : Fin 32} (running : (unitOf s n c).st = .run)
include running

theorem cmIn_runs {d a b : BitVec 4} {cnt : Nat} (still : (unitOf s n c).reads = [])
    (count : ((unitOf s n c).rg b).toNat = cnt) (least : 1 ≤ cnt) (most : cnt ≤ 256)
    (target : storeOk ((unitOf s n c).rg d).toNat (64 * cnt) 64 = true)
    (aligned : ((unitOf s n c).rg a).toNat % 64 = 0)
    (allowed : channelOk s n.val c.val ((unitOf s n c).rg a).toNat cnt
      ((unitLaunch s (keyOf n c)).elim 0 (·.ctx)) .rd = true) :
    let u := unitOf s n c
    Runs (.cmIn n ⟨c, .none⟩ d a b) s fun t => t = s.setUnit (keyOf n c)
      { u with reads := [⟨(u.rg d).toNat, (u.rg a).toNat, cnt⟩], pc := u.pc + 1 } := by
  subst count
  refine runs_of_issue running rfl ((if_neg ?_).trans ((if_neg ?_).trans ?_))
  · simp only [target, aligned, allowed, not_or]
    exact ⟨Nat.ne_of_gt least, Nat.not_lt.2 most, by simp⟩
  · simp [storeBusy_of_noReads still]
  · rw [still]
    rfl

/-- cm.out of one leased line. -/
theorem cmOut_runs {d a b : BitVec 4} (still : (unitOf s n c).reads = [])
    (one : ((unitOf s n c).rg b).toNat = 1)
    (source : ((unitOf s n c).rg a).toNat + 64 ≤ 0x10000)
    (aligned : ((unitOf s n c).rg d).toNat % 64 = 0)
    (leased : leasedLine (unitOf s n c) ((unitOf s n c).rg d).toNat = true)
    (allowed : channelOk s n.val c.val ((unitOf s n c).rg d).toNat 1
      ((unitLaunch s (keyOf n c)).elim 0 (·.ctx)) .wr = true)
    (awake : s.quiesced (capBase n.val) = false)
    (served : unitHole s (deviceAddr n.val c.val ((unitOf s n c).rg d).toNat) = false) :
    let u := unitOf s n c
    Runs (.cmOut n ⟨c, .none⟩ d a b) s fun t => t = (s.writeBytes (deviceAddr n.val c.val (u.rg d).toNat)
      (u.readStore (u.rg a).toNat 64)).setUnit (keyOf n c) { u with pc := u.pc + 1 } := by
  refine runs_of_issue running rfl ((if_neg ?_).trans ((if_neg ?_).trans ((if_neg ?_).trans ?_)))
  · simp [one, storeOk_bytes source, aligned, leased, allowed]
  · simp [storeBusy_of_noReads still, awake]
  · simp [one, served]
  · rw [one, List.range_one, List.foldl_cons, List.foldl_nil, State.writeBytes_setUnit]
    rfl

theorem lease_runs {a b : BitVec 4} {slot : BitVec 2} {l cnt : Nat}
    (place : ((unitOf s n c).rg a).toNat = l) (count : ((unitOf s n c).rg b).toNat = cnt)
    (aligned : l % 0x1000 = 0) (least : 1 ≤ cnt) (most : cnt ≤ 8192) (fits : l + 0x1000 * cnt ≤ 0x80000000)
    (within : (unitOf s n c).leaseExpired = false)
    (free : hostInFlight s n.val c.val (l / 0x1000) cnt = false) :
    let u := unitOf s n c
    Runs (.lease n ⟨c, .none⟩ a b slot) s fun t =>
      t = ((flushGranules s n.val c.val (l / 0x1000) cnt).setUnit (keyOf n c)
        { u with leases := u.leases.set slot.toNat (l / 0x1000, cnt), pc := u.pc + 1 }).showUnit (keyOf n c) := by
  subst place count
  refine runs_of_issue running rfl ((if_neg ?_).trans ((if_neg ?_).trans ?_))
  · omega
  · exact Bool.eq_false_iff.1 free
  · simp only [within, Bool.false_eq_true, if_false]

theorem cruEnd_runs (still : (unitOf s n c).reads = []) (sent : (unitOf s n c).bus = []) :
    Runs (.cruEnd n ⟨c, .none⟩) s fun t => t = performHeld ((s.setUnit (keyOf n c)
      { unitOf s n c with st := .ended, leases := SMap.empty }).showUnit (keyOf n c))
        (keyOf n c) :=
  runs_of_issue running rfl (if_pos ⟨still, sent⟩)

/-- bus.put of one line. -/
theorem busPut_runs {d a b : BitVec 4} (still : (unitOf s n c).reads = [])
    (one : ((unitOf s n c).rg b).toNat = 1)
    (source : ((unitOf s n c).rg a).toNat + 64 ≤ 0x10000)
    (target : ((unitOf s n c).rg d).toNat % 65536 + 64 ≤ 0x10000)
    (member : (unitLaunch s (keyOf n c)).any (fun l =>
      l.mask.testBit (((unitOf s n c).rg d).toNat / 65536 % 32)) = true) :
    let u := unitOf s n c
    let D := (u.rg d).toNat
    Runs (.busPut n ⟨c, .none⟩ d a b) s fun t => t = s.setUnit (keyOf n c)
      { u with pc := u.pc + 1, bus := u.bus ++ [⟨D / 65536 % 32, D % 65536, u.readStore (u.rg a).toNat 64⟩] } := by
  obtain ⟨l, launch, bit⟩ := (Option.any_eq_true _ _).1 member
  refine runs_of_issue running rfl ((if_neg ?_).trans ((if_neg ?_).trans ?_))
  · simp [one, storeOk_bytes source, storeOk_bytes target, launch, bitsOf, bit]
  · simp [storeBusy_of_noReads still]
  · rw [one]
    rfl

end Running

/-! ### The statement -/

/-- Settles O32: each instruction and event by its own lemma above, and what `performHeld` does by `performHeld_none` where no
access waits. -/
theorem unitMemoryInstructions : Obligations.UnitMemoryInstructions := by
  intro s n c d a b slot x rest r l k ui u A B D cx line key bound noneHeld
  refine ⟨?_, ?_, ?_, ?_, ?_, ?_, ?_, ?_, ?_, ?_, ?_, ?_⟩
  · exact fun running still least most fits target aligned allowed =>
      cmIn_runs running still rfl least most (storeOk_iff.2 ⟨fits, target⟩) aligned allowed
  · exact fun asked awake readable => cmInData_runs asked awake readable
  · exact fun _ closed => cmInData_waits closed
  · intro running still one source aligned leased allowed awake served
    obtain ⟨t, meaning, rfl⟩ := cmOut_runs running still one source aligned leased allowed awake served
    exact ⟨_, meaning, State.setUnit_mem _ _ _, State.unit_setUnit _ _ _⟩
  · intro running aligned least most fits within free
    obtain ⟨t, meaning, rfl⟩ := lease_runs (slot := slot) running rfl rfl aligned least most fits within free
    exact ⟨_, meaning, (State.showUnit_mem _ _).trans (State.setUnit_mem _ _ _),
      (State.unit_showUnit _ _ _).trans (State.unit_setUnit _ _ _)⟩
  · exact fun running => runs_of_issue running rfl rfl
  · exact quantumBoundary_waits
  · intro notClosed live
    have awake := Bool.eq_false_iff.1 notClosed
    refine ⟨fun reading => quantumBoundary_reading awake live reading, fun still expired =>
      quantumBoundary_expired awake live (not_not.2 still) expired, fun still within erased =>
      quantumBoundary_erased awake live (not_not.2 still) (Bool.eq_false_iff.1 within) erased, fun still within held => ?_⟩
    have valid := ne_false_of_eq_true held
    exact ⟨fun free => quantumBoundary_noneHeld awake live (not_not.2 still) (Bool.eq_false_iff.1 within) valid free,
      fun goesOn => quantumBoundary_next awake live (not_not.2 still) (Bool.eq_false_iff.1 within) valid goesOn⟩
  · exact fun live leased => leaseLimitExpire_runs live leased
  · intro running still sent
    obtain ⟨t, meaning, rfl⟩ := cruEnd_runs running still sent
    exact ⟨_, meaning, rfl, performHeld_shown⟩
  · exact fun running still one source target member => busPut_runs running still one source target member
  · exact fun sends launch => ⟨busLineReceive_waits sends launch, busLineReceive_runs sends launch⟩

end Sys2Proof.Machine
end

section
/-! Data movement queues: what packets that leave, revivals that start, and the records and ends of a queue leave alone. -/

namespace Sys2Proof.Machine

/-! ### Packets (R417, R418) -/

namespace FabOnly

theorem emitPacket (s : State) (k : Nat) (pk : Packet) : FabOnly s (s.emitPacket k pk) := by
  unfold State.emitPacket
  dsimp only
  split <;> rfl

theorem sendPacket (s : State) (p : Nat) (pk : Packet) : FabOnly s (s.sendPacket p pk) := by
  unfold State.sendPacket
  split
  · rfl
  · split
    · exact emitPacket s _ pk
    · rfl

theorem sendRequest (s : State) (p c d : Nat) (typ : BitVec 8) (addr n : Nat) (op : BitVec 8) (operand : W64)
    (payload : List Byte) (who : Requester) : FabOnly s (s.sendRequest p c d typ addr n op operand payload who) := by
  unfold State.sendRequest
  extract_lets vc key seq pk go req fab
  split
  · exact FabOnly.trans (u := { s with fab := fab }) rfl (sendPacket _ p pk)
  · rfl

theorem writes {W : Nat → Prop} {s u : State} (h : FabOnly s u) : Writes W s u := by
  rw [h]
  constructor <;> intros <;> rfl

end FabOnly

namespace Writes

variable {W : Nat → Prop}

theorem putAt (s : State) (p c : Nat) (l : Loc) (bs : List Byte) (who : Requester) : Writes W s (s.putAt p c l bs who) := by
  cases l with
  | here a => exact writeBytes s a bs
  | peer d a => exact (FabOnly.sendRequest s p c d _ a _ _ _ bs who).writes
  | host a => exact emit s _

/-- A completion record changes the producer count of its ring and no other register. -/
theorem writeRecord (s : State) (k status bytes desc : Nat) : Writes (· = qProd k) s (s.writeRecord k status bytes desc) := by
  unfold State.writeRecord
  dsimp only
  refine (draw s).trans (Writes.trans ?_ (setFld (W := (· = qProd k)) rfl _ _ _))
  split
  · exact writeBytes _ _ _
  · exact putAt _ _ _ _ _ _
  · exact refl _

end Writes

theorem writeRecord_prod (s : State) (k status bytes desc : Nat) :
    (s.writeRecord k status bytes desc).fld (qProd k) F.dmaQprod_prod = (s.fld (qProd k) F.dmaQprod_prod + 1) % 2 ^ 32 :=
  (State.fld_setFld _ _ _ _ (by decide)).trans (Nat.mod_mod _ _)

/-! ### Revivals touch no queue (R371, R493) -/

theorem updCtx_queues (s : State) (c : Nat) (f : Ctx → Ctx) : (s.updCtx c f).queues = s.queues := by
  unfold State.updCtx
  split <;> rfl

theorem dropLaunch_queues (s : State) (i : Nat) : (s.dropLaunch i).queues = s.queues := by
  unfold State.dropLaunch
  exact foldl_keeps State.queues (by intros; rfl) (s.launchUnits i) s

theorem resetBegun_queues (s : State) (p cause : Nat) : (resetBegun s p cause).queues = s.queues := by
  unfold resetBegun
  exact foldl_keeps State.queues (by intros; exact dropLaunch_queues _ _) _ _

theorem startResetAt_queues (s : State) (p cause index : Nat) : (s.startResetAt p cause index).queues = s.queues := by
  have recorded : (s.resetRecord p 0x0B index 2 cause false).queues = s.queues := (Recorded.record s p _).queues
  rw [startResetAt_eq]
  split
  · exact recorded
  · exact (resetBegun_queues _ p cause).trans recorded

theorem startPartitionReset_queues (s : State) (p cause : Nat) : (s.startPartitionReset p cause).queues = s.queues :=
  (foldl_keeps State.queues (fun u q => startResetAt_queues u q cause 0) _ _).trans (startResetAt_queues s p cause 0)

theorem startRevival_queues (s : State) (c cause : Nat) : (s.startRevival c cause).queues = s.queues := by
  unfold State.startRevival
  split
  · rfl
  · split
    · rfl
    · split
      · rfl
      · dsimp only
        split
        · exact startPartitionReset_queues _ _ 5
        · rfl

theorem waitUnit_queues (s : State) (c cause : Nat) : (s.waitUnit c cause).queues = s.queues := by
  unfold State.waitUnit
  split
  · exact updCtx_queues s c _
  · rfl

/-! ### Abnormal ends (R365, R370) -/

/-- A queue in which a descriptor has ended with a status other than OK: `act` are the descriptors it is left with. -/
def Queue.ended (q : Queue) (status : Nat) (act : List Active) : Queue :=
  { q with st := if q.st = .run ∨ q.st = .stopped then .halted else q.st, active := act, lastStatus := status }

theorem abnormalEnd_queue (s : State) (k : Nat) (a : Active) (status bytes : Nat) (noRecord : Bool) :
    ∃ act, (s.abnormalEnd k a status bytes noRecord).queue k = (s.queue k).ended status act := by
  have recorded : Recorded s (s.dmaEndRecord k status bytes a.d.addr) := Recorded.record s _ _
  have written (c : Bool) : Recorded s (if c then s.dmaEndRecord k status bytes a.d.addr
      else (s.dmaEndRecord k status bytes a.d.addr).writeRecord k status bytes a.d.addr) := by
    split
    · exact recorded
    · exact recorded.trans ((Writes.writeRecord _ _ _ _ _).mono fun _ _ => trivial)
  unfold State.abnormalEnd
  dsimp only
  rw [State.queue_setQueue, (written _).queue k]
  exact ⟨_, rfl⟩

theorem endDescriptor_queue (s : State) (k : Nat) (a : Active) (status bytes : Nat) (noRecord : Bool) :
    ∃ act, (s.endDescriptor k a status bytes noRecord).queue k = (s.queue k).ended status act := by
  have same : (s.endDescriptor k a status bytes noRecord).queues = (s.abnormalEnd k a status bytes noRecord).queues := by
    unfold State.endDescriptor
    dsimp only
    split
    · split
      · exact waitUnit_queues _ _ 8
      · exact startRevival_queues _ _ 8
    · rfl
  rw [State.queue, same]
  exact abnormalEnd_queue s k a status bytes noRecord

/-- The queue of a started descriptor that fails halts with its status. -/
theorem failActive_halted {s : State} {k i : Nat} {a : Active} (at_ : activeAt s k i = some a) (run : (s.queue k).st = .run)
    (status : Nat) (noRecord : Bool) :
    ((failActive s k i status noRecord).queue k).st = .halted ∧ ((failActive s k i status noRecord).queue k).lastStatus = status := by
  have same : (a.rd.foldl endReadBlock s).queue k = s.queue k := by
    rw [State.queue, foldl_keeps State.queues (f := endReadBlock) (fun _ _ => rfl), State.queue]
  unfold failActive
  rw [at_]
  dsimp only
  obtain ⟨act, after⟩ := endDescriptor_queue (setActive (a.rd.foldl endReadBlock s) k i { a with rd := [] }) k
    { a with rd := [] } status a.pos noRecord
  rw [after, setActive, State.queue_setQueue, same, Queue.ended]
  exact ⟨if_pos (Or.inl run), rfl⟩

end Sys2Proof.Machine
end

section
/-! O26. Fetch and start of descriptors. -/

namespace Sys2Proof.Machine

/-! ### Fetch (R354, R357) -/

/-- A queue that a fetched descriptor has joined: the fetch goes on at its next pointer, or with the oldest held head. -/
def Queue.joined (q : Queue) (h : ChainHead) (d : Desc) : Queue :=
  if d.next = 0 then nextChain { q with fetched := q.fetched ++ [d] }
  else { q with fetched := q.fetched ++ [d], chain := some { h with addr := d.next, kept := none } }

theorem nextChain_lists (q : Queue) : (nextChain q).fetched = q.fetched ∧ (nextChain q).active = q.active := by
  unfold nextChain
  split <;> exact ⟨rfl, rfl⟩

theorem joined_lists (q : Queue) (h : ChainHead) (d : Desc) :
    (q.joined h d).fetched = q.fetched ++ [d] ∧ (q.joined h d).active = q.active
      ∧ (d.next ≠ 0 → (q.joined h d).chain = some { h with addr := d.next, kept := none }) := by
  unfold Queue.joined
  split
  · next last =>
    obtain ⟨fetched, active⟩ := nextChain_lists { q with fetched := q.fetched ++ [d] }
    exact ⟨fetched, active, fun more => absurd last more⟩
  · exact ⟨rfl, rfl, fun _ => rfl⟩

section Burst

variable {bad : Nat → Bool} {s : State} {k : Nat} {h : ChainHead} {bs : List Byte}
  (table : s.tableOk k h.win (s.placeIn (s.qCtx k) h.win h.addr) 64 .rd = true) (readable : bad h.addr = false)
include table readable

/-- The one descriptor of a burst joins the queue. -/
theorem takeBurst_good (good : s.descOk k (parseDesc h h.addr (bs.take 64)) = true) :
    takeBurst bad 1 s k h h.addr bs = s.setQueue k ((s.queue k).joined h (parseDesc h h.addr (bs.take 64))) := by
  simp [takeBurst, table, readable, good, Queue.joined]

/-- A bad descriptor ends where the fetch stands, and the queue with it. -/
theorem takeBurst_bad (rejected : s.descOk k (parseDesc h h.addr (bs.take 64)) = false) :
    takeBurst bad 1 s k h h.addr bs = queueViolation
      ((s.setQueue k { s.queue k with chain := some { h with addr := h.addr, kept := none } }).endDescriptor k
        (newActive (parseDesc h h.addr (bs.take 64)) .fetch) St.bound 0 false)
      (s.qCtx k) (inWindows s k (parseDesc h h.addr (bs.take 64))) := by
  simp [takeBurst, table, readable, rejected]

end Burst

/-- A fetch that meets no fault sees the bytes of the queue's view. -/
theorem fetchBytes_clean {s : State} {k : Nat} {h : ChainHead} {a : Nat}
    (here : s.qResolve k h.win (s.placeIn (s.qCtx k) h.win h.addr) 64 .rd = some (.here a))
    (single : leVal (fetchView s k h (a + 56) 1) % 16 = 0) (line : s.lineSt (h.addr / 64) = .ok) :
    ∃ bad, fetchBytes s k h .none [] = (s, fetchView s k h a 64, bad) ∧ bad h.addr = false := by
  have clean : fetchBytes s k h .none [] = (s, fetchView s k h a 64, (fetchBytes s k h .none []).2.2) := by
    unfold fetchBytes
    rw [here]
    simp only [homeFault, lineFault, single]
  refine ⟨_, clean, ?_⟩
  unfold fetchBytes
  rw [here]
  simp [homeFault, lineFault, line]

section Fetch

variable {s : State} {q : QId} {h : ChainHead} {a : Nat} (run : (s.queue (queueKey q)).st = .run)
  (chain : (s.queue (queueKey q)).chain = some h) (on : s.queueOff (queueKey q) = false)
  (ordered : fetchOrdered s (queueKey q) h = true)
  (here : s.qResolve (queueKey q) h.win (s.placeIn (s.qCtx (queueKey q)) h.win h.addr) 64 .rd = some (.here a))
include run chain on ordered here

theorem fetchReturn_waits (waits : s.waitsAt a 64 = true) :
    exec (.descriptorFetchReturn q .none []) s = .next (s.holdAt a 64 (.fetch q .none [])) := by
  have held : fetchWaits s (queueKey q) h (.fetch q .none []) = some (s.holdAt a 64 (.fetch q .none [])) := by
    simp [fetchWaits, here, waits]
  change execDescriptorFetchReturn q .none [] s = _
  simp [execDescriptorFetchReturn, run, chain, on, ordered, held]

/-- A fetch of one descriptor takes it. -/
theorem fetchReturn_takes (awake : s.waitsAt a 64 = false) (reached : s.shutOut (qPart (queueKey q)) (s.qTag (queueKey q)) a = false)
    (table : s.tableOk (queueKey q) h.win (s.placeIn (s.qCtx (queueKey q)) h.win h.addr) 64 .rd = true) (aligned : h.addr % 64 = 0)
    (single : leVal (fetchView s (queueKey q) h (a + 56) 1) % 16 = 0)
    (alone : leVal (((fetchView s (queueKey q) h a 64).drop 56).take 8) % 16 = 0)
    (line : s.lineSt (h.addr / 64) = .ok) (room : (s.queue (queueKey q)).fetched.length < 16) :
    ∃ bad, bad h.addr = false ∧ exec (.descriptorFetchReturn q .none []) s
      = .next (takeBurst bad 1 s (queueKey q) h h.addr (fetchView s (queueKey q) h a 64)) := by
  have free : fetchWaits s (queueKey q) h (.fetch q .none []) = none := by
    simp [fetchWaits, here, awake, reached]
  obtain ⟨bad, bytes, readable⟩ := fetchBytes_clean here single line
  have fits : ¬ 16 < (s.queue (queueKey q)).fetched.length + (0 + 1) := by omega
  refine ⟨bad, readable, ?_⟩
  change execDescriptorFetchReturn q .none [] s = _
  simp only [execDescriptorFetchReturn, run, chain, on, ordered, free, table, aligned, bytes, alone, readable, fits]
  rfl

end Fetch

/-! ### Tags taken (R43, R360) -/

/-- From `x` to `y` only tiles have changed, and of the descriptor only the blocks it holds. -/
def TagsOnlyTaken (x y : State × Active) : Prop :=
  y.1 = { x.1 with tiles := y.1.tiles } ∧ y.2 = { x.2 with rd := y.2.rd, wr := y.2.wr }

theorem TagsOnlyTaken.trans {x y z : State × Active} (h : TagsOnlyTaken x y) (g : TagsOnlyTaken y z) : TagsOnlyTaken x z := by
  obtain ⟨tiles, held⟩ := h
  obtain ⟨tiles', held'⟩ := g
  exact ⟨by rw [tiles', tiles], by rw [held', held]⟩

section Taken

variable {x y : State × Active} (h : TagsOnlyTaken x y)
include h

theorem TagsOnlyTaken.mem : y.1.mem = x.1.mem := by rw [h.1]
theorem TagsOnlyTaken.regs : y.1.regs = x.1.regs := by rw [h.1]
theorem TagsOnlyTaken.descriptor : y.2.d = x.2.d ∧ y.2.pos = x.2.pos ∧ y.2.status = x.2.status := by
  rw [h.2]
  exact ⟨rfl, rfl, rfl⟩

end Taken

theorem takeBlock_tiles (s : State) (k b : Nat) : takeBlock s k b = { s with tiles := (takeBlock s k b).tiles } := by
  unfold takeBlock
  dsimp only
  split <;> rfl

/-- The destination block of a position is taken, and then its source block. -/
theorem takeTag_only (s : State) (k : Nat) (a : Active) (pos : Nat) : TagsOnlyTaken (s, a) (takeTag s k a pos) := by
  have source (u : State) (b : Active) : TagsOnlyTaken (u, b) (if a.d.zeroOp then (u, b) else
      match lsBlock? (a.d.srcAt pos % 2 ^ 44) with
      | some x => if b.rd.contains x then (u, b) else (readBlock u x, { b with rd := b.rd ++ [x] })
      | none => (u, b)) := by
    split
    · exact ⟨rfl, rfl⟩
    · split
      · split <;> exact ⟨rfl, rfl⟩
      · exact ⟨rfl, rfl⟩
  unfold takeTag
  cases lsBlock? (a.d.dstAt pos % 2 ^ 44) with
  | none => exact source s a
  | some b => exact TagsOnlyTaken.trans (y := (takeBlock s k b, { a with wr := _ })) ⟨takeBlock_tiles s k b, rfl⟩ (source _ _)

theorem takeTags_only (s : State) (k : Nat) (a : Active) (pos : Nat) : TagsOnlyTaken (s, a) (takeTags s k a pos) :=
  List.foldlRecOn _ _ (motive := TagsOnlyTaken (s, a)) ⟨rfl, rfl⟩ fun y taken j _ => taken.trans (takeTag_only y.1 k y.2 (pos + j))


/-! ### Start (R358, R360) -/

section Start

variable {s : State} {q : QId} {d : Desc} {rest : List Desc} (run : (s.queue (queueKey q)).st = .run)
  (first : (s.queue (queueKey q)).fetched = d :: rest)
include run first

theorem descriptorStart_waits (ordered : d.fence = true ∨ isBulk (queueKey q) = true)
    (busy : (s.queue (queueKey q)).active ≠ []) : exec (.descriptorStart q) s = .next s := by
  change execDescriptorStart q s = _
  simp only [execDescriptorStart, run, first]
  rw [if_pos ⟨ordered, busy⟩]

theorem descriptorStart_starts (good : s.descOk (queueKey q) d = true) (tags : s.tagWait (queueKey q) d 0 [] = 0)
    (turn : yields s (queueKey q) d 0 = false) (engine : isBulk (queueKey q) = true → engineFree s (queueKey q) = true)
    (free : (d.fence = false ∧ isBulk (queueKey q) = false) ∨ (s.queue (queueKey q)).active = []) :
    exec (.descriptorStart q) s = .next ((takeTags s (queueKey q) (newActive d .moving) 0).1.setQueue (queueKey q)
      { s.queue (queueKey q) with
        fetched := rest
        active := (s.queue (queueKey q)).active ++ [(takeTags s (queueKey q) (newActive d .moving) 0).2] }) := by
  have behind : ¬ ((d.fence = true ∨ isBulk (queueKey q) = true) ∧ (s.queue (queueKey q)).active ≠ []) := by
    rintro ⟨ordered, busy⟩
    rcases free with ⟨plain, tile⟩ | idle
    · simp [plain, tile] at ordered
    · exact busy idle
  have ready : ¬ (s.tagWait (queueKey q) d 0 [] ≠ 0 ∨ yields s (queueKey q) d 0 = true
      ∨ (isBulk (queueKey q) = true ∧ engineFree s (queueKey q) = false)) := by
    rintro (waits | other | ⟨bulk, none⟩)
    · exact waits tags
    · simp [turn] at other
    · simp [engine bulk] at none
  change execDescriptorStart q s = _
  simp only [execDescriptorStart, run, first]
  rw [if_neg behind, if_neg (by rw [good]; decide), if_neg ready]

end Start

/-! ### The obligation -/

/-- Settles O26: a fetch that need not wait is one step of `takeBurst`, and a descriptor that starts takes its tags, which are in
tiles alone. -/
theorem descriptorFetchAndStart : Obligations.DescriptorFetchAndStart := by
  refine ⟨?_, ?_⟩
  · intro s q h a k Q g bs d out run chain on ordered here
    refine ⟨fun waits => ⟨_, fetchReturn_waits run chain on ordered here waits, rfl⟩, ?_⟩
    intro awake reached table aligned single alone line room
    obtain ⟨bad, readable, taken⟩ :=
      fetchReturn_takes run chain on ordered here awake reached table aligned single alone line room
    refine ⟨fun good => ?_, fun rejected => ?_⟩
    · refine ⟨_, taken.trans (congrArg _ (takeBurst_good table readable good)), ?_⟩
      beta_reduce
      rw [State.queue_setQueue]
      exact ⟨rfl, joined_lists Q h d⟩
    · refine ⟨_, taken.trans (congrArg _ (takeBurst_bad table readable rejected)), _, rfl, ?_⟩
      obtain ⟨act, after⟩ := endDescriptor_queue
        (s.setQueue k { s.queue k with chain := some { h with addr := h.addr, kept := none } }) k
        (newActive d .fetch) St.bound 0 false
      rw [after, State.queue_setQueue]
      exact ⟨if_pos (Or.inl run), rfl, rfl⟩
  · intro s q d rest k Q run first good tags turn engine
    refine ⟨fun free => ?_, fun ordered busy => ⟨s, descriptorStart_waits run first ordered busy, rfl⟩⟩
    refine ⟨_, descriptorStart_starts run first good tags turn engine free, ?_⟩
    have taken := takeTags_only s k (newActive d .moving) 0
    beta_reduce
    rw [State.setQueue_mem, State.setQueue_regs, State.queue_setQueue]
    exact ⟨taken.mem, taken.regs, rfl, _, rfl, taken.descriptor⟩

end Sys2Proof.Machine
end


section
/-! O27. Chunks of a started descriptor: when they go, where they are read and where they land. -/

namespace Sys2Proof.Machine

/-! ### The next line request (R352, R358, R366) -/

/-- The state in which a chunk that has its turns moves: it counts against the caps, and its tags are taken. -/
def chunkTaken (z : State) (c : SMap Nat) (k i : Nat) (a : Active) : State :=
  setActive (takeTags { z with capUsed := c } k a a.pos).1 k i (takeTags { z with capUsed := c } k a a.pos).2

section Chunk

variable {s : State} {q : QId} {i : BitVec 5} {a : Active} (at_ : activeAt s (queueKey q) i.toNat = some a)

include at_ in
theorem lineReturn_waits (waits : chunkFree s (queueKey q) a = false ∨ yields s (queueKey q) a.d a.pos = true) :
    exec (.dmaLineReturn q i .none []) s = .next s := by
  change execDmaLineReturn q i .none [] s = _
  simp only [execDmaLineReturn, at_]
  rw [if_pos (Or.inr waits)]

variable (live : (s.queue (queueKey q)).st = .run ∨ (s.queue (queueKey q)).st = .stopped)
  (free : chunkFree s (queueKey q) a = true) (turn : yields s (queueKey q) a.d a.pos = false)
include live free turn

theorem chunk_goes : ¬ (((s.queue (queueKey q)).st ≠ .run ∧ (s.queue (queueKey q)).st ≠ .stopped)
    ∨ chunkFree s (queueKey q) a = false ∨ yields s (queueKey q) a.d a.pos = true) := by
  rw [free, turn]
  simpa [← or_iff_not_imp_left] using live

include at_

theorem lineReturn_leased {y : Nat} (leased : chunkLeased s (queueKey q) a.d a.pos (chunkLen a.d a.pos) = some y) :
    exec (.dmaLineReturn q i .none []) s = .next (s.holdAt y 1 (.line q i .none [])) := by
  change execDmaLineReturn q i .none [] s = _
  simp only [execDmaLineReturn, at_]
  rw [if_neg (chunk_goes live free turn), leased]

variable (unleased : chunkLeased s (queueKey q) a.d a.pos (chunkLen a.d a.pos) = none)
include unleased

theorem lineReturn_capped (full : useCaps s (queueKey q) a.d a.pos (chunkLen a.d a.pos) = none) :
    exec (.dmaLineReturn q i .none []) s = .next (heldByCap s (queueKey q)) := by
  change execDmaLineReturn q i .none [] s = _
  simp only [execDmaLineReturn, at_]
  rw [if_neg (chunk_goes live free turn), unleased, full]

variable {c : SMap Nat} (caps : useCaps s (queueKey q) a.d a.pos (chunkLen a.d a.pos) = some c)
include caps

theorem lineReturn_noTurn (none_ : takeTurns s (queueKey q) i.toNat a = none) :
    exec (.dmaLineReturn q i .none []) s = .next s := by
  change execDmaLineReturn q i .none [] s = _
  simp only [execDmaLineReturn, at_]
  rw [if_neg (chunk_goes live free turn), unleased, caps, none_]

variable {z : State}

/-- The read has had its turn, and the write waits for one. -/
theorem lineReturn_readTurn (first : takeTurns s (queueKey q) i.toNat a = some (z, false)) :
    exec (.dmaLineReturn q i .none []) s = .next z := by
  change execDmaLineReturn q i .none [] s = _
  simp only [execDmaLineReturn, at_]
  rw [if_neg (chunk_goes live free turn), unleased, caps, first]

/-- A chunk that has both its turns, and whose destination answers, moves. -/
theorem lineReturn_moves (both : takeTurns s (queueKey q) i.toNat a = some (z, true))
    (awake : dstReset (chunkTaken z c (queueKey q) i.toNat a) (queueKey q) a.d a.pos (chunkLen a.d a.pos) = false)
    (served : dstGone (chunkTaken z c (queueKey q) i.toNat a) (queueKey q) a.d a.pos (chunkLen a.d a.pos) = false) :
    ∃ b : Active, b.d = a.d ∧ b.pos = a.pos ∧ exec (.dmaLineReturn q i .none []) s
      = .next (moveChunk (chunkTaken z c (queueKey q) i.toNat a) (queueKey q) i.toNat b [] .none) := by
  obtain ⟨d, pos, -⟩ := (takeTags_only { z with capUsed := c } (queueKey q) a a.pos).descriptor
  refine ⟨_, d, pos, ?_⟩
  unfold chunkTaken at *
  change execDmaLineReturn q i .none [] s = _
  simp only [execDmaLineReturn, at_]
  rw [if_neg (chunk_goes live free turn), unleased, caps, both]
  simp only [awake, served]
  rfl

end Chunk

/-! ### Where a chunk is read (R352, R359) -/

section Move

variable {s : State} {k i : Nat} {a b : Active} (same : b.d = a.d) (pos : b.pos = a.pos)
include same pos

theorem moveChunk_zeros (zeros : a.d.zeroOp = true) :
    moveChunk s k i b [] .none = landBytes s k i (List.replicate (chunkLen a.d a.pos) 0) := by
  simp [moveChunk, same, pos, zeros]

variable (copy : a.d.zeroOp = false)
include copy

theorem moveChunk_here {y : Nat} (here : s.qResolve k a.d.swin (a.d.srcAt a.pos) (chunkLen a.d a.pos) .rd = some (.here y))
    (awake : s.resetHome (qPart k) y = false) (served : s.answers (s.qTag k) y (chunkLen a.d a.pos) = true)
    (sound : s.statusAt y (chunkLen a.d a.pos) = .ok) :
    moveChunk s k i b [] .none = landBytes (s.homeAccess (s.qTag k) y (a.d.hint false) 0) k i
      (chunkBytes s y (chunkLen a.d a.pos)) := by
  simp [moveChunk, same, pos, copy, here, awake, served, homeFault, lineFault, sound]

theorem moveChunk_peer {d y : Nat}
    (peer : s.qResolve k a.d.swin (a.d.srcAt a.pos) (chunkLen a.d a.pos) .rd = some (.peer d y)) :
    moveChunk s k i b [] .none
      = s.sendRequest (qPart k) (s.qTag k) d Pk.rd y (chunkLen a.d a.pos) 0 0 [] (.dmaRead k a.d.addr) := by
  simp [moveChunk, same, pos, copy, peer]

end Move

/-! ### Where its bytes land (R296, R355, R428) -/

section Write

variable {s : State} {k : Nat} {a : Active} {g x : Nat} {bs : List Byte}

theorem dmaWrite_memory (here : s.qResolve k a.d.dwin g bs.length .wr = some (.here x)) (outside : lsBlock? x = none) :
    dmaWrite s k a (g, bs) = ((s.homeAccess (s.qTag k) x (a.d.hint true) (State.byteMask x bs.length)).writeBytes x bs, a) := by
  simp [dmaWrite, here, outside]

theorem dmaWrite_localStore {b : Nat} (here : s.qResolve k a.d.dwin g bs.length .wr = some (.here x))
    (block : lsBlock? x = some b) :
    (dmaWrite s k a (g, bs)).1 = (takeBlock s k b).writeRaw x bs ∧ (dmaWrite s k a (g, bs)).2.pos = a.pos
      ∧ (dmaWrite s k a (g, bs)).2.acks = a.acks := by
  simp [dmaWrite, here, block]

theorem dmaWrite_peer {d : Nat} (peer : s.qResolve k a.d.dwin g bs.length .wr = some (.peer d x)) :
    dmaWrite s k a (g, bs) = (s.sendRequest (qPart k) (s.qTag k) d Pk.wr x bs.length 0 0 bs (.dmaWrite k a.d.addr),
      { a with acks := a.acks + 1 }) := by
  simp [dmaWrite, peer]

theorem dmaWrite_host (host : s.qResolve k a.d.dwin g bs.length .wr = some (.host x)) :
    dmaWrite s k a (g, bs) = (s.emit (.hostWrite x bs), a) := by
  simp [dmaWrite, host]

end Write

/-! ### The obligation -/

/-- Settles O27: each way that a line request can go by its own lemma, and each place that bytes can land at by what `dmaWrite` does
there. -/
theorem chunksMoveAndLand : Obligations.ChunksMoveAndLand := by
  refine ⟨?_, ?_⟩
  · intro s z q i a c k n w v out at_ live
    refine ⟨fun waits => ⟨s, lineReturn_waits at_ waits, rfl⟩, fun free turn => ?_⟩
    refine ⟨fun y leased => ⟨_, lineReturn_leased at_ live free turn leased, rfl⟩, fun unleased => ?_⟩
    refine ⟨fun full => ⟨_, lineReturn_capped at_ live free turn unleased full, rfl⟩,
      fun caps none_ => ⟨s, lineReturn_noTurn at_ live free turn unleased caps none_, rfl⟩,
      fun caps first => ⟨z, lineReturn_readTurn at_ live free turn unleased caps first, rfl⟩, fun caps both awake served => ?_⟩
    obtain ⟨b, same, pos, moves⟩ := lineReturn_moves at_ live free turn unleased caps both awake served
    exact ⟨fun zeros => ⟨_, moves.trans (congrArg _ (moveChunk_zeros same pos zeros)), rfl⟩,
      fun y copy here up answers sound =>
        ⟨_, moves.trans (congrArg _ (moveChunk_here same pos copy here up answers sound)), rfl⟩,
      fun d y copy peer => ⟨_, moves.trans (congrArg _ (moveChunk_peer same pos copy peer)), rfl⟩⟩
  · intro s k a g bs u
    refine ⟨fun x here outside => dmaWrite_memory here outside, fun x b here block => ?_, fun d x peer => ?_,
      fun x host => dmaWrite_host host⟩
    · obtain ⟨written, pos, acks⟩ := dmaWrite_localStore here block
      refine ⟨?_, pos, acks⟩
      change (dmaWrite s k a (g, bs)).1.mem = _
      rw [written, takeBlock_tiles]
      rfl
    · change (dmaWrite s k a (g, bs)).2.acks = _ ∧ (dmaWrite s k a (g, bs)).1.mem = _
      rw [dmaWrite_peer peer]
      exact ⟨rfl, (FabOnly.sendRequest _ _ _ _ _ _ _ _ _ _ _).mem⟩

end Sys2Proof.Machine
end

section
/-! O28. Completion of the oldest descriptor of a queue. -/

namespace Sys2Proof.Machine

/-! ### What a completion sends (R359, R364, R365) -/

/-- The blocks that a descriptor with the completion flag filled are READY, its record is written, and its object is signalled. -/
def completionSent (s : State) (k : Nat) (a : Active) : State :=
  let s1 := if a.d.cf then (readyBlocks s k a.wr).writeRecord k St.ok a.d.total a.d.addr else s
  if a.d.sig then s1.engineSignal (qPart k) (s.qTag k) a.d.handle (BitVec.ofNat 64 a.d.amount) else s1

theorem completionSent_plain {s : State} {k : Nat} {a : Active} (cf : a.d.cf = false) (sig : a.d.sig = false) :
    completionSent s k a = s := by simp [completionSent, cf, sig]

theorem completionSent_signal {s : State} {k : Nat} {a : Active} (cf : a.d.cf = false) (sig : a.d.sig = true) :
    completionSent s k a = s.engineSignal (qPart k) (s.qTag k) a.d.handle (BitVec.ofNat 64 a.d.amount) := by
  simp [completionSent, cf, sig]

theorem engineSignal_reg (s : State) (p c : Nat) (h amount : W64) (r : Nat) : (s.engineSignal p c h amount).reg r = s.reg r := by
  unfold State.engineSignal
  dsimp only
  split
  · exact (FabOnly.sendRequest s p c _ _ _ _ _ _ _ _).writes.regs (W := fun _ => False) r id
  · rfl

/-- A completion record moves the producer count on by one, whatever its signal does. -/
theorem completionSent_prod {s : State} {k : Nat} {a : Active} (cf : a.d.cf = true) :
    (completionSent s k a).fld (qProd k) F.dmaQprod_prod = (s.fld (qProd k) F.dmaQprod_prod + 1) % 2 ^ 32 := by
  have ready : (readyBlocks s k a.wr).reg (qProd k) = s.reg (qProd k) :=
    foldl_keeps (·.reg (qProd k)) (fun u b => by dsimp only; split <;> rfl) a.wr s
  have written := writeRecord_prod (readyBlocks s k a.wr) k St.ok a.d.total a.d.addr
  rw [State.fld, State.fld, ready] at written
  unfold completionSent
  rw [if_pos cf, State.fld]
  split
  · rw [engineSignal_reg, written, State.fld]
  · rw [written, State.fld]

/-- A signal to an object of this device is a request of the next number. -/
theorem engineSignal_here {h : W64} (here : (Handle.ofBits h).remote = false) (s : State) (p c : Nat) (amount : W64) :
    (s.engineSignal p c h amount).nextReq = s.nextReq + 1
      ∧ (((s.engineSignal p c h amount).reqs.get? s.nextReq).map fun r => (r.kind, r.addr, r.data))
        = some (.signal, (Handle.ofBits h).part * 16384 + (Handle.ofBits h).index, amount) := by
  simp [State.engineSignal, here, State.objKey]

/-! ### How it leaves its queue (R359, R369) -/

theorem State.setQueue_setQueue (s : State) (k : Nat) (q r : Queue) : (s.setQueue k q).setQueue k r = s.setQueue k r := by
  simp [State.setQueue]

/-- A queue with nothing left goes IDLE, and keeps its count. -/
theorem settleQueue_setQueue (s : State) (k : Nat) (q : Queue) :
    ∃ r : Queue, settleQueue (s.setQueue k q) k = s.setQueue k r ∧ r.active = q.active ∧ r.done = q.done := by
  unfold settleQueue
  dsimp only
  rw [State.queue_setQueue]
  split
  · exact ⟨_, State.setQueue_setQueue s k q _, rfl, rfl⟩
  · exact ⟨q, rfl, rfl, rfl⟩

theorem countLate_kept (s : State) (k : Nat) (late : Bool) :
    (countLate s k late).queues = s.queues ∧ (countLate s k late).reqs = s.reqs ∧ (countLate s k late).nextReq = s.nextReq := by
  unfold countLate
  split <;> exact ⟨rfl, rfl, rfl⟩

theorem qProd_ne_dmaGstat {k : Nat} (tile : isBulk k = false) : qProd k ≠ R.dmaGstat (qTile k) := by
  have small : k < 16384 := by simpa [isBulk] using tile
  rw [qProd, qCtl, if_pos small]
  unfold R.dmaQctl R.dmaGstat
  omega

theorem countLate_prod (s : State) (k : Nat) (late : Bool) (f : Fld) :
    (countLate s k late).fld (qProd k) f = s.fld (qProd k) f := by
  unfold countLate
  split
  · next counted => exact State.fld_setFld_ne _ _ _ _ _ _ (qProd_ne_dmaGstat counted.2.1)
  · rfl

/-- The oldest descriptor has left the queue, counted as done and, where it was late, in its group. -/
def oldestLeft (s : State) (k : Nat) (late : Bool) (rest : List Active) : State :=
  settleQueue ((countLate s k late).setQueue k { s.queue k with active := rest, done := satAdd 16 (s.queue k).done 1 }) k

theorem oldestLeft_eq (s : State) (k : Nat) (late : Bool) (rest : List Active) :
    oldestLeft s k late rest = (countLate s k late).setQueue k ((oldestLeft s k late rest).queue k)
      ∧ ((oldestLeft s k late rest).queue k).active = rest
      ∧ ((oldestLeft s k late rest).queue k).done = min ((s.queue k).done + 1) 65535 := by
  obtain ⟨r, left, active, done⟩ := settleQueue_setQueue (countLate s k late) k
    { s.queue k with active := rest, done := satAdd 16 (s.queue k).done 1 }
  rw [oldestLeft, left, State.queue_setQueue]
  exact ⟨rfl, active, done⟩

theorem descriptorComplete_eq {s : State} {q : QId} {late : Bool} {a : Active} {rest : List Active}
    (oldest : (s.queue (queueKey q)).active = a :: rest) (good : a.status = 0)
    (landed : a.pos = a.d.total) (acked : a.acks = 0) (paid : owing s (queueKey q) = none)
    (live : (s.queue (queueKey q)).st ≠ .cancelling)
    (ring : a.d.cf = true → s.ringOk (queueKey q) = true ∧ s.ringFull (queueKey q) = false ∧ s.ringWaits (queueKey q) = false) :
    exec (.descriptorComplete ⟨q, late⟩) s = .next (oldestLeft (completionSent s (queueKey q) a) (queueKey q) late rest) := by
  change execDescriptorComplete ⟨q, late⟩ s = _
  cases cf : a.d.cf with
  | false => simp [execDescriptorComplete, oldest, good, landed, acked, paid, live, cf, completionSent, oldestLeft]
  | true =>
    obtain ⟨ok, room, awake⟩ := ring cf
    simp [execDescriptorComplete, oldest, good, landed, acked, paid, live, cf, ok, room, awake, completionSent, oldestLeft]

/-! ### The obligation -/

/-- Settles O28: a completion is `completionSent` and then `oldestLeft`, and each clause reads off what one of the two does. -/
theorem descriptorCompletes : Obligations.DescriptorCompletes := by
  intro s q late a rest k Q oldest good landed acked paid live
  have completes := descriptorComplete_eq (late := late) oldest good landed acked paid live
  refine ⟨fun cf sig => ?_, fun cf ok room awake => ?_, fun cf sig here => ?_⟩
  · refine ⟨_, completes fun flag => absurd flag (by simp [cf]), ?_⟩
    rw [completionSent_plain cf sig]
    exact oldestLeft_eq s k late rest
  · refine ⟨_, completes fun _ => ⟨ok, room, awake⟩, ?_⟩
    obtain ⟨left, active, -⟩ := oldestLeft_eq (completionSent s k a) k late rest
    refine ⟨active, ?_⟩
    rw [left]
    exact (countLate_prod (completionSent s k a) k late _).trans (completionSent_prod cf)
  · refine ⟨_, completes fun flag => absurd flag (by simp [cf]), ?_⟩
    obtain ⟨left, active, -⟩ := oldestLeft_eq (completionSent s k a) k late rest
    obtain ⟨-, reqs, nextReq⟩ := countLate_kept (completionSent s k a) k late
    refine ⟨active, ?_⟩
    rw [left, State.setQueue_nextReq, State.setQueue_reqs, reqs, nextReq, completionSent_signal cf sig]
    exact engineSignal_here here s _ _ _

end Sys2Proof.Machine
end

section
/-! O29. Timeouts, resume and cancellation of queues, and posts to bulk queues. -/

namespace Sys2Proof.Machine

/-! ### Timeouts (R361, R365) -/

section Timeout

variable {s : State} {q : QId} {a : Active} {rest : List Active} (run : (s.queue (queueKey q)).st = .run)
  (oldest : (s.queue (queueKey q)).active = a :: rest) (good : a.status = 0)
include oldest good

include run in
/-- The oldest descriptor waits on a tag: it is the first that the timeout finds. -/
theorem tagWaitTimeout_eq (more : a.pos < a.d.total) (waits : s.tagWait (queueKey q) a.d a.pos a.rd ≠ 0) :
    exec (.dmaTagWaitTimeout q) s = .next (failActive s (queueKey q) 0 St.timeout false) := by
  change execDmaTagWaitTimeout q s = _
  simp [execDmaTagWaitTimeout, run, oldest, good, more, waits, List.findIdx?_cons]

theorem ringFullTimeout_eq (paid : owing s (queueKey q) = none) (tile : isBulk (queueKey q) = false) (landed : a.pos = a.d.total)
    (acked : a.acks = 0) (cf : a.d.cf = true) (ok : s.ringOk (queueKey q) = true) (full : s.ringFull (queueKey q) = true) :
    exec (.ringFullTimeout q) s = .next (failActive s (queueKey q) 0 St.timeout true) := by
  have due : recordDue s (queueKey q) a = true := by simp [recordDue, good, landed, acked, cf, ok]
  change execRingFullTimeout q s = _
  simp [execRingFullTimeout, tile, oldest, paid, due, full]

end Timeout

/-! ### Control (R371, R372) -/

theorem nextChain_st (q : Queue) : (nextChain q).st = q.st := by
  unfold nextChain
  split <;> rfl

/-- A halted queue without a record to write runs again, and no descriptor of it has failed any more. -/
theorem resumeQueue_halted {s : State} {k : Nat} (halted : (s.queue k).st = .halted)
    (paid : ∀ a ∈ (s.queue k).active, a.owes = none) :
    ∃ r : Queue, resumeQueue s k = s.setQueue k r ∧ r.st = .run ∧ ∀ a ∈ r.active, a.status = 0 := by
  have resumes : ¬ ((s.queue k).st ≠ .halted ∨ ((s.queue k).active.any fun a => a.owes.isSome) = true) := by
    rintro (other | owed)
    · exact other halted
    · obtain ⟨a, mem, owes⟩ := List.any_eq_true.1 owed
      simp [paid a mem] at owes
  unfold resumeQueue
  dsimp only
  rw [if_neg resumes]
  refine ⟨_, rfl, ?_, fun a mem => ?_⟩
  · split
    · exact nextChain_st _
    · rfl
  · rw [apply_ite Queue.active, (nextChain_lists _).2, ite_self] at mem
    obtain ⟨b, -, rfl⟩ := List.mem_map.1 mem
    split
    · rfl
    · next sound => simpa using sound

theorem cancelQueue_busy {s : State} {k : Nat}
    (busy : (s.queue k).st = .run ∨ (s.queue k).st = .halted ∨ (s.queue k).st = .stopped) : cancelQueue s k = s.startCancel k := by
  unfold cancelQueue
  rcases busy with st | st | st <;> rw [st] <;> rfl

/-- A cancellation that starts drops what has not started. -/
theorem startCancel_eq (s : State) (k : Nat) : ∃ first, s.startCancel k = s.setQueue k { s.queue k with
    st := .cancelling, heads := [], chain := none, fetched := [], firstDropped := first } := ⟨_, rfl⟩

theorem endCancel_queue (s : State) (k : Nat) (rec : Bool) :
    ((s.endCancel k rec).queue k).st = .idle ∧ ((s.endCancel k rec).queue k).active = [] := by
  unfold State.endCancel
  dsimp only
  rw [State.queue_setQueue]
  exact ⟨rfl, rfl⟩

theorem retire_queues (s : State) (t : Nat) (f : Flight) : (retire s t f).queues = s.queues := by
  unfold retire
  dsimp only
  split
  · rfl
  · rw [(recorded_countWalk _ _ _).queues, (recorded_countSpecial _ _ _).queues]
    exact (recorded_putLocal s _).queues

theorem cancelComplete_runs {s : State} {q : QId} (cancelling : (s.queue (queueKey q)).st = .cancelling)
    (returned : ∀ f ∈ s.fab.out, ∀ x, f.who ≠ .dmaRead (queueKey q) x) :
    ∃ u, exec (.cancelComplete q) s = .next u ∧ u.queue (queueKey q) = (s.endCancel (queueKey q) true).queue (queueKey q) := by
  have ends : ¬ ((s.queue (queueKey q)).st ≠ .cancelling ∨ (s.fab.out.any fun f => match f.who with
      | .dmaRead j _ => j == queueKey q
      | _ => false) = true) := by
    rintro (other | flying)
    · exact other cancelling
    · obtain ⟨f, mem, mine⟩ := List.any_eq_true.1 flying
      split at mine
      · next j x who => exact returned f mem x (by rw [who, eq_of_beq mine])
      · exact absurd mine (by decide)
  refine ⟨_, rfl, ?_⟩
  unfold State.queue
  congr 1
  split
  · next stays => exact absurd stays ends
  · dsimp only
    split
    · rfl
    · split
      · exact retire_queues _ _ _
      · rfl

/-! ### Posts (R377, R382) -/

theorem bulkQpost_eq {s : State} {path : RegPath} {p : PartId} {j : Fin 80} {x : BitVec 64}
    (room : (s.queue (queueKey (.bulk p j))).heads.length < 4) (owned : (s.qCtx (queueKey (.bulk p j))).isSome = true) :
    exec (.bulkQpost path p j x) s = .next (s.addHead (queueKey (.bulk p j))
      (bulkHead s (queueKey (.bulk p j)) (x.toNat / 64 % 2 ^ 38 * 64))) := by
  change execBulkQpost path p j x s = _
  have free : ¬ (4 ≤ (s.queue (queueKey (.bulk p j))).heads.length
      ∨ (State.fwQueue (queueKey (.bulk p j)) = false ∧ (s.qCtx (queueKey (.bulk p j))).isNone = true)) := by
    rintro (full | ⟨-, none⟩)
    · omega
    · rw [Option.isNone_iff_eq_none] at none
      simp [none] at owned
  simp only [execBulkQpost]
  rw [if_neg free]
  rfl

/-- A context whose post ring on a partition has given one more entry. -/
def Ctx.postTaken (x : Ctx) (p : Nat) (r : CtxRings) : Ctx := { x with rings := x.rings.set p { r with posted := r.posted + 1 } }

section PostFetch

variable {s : State} {c : CtxId} {p : PartId} {cx : Ctx} {r : CtxRings} {d : RingDef} (there : s.ctxs.get? c.val = some cx)
  (rings : cx.rings.get? p.val = some r) (post : r.post = some d)
include there rings post

/-- An entry of the ring that the doorbell shows is taken, and its head goes to the queue. -/
theorem bulkPostFetch_eq (rung : r.posted < (s.obj (p.val * 16384 + d.doorbell)).toNat)
    (room : (s.queue (queueKey (.bulk p (Fin.ofNat 80 d.queue)))).heads.length < 4) (issues : s.issueStopped c.val = false)
    (live : (s.queue (queueKey (.bulk p (Fin.ofNat 80 d.queue)))).st = .idle
      ∨ (s.queue (queueKey (.bulk p (Fin.ofNat 80 d.queue)))).st = .run)
    (sound : s.statusAt (d.base + 8 * (r.posted % 2 ^ d.k)) 8 = .ok) :
    exec (.bulkPostFetch c p) s = .next ((s.setCtx c.val (cx.postTaken p.val r)).addHead
      (queueKey (.bulk p (Fin.ofNat 80 d.queue))) (bulkHead s (queueKey (.bulk p (Fin.ofNat 80 d.queue)))
        (bitsOf (s.load (d.base + 8 * (r.posted % 2 ^ d.k)) 8) 43 6 * 64))) := by
  have ring : ((s.ctxs.get? c.val).bind fun x => (x.rings.get? p.val).bind fun r => r.post.map fun d => (r, d)) = some (r, d) := by
    simp [there, rings, post]
  have takes : ¬ ((s.obj (State.objKey p.val d.doorbell)).toNat ≤ r.posted
      ∨ 4 ≤ (s.queue (queueKey (.bulk p (Fin.ofNat 80 d.queue)))).heads.length ∨ s.issueStopped c.val = true
      ∨ ((s.queue (queueKey (.bulk p (Fin.ofNat 80 d.queue)))).st ≠ .idle
        ∧ (s.queue (queueKey (.bulk p (Fin.ofNat 80 d.queue)))).st ≠ .run)) := by
    rintro (quiet | full | stopped | ⟨busy, halted⟩)
    · exact absurd rung (not_lt.2 quiet)
    · omega
    · simp [issues] at stopped
    · exact live.elim busy halted
  change execBulkPostFetch c p s = _
  simp only [execBulkPostFetch, ring]
  rw [if_neg takes, if_neg (not_not.2 sound), State.updCtx_of_get? there]
  rfl

end PostFetch

/-! ### The obligation -/

/-- Settles O29: the oldest descriptor fails in a timeout, and each control command changes the one queue it names. -/
theorem queueTimeoutsAndControl : Obligations.QueueTimeoutsAndControl := by
  refine ⟨?_, ?_, ?_⟩
  · intro s q a rest k halted run oldest good paid
    have at_ : activeAt s k 0 = some a := by rw [activeAt, oldest]; rfl
    exact ⟨fun more waits => ⟨_, tagWaitTimeout_eq run oldest good more waits, failActive_halted at_ run _ _⟩,
      fun tile landed acked cf ok full =>
        ⟨_, ringFullTimeout_eq oldest good paid tile landed acked cf ok full, failActive_halted at_ run _ _⟩⟩
  · intro s t p i j q kt kb running dropped busy paid
    have resumes (k : Nat) (halted : (s.queue k).st = .halted) (none_ : paid k) : running k (resumeQueue s k) := by
      obtain ⟨r, resumed, run, good⟩ := resumeQueue_halted halted none_
      rw [resumed]
      simp only [running, State.queue_setQueue]
      exact ⟨trivial, run, good⟩
    have cancels (k : Nat) (works : busy k) : dropped k (cancelQueue s k) := by
      obtain ⟨first, started⟩ := startCancel_eq s k
      rw [cancelQueue_busy works, started]
      simp [dropped]
    refine ⟨fun halted none_ => ⟨_, rfl, resumes kt halted none_⟩, fun halted none_ => ⟨_, rfl, resumes kb halted none_⟩,
      fun works => ⟨_, rfl, cancels kt works⟩, fun works => ⟨_, rfl, cancels kb works⟩, fun cancelling returned => ?_,
      ⟨_, rfl, rfl⟩⟩
    obtain ⟨u, ends, same⟩ := cancelComplete_runs cancelling returned
    refine ⟨u, ends, ?_⟩
    beta_reduce
    rw [same]
    exact endCancel_queue s (queueKey q) true
  · intro s path p j x c cx r d k kd
    refine ⟨fun room owned => ⟨_, bulkQpost_eq room owned, rfl⟩, fun there rings post rung room issues live sound => ?_⟩
    refine ⟨_, bulkPostFetch_eq there rings post rung room issues live sound, ?_⟩
    beta_reduce
    rw [addHead_eq, State.setQueue_mem, State.setQueue_ctxs, State.get?_setCtx]
    exact ⟨rfl, SMap.get?_set_self cx.rings p.val _⟩

end Sys2Proof.Machine
end

section
/-! O57. Supplies, clocks and links of the package. -/

namespace Sys2Proof.Machine

/-! ### Dies without power (R651 to R657) -/

theorem endFwHolds_board (s : State) : (endFwHolds s).board = s.board := by
  refine foldl_keeps State.board (fun s c => ?_) _ s
  unfold State.unhold
  split
  · rfl
  · dsimp only
    split <;> rfl

/-- A failed activation changes the banks, and no pin. -/
theorem failActivation_pwrEn (s : State) : (failActivation s).board.pwrEn = s.board.pwrEn := by
  unfold failActivation
  split
  · rfl
  · exact (congrArg Board.pwrEn (endFwHolds_board _) :)

theorem failActivation_idle {s : State} (idle : s.board.activating = []) : failActivation s = s := by
  rw [failActivation, idle]

section PowerOff

variable (s : State) (part : Part) (b : Board → Board)

/-- Of the dies nothing is left: tiles, contexts and memory are empty, and only the queue of commands stays. -/
theorem powerOff_dies : (powerOff s part b).mem = [] ∧ (powerOff s part b).tiles = SMap.empty
    ∧ (powerOff s part b).ctxs = SMap.empty ∧ (powerOff s part b).pending = s.pending := by
  have kept := failActivation_pending s
  unfold powerOff
  dsimp only
  split <;> exact ⟨rfl, rfl, rfl, kept⟩

/-- The board keeps its pins, and flash where no activation ran, and then changes as `b` says. -/
theorem powerOff_board : ∃ keep : Board, (powerOff s part b).board = b keep ∧ keep.pwrEn = s.board.pwrEn
    ∧ (s.board.activating = [] → keep.flash = s.board.flash) := by
  have pin := failActivation_pwrEn s
  have flash (idle : s.board.activating = []) := congrArg (·.board.flash) (failActivation_idle idle)
  unfold powerOff
  dsimp only
  split <;> exact ⟨_, rfl, pin, flash⟩

end PowerOff

/-! What the board shows after an orderly power-down, after the input stage has been switched off, and after a removal. -/

def Board.disabled (b : Board) : Board :=
  { b with pwrEn := false, input := false, lost := false, tripped := false, powerFault := false }

def Board.switchedOff (b : Board) : Board := { b with input := false, lost := true, powerFault := true }

def Board.removed (b : Board) : Board :=
  { b with aux := false, pwrEn := false, input := false, clkOk := false, perst := true, lost := true, tripped := false,
           powerFault := false, i3cAddr := 0 }

theorem switchOff_eq (s : State) : switchOff s = powerOff s (keptPart s) Board.switchedOff := rfl

theorem switchOff_effect (s : State) : (switchOff s).board.input = false ∧ (switchOff s).board.powerFault = true
    ∧ (switchOff s).tiles = SMap.empty ∧ (switchOff s).board.pwrEn = s.board.pwrEn := by
  obtain ⟨-, tiles, -⟩ := powerOff_dies s (keptPart s) Board.switchedOff
  obtain ⟨keep, board, pin, -⟩ := powerOff_board s (keptPart s) Board.switchedOff
  rw [switchOff_eq, board]
  exact ⟨rfl, rfl, tiles, pin⟩

theorem pwrEnDeassert_effect {s : State} (on : s.board.pwrEn = true) : Runs .pwrEnDeassert s fun u =>
    u.board.pwrEn = false ∧ u.board.input = false ∧ u.mem = [] ∧ u.tiles = SMap.empty ∧ u.ctxs = SMap.empty
      ∧ u.pending = s.pending ∧ (s.board.activating = [] → u.board.flash = s.board.flash) := by
  obtain ⟨mem, tiles, ctxs, pending⟩ := powerOff_dies s (keptPart s) Board.disabled
  obtain ⟨keep, board, -, flash⟩ := powerOff_board s (keptPart s) Board.disabled
  refine ⟨powerOff s (keptPart s) Board.disabled, congrArg Host.Outcome.next (if_neg (by simp [on])), ?_⟩
  beta_reduce
  rw [board]
  exact ⟨rfl, rfl, mem, tiles, ctxs, pending, flash⟩

theorem surpriseRemoval_effect (s : State) : Runs .surpriseRemoval s fun u =>
    u.board.pwrEn = false ∧ u.board.aux = false ∧ u.tiles = SMap.empty ∧ u.mem = [] := by
  obtain ⟨mem, tiles, -⟩ := powerOff_dies s { keptPart s with trip := false } Board.removed
  obtain ⟨keep, board, -⟩ := powerOff_board s { keptPart s with trip := false } Board.removed
  refine ⟨powerOff s { keptPart s with trip := false } Board.removed, rfl, ?_⟩
  beta_reduce
  rw [board]
  exact ⟨rfl, rfl, tiles, mem⟩

/-! ### Supplies that come and go (R651, R652, R654) -/

/-- The row of MGT.PINS in the register table. -/
def mgtPinsDef : RegDef := ⟨"MGT.PINS", R.mgtPins, [],
  [⟨22, 22, .ro, 0, none⟩, ⟨21, 21, .ro, 0, none⟩, ⟨20, 20, .ro, 0, none⟩, ⟨19, 19, .ro, 0, none⟩, ⟨18, 18, .ro, 0, none⟩,
   ⟨17, 17, .w1c, 0, none⟩, ⟨16, 16, .ro, 0, none⟩, ⟨5, 0, .ro, 0, none⟩]⟩

theorem find_mgtPins : RegTab.find R.mgtPins = some (mgtPinsDef, []) := by decide +kernel

/-- The latch and the slot straps are all that a part gives MGT.PINS. -/
theorem resetReg_mgtPins (p : Part) :
    resetReg p R.mgtPins = BitVec.ofNat 64 ((if p.trip then 2 ^ 17 else 0) + p.slotId.toNat) := by
  rw [resetReg, find_mgtPins]
  exact congrArg (BitVec.ofNat 64) (Nat.zero_add _)

/-- Neither latch nor straps reach the flow pin. -/
theorem resetReg_flowFault (p : Part) :
    bitsOf (resetReg p R.mgtPins).toNat F.mgtPins_flow_fault.hi F.mgtPins_flow_fault.lo = 0 := by
  have slot : p.slotId.toNat < 64 := p.slotId.isLt
  have latch : (if p.trip then 2 ^ 17 else 0) ≤ 2 ^ 17 := by split <;> decide
  have low : (if p.trip then 2 ^ 17 else 0) + p.slotId.toNat < 2 ^ 20 := by omega
  rw [resetReg_mgtPins, BitVec.toNat_ofNat, Nat.mod_eq_of_lt (low.trans (by decide)), bitsOf]
  exact congrArg (· % 2) (Nat.div_eq_of_lt low)

/-- The input stage comes up with the straps sampled. -/
def inputUp (s : State) (slot : BitVec 6) (settle : BitVec 3) : State :=
  { s with part := { s.part with slotId := slot, settle := settle },
           board := { s.board with pwrEn := true, input := true, lost := false } }

theorem inputUp_flowFault (s : State) (slot : BitVec 6) (settle : BitVec 3) :
    (inputUp s slot settle).fld R.mgtPins F.mgtPins_flow_fault = s.fld R.mgtPins F.mgtPins_flow_fault := by
  have regs : (inputUp s slot settle).regs = s.regs := rfl
  simp only [State.fld, State.reg, regs]
  cases s.regs.get? R.mgtPins with
  | some x => rfl
  | none => exact (resetReg_flowFault _).trans (resetReg_flowFault _).symm

/-- The registers show what was sampled, and the settle count runs if CLK_OK is high. -/
def strapsShown (s : State) (slot : BitVec 6) (settle : BitVec 3) : State :=
  runSettle (((inputUp s slot settle).setFld R.mgtPins F.mgtPins_slot_id slot.toNat).setFld R.clkStatus F.clkStatus_settle
    settle.toNat)

theorem strapsShown_pins (s : State) (slot : BitVec 6) (settle : BitVec 3) (f : Fld) :
    (strapsShown s slot settle).fld R.mgtPins f
      = ((inputUp s slot settle).setFld R.mgtPins F.mgtPins_slot_id slot.toNat).fld R.mgtPins f :=
  State.fld_setFld_ne _ _ _ _ _ _ (by decide)

theorem strapsShown_slot (s : State) (slot : BitVec 6) (settle : BitVec 3) :
    (strapsShown s slot settle).fld R.mgtPins F.mgtPins_slot_id = slot.toNat := by
  rw [strapsShown_pins, State.fld_setFld _ _ _ _ (by decide)]
  exact Nat.mod_eq_of_lt slot.isLt

theorem strapsShown_flowFault (s : State) (slot : BitVec 6) (settle : BitVec 3) :
    (strapsShown s slot settle).fld R.mgtPins F.mgtPins_flow_fault = s.fld R.mgtPins F.mgtPins_flow_fault := by
  rw [strapsShown_pins, State.fld_setFld_beside _ _ _ _ _ (by decide) (by decide), inputUp_flowFault]

/-- With the flow pin quiet, the input stage comes up and no flow stop starts. -/
theorem pwrEnAssert_effect {s : State} (slot : BitVec 6) (settle : BitVec 3) (aux : s.board.aux = true)
    (off : s.board.pwrEn = false) (sound : s.board.powerFault = false) (flow : s.fld R.mgtPins F.mgtPins_flow_fault = 0) :
    Runs (.pwrEnAssert slot settle) s fun u => u.board.pwrEn = true ∧ u.board.input = true ∧ u.part.settle = settle
      ∧ u.fld R.mgtPins F.mgtPins_slot_id = slot.toNat ∧ u.board.settling = (s.board.clkOk && !s.board.settled) := by
  have quiet : (strapsShown s slot settle).fld R.mgtPins F.mgtPins_flow_fault ≠ 1 := by
    rw [strapsShown_flowFault, flow]; decide
  exact ⟨strapsShown s slot settle,
    congrArg Host.Outcome.next ((if_neg (by simp [aux, off, sound])).trans (if_neg quiet)),
    rfl, rfl, rfl, strapsShown_slot s slot settle, Bool.and_true _⟩

theorem p3v3AuxLoss_effect (s : State) : Runs .p3v3AuxLoss s fun u => u.board.aux = false ∧ u.part.trip = false
    ∧ u.board.i3cAddr = 0 ∧ u.fld R.mgtId F.mgtId_mctp_eid = 0 := by
  refine ⟨_, rfl, rfl, rfl, rfl, ?_⟩
  rw [State.fld_setFld_ne _ _ _ _ _ _ (by decide), State.fld_setFld _ _ _ _ (by decide)]
  rfl

/-- The slot pins are sampled, and the trip latch shows in trip_prev beside them. -/
theorem auxPowerUp_effect {s : State} (slot : BitVec 6) (off : s.board.aux = false) : Runs (.auxPowerUp slot) s fun u =>
    u.board.aux = true ∧ u.fld R.mgtPins F.mgtPins_slot_id = slot.toNat
      ∧ u.fld R.mgtPins F.mgtPins_trip_prev = (if s.part.trip then 1 else 0) := by
  refine ⟨_, congrArg Host.Outcome.next (if_neg (by simp [off])), rfl, ?_, ?_⟩
  · rw [State.fld_setFld_beside _ _ _ _ _ (by decide) (by decide), State.fld_setFld _ _ _ _ (by decide)]
    exact Nat.mod_eq_of_lt slot.isLt
  · rw [State.fld_setFld _ _ _ _ (by decide)]
    cases s.part.trip <;> rfl

/-! ### REFCLK and CLK_OK (R585, R586) -/

theorem clkOkRise_effect (s : State) : Runs .clkOkRise s fun u => u.board.clkOk = true
    ∧ u.fld R.mgtPins F.mgtPins_clk_ok = 1
    ∧ u.board.settling = (s.board.input && !s.board.settled && !s.board.lost) := by
  refine ⟨_, rfl, rfl, State.fld_setFld _ _ _ _ (by decide), ?_⟩
  change (s.board.input && true && !s.board.settled && !s.board.lost) = _
  rw [Bool.and_true]

/-- CLK_OK has fallen: the settle count, where one ran, stops. -/
def clkOkFallen (s : State) : State :=
  (runSettle { s with board := { s.board with clkOk := false } }).setFld R.mgtPins F.mgtPins_clk_ok 0

theorem clkOkFallen_settling (s : State) : (clkOkFallen s).board.settling = false := by
  change (s.board.input && false && !s.board.settled && !s.board.lost) = false
  rw [Bool.and_false, Bool.false_and, Bool.false_and]

theorem clkOkFall_eq (s : State) : exec .clkOkFall s = .next
    (if s.board.settled = true ∧ s.board.pwrEn = true then powerRecord (clkOkFallen s) 6 0 0 else clkOkFallen s) := rfl

theorem clkOkFall_unsettled {s : State} (unsettled : s.board.settled = false) : Runs .clkOkFall s fun u =>
    u.board.clkOk = false ∧ u.board.settling = false ∧ u.fld R.mgtPins F.mgtPins_clk_ok = 0 := by
  refine ⟨clkOkFallen s, ?_, rfl, clkOkFallen_settling s, State.fld_setFld _ _ _ _ (by decide)⟩
  rw [clkOkFall_eq, if_neg (by simp [unsettled])]

theorem refclkStop_effect {s : State} (on : s.board.settled = true ∧ s.board.pwrEn = true) : Runs .refclkStop s fun u =>
    u.board.lost = true ∧ u.fld R.mgtPins F.mgtPins_power_cycle_req = 1 ∧ u.fld R.clkStatus F.clkStatus_refclk_ok = 0
      ∧ u.outbox = s.outbox ∧ u.tiles = s.tiles ∧ u.mem = s.mem := by
  refine ⟨_, congrArg Host.Outcome.next (if_pos on), rfl, ?_, State.fld_setFld _ _ _ _ (by decide), rfl, rfl, rfl⟩
  rw [State.fld_setFld_ne _ _ _ _ _ _ (by decide), State.fld_setFld _ _ _ _ (by decide)]
  rfl

/-! ### Loss of lock of a PLL (R589) -/

/-- The lock bit of a partition falls in a field of CLK.STATUS. -/
def lockFallen (s : State) (f : Fld) (p : Nat) : State :=
  s.setFld R.clkStatus f (setBitsOf (s.fld R.clkStatus f) p p 0)

theorem lockFallen_bit (s : State) {f : Fld} (p : Nat) (inside : f.lo ≤ f.hi ∧ f.hi < 64) :
    ((lockFallen s f p).fld R.clkStatus f).testBit p = false := by
  rw [lockFallen, State.fld_setFld _ _ _ _ inside, Nat.testBit_mod_two_pow, testBit_setBitsOf _ _ _ (by omega),
    if_pos ⟨le_refl p, le_refl p⟩, Nat.zero_testBit, Bool.and_false]

theorem unlock_partition (s : State) (f : Fld) (p code : Nat) :
    unlock s f p code false = (lockFallen s f p).startPartitionResetOf p 8 code := rfl

theorem unlock_chip (s : State) (f : Fld) (p code : Nat) :
    unlock s f p code true = (lockFallen s f p).startChipResetOf 8 code := rfl

section LockLoss

variable {s : State} (ready : s.fld R.bootStatus F.bootStatus_ready ≠ 0)
include ready

theorem networkLockLoss_effect (p : PartId) : Runs (.pllLockLoss (.network p)) s fun u => ∃ t : State,
    u = t.startPartitionResetOf p.val 8 (8 + p.val) ∧ t.mem = s.mem
      ∧ (t.fld R.clkStatus F.clkStatus_noc_lock).testBit p.val = false :=
  ⟨_, congrArg Host.Outcome.next (if_neg ready), lockFallen s F.clkStatus_noc_lock p.val, unlock_partition _ _ _ _, rfl,
    lockFallen_bit s p.val (by decide)⟩

theorem tileLockLoss_effect (p : PartId) : Runs (.pllLockLoss (.tile p)) s fun u => ∃ t : State,
    u = t.startPartitionResetOf p.val 8 (0x10 + p.val)
      ∧ (t.fld R.clkStatus F.clkStatus_tile_lock).testBit p.val = false :=
  ⟨_, congrArg Host.Outcome.next (if_neg ready), lockFallen s F.clkStatus_tile_lock p.val, unlock_partition _ _ _ _,
    lockFallen_bit s p.val (by decide)⟩

/-- Of the timing PLLs, the one of base die 0 resets the chip (R589). -/
theorem timingLockLoss_effect : Runs (.pllLockLoss (.timing 0)) s fun u => ∃ t : State,
    u = t.startChipResetOf 8 0x18 ∧ t.mem = s.mem :=
  ⟨_, congrArg Host.Outcome.next (if_neg ready), lockFallen s F.clkStatus_timing_lock 0, unlock_chip _ _ _ _, rfl⟩

theorem stackLockLoss_effect {n : StackId} (on : s.stackOn n.val = true) :
    Runs (.pllLockLoss (.hbm n)) s fun u => u = retireStack s n.val :=
  ⟨_, congrArg Host.Outcome.next ((if_neg ready).trans (if_pos on)), rfl⟩

theorem serdesLockLoss_effect (d : Fin 2) : Runs (.pllLockLoss (.serdes d)) s fun u =>
    u = ((List.range 12).map (12 * d.val + ·)).foldl portDown s :=
  ⟨_, congrArg Host.Outcome.next (if_neg ready), rfl⟩

end LockLoss

/-! ### Flits of a module (R392, R394) -/

/-- The parity errors that the lanes of an edge have shown are counted. -/
def laneErrorsCounted (s : State) (e n : Nat) : State := s.bump (R.nocEdgeerr e) F.nocEdgeerr_lane_errors n

/-- The flits sent again are counted, and so is one more failure in a row of the module. -/
def flitFailed (s : State) (e m resent : Nat) : State :=
  { s.bump (R.nocEdgeerr e) F.nocEdgeerr_retries resent with
    board := { s.board with d2dFails := s.board.d2dFails.set (e * 16 + m) (s.board.d2dFails.getD (e * 16 + m) 0 + 1) } }

section Flits

variable {s : State} {e : Fin 12} {m : Fin 16} (r : BitVec 8) (le : BitVec 16)
  (good : (s.fld (R.nocEdge e.val) F.nocEdge_module_good).testBit m.val = true)
include good

theorem flitArrives_effect : Runs (.d2dFlitReceive e m true r le none) s fun u =>
    u.fld (R.nocEdgeerr e.val) F.nocEdgeerr_lane_errors = min (s.fld (R.nocEdgeerr e.val) F.nocEdgeerr_lane_errors + le.toNat)
        (2 ^ (F.nocEdgeerr_lane_errors.hi + 1 - F.nocEdgeerr_lane_errors.lo) - 1)
      ∧ u.board.d2dFails = s.board.d2dFails.erase (e.val * 16 + m.val) ∧ u.mem = s.mem :=
  ⟨_, congrArg Host.Outcome.next (if_neg (by simp [good])), State.fld_bump s _ _ _ (by decide), rfl, rfl⟩

theorem flitFails_eq : ∃ t : State, exec (.d2dFlitReceive e m false r le none) s = .next
    (if s.board.d2dFails.getD (e.val * 16 + m.val) 0 + 1 < 17
      then flitFailed (laneErrorsCounted s e.val le.toNat) e.val m.val r.toNat else moduleOut t e.val m.val) :=
  ⟨_, congrArg Host.Outcome.next (if_neg (by simp [good]))⟩

/-- Up to the sixteenth failure in a row the flit is sent again. -/
theorem flitFails_retried (few : s.board.d2dFails.getD (e.val * 16 + m.val) 0 < 16) :
    Runs (.d2dFlitReceive e m false r le none) s fun u => u.mem = s.mem
      ∧ u.board.d2dFails.getD (e.val * 16 + m.val) 0 = s.board.d2dFails.getD (e.val * 16 + m.val) 0 + 1 := by
  obtain ⟨t, run⟩ := flitFails_eq r le good
  rw [if_pos (by omega)] at run
  exact ⟨_, run, rfl, SMap.getD_set_self _ _ _ _⟩

/-- The seventeenth is the sixteenth retry in a row that fails, and takes the module out. -/
theorem flitFails_moduleOut (many : 16 ≤ s.board.d2dFails.getD (e.val * 16 + m.val) 0) :
    Runs (.d2dFlitReceive e m false r le none) s fun u => ∃ t : State, u = moduleOut t e.val m.val := by
  obtain ⟨t, run⟩ := flitFails_eq r le good
  rw [if_neg (by omega)] at run
  exact ⟨_, run, t, rfl⟩

end Flits

/-! ### The obligation -/

/-- Settles O57: supplies that go by what `powerOff` leaves, supplies that come and the clocks by the fields they write, and the
flits of a module by their count of failures in a row. -/
theorem clocksAndSupplies : Obligations.ClocksAndSupplies := by
  intro s slot settle e m r le on ready
  exact ⟨pwrEnAssert_effect slot settle, pwrEnDeassert_effect,
    fun input => ⟨_, congrArg Host.Outcome.next (if_pos input), switchOff_effect s⟩,
    p3v3AuxLoss_effect s, auxPowerUp_effect slot, surpriseRemoval_effect s, clkOkRise_effect s, clkOkFall_unsettled,
    fun powered => ⟨_, (clkOkFall_eq s).trans (congrArg _ (if_pos powered)), clkOkFallen s, rfl, rfl, rfl⟩,
    fun powered => ⟨_, congrArg Host.Outcome.next (if_pos powered), rfl⟩,
    refclkStop_effect,
    fun p up => networkLockLoss_effect up p, fun p up => tileLockLoss_effect up p, timingLockLoss_effect,
    fun _ up stackUp => stackLockLoss_effect up stackUp, fun d up => serdesLockLoss_effect up d,
    flitArrives_effect r le, flitFails_retried r le, flitFails_moduleOut r le⟩

end Sys2Proof.Machine
end
